-- ==== Sys2Proof/Word.lean ====
section
/-! DEFINITION. The words, part numbers and sparse tables that every file of the model shares. -/
namespace Sys2Proof

/-- A byte of a record, packet, container or memory cell. -/
abbrev Byte := BitVec 8
/-- A 32-bit word: a register, an FP32 pattern, a seed (R9, R850). -/
abbrev Word := BitVec 32
/-- A 64-bit word: an MTC value, an FP64 pattern, a digest. -/
abbrev DWord := BitVec 64
/-- Tile T000 to T255, t = 16 row + column (R12). -/
abbrev Tile := Fin 256
/-- Quadrant Q0 to Q3 (R13, R14). -/
abbrev Quad := Fin 4
/-- Fabric lane L000 to L143 (R14). -/
abbrev Lane := Fin 144
/-- HBM stack M00 to M15 (R14). -/
abbrev Stack := Fin 16
/-- Sequencer slot 0 to 7 (R68). -/
abbrev SlotId := Fin 8
/-- A sparse table: entries in rising key order, none equal to the value that an unlisted key reads as. -/
abbrev Table (α : Type) := List (Nat × α)

end Sys2Proof
end

