-- ==== Sys2Proof/Syntax.lean ====
section
/-! DEFINITION. The commands of the block, one constructor for each row of spec/opcode_table.json, and the plain data they
carry: packets, frames, records, readings and requests as the spec lays them out. The table gives its rows no operands, so the operands
are the quantities that the row's own rules name as coming from outside the block. -/
namespace Sys2Proof

/-- Device states (Table 01-4). -/
inductive DevState where
  | lookout | starting | ready | loading | planning | running | draining | faulted | filling | quarantined | relaying
  deriving DecidableEq, Repr

/-- Roles (Table 01-3, Table 15-6). -/
inductive Role where
  | working | spare | leaf | spine | core
  deriving DecidableEq, Repr

/-- Orderable variants (Table 00-1). -/
inductive Variant where
  | ca | cb | fa
  deriving DecidableEq, Repr

/-- Virtual channels, in code order (Table 11-2). -/
inductive VC where
  | req | reqE | rsp | rspE | flume | ctrl
  deriving DecidableEq, Repr

/-- The two wavelengths of a lane (R415). -/
inductive Wave where
  | a | b
  deriving DecidableEq, Repr

/-- Ports of a router node: the four mesh ports, Up to the crown, a fabric lane, and the tile itself (Table 02-8). -/
inductive Port where
  | north | south | east | west | up | lane (l : Lane) | here
  deriving DecidableEq, Repr

/-- Access paths of the register map (Table 19-1); Hauler and the Warden protocol name the connection or session. -/
inductive Path where
  | warden (session : Nat) | hauler (conn : Nat) | jtag
  deriving DecidableEq, Repr

/-- Kinds of temperature sensor (Table 16-6, R745). -/
inductive SensorKind where
  | crown | root | stack | lookout
  deriving DecidableEq, Repr

/-- What a protected read finds: nothing, one error that the code corrects, or an error it cannot (R336, R356). -/
inductive Ecc where
  | ok | corrected | uncorrectable
  deriving DecidableEq, Repr

/-- Header flit fields and payload of a fabric packet (Table 11-1). -/
structure Packet where
  dst : BitVec 16
  src : BitVec 16
  addr : BitVec 48
  srcTile : BitVec 8
  plane : BitVec 8
  seq : Word
  job : BitVec 16
  opcode : BitVec 8
  len : BitVec 8
  flags : BitVec 8
  age : BitVec 8
  group : BitVec 8
  hops : BitVec 8
  aux : Word
  crc : Word
  payload : List Byte
  /-- Poison carried beside the payload (R340): Table 11-1 gives it no bit in a request. -/
  poison : Bool := false
  deriving DecidableEq, Repr

/-- A frame of the lane: sixteen flit slots of 32 B and the control word (R436, Table 10-6). -/
structure Frame where
  flits : List Byte
  ctl : BitVec 128
  deriving DecidableEq, Repr

/-- Fields of an init frame's slot 0 (Table 10-5). -/
structure InitFrame where
  magic : BitVec 16
  verMin : BitVec 8
  verMax : BitVec 8
  lane : BitVec 16
  port : BitVec 8
  portLane : BitVec 8
  token : Word
  echo : Word
  turnaround : Word
  deriving DecidableEq, Repr

/-- A discovery record (Table 15-11). -/
structure Discovery where
  magic : BitVec 16
  verMin : BitVec 8
  verMax : BitVec 8
  serial : BitVec 128
  ident : BitVec 16
  role : BitVec 8
  state : BitVec 8
  pod : BitVec 16
  rack : BitVec 16
  tray : BitVec 8
  slot : BitVec 8
  plane : BitVec 8
  level : BitVec 8
  lane : BitVec 16
  port : BitVec 8
  portLane : BitVec 8
  generation : Word
  machineId : DWord
  tableDigest : DWord
  epoch : BitVec 8
  wardenRom : Word
  cruiseRom : Word
  deriving DecidableEq, Repr

/-- One segment's share of a die-link transfer: whether its CRC passes, its control bits (Table 09-3) and its data. -/
structure Segment where
  seg : Fin 16
  data : List Byte
  ctl : BitVec 48
  deriving DecidableEq, Repr

/-- A wire that fails the PRBS test of relink (R384): group 0 to 15 data, 16 control; wire 32 is the clock and 33 its spare, 34 the
group's spare. -/
structure WireFail where
  dir : Fin 2
  seg : Fin 16
  group : Fin 17
  wire : Fin 35
  deriving DecidableEq, Repr

/-- The segment has the wire: 32 in a data group, 6 in the control group (Table 09-2). -/
def WireFail.real (f : WireFail) : Bool := decide (f.group.val < 16) || decide (f.wire.val < 6) || decide (32 ≤ f.wire.val)

/-- Received sample of one lane at a tick: most symbols corrected in a codeword and power in 0.1 dBm (R431), and the symbols corrected and
codewords uncorrectable since the last tick (Table 11-4), per wavelength. -/
structure LaneSample where
  lane : Lane
  corrA : Nat
  corrB : Nat
  powA : Int
  powB : Int
  fecA : Nat
  fecB : Nat
  uncA : Nat
  uncB : Nat
  deriving DecidableEq, Repr

/-- One sweep of the spare-wire monitor over a data wire of a group: measured eye centre and width in phase codes (R398). -/
structure EyeSample where
  link : Nat
  dir : Fin 2
  seg : Fin 16
  group : Fin 16
  wire : Fin 32
  centre : Nat
  width : Nat
  deriving DecidableEq, Repr

/-- What the sensors and meters latch at step 1 of a tick (Table 16-9): temperatures in 0.25 °C, V48 in 10 mV, power in W. -/
structure TickReadings where
  root : List Int
  crown : List Int
  stack : List Int
  lookout : Int
  v48 : Nat
  power : Nat
  crownAmps : List Nat
  laser : List (Int × Int)
  lanes : List LaneSample
  eyes : List EyeSample
  wardenAck : Bool
  deriving DecidableEq, Repr

/-- Subject of a reach withdrawal or restoral (Table 11-3). -/
inductive ReachSubject where
  | endpoint (plane : Nat) (x : Nat)
  | rackVia (plane : Nat) (rack : Nat) (spine : Nat)
  | podVia (plane : Nat) (pod : Nat) (core : Nat)
  | rack (plane : Nat) (rack : Nat)
  deriving DecidableEq, Repr

/-- An MTC_SYNC packet's contents: the child's request, or the parent's answer with its root rank and hop count (R622). -/
inductive MtcSync where
  | request (lane : Lane) (t1 : DWord)
  | answer (lane : Lane) (t1 t2 t3 : DWord) (rootRank hops : Nat) (locked : Bool)
  deriving DecidableEq, Repr

/-- The place from which a sequencer slot issues an instruction (R71), and what the fetches find that lead to it: those of the sequencer's own instructions
before it, its own, and those of the sequencer's own that end the program after it (R82, R84); a fetch that the list does not reach finds no error. -/
structure Issue where
  tile : Tile
  slot : SlotId
  fetch : List Ecc
  deriving DecidableEq, Repr

/-- Where a request goes: to a module slot, which the rank map turns into an endpoint ID at injection (R519), or to an endpoint. -/
inductive Dest where
  | slot (n : Nat)
  | endpoint (e : BitVec 16)
  deriving DecidableEq, Repr

/-- A copy for a copy engine (R545, R547): source and destination, arrival counter and options; `keeper` marks traffic to or from a keeper region, which
carries job tag 0xFFFF (R556). -/
structure CopyReq where
  src : Nat
  dst : Dest
  dstAddr : Nat
  length : Nat
  counter : Nat
  progress : Bool
  digest : Bool
  digestAddr : Nat
  tray : Bool
  keeper : Bool
  deriving DecidableEq, Repr

/-- The outputs an accumulating operation names (R54): output `x0 + i` of the tile has `n` children from index `first` on of the `total`
level-0 children of its sum, and emit level e; the operation brings the child at index `leaf`. `tensor` is the output tensor, `elem0` the element
index of `x0`, `w` the write index (R106). -/
structure AccSpec where
  x0 : Nat
  count : Nat
  first : Nat
  n : Nat
  total : Nat
  emit : Nat
  leaf : Nat
  tensor : Nat
  elem0 : Nat
  w : Nat
  deriving DecidableEq, Repr

/-- A run of up to 256 encoded elements of one operand with the scales that travel with it (R45, R97). -/
structure Run where
  fmt : Nat
  codes : List Nat
  bscales : List Nat
  tscale : Nat
  deriving DecidableEq, Repr

/-- Elements of a run that lie packed in the tile's SRAM (R60, R96): format, number, and the SRAM offsets of the packed elements, of their block
scales and of their tensor scale. -/
structure RunRef where
  fmt : Nat
  count : Nat
  codes : Nat
  bscales : Nat
  tscale : Nat
  deriving DecidableEq, Repr

/-- Vector-unit operations (Table 02-6, Table 05-10). -/
inductive VecOp where
  | add | sub | mul | fma | min | max | neg | abs | rcp | rsq | exp | log | rbf | cps | clt | cle | ceq | sel
  | iadd | isub | imul | iand | ior | ixor | shl | shr | sra | ilt | i2f | u2f | f2i
  deriving DecidableEq, Repr

/-- An operand or a result of a vector-unit operation: a register, or, in an epilogue (R67), the completed node-store entries of outputs `x0` to
`x0 + count - 1` in the lanes 0 to `count - 1`. -/
inductive VecArg where
  | reg (i : Fin 32)
  | entries (x0 count : Nat)
  deriving DecidableEq, Repr

/-- A conversion (Table 02-6, third row) of the 64 FP32 elements, or the 128 BF16 elements, of an operand: to a format, with the blocks' scales
selected, each element rounded to nearest-even or, for element `elem0 + i` of `tensor` at write `w`, stochastically (R106, R108). -/
structure Convert where
  fmt : Nat
  bf16 : Bool
  tscale : Nat
  draw : Option (Nat × Nat × Nat)
  deriving DecidableEq, Repr

/-- What a VECTOR_OP does: an operation lane by lane, in FP32 or BF16, or a conversion whose codes go to register `d` and block scales to `c`. -/
inductive VecInstr where
  | lanes (op : VecOp) (bf16 : Bool) (d a b c : VecArg)
  | convert (cv : Convert) (d c : Fin 32) (a : VecArg)
  deriving DecidableEq, Repr

/-- Kinds of leaf-reducer operation (Table 02-6). -/
inductive ReduceKind where
  | sum | max | min
  deriving DecidableEq, Repr

/-- Inputs of a leaf of the leaf reducer: FP32 values, or the two operands of up to 256 exact products of a contraction (R66, R114). -/
inductive ReduceIn where
  | values (xs : List Word)
  | products (a b : Run)
  deriving DecidableEq, Repr

/-- Sources of the node store's children (R55). -/
inductive LeafSource where
  | array | thin | reducer | rootHalf
  deriving DecidableEq, Repr

/-- Where the combine unit takes the children of a node: it adds them (R80), or hands them in ascending order to the tile's node store as children
at level `lvl + 1` of an output (R55, R121), child `idx` of the node covering the level-0 children from `acc.leaf + 8 ^ lvl * idx` on. -/
inductive CombineTo where
  | add
  | store (acc : AccSpec) (lvl : Nat)
  deriving DecidableEq, Repr

/-- Operand types of the combine unit (Table 02-8): FP32, BF16 widened to FP32 (R116), integers that wrap (R119). -/
inductive CombineKind where
  | fp32 | bf16 | int32 | int64
  deriving DecidableEq, Repr

/-- Crown units that are clock-gated (R85). -/
inductive CrownUnit where
  | array | thin | vector
  deriving DecidableEq, Repr

/-- Why a gated crown half wakes (R87). -/
inductive WakeCause where
  | signal | loader
  deriving DecidableEq, Repr

/-- Reduced or module-local tally (Table 04-1). -/
structure Tally where
  converted : Nat
  saturated : Nat
  underflowed : Nat
  maxAbs : Nat
  deriving DecidableEq, Repr

/-- What the other modules of the job bring to a step boundary over Flume and the fabric: their tallies of the ruled tensors in ascending
tensor ID (R131), their ranks' contributions to N2, A and C in ascending rank (R164, R169), whether every other module's chunks of the last snapshot
landed (R639), their plan digests by module slot when a format changes (R144), their shard digests as tensor, rank and digest (R161), and the module
slots whose module-local fields differ from their journal in a replay (R662). -/
structure BoundaryIn where
  tallies : List Tally
  n2 : List (Nat × DWord)
  a : List (Nat × DWord)
  othersLanded : Bool
  plans : List (Nat × DWord)
  replicas : List (Nat × Nat × DWord)
  differ : List Nat
  deriving DecidableEq, Repr

/-- What the other modules of the device set bring to PLANNING over Flume (Table 06-6): START_JOB digests by module slot, Cruise ROM versions,
enabled-tile counts and plan digests by module slot. -/
structure PlanIn where
  starts : List (Nat × DWord)
  roms : List Word
  counts : List (Nat × Nat)
  plans : List (Nat × DWord)
  deriving DecidableEq, Repr

/-- A recovery notice (Table 14-6). -/
structure Notice where
  action : Nat
  flags : BitVec 8
  job : BitVec 16
  subject : Nat
  reporter : Nat
  code : BitVec 16
  attempt : Nat
  step : DWord
  mtc : DWord
  deriving DecidableEq, Repr

/-- Policy fields (Table 15-8); 0 takes the default (R690). Times in ms, t_flume and t_chunk in µs. -/
structure Policy where
  protectionMode : Nat
  unsignedImages : Nat
  haulerRegisters : Nat
  haulerQuotes : Nat
  treeRemap : Nat
  minTreeLanes : Nat
  minTrayPorts : Nat
  minRelayLanes : Nat
  minTiles : Nat
  holdLimit : Nat
  wardenRomMin : Nat
  wardenRomMax : Nat
  tFlume : Nat
  tChunk : Nat
  repairLimit : Nat
  deriving DecidableEq, Repr

/-- POWER fields (Table 16-4); 0 takes the default. -/
structure PowerCfg where
  powerLimit : Nat
  targetHi : Nat
  targetWidth : Nat
  ceilings : List Nat
  deriving DecidableEq, Repr

/-- CLOCK section (Table 15-7): crown clock k per quadrant, timebase roots in rank order, time-parent lanes in order of preference. -/
structure ClockCfg where
  crownK : List Nat
  roots : List Nat
  isRoot : Bool
  parents : List Lane
  deriving DecidableEq, Repr

/-- One lane of the WIRING section: the lane, its partner's endpoint ID or relay address, and the partner's lane. -/
structure Wire where
  lane : Nat
  partner : BitVec 16
  partnerLane : Nat
  deriving DecidableEq, Repr

/-- KEEPER section (Table 15-7), sizes in bytes. -/
structure KeeperCfg where
  keeper : BitVec 16
  regionSize : Nat
  areaSize : Nat
  slotSize : Nat
  offload : Nat
  kept : List (BitVec 16)
  deriving DecidableEq, Repr

/-- Position of an endpoint in the machine description (Table 06-1). -/
structure EndpointPos where
  endpoint : BitVec 16
  pod : Nat
  rack : Nat
  tray : Nat
  slot : Nat
  domain : Nat
  deriving DecidableEq, Repr

/-- Routing tables of the TABLES section (R504, R617): per index a 16-bit entry. -/
structure Tables where
  down : Table Nat
  flume : Table Nat
  ctrl : Table Nat
  deriving DecidableEq, Repr

/-- An IP address (R782, R808). -/
inductive IpAddr where
  | v6 (a : BitVec 128)
  | v4 (a : BitVec 32)
  deriving DecidableEq, Repr

/-- The Ethernet ports of a module: host port H and the two management ports. -/
inductive EtherPort where
  | host | mgmtA | mgmtB
  deriving DecidableEq, Repr

/-- How a UDP packet comes in: the port of the module, the destination address and UDP port (R782, R807, R808). -/
structure Udp where
  port : EtherPort
  dst : IpAddr
  udpPort : Nat
  deriving DecidableEq, Repr

/-- A ring image (Table 15-6, Table 15-7). The spec lays out the header and names the sections' contents but gives the sections no byte
layout, so the ring is this record; `formOk`, `digestOk`, `rsaOk` and `slhOk` are what the checks of Table 15-9 find in its bytes. -/
structure Ring where
  formOk : Bool
  digestOk : Bool
  rsaOk : Bool
  slhOk : Bool
  major : Nat
  imageLength : Nat
  generation : Nat
  floor : Nat
  keyIndex : Nat
  role : Role
  relay : Bool
  machineId : DWord
  bodyDigest : BitVec 384
  ident : BitVec 16
  pod : Nat
  rack : Nat
  tray : Nat
  slot : Nat
  plane : Nat
  level : Nat
  index : Nat
  machine : List EndpointPos
  machineBytes : List Byte
  levels : Nat
  wiring : List Wire
  tables : Tables
  epoch : Bool
  flumeSlots : Nat
  bulkBuffers : Nat
  power : PowerCfg
  clock : ClockCfg
  /-- NETWORK section: the host port's addresses, those of MGMT_A and MGMT_B, and the permitted management peers (Table 15-7). -/
  hostV6 : BitVec 128
  hostV4 : Option (BitVec 32)
  mgmtA : List IpAddr
  mgmtB : List IpAddr
  peers : List IpAddr
  keeper : KeeperCfg
  policy : Policy
  keys : List (Nat × List Byte × List Byte)
  deriving DecidableEq, Repr

/-- A floor record (R701) with what its two signatures come to. -/
structure FloorRec where
  generation : Nat
  floor : Nat
  keyIndex : Nat
  formOk : Bool
  rsaOk : Bool
  slhOk : Bool
  deriving DecidableEq, Repr

/-- One entry of the owner key list: an RSA-3072 and an SLH-DSA-SHA2-192s public key (Table 15-2). -/
structure OwnerKey where
  rsa : List Byte
  slh : List Byte
  deriving DecidableEq, Repr

/-- What steps 6 and 7 of the start find (Table 15-1): the dies' fingerprints by die index, the wires that fail training and the phase codes
that training finds (R404). -/
structure TrainObs where
  fingerprints : List DWord
  wires : List (Fin 288 × WireFail)
  codes : List (Fin 288 × Fin 2 × Fin 16 × Nat)
  deriving DecidableEq, Repr

/-- Target of a Hauler WRITE or READ (Table 17-4), the kind left to the row. -/
structure Target where
  inst : Nat
  id : Nat
  generation : DWord
  offset : Nat
  length : Nat
  deriving DecidableEq, Repr

/-- A request's place: the Hauler connection and its message ID (R790). -/
structure Req where
  conn : Nat
  msg : Word
  deriving DecidableEq, Repr

/-- A Warden-protocol request's place: session, message ID and the peer's address (R807). -/
structure WReq where
  session : Nat
  msg : Word
  peer : IpAddr
  deriving DecidableEq, Repr

/-- A Hauler packet's header fields that carry data or acknowledgement (Table 17-1). -/
structure HSeg where
  conn : Nat
  flags : BitVec 16
  seq : Word
  ack : Word
  sack : DWord
  msg : Word
  offset : Word
  payload : List Byte
  deriving DecidableEq, Repr

/-- A window entry (Table 12-5). -/
structure WinEntry where
  base : Nat
  length : Nat
  job : BitVec 16
  perm : BitVec 8
  deriving DecidableEq, Repr

/-- What a filling spare pulls and reads (Table 14-7): the module slot it takes, from a surviving module of its tray the image, the START_JOB body,
the rank map, what the other modules bring to the rounds of Table 06-6, the attempt that substitutes it and the step in hand, and from the slot's keeper
the journal mirror, oldest first, and the committed snapshot's step, digest list and slot; the keeper itself and the modules that the slot keeps; the
slots that the attempt substitutes, and whether the recovery digests agree. -/
structure FillIn where
  slot : Nat
  image : List Byte
  start : List Byte
  rankMap : List (BitVec 16)
  plan : PlanIn
  attempt : Nat
  pairIndex : Nat
  replayTo : Nat
  mirror : List (List Byte)
  snapshot : Nat
  digests : List (List Byte)
  slotB : Bool
  keeper : BitVec 16
  kept : List (BitVec 16)
  slots : List Nat
  agree : Bool
  deriving DecidableEq, Repr

/-- Key of an outstanding request: issuing tile, destination endpoint, sequence number (R526). -/
structure ReqKey where
  tile : Tile
  dst : BitVec 16
  seq : Word
  deriving DecidableEq, Repr

/-- Members' data for a collective: group index and the stored form of its X as codes, block scales and tensor scales (R231). -/
structure MemberX where
  index : Nat
  codes : List Nat
  bscales : List Nat
  tscales : List Nat
  deriving DecidableEq, Repr

/-- The commands (spec/opcode_table.json, in its order). -/
inductive Instr where
  | vauxOn (holdN modRstN puf unwrap : Bool)
  | vauxLoss
  | auxRstNAssert
  | auxRstNRelease (holdN modRstN puf unwrap : Bool)
  | modRstNAssert
  | modRstNRelease
  | holdNRise
  | wardenSelfTestPass
  | v48InRange (v48 : Nat) (obs : TrainObs)
  | startChecks
  | startHoldRetry
  | ringTrialRestart
  | holdLimitExpire
  | q0Loss
  | refclkLoss
  | auxclkLoss
  | auxclkReturn
  | v48Shutdown (v48 : Nat)
  | thermTripComparator (t : Tile) (value : Int)
  | thermTripRelease
  | managementTick (r : TickReadings)
  | notchRaise (q : Quad)
  | notchFloor (q : Quad)
  | sensorSuspect (k : SensorKind) (sensor : Fin 256)
  | refreshRateApply (m : Stack)
  | wardenCoreReset (pc : Word)
  | ledgerSummaryFlush
  | ledgerEventWrite
  | telemetryDatagram (sub : Nat)
  | laneTrainingAttempt (l : Lane)
  | codewordLock (l : Lane) (w : Wave) (words : List Bool)
  | trainingTimeout (l : Lane)
  | initFrame (l : Lane) (f : InitFrame) (rtt : Nat)
  | discoveryRecord (l : Lane) (d : Discovery)
  | laneExtraLight (l : Lane) (powA powB : Int)
  | laneRetrain (l : Lane) (cause : Nat)
  | retrainComplete (l : Lane)
  | retrainTimeout (l : Lane)
  | frameReceive (l : Lane) (f : Frame)
  | frameReplayTimeout (l : Lane)
  | hostPortDown (lanes : BitVec 8) (cause : Nat)
  | ethernetPauseReceive (frame : List Byte)
  | dieLinkTransfer (link : Fin 288) (dir : Fin 2) (segs : List Segment)
  | dieLinkReplayTimeout (link : Fin 288) (dir : Fin 2)
  | relinkStart (link : Fin 288) (dir : Fin 2)
  | relinkComplete (link : Fin 288) (fails : List WireFail) (codes : List (Fin 2 × Fin 16 × Nat))
  | missingClock (k : Fin 32) (fromQuad : Quad)
  | quadrantResetSeen (q : Quad) (powerGood : Bool)
  | routerPacketArrive (t : Tile) (port : Port) (vc : VC) (p : Packet)
  | meshEscape (t : Tile) (vc : VC)
  | escapeTableInstall
  | relayForward (l : Lane) (vc : VC) (p : Packet)
  | reach (sub : ReachSubject) (restoral : Bool) (mtc : DWord)
  | trayState (slot : Fin 9) (live : Bool) (ports : BitVec 4)
  | tableDigest (l : Lane) (digest : DWord)
  | mtcSyncSend
  | mtcSync (m : MtcSync)
  | mtcHoldover
  | epochSwitch
  | oldEpochRetire
  | load (p : Packet) (ecc : List (Nat × Ecc))
  | store (p : Packet)
  | storeFlag (p : Packet)
  | storeFlagPerform (src : BitVec 16)
  | atomic (p : Packet)
  | atomicGroupClose (line : Nat) (ecc : List (Nat × Ecc))
  | atomicResultExpire (src : BitVec 16) (seq : Word)
  | signal (p : Packet)
  | copyPull (p : Packet) (ecc : List (Nat × Ecc))
  | loadData (p : Packet)
  | ack (p : Packet)
  | atomicData (p : Packet)
  | busy (p : Packet)
  | busyResend (k : ReqKey)
  | error (p : Packet)
  | retransmit (k : ReqKey)
  | tDeadExpire (k : ReqKey)
  | seqSignal (i : Issue) (dst : Dest) (tile : Tile) (ctr n : Nat)
  | seqWait (i : Issue) (ctr th timeout : Nat)
  | seqTake (i : Issue) (ctr n : Nat)
  | waitTimeout (ctr place : Nat)
  | deviceWatchdog
  | copyEngineCopy (i : Issue) (c : CopyReq) (ecc : List (Nat × Ecc))
  | teeForward (ring step : Nat) (ecc : List (Nat × Ecc))
  | cornerTurnRead (t : Tile) (base pitch rows cols width : Nat) (scales : List (Nat × Nat)) (ecc : List (Nat × Ecc))
  | scrubWalk (t : Tile) (bank : Fin 32) (ecc : List Ecc)
  | hbmPatrolScrub (m : Stack) (ecc : List (Nat × Ecc))
  | hbmSelfRefreshEntry (m : Stack)
  | hbmPatrolBurst (m : Stack) (ecc : List (Nat × Ecc))
  | arrayStream (i : Issue) (acc : AccSpec) (rows : List Run) (newSet parityOk : Bool)
  | stationaryLoad (i : Issue) (cols : List Run)
  | stationaryLoadComplete (t : Tile) (parityOk : Bool)
  | leafArrive (t : Tile) (src : LeafSource) (ecc : Ecc)
  | nodeStoreDrain (t : Tile) (toFmt : Nat) (stochastic : Bool) (ecc : Ecc)
  | thinPathPass (i : Issue) (acc : AccSpec) (vecs : Option (List (List Run))) (weights : List RunRef) (parityOk : Bool) (ecc : List (Nat × Ecc))
  | vectorOp (i : Issue) (op : VecInstr) (parityOk : Bool) (ecc : Ecc)
  | leafReduce (i : Issue) (kind : ReduceKind) (acc : AccSpec) (inputs : ReduceIn)
  | combine (t : Tile) (issue : Option Issue) (kind : CombineKind) (dest : CombineTo) (node n : Nat) (idx : Nat) (value : DWord) (poisoned : Bool) (ecc : List (Nat × Ecc))
  | unitClockGate (t : Tile) (u : CrownUnit)
  | crownClockGate (t : Tile)
  | crownWake (t : Tile) (why : WakeCause)
  | shadowCompare (t : Tile) (a b : Run)
  | thirdTileRecompute (t : Tile) (a b : Run)
  | phaseBoundary (phase : Nat)
  | contract (pos op : Nat)
  | map (pos op : Nat)
  | reduceSum (pos op : Nat)
  | reduceSumOfSquares (pos op : Nat)
  | reduceMax (pos op : Nat)
  | reduceMin (pos op : Nat)
  | attendForward (pos op : Nat)
  | attendBackward (pos op : Nat)
  | normaliseRms (pos op : Nat)
  | normaliseLayer (pos op : Nat)
  | gather (pos op : Nat)
  | scatterAdd (pos op : Nat)
  | scatterReplace (pos op : Nat)
  | cast (pos op : Nat)
  | drawBits (pos op : Nat)
  | drawUniform (pos op : Nat)
  | drawBernoulli (pos op : Nat)
  | collectiveReduce (pos op : Nat) (members : List MemberX)
  | collectiveReduceScatter (pos op : Nat) (members : List MemberX)
  | collectiveGather (pos op : Nat) (members : List MemberX)
  | collectiveAllToAll (pos op : Nat) (members : List MemberX)
  | collectiveBroadcast (pos op : Nat) (members : List MemberX)
  | collectiveScalarReduce (pos op : Nat) (members : List MemberX)
  | collectiveBarrier (pos op : Nat) (members : List Nat)
  | copyBox (pos op : Nat)
  | copyReshape (pos op : Nat)
  | hostSignalNotify (pos op : Nat)
  | hostSignalAwait (pos op : Nat)
  | run (phase : Nat) (n2 : List (Nat × DWord))
  | loop
  | endLoop
  | ifItem (cond : Nat)
  | elseItem
  | endIf
  | stepBoundary (b : BoundaryIn)
  | snapshotBegin (mtc : DWord) (released : List Nat)
  | drainComplete
  | endHoldExpire
  | flumeUp (l : Lane) (p : Packet)
  | flumeDown (l : Lane) (p : Packet)
  | busyRelay (p : Packet)
  | relayResend (seq : Word)
  | flumeTimeout (group : Word) (seq : Word)
  | flumeSlotDiscard (job : BitVec 16) (group : Word) (seq : Word)
  | bulkUp (l : Lane) (p : Packet)
  | bulkDown (p : Packet)
  | bulkDone (p : Packet)
  | chunkTimeout (group : Word) (chunk : Nat)
  | bulkBufferDiscard (job : BitVec 16) (group : Word) (chunk : Nat)
  | recoveryNotice (n : Notice)
  | recoveryNoticeResend
  | collectionWindowEnd (recoveryDigestsAgree : Bool) (spares : List (Nat × Nat)) (plan : PlanIn)
  | snapshotChunkLand (chunk : Nat) (data : List Byte)
  | fillAssign (f : FillIn)
  | spareAvailable (slot : Nat) (endpoint : BitVec 16) (tiles : Nat) (plan : PlanIn)
  | repairTimeout
  | hauOpen (u : Udp) (wantsNotices : Bool)
  | data (g : HSeg)
  | haulerAck (g : HSeg)
  | close (conn : Nat)
  | haulerReset (conn : Nat)
  | haulerAckTimer (conn : Nat)
  | haulerRetransmitTimeout (conn : Nat) (seq : Word)
  | connectionTimeout (conn : Nat)
  | writeTensor (r : Req) (t : Target) (bytes : List Byte)
  | writeInput (r : Req) (t : Target) (bytes : List Byte)
  | writeMarkWritten (r : Req) (t : Target) (bytes : List Byte)
  | writeRelease (r : Req) (t : Target)
  | writeSnapshotSlot (r : Req) (t : Target) (bytes : List Byte)
  | writeJournalRing (r : Req) (t : Target) (bytes : List Byte)
  | writeFaultDump (r : Req) (t : Target) (bytes : List Byte)
  | readTensor (r : Req) (t : Target)
  | readSnapshotSlot (r : Req) (t : Target)
  | readJournalRing (r : Req) (t : Target)
  | readFaultDump (r : Req) (t : Target)
  | haulerSignal (r : Req) (h n : Nat)
  | setWatch (r : Req) (h threshold : Nat)
  | clearWatch (r : Req) (h : Nat)
  | loadProgram (r : Req) (image : List Byte)
  | startJob (r : Req) (body : List Byte)
  | planCompute (p : PlanIn)
  | stopJob (r : Req) (tag : BitVec 16)
  | queryStatus (r : Req)
  | queryPlanReport (r : Req)
  | queryFaultRecords (r : Req) (count : Nat)
  | queryQuote (r : Req) (nonce : BitVec 256)
  | queryReducedTally (r : Req) (tensor : Nat)
  | readReg (r : Req) (addr : Word) (count : Nat)
  | writeReg (r : Req) (addr : Word) (values : List Word)
  | wardenStatus (r : WReq) (multicast : Bool)
  | wardenLedgerRead (r : WReq) (offset length : Nat)
  | telemetrySubscribe (r : WReq) (period : Nat)
  | telemetryBufferRead (r : WReq) (first count : Nat)
  | stageRing (r : WReq) (ring : Ring)
  | writeFloorRecord (r : WReq) (f : FloorRec)
  | enrolOwnerKeys (r : WReq) (keys : List OwnerKey)
  | updateOwnerKeys (r : WReq) (keys : List OwnerKey) (keyIndex : Nat) (rsaOk slhOk : Bool)
  | wardenQuote (r : WReq) (nonce : BitVec 256)
  | runtimePowerLimit (r : WReq) (watts : Nat)
  | ieee1500Read (r : WReq) (m : Stack)
  | memoryBist (r : WReq) (m : Stack)
  | softPpr (r : WReq) (m : Stack) (row : Nat)
  | hardPpr (r : WReq) (m : Stack) (row : Nat)
  | listPageRetirement (r : WReq) (m : Stack) (page : Nat)
  | idleTimeExerciser (r : WReq)
  | exerciserTestEnd (digest : DWord) (band : Nat) (reached : Bool)
  | releaseQuarantined (r : WReq)
  | windowEntries (r : WReq) (e : Fin 64) (entry : WinEntry)
  | wardenRegAccess (r : WReq) (write : Bool) (addr : Word) (count : Nat) (values : List Word)
  | registerWrite (p : Path) (addr value : Word)
  | devEvents (p : Path) (value : Word)
  | faultSel (p : Path) (value : Word)
  | faultNew (p : Path)
  | win (p : Path) (e : Fin 64) (k : Fin 4) (value : Word)
  | ftData (p : Path) (value : Word)
  | ftCommit (p : Path) (value : Word)
  | pwrRuntime (p : Path) (value : Word)
  | dlinkSel (p : Path) (value : Word)
  | telSel (p : Path) (value : Word)
  | telDataLo (p : Path)
  | pairLoRead (p : Path) (addr : Word)
  | broadcastRead (p : Path) (addr : Word)
  | bypass
  | idcode
  | samplePreload (lines : BitVec 19) (shifted : BitVec 25)
  | extest (lines : BitVec 19) (shifted : BitVec 25)
  | clamp
  | highz
  | ctrlAccess (dr : BitVec 81)
  | ledgerRead (offset : Nat)
  | jtagTestLogicReset
  | q0DomainStable
  | refclkReturn
  | hostPortUp
  | quoteSigned
  deriving DecidableEq, Repr

end Sys2Proof
end

