-- ==== Sys2Proof/Config.lean ====
section
/-! DEFINITION. What one implementation fixes and the values the spec leaves open. An `opaque` constant has no body that a proof can see, so
a theorem holds whatever its value is. -/
namespace Sys2Proof

/-- Correctly rounded exp, log, reciprocal square root where the model's interval does not decide between two neighbours (R126 fixes the value,
the model's bounded interval may not reach it): function code, then the pattern of the operand. -/
opaque Config.transcendental : Nat → Word → Word
/-- RSASSA-PSS with SHA-384 under RSA-3072 verifies: key, message, signature (R197, R198). -/
opaque Config.rsaVerify : List Byte → List Byte → List Byte → Bool
/-- SLH-DSA-SHA2-192s verifies: key, message, signature (R197, R198). -/
opaque Config.slhVerify : List Byte → List Byte → List Byte → Bool
/-- The 16,608 bytes of both signatures over a quote body (R718), under keys no interface reads (R716). -/
opaque Config.quoteSignatures : List Byte → List Byte
/-- The Cruise ROM's canonical serialisation of the job plan and of module plans restricted to one phase, laid out as numbers (R296, R297). -/
opaque Config.planSerial : List Nat → List Byte
/-- Programs that the Cruise ROM writes for a virtual tile in a phase: the numbers of the job plan and of the module plan in the phase, the tile; each
of 8 slots' instructions with their unit and encoding (R68, R70). -/
opaque Config.tileCode : List Nat → Nat → List (List (Nat × List Byte))
/-- Local address at which placement lays a rank's tensor (Chapter 06): plan digest, count of virtual tiles, tier, virtual tile (0 unless tile SRAM),
position, tensor. In tile SRAM it is an offset in the tile. -/
opaque Config.tensorBase : DWord → Nat → Nat → Nat → Nat → Nat → Nat
/-- SRAM offset of a receive slot of a rotation in its landing tile (R315): plan digest, count of virtual tiles, position, op of the gather, slot. -/
opaque Config.ringBase : DWord → Nat → Nat → Nat → Nat → Nat
/-- Local address, on a keeper, of the area of a module that it keeps (R640): keeper, kept module. Its region size and ring order are those of the
keeper's ring, which the kept module does not hold. -/
opaque Config.keeperArea : BitVec 16 → BitVec 16 → Nat
/-- The output digest that Warden ROM holds for an exerciser test (R673): band, array rate, busy tiles. -/
opaque Config.exerciserDigest : Nat → Nat → Nat → DWord
/-- Version of the Warden ROM (Table 15-11). -/
opaque Config.wardenRom : Word
/-- Version of the Cruise ROM (R266). -/
opaque Config.cruiseRom : Word
/-- Downward vertical-link occupancy in sixteenths that a load fingerprint carries (Table 04-4): tile, count of draws. -/
opaque Config.vlinkSixteenths : Nat → Nat → BitVec 4
/-- Contents of a stack after its built-in self-test, outside the job region, which the test rewrites (Table 08-5): stack, address, draw. -/
opaque Config.afterBist : Nat → Nat → Nat → Byte
/-- What the idle-time exerciser sets for a test (R674): band, array rate, busy tiles; answered as crown clock k and notch. -/
opaque Config.exerciserSetting : Nat → Nat → Nat → Nat × Nat
/-- SHA-256 over the Bark's die fingerprint, tile map and repair map regions (Table 15-13), whose byte layouts the spec does not give whole:
fingerprints, enabled tiles, fenced tiles, repair-map entries. -/
opaque Config.regionsDigest : List (BitVec 64) → BitVec 256 → BitVec 256 → List (List Nat) → BitVec 256
/-- Registers of a stack's IEEE 1500 port (R368): stack, register 0 identification, 1 repair, 2 error. -/
opaque Config.ieee1500 : Nat → Nat → Word
/-- A scalar instruction of the Cruise ROM's encoding (Chapter 02): encoding, program counter, the sixteen scalar registers; answered as the next
program counter and the registers. -/
opaque Config.scalar : List Byte → Nat → List Word → Nat × List Word
/-- Slot that the plan names for the digest of a pulled copy (R547): copy tag. -/
opaque Config.digestSlot : Nat → Nat
/-- Link-layer echo tokens the device draws for its init frames (R429). -/
opaque Config.token : Nat → Word
/-- A vector register's or node-store entry's contents after an uncorrectable error, until recomputed (R83): tile, place, draw. -/
opaque Config.crownGarbage : Nat → Nat → Nat → Word
/-- The check bits of a word that the ECC cannot correct, which the device keeps as the poison syndrome (R338): draw. -/
opaque Config.syndrome : Nat → BitVec 16
/-- The frequency correction that a measured offset leads to, in 2^-32 ns per ns: R623 bounds it and states no rule for it. -/
opaque Config.frequency : Nat → Int → Int
/-- Address at which the plan lays the version slot of a gathered tensor for a member of its group (R669): plan digest, tensor, group index of the
member that sends. -/
opaque Config.versionSlot : DWord → Nat → Nat → Nat
/-- The tensor whose version slot the plan lays at a local address (R669): plan digest, address. -/
opaque Config.versionTensor : DWord → Nat → Option Nat
/-- The fifth and sixth input (dO and lse) of a backward ATTEND, which Table 05-8 asks for and Table 05-6 has no room for: image ID, op. -/
opaque Config.attendInputs : DWord → Nat → Nat × Nat
/-- N2 of a step whose image names no valid norm-source tensor (R164, R253, R254 state none): step. -/
opaque Config.absentNorm : DWord → DWord
/-- The pre-reduction sum A of a step in which no op carries the noise-statistics flag (R169 states none): step. -/
opaque Config.absentNoise : DWord → DWord
/-- Offset in a ring image at which a check of Table 15-9 fails, where the image's own bytes fix it: generation, check. -/
opaque Config.ringOffset : Nat → Nat → Nat

/-- Multicast groups that the loader writes at a phase boundary (R490), as masks of virtual tiles: plan digest, count of virtual tiles, phase. -/
opaque Config.groups : DWord → Nat → Nat → List (Nat × BitVec 256)
/-- Counters that the loader makes flags, at PLANNING and at a phase boundary (R563), each as a virtual tile and its counter: plan digest, count of
virtual tiles, phase; the others are counts. -/
opaque Config.flagCounters : DWord → Nat → Nat → List (Nat × Nat)

/-- Level of the canonical node that a single-value Flume contribution stands for, which Table 13-2 gives no field (R594): job, group, lowest
group index. -/
opaque Config.nodeLevel : BitVec 16 → Word → Nat → Nat
/-- Size of a Flume group as a relay knows it, which Table 13-2 gives no field (R594): job, group. -/
opaque Config.flumeSize : BitVec 16 → Word → Nat

/-- Interface lanes of an HBM stack that training finds bad and maps to others (Table 08-2; log 100), by the stack and the device's time. -/
opaque Config.badLanes : Nat → Nat → List Nat

/-- A parity symbol of a lane's RS(544,514) code, by the 514 data symbols and its number: the spec names no generator (R416; log 65). -/
opaque Config.rsParity : List Nat → Nat → Nat

end Sys2Proof
end

