-- ==== Sys2Proof/Machine/State.lean ====
section
/-! DEFINITION. The state of the module, all of it plain data; the state after reset; the reasons a step can stop. Numbered parts
(tiles, lanes, links, stacks, counters) stand in sparse tables: a part that a table does not list holds its default, which is its reset value. -/
namespace Sys2Proof.Machine

/-- Reasons a step stops with a fault. No command of this block has an effect that the spec leaves undefined, so no meaning raises one. -/
inductive Fault where
  /-- Raised by no meaning. Safe: a claim about a fault is empty. -/
  | unreachable
  deriving DecidableEq, Repr

/-- Reasons the model refuses a command. -/
inductive Refusal where
  /-- Raised by the dispatcher alone, for a row that has no meaning yet. Safe: the run stops. -/
  | notModelled (mnemonic : String)
  deriving DecidableEq, Repr

/-- A fault record (R865). `unitKind` and `unit` are the source unit. -/
structure FaultRec where
  mtc : DWord := 0
  code : BitVec 16 := 0
  unitKind : BitVec 8 := 0
  unit : BitVec 8 := 0
  obj : Word := 0
  peer : Word := 0
  detail : List Byte := []
  deriving DecidableEq, Repr

/-- What the block sends to the outside, in the order in which it sends it. -/
inductive Out where
  /-- A packet leaves a tile for the fabric or for another tile of the module (R463, R478). -/
  | packet (p : Packet)
  /-- A frame leaves by a lane: of data, idle, init or discovery (R429, R436, R437, R454). -/
  | frame (l : Nat) (f : Frame)
  /-- A transfer leaves an end of a die link: on each active segment 512 B and the control bits of Table 09-3 (R378, R380). -/
  | transfer (link dir : Nat) (segs : List Segment)
  /-- A Hauler reply (R790) with status 0 or a fault code. -/
  | reply (conn : Nat) (msg : Word) (status : BitVec 16) (body : List Byte)
  /-- A Warden-protocol reply (R807). -/
  | wardenReply (session : Nat) (msg : Word) (status : BitVec 16) (body : List Byte)
  /-- OPEN_OK (R784): connection ID, largest segment payload that the device accepts, whether the connection receives job notices. -/
  | openOk (conn maxSegment : Nat) (notices : Bool)
  /-- Header of an ACK, RESET or DATA packet (Table 17-1, R785): type, connection, ack, sack, seq. A message follows the header of its last segment. -/
  | hauler (kind conn : Nat) (ackNo : Word) (sack : DWord) (seq : Word)
  /-- A NOTIFY (Table 17-6). -/
  | notify (conn kind : Nat) (lost : Bool) (job : BitVec 16) (mtc value : DWord) (payload : List Byte)
  /-- A recovery notice on both management ports, with the endpoints that it goes to (R648). -/
  | notice (n : Notice) (peers : List (BitVec 16))
  /-- A telemetry datagram to a subscriber (R774). -/
  | telemetry (sub seq tick : Nat)
  /-- A router hands a packet to its destination: a tile's request and response units, or the relay's combine units (R471, R489). -/
  | deliver (t : Nat) (p : Packet)
  /-- An MTC_SYNC packet (R622). -/
  | mtcSync (m : MtcSync)
  /-- A reach withdrawal or restoral (R500), the tray-port states (R483), a table digest (R504). -/
  | reach (sub : ReachSubject) (restoral : Bool) (mtc : DWord)
  | trayState (slot : Nat) (ports : BitVec 4)
  | tableDigest (l : Nat) (digest : DWord)
  /-- A block of the corner-turn unit to the requesting port: the width of its elements, its rows, each packed, its scale arrays, and the root cycles that
  the fill takes (R345 to R350). -/
  | turned (t width : Nat) (rows : List (List Byte)) (scales : List (List Byte)) (fill : Nat) (poisoned : Bool)
  /-- dK and dV of block `block` leave ring member `member` for the block's owner (R324). -/
  | gradBlock (op member block : Nat) (owner : BitVec 16) (dk dv : List Word)
  /-- A low pulse on STUMP_RST_N (R835). -/
  | stumpReset
  /-- Outcome of a register access that a command gives as a step of its own: status and the words read (R851). -/
  | register (p : Path) (status : BitVec 16) (values : List Word)
  deriving DecidableEq, Repr

/-- Input and output lands (Table 18-3) and the supplies' and clocks' presence. -/
structure Pins where
  auxRstN : Bool := true
  modRstN : Bool := true
  holdN : Bool := true
  thermTripN : Bool := true
  vaux : Bool := true
  refclk : Bool := true
  /-- The lookout runs on its internal oscillator (R729). -/
  internalOsc : Bool := false
  /-- V48 regulators on (R680). -/
  v48On : Bool := false
  /-- V48 at the lands in 10 mV, as last measured (R737). -/
  v48 : Nat := 0
  deriving DecidableEq, Repr

/-- Device state, start sequence and identity of the running ring (Table 01-4, Table 15-1, Table 19-5). -/
structure Dev where
  st : DevState := .lookout
  prev : DevState := .lookout
  /-- Last step of Table 15-1 that completed. -/
  startStep : Nat := 0
  role : Option Role := none
  ringSlotB : Bool := false
  trial : Bool := false
  ring : Option Ring := none
  holdCause : Nat := 0
  /-- Causes of which ERR_START_HOLD has been written this start (R698). -/
  holdsWritten : List Nat := []
  /-- Time of the first ERR_START_HOLD of the hold (R699). -/
  holdSince : Option Nat := none
  /-- A failed trial waits for its restart (R693). -/
  restartDue : Bool := false
  /-- First fault code of the start, for the start log (R687). -/
  startFault : BitVec 16 := 0
  qLost : BitVec 4 := 0
  /-- The lookout holds the module in reset after a loss of Q0 (R408). -/
  q0Held : Bool := false
  /-- The key-encryption key is derived (R715) and the identity keys unwrapped (R717). -/
  kek : Bool := false
  identityOk : Bool := false
  /-- The bark's die fingerprints agreed at step 7 (R684). -/
  fingerprintsOk : Bool := true
  /-- A quote is being signed for this requester: path code 0 Warden, 1 Hauler, then session or connection, message ID and body (R719). -/
  quote : Option (Nat × Nat × Word × List Byte) := none
  deriving DecidableEq, Repr

/-- One sensor (R744 to R759), temperatures in 0.25 °C. -/
structure Sensor where
  reading : Option Int := none
  value : Option Int := none
  band : Nat := 0
  count : Nat := 0
  suspect : Bool := false
  notSubst : Bool := false
  /-- Recorded offset (R756) and the differences it is the mean of, newest first, at most 1,024. -/
  offset : Int := 0
  diffs : List Int := []
  median : Int := 0
  spread : Int := 0
  deriving DecidableEq, Repr

/-- Notch state of a quadrant (R760 to R766). -/
structure Notch where
  notch : Nat := 0
  calm : Nat := 0
  floorTicks : Nat := 0
  floorWritten : Bool := false
  /-- Exerciser's requested notch (R765). -/
  requested : Option Nat := none
  crownK : Nat := 100
  amps : Nat := 0
  deriving DecidableEq, Repr

/-- A telemetry subscriber (R774): its peer, period and next sequence number. -/
structure Sub where
  peer : IpAddr := .v6 0
  period : Nat := 100
  seq : Nat := 0
  /-- Tick of the last datagram, or of the subscription. -/
  sentAt : Nat := 0
  deriving DecidableEq, Repr

/-- A thermal and power record (Table 16-12). -/
structure TelRec where
  tick : Nat := 0
  mtc : DWord := 0
  power : Nat := 0
  v48 : Nat := 0
  notches : List Nat := []
  amps : List Nat := []
  flags : BitVec 32 := 0
  suspects : List Nat := []
  root : List Int := []
  crown : List Int := []
  stack : List Int := []
  bands : List Nat := []
  deriving DecidableEq, Repr

/-- Power, heat and management tick (Chapter 16). -/
structure Heat where
  tick : Nat := 0
  /-- Nanosecond of the last tick: what acts only at a tick acts at that moment (R24). -/
  tickAt : Option Nat := none
  crowns : Table Sensor := []
  roots : Table Sensor := []
  hbms : Table Sensor := []
  lookout : Sensor := {}
  notches : Table Notch := []
  /-- Module input power in W at the last tick, run-time limit in W (0 for none) and the one that the next tick brings in force (R736). -/
  power : Nat := 0
  runtime : Nat := 0
  runtimeNext : Nat := 0
  v48Out : Bool := false
  v48Low : Nat := 0
  v48High : Nat := 0
  coolTicks : Nat := 0
  tripSource : Nat := 0
  trips : Nat := 0
  crownsOff : Bool := false
  /-- Laser supply power per engine in 0.1 dBm and the wavelengths with an excursion open (R426). -/
  supply : Table (Int × Int) := []
  laserLow : List Nat := []
  /-- Heater band per engine in force (R427). -/
  heater : Table Nat := []
  /-- Heater offset in force, by engine (R427). -/
  heaterOffset : Table Nat := []
  telemetry : List TelRec := []
  telTick : Nat := 0
  subs : List Sub := []
  missedAcks : Nat := 0
  /-- Idle-time exerciser: running, tests left as (band, rate, busy tiles) (R673). -/
  exerciser : List (Nat × Nat × Nat) := []
  oscTicks : Nat := 0
  deriving DecidableEq, Repr

/-- Health of one copy pair of a Bark region (R681 to R683). -/
structure Region where
  copy0 : Bool := true
  copy1 : Bool := true
  deriving DecidableEq, Repr

/-- A repair-map entry (Table 09-6). -/
structure Repair where
  link : Nat := 0
  dir : Nat := 0
  seg : Nat := 0
  group : Nat := 0xFF
  wire : Nat := 0xFF
  kind : Nat := 0
  origin : Nat := 0
  deriving DecidableEq, Repr

/-- A die summary (Table 16-14). -/
structure Summary where
  ticks : Nat := 0
  corrected : Nat := 0
  uncorrected : Nat := 0
  bandTicks : List Nat := [0, 0, 0, 0, 0]
  notchTicks : List Nat := [0, 0, 0, 0, 0]
  trips : Nat := 0
  suspects : Nat := 0
  shadow : Nat := 0
  replica : Nat := 0
  repairs : Nat := 0
  fences : Nat := 0
  notLogged : Nat := 0
  lowMargin : Nat := 63
  /-- Lowest margin of each lane and wavelength, by 2 · lane + wavelength, and the margin at the last flush. -/
  laneMargins : Table Nat := []
  lastMargins : Table Nat := []
  /-- Received optical power of each lane and wavelength at the last tick, by the same key, in 0.1 dBm (R431). -/
  lanePowers : Table Int := []
  /-- Segments that have shown no margin. -/
  noMargin : Nat := 0
  /-- Recorded sensor offsets by sensor number (R756). -/
  offsets : Table Int := []
  deriving DecidableEq, Repr

/-- A ledger event (R777). -/
structure Event where
  die : Nat := 0
  kind : Nat := 0
  band : Nat := 0
  fingerprint : Word := 0
  startCount : Nat := 0
  sequence : Nat := 0
  record : FaultRec := {}
  deriving DecidableEq, Repr

/-- What is written at manufacture: the manufacturing record with the tiles enabled (R3), and the die fingerprints (Table 15-2). -/
structure Made where
  serial : BitVec 128 := 0
  variant : Variant := .ca
  enabled : BitVec 256 := BitVec.allOnes 256
  macHost : BitVec 48 := 0
  macA : BitVec 48 := 0
  macB : BitVec 48 := 0
  fingerprints : List DWord := []
  deriving DecidableEq, Repr

/-- The Bark (Table 15-2) with its lifetime ledger (Table 16-13). -/
structure Bark where
  made : Made := {}
  regions : Table Region := []
  /-- Tiles fenced (Table 15-2). -/
  fenced : BitVec 256 := 0
  ownerKeys : List OwnerKey := []
  repairs : List Repair := []
  /-- Entry count and CRC-32 at the end of the repair map's copies, as this device last wrote them (R400). -/
  mapTail : List Byte := []
  /-- Phase codes by link, direction, segment and band (R401). -/
  phases : Table Nat := []
  /-- Calibrated heater offsets by 5 · engine + band (R427). -/
  heaters : Table Nat := []
  /-- Pages listed for retirement, by stack (R368). -/
  retire : List (Nat × Nat) := []
  /-- Pages on which the ledger records an uncorrectable error (R361). -/
  badPages : List (Nat × Nat) := []
  /-- Rows of stacks under hard post-package repair (Table 08-5). -/
  ppr : List (Nat × Nat) := []
  /-- Summaries in lookout SRAM, the flushed summary blocks (newest first) and the event log with its queue (R777 to R779). -/
  summaries : Table Summary := []
  blocks : List (Nat × Table Summary) := []
  events : List Event := []
  queued : List Event := []
  eventSeq : Nat := 0
  /-- Place of the event ring that the next entry takes (R778). -/
  eventNext : Nat := 0
  deriving DecidableEq, Repr

/-- States of a Stump slot (Table 15-5). -/
inductive SlotState where
  | empty | writing | staged | active | previous | failed
  deriving DecidableEq, Repr

/-- A start-log entry (R687). -/
structure StartLog where
  startCount : Nat
  slotB : Bool
  generation : Nat
  outcome : Nat
  code : BitVec 16
  deriving DecidableEq, Repr

/-- A control block (Table 15-5). -/
structure ControlBlock where
  sequence : Nat
  stateA : SlotState
  failsA : Nat
  stateB : SlotState
  failsB : Nat
  controlFloor : Nat
  startCount : Nat
  deriving DecidableEq, Repr

/-- The Stump (Table 15-4): first the control block in force (Table 15-5). -/
structure Stump where
  sequence : Nat := 0
  stateA : SlotState := .empty
  failsA : Nat := 0
  stateB : SlotState := .empty
  failsB : Nat := 0
  controlFloor : Nat := 0
  startCount : Nat := 0
  /-- The control block in force lies in copy 1; what the other copy holds, none where nothing valid (R686). -/
  inCopy1 : Bool := false
  otherCopy : Option ControlBlock := none
  slotA : Option Ring := none
  slotB : Option Ring := none
  floorRec : Option FloorRec := none
  log : List StartLog := []
  /-- Highest 8D-8D-8D clock in MHz that the SFDP table of the part in the slot states (R833, R834); what a slot holds is the board's. -/
  part : Nat := 200
  /-- Clock in MHz at which the device runs the part in 8D-8D-8D mode; 0 from a STUMP_RST_N pulse to the next use (R834). -/
  clock : Nat := 0
  deriving DecidableEq, Repr

/-- Lane states (Table 10-3). -/
inductive LaneState where
  | disabled | down | training | init | up | held
  deriving DecidableEq, Repr

/-- Lane state and readings (Table 10-3, Table 19-9). -/
structure LaneRec where
  st : LaneState := .disabled
  heldCause : Nat := 0
  lockA : Bool := false
  lockB : Bool := false
  /-- Of the latest codewords of each wavelength, how many in a row decoded (up to 4) and how many in a row were uncorrectable (up to 16) (R420). -/
  runA : Nat × Nat := (0, 0)
  runB : Nat × Nat := (0, 0)
  retraining : Bool := false
  retrains : Nat := 0
  retrainCause : Nat := 0
  remapped : Option Nat := none
  marginA : Nat := 0
  marginB : Nat := 0
  powA : Int := 0
  powB : Int := 0
  /-- Symbols corrected and codewords uncorrectable, by wavelength (Table 11-4). -/
  fecA : Nat := 0
  fecB : Nat := 0
  uncA : Nat := 0
  uncB : Nat := 0
  /-- Fibre delay in quarters of a nanosecond (R430). -/
  delay4 : Nat := 0
  /-- This end's token and the last token received from the partner (R429, R430). -/
  token : Word := 0
  lastToken : Word := 0
  /-- Nanosecond at which that token first came (R429). -/
  tokenAt : Nat := 0
  partner : Word := 0xFFFFFFFF
  /-- The partner's discovery record matched; only CTRL is carried otherwise (R709). -/
  discovered : Bool := false
  ctrlOnly : Bool := false
  /-- The partner's ring generation, Warden ROM and Cruise ROM version differ from this module's, for telemetry (R709). -/
  differs : BitVec 3 := 0
  extraWritten : Bool := false
  /-- Outputs of the module when the lane entered INIT or came back from a retrain: the lane's frame stream counts from there (R418). -/
  streamFrom : Nat := 0
  /-- Until when, in hundredths of a nanosecond, the frames that the lane has sent last: they follow back to back (R418, R436). -/
  sentTill : Nat := 0
  /-- Of the discovery record last sent: state code, table digest and epoch bit (R707). -/
  announced : Option (Nat × DWord × Bool) := none
  deriving DecidableEq, Repr

/-- Link-layer state of a lane or tray port (R440 to R458). -/
structure Link where
  txSeq : Nat := 0
  /-- Frames sent and unacknowledged, oldest first (R442). -/
  replay : List Frame := []
  /-- Sequence number of the last frame accepted (R441). -/
  rxLast : Nat := 4095
  nak : Bool := false
  /-- Ack number of the nak being answered, and the nanosecond at which the replay is complete, until which its repeats are ignored (R443). -/
  answering : Option (Nat × Nat) := none
  /-- VCs the partner has stopped, and those that this end stops (R448, R450). -/
  xoffIn : BitVec 6 := 0
  xoffOut : BitVec 6 := 0
  /-- Ingress buffer: the flits of each VC that the link has accepted and the router has not taken, in order (R446, R447, R453). -/
  ingress : Table (List (List Byte)) := []
  retries : Nat := 0
  /-- Consecutive replays of the oldest frame, and the frames replayed in the last 1 ms with their nanoseconds (R432). -/
  again : Nat := 0
  replayed : List (Nat × Nat) := []
  drops : Nat := 0
  badCrc : Nat := 0
  overruns : Nat := 0
  /-- Lane by which the last frame left (R454). -/
  lastLane : Option Nat := none
  /-- Lane of a tray port by which each held frame last left, by sequence number (R457). -/
  sentOn : Table Nat := []
  /-- Deskew buffer of a tray port: frames that came ahead of their turn, with the nanosecond of their arrival (R455). -/
  deskew : List (Frame × Nat) := []
  deriving DecidableEq, Repr

/-- Optical ports and host port (Chapter 10). -/
structure Optics where
  lanes : Table LaneRec := []
  links : Table Link := []
  hostUp : Bool := false
  pauses : Nat := 0
  /-- Frames that the MAC has discarded: of a length outside 64 to 9,216 B, or with a wrong FCS (Table 10-7). -/
  badMac : Nat := 0
  deriving DecidableEq, Repr

/-- One segment of a die-link direction (Table 09-2, R395). -/
structure Seg where
  spareClock : Bool := false
  failed : Bool := false
  /-- Groups whose spare is in use, with the wire that it replaces (R384). -/
  spares : Table Nat := []
  /-- Phase codes by band that this start has found; an unlisted band keeps the Bark's (R395, R401). -/
  codes : Table Nat := []
  margin : Option Nat := none
  /-- The data wire, 32 · group + wire, from which the monitor's rotation goes on (R398). -/
  sweep : Nat := 0
  deriving DecidableEq, Repr

/-- Width of a die link (Table 19-10). -/
inductive Width where
  | full | lower | upper | fenced
  deriving DecidableEq, Repr

/-- One direction of a die link (R380 to R383). -/
structure DLinkDir where
  txSeq : Nat := 0
  /-- The replay buffer: transfers held, each with its data (R380). -/
  held : List (Nat × List Byte) := []
  /-- What a vertical link has yet to send: transfers cut anew after a change of width, the bytes of each consumer of Table 02-7, and the consumer served
  last (R77). -/
  waiting : List (List Byte) := []
  queued : Table (List Byte) := []
  lastServed : Nat := 7
  rxLast : Nat := 63
  nak : Bool := false
  /-- Consecutive replays of the oldest transfer, and the nanoseconds of the replays of the last 1,000,000 link cycles (R383). -/
  again : Nat := 0
  recent : List Nat := []
  retries : Nat := 0
  segs : Table Seg := []
  deriving DecidableEq, Repr

/-- A die link (R376). -/
structure DLink where
  width : Width := .full
  paused : Bool := false
  relinks : Nat := 0
  toCrown : DLinkDir := {}
  toRoot : DLinkDir := {}
  /-- A missing clock was reported by the end on this side: bit 0 lower, bit 1 higher quadrant (R406). -/
  clockMissing : BitVec 2 := 0
  /-- Nanosecond of the report by each side (R407). -/
  clockAtLow : Nat := 0
  clockAtHigh : Nat := 0
  band : Nat := 0
  deriving DecidableEq, Repr

/-- Die links (Chapter 09). -/
structure Stacking where
  links : Table DLink := []
  mapFullWritten : Bool := false
  seamsWritten : BitVec 4 := 0
  /-- Tiles fenced in this start (R391, R402). -/
  fenced : BitVec 256 := 0
  /-- Repairs that a full map has not taken in this start (R402, Table 09-9). -/
  unrecorded : Nat := 0
  deriving DecidableEq, Repr

/-- Counters of a port (Table 11-4) that no other field holds: flits by 2 · VC + direction (0 receive, 1 send), high-water depth and stall by VC. -/
structure PortCtr where
  flits : Table Nat := []
  depthHw : Table Nat := []
  stall : Table Nat := []
  escape : Nat := 0
  hopDrops : Nat := 0
  noRoute : Nat := 0
  oldEpoch : Nat := 0
  newEpoch : Nat := 0
  crcDrops : Nat := 0
  deriving DecidableEq, Repr

/-- Where a packet in a mesh is bound when its header does not say: a copy of a multicast for one tile, which takes the place of a branch over a fenced link
(R393), or a relay's packet for the lane that it leaves by (R486, R412). -/
inductive Heading where
  | tile (u : Nat) | lane (l : Nat)
  deriving DecidableEq, Repr

/-- A packet in a router's queue: the nanosecond at which it came and the input port by which it came (R493, R495), and, once it has been sent
over a bridge link, the transfer that carries it (R380). -/
structure Queued where
  p : Packet
  since : Nat := 0
  port : Nat := 6
  transfer : Option Nat := none
  /-- The far end of the bridge link has accepted that transfer. -/
  taken : Bool := false
  heading : Option Heading := none
  deriving DecidableEq, Repr

/-- Routers, tables and reach of the module (Chapter 11). -/
structure Fabric where
  /-- Packets queued: toward a neighbouring router, by tile, port and VC; waiting in a router for an open port or for the escape table; and
  for a link, by link (see Packets.lean for the keys). -/
  queues : Table (List Queued) := []
  ctrs : Table PortCtr := []
  /-- The counters as the telemetry collector sampled them at the last tick, and its MTC time (R514, R773). -/
  sampled : Table PortCtr := []
  sampledAt : DWord := 0
  /-- FLUME tokens of an output port, in tenths of a byte below its depth of 2,048 B (R494). -/
  flumeUsed : Table Nat := []
  /-- Of an output port: the input port of its last winner (R493) and the FLUME group that it served last (R587). -/
  lastPort : Table Nat := []
  lastGroup : Table Nat := []
  /-- Pointer of the plane choice (R478). -/
  planePtr : Nat := 0
  /-- Planes withdrawn from each endpoint's reach mask (R502) and the MTC time last applied per subject (R501). -/
  lostReach : Table (List Nat) := []
  excluded : List (ReachSubject) := []
  reachTimes : List (ReachSubject × DWord) := []
  /-- Dead tray slots and dead ports of live slots (R482, R483). -/
  deadSlots : List Nat := []
  deadPorts : List (Nat × Nat) := []
  /-- Tables in their two epoch copies and the change in progress (R506 to R513). -/
  epoch : Bool := false
  copy0 : Tables := ⟨[], [], []⟩
  copy1 : Tables := ⟨[], [], []⟩
  oldValid : Bool := false
  inactiveComplete : Bool := false
  /-- A change is being written into the inactive copy (R507). -/
  changing : Bool := false
  armed : Bool := false
  switchTime : DWord := 0
  /-- Routers that have written ERR_TABLE_EPOCH for the change in hand (R512). -/
  epochWritten : List Nat := []
  /-- Egress depths of the tree lanes as every tile holds them, in units of 256 B (R479). -/
  depths : Table Nat := []
  digest : DWord := 0
  /-- Escape table in force: none for XY, else the fenced bridge links and routers that it was computed for (R474, R475). -/
  escape0 : Option (List Nat × List Nat) := none
  escape1 : Option (List Nat × List Nat) := none
  escapeSel : Bool := false
  /-- Multicast groups: masks of tiles (R490). -/
  groups : Table (BitVec 256) := []
  lastCrcSrc : BitVec 16 := 0
  lastCrcOp : BitVec 8 := 0
  lastCrcPlane : BitVec 8 := 0
  lastCrcTile : Nat := 0
  crcThisTick : Nat := 0
  tagThisTick : Nat := 0
  tagSrc : BitVec 16 := 0
  tagJob : BitVec 16 := 0
  tagOp : BitVec 8 := 0
  tagTile : Nat := 0
  reservedDrops : Nat := 0
  deriving DecidableEq, Repr

/-- A sync counter (R520, R521, R564). -/
structure Ctr where
  value : Nat := 0
  isFlag : Bool := false
  /-- Waiters in the order in which they began to wait: kind (0 slot, 1 copy engine, 2 await, 3 a rotation's arrival
  wait), tile, slot (of kind 3 the rank position), threshold, timeout in µs. -/
  waiters : List (Nat × Nat × Nat × Nat × Nat) := []
  lastEp : BitVec 16 := 0
  lastTile : Nat := 0
  deriving DecidableEq, Repr

/-- An outstanding request of a tile (R526). -/
structure Pend where
  key : ReqKey
  pkt : Packet
  ret : Nat
  counter : Option Nat
  /-- The sequencer slot that issued it, or none for a copy engine (R526, R554). -/
  slot : Option Nat
  sent : Nat
  first : Nat
  tries : Nat
  planes : List Nat
  busy : Bool
  deriving DecidableEq, Repr

/-- A target's window for a source endpoint (R530). -/
structure Win where
  base : Nat := 0
  done : List Nat := []
  deriving DecidableEq, Repr

/-- A STORE_FLAG that is held (R536). -/
structure Held where
  src : BitVec 16
  pkt : Packet
  deriving DecidableEq, Repr

/-- An ATOMIC combining group of a 64-byte line (R542): the operations taken and those that wait behind it. -/
structure Group where
  line : Nat
  ops : List Packet
  waiting : List Packet
  deriving DecidableEq, Repr

/-- A copy in a copy engine: its tile, what it copies, the bytes sent and the release counter that it waits on, if it does (R316, R545). -/
structure CopyJob where
  tile : Nat
  req : CopyReq
  sent : Nat
  waitOn : Option Nat
  data : Option (List Byte) := none
  deriving DecidableEq, Repr

/-- Remote memory and synchronisation (Chapter 12). -/
structure Remote where
  ctrs : Table Ctr := []
  seqNext : Table Nat := []
  pend : List Pend := []
  copies : List CopyJob := []
  wins : Table Win := []
  /-- Result cache of performed ATOMICs: source, seq, old value (R533). -/
  results : List (BitVec 16 × Word × DWord × Bool) := []
  /-- Release counters whose receive slots of the next member have held a block (R316). -/
  filled : List Nat := []
  heldFlags : List Held := []
  groups : List Group := []
  windows : Table WinEntry := []
  /-- The sixteen bytes of each entry as registers last wrote them, in force or staged (R866). -/
  staged : Table (List Byte) := []
  lateDrops : Nat := 0
  /-- Requests dropped beyond their source's window (R534). -/
  beyondDrops : Nat := 0
  windowDrops : Nat := 0
  protectDrops : Nat := 0
  /-- Watches on host counters: counter, connection, threshold (R575). -/
  watches : List (Nat × Nat × Nat) := []
  /-- Device-set bitmap as the list of its endpoints (R557). -/
  deviceSet : List (BitVec 16) := []
  /-- Versions of gathered shards: tensor, step, digest (R669). -/
  versions : List (Nat × Nat × DWord) := []
  deriving DecidableEq, Repr

/-- States of a sequencer slot (R68). -/
inductive SlotSt where
  | idle | running | waiting | halted
  deriving DecidableEq, Repr

/-- A sequencer slot (R68). -/
structure Slot where
  st : SlotSt := .idle
  pc : Nat := 0
  regs : Table Word := []
  waitCtr : Nat := 0
  /-- Its wait is satisfied; the instruction retires when the crown's clock runs (R86, R87). -/
  released : Bool := false
  deriving DecidableEq, Repr

/-- One instruction of a tile program: the unit that it goes to (0 array, 1 thin path, 2 vector unit, 3 stationary loader, 4 copy engine,
5 combine unit, 6 sync counters, 7 the sequencer itself) and its encoding, which is the Cruise ROM's own (Chapter 02). -/
structure TInstr where
  unit : Nat
  code : List Byte
  deriving DecidableEq, Repr

/-- A stream that waits for its stationary set (R48): the slot that issued it, its outputs and rows. -/
structure Stream where
  slot : Nat
  acc : AccSpec
  rows : List Run
  deriving DecidableEq, Repr

/-- A child on its way to the node store (R54, R55): its output with the output's first child, child count and emit level, the level of the node
that it is (0 for a leaf) and the index of the first level-0 child that it covers, its value, the output tensor's element and write index, the unit
that formed it (1 array, 2 thin path, 0 another), the array rate of its pairing, and the operation of its nodes (R118). -/
structure Child where
  x : Nat
  first : Nat := 0
  n : Nat
  emit : Nat
  lvl : Nat := 0
  value : Word
  poisoned : Bool := false
  tensor : Nat := 0
  elem : Nat := 0
  leaf : Nat := 0
  w : Nat := 0
  unit : Nat := 0
  rate : Nat := 0
  kind : ReduceKind := .sum
  deriving DecidableEq, Repr

/-- A completed entry that the drain has not read (R57). -/
structure Done where
  x : Nat
  lvl : Nat
  value : Word
  poisoned : Bool
  tensor : Nat
  elem : Nat
  w : Nat
  deriving DecidableEq, Repr

/-- What one drain has sent up the vertical link: format, outputs, element codes, scales, and the outputs that carry poison (R57, R67). -/
structure Drained where
  fmt : Nat
  outs : List Nat
  codes : List Nat
  bscales : List Nat
  tscales : List Nat
  bad : List Nat
  deriving DecidableEq, Repr

/-- What the node store knows of an open output (R54): its first child, child count and emit level, and how many level-0 children are in. -/
structure OutCfg where
  first : Nat := 0
  n : Nat := 0
  emit : Nat := 0
  next : Nat := 0
  poisoned : Bool := false
  deriving DecidableEq, Repr

/-- A shadow-sampled leaf in check (R149 to R158). -/
structure Sample where
  tensor : Nat
  elem : Nat
  leaf : Nat
  value : Word
  fingerprint : Word
  drift : Bool
  deriving DecidableEq, Repr

/-- A node of the combine unit (R80): the running value, the next child and the children held. -/
structure CombineNode where
  acc : DWord := 0
  next : Nat := 0
  held : Table DWord := []
  poison : Bool := false
  deriving DecidableEq, Repr

/-- One tile (Chapter 02). Entries of the node store are keyed by output and level. -/
structure TileRec where
  slots : Table Slot := []
  /-- Programs in instruction memory, by phase and slot (R69, R70), and the phase whose programs the slots run. -/
  imem : Table (List (List TInstr)) := []
  phase : Nat := 0
  /-- Arrival counters of the phase's transfers, each with the count that the first operation waits for (R294). -/
  awaits : List (Nat × Nat) := []
  setA : List Run := []
  setB : List Run := []
  /-- The array computes from set B (R41); the inactive set is being loaded; the inactive set, and the active one, is fully loaded (R48). -/
  activeB : Bool := false
  loading : Bool := false
  loaded : Bool := false
  activeLoaded : Bool := false
  stalled : Option Stream := none
  vectors : List (List Run) := []
  /-- The thin path's pass in hand (R328): the first leaf of the chunk in the vector buffer, the weight rows done with it, and those of the pass's first chunk,
  0 while that runs. -/
  thinPass : Nat × Nat × Nat := (0, 0, 0)
  /-- The two turn buffers of the corner-turn unit, and whether the next block fills the second (R349). -/
  turnA : List (List Byte) := []
  turnB : List (List Byte) := []
  turnNext : Bool := false
  regs : Table (List Word) := []
  entries : Table (Nat × Nat) := []
  outs : Table OutCfg := []
  /-- Children that wait at the node store, by source: 0 array, 1 thin path, 2 leaf reducer, 3 root half. -/
  children : Table (List Child) := []
  completed : List Done := []
  drained : List Drained := []
  gated : BitVec 3 := 0
  crownGated : Bool := true
  samples : List Sample := []
  skippedSamples : Nat := 0
  nodes : Table CombineNode := []
  lastUnit : Table Nat := []
  retired : Nat := 0
  arrayBusy : Nat := 0
  uncorr : Nat := 0
  corr : Nat := 0
  deriving DecidableEq, Repr

/-- One HBM stack (Chapter 08). -/
structure StackRec where
  trained : Bool := false
  selfRefresh : Bool := false
  /-- Refresh rate in force and the one that the next refresh interval boundary brings, as 1, 2 or 4 (R364, R365). -/
  refresh : Nat := 1
  refreshNext : Nat := 1
  admission : Nat := 100
  /-- Retired stack pages, each with the page of the stack's spare pool that stands for it (R361). -/
  retired : Table Nat := []
  /-- Interface lanes that training has mapped to spare lanes (Table 08-2). -/
  remapped : List Nat := []
  poolFull : Bool := false
  uncorr : Nat := 0
  corr : Nat := 0
  patrol : Nat := 0
  due : Nat := 0
  /-- Rows under soft post-package repair until the next start (Table 08-5). -/
  softRows : List Nat := []
  readBytes : Nat := 0
  writeBytes : Nat := 0
  deriving DecidableEq, Repr

/-- Memories of the module: HBM and tile SRAM by local address (Table 08-6), poison, scrub positions (Chapter 08). -/
structure Mem where
  cells : List Host.Cell := []
  /-- Poisoned words by local address: 8-byte words in SRAM, 64-byte accesses in HBM (R338, R357), as a rising list. -/
  poison : List Nat := []
  scrub : Table Nat := []
  hbms : Table StackRec := []
  /-- Stacks whose contents a built-in self-test lost (Table 08-5): the free value's index and where the zeroed job region then ended. -/
  bist : Table (Nat × Nat) := []
  deriving DecidableEq, Repr

/-- The MTC and its discipline (R619 to R626). -/
structure Mtc where
  value : DWord := 0
  /-- Fraction of a nanosecond in units of 2^-32 and the correction per ns in the same units (R619). -/
  frac : Nat := 0
  rate : Int := 0
  locked : Bool := false
  everLocked : Bool := false
  rootRank : Nat := 0
  hops : Nat := 0
  parent : Option Nat := none
  /-- What each time-parent lane last reported: root rank, hops, locked (R621). -/
  reports : Table (Nat × Nat × Bool) := []
  /-- Phase still to be slewed, in units of 2^-32 ns (R623); last offset measured, ns. -/
  slew : Int := 0
  offset : Int := 0
  holdoverWritten : Bool := false
  deriving DecidableEq, Repr

/-- Section records of a Tally image (Chapter 05), parsed. -/
structure TensorRec where
  name : Nat
  rank : Nat
  fmt : Nat
  role : Nat
  blockPos : Nat
  replicated : Nat
  rule : Nat
  axes : List Nat
  depth : Nat
  flags : Nat
  deriving DecidableEq, Repr

/-- Op record (Table 05-6) with its axis list and parameter block. -/
structure OpRec where
  opcode : Nat
  variant : Nat
  flags : Nat
  phase : Nat
  ins : List Nat
  outs : List Nat
  axes : List Nat
  params : List Byte
  machine : Nat
  deriving DecidableEq, Repr

/-- Phase record (Table 05-4). -/
structure PhaseRec where
  kind : Nat
  first : Nat
  count : Nat
  deriving DecidableEq, Repr

/-- Condition record (R250). -/
structure CondRec where
  source : Nat
  compare : Nat
  type : Nat
  id : Nat
  constant : Nat
  deriving DecidableEq, Repr

/-- Promotion rule (R255). -/
structure PromoRule where
  tensor : Nat
  sat : Nat
  uf : Nat
  minConv : Nat
  ceiling : Nat
  mx6 : Nat
  mx8 : Nat
  deriving DecidableEq, Repr

/-- Program rule (R256). -/
structure ProgRule where
  cond : Nat
  action : Nat
  tensor : Nat
  value : Nat
  deriving DecidableEq, Repr

/-- Hint record (R259). -/
structure HintRec where
  kind : Nat
  value : Nat
  target : Nat
  deriving DecidableEq, Repr

/-- Safeguard block (R253), defaults applied. -/
structure Safeguards where
  tau : Word := 0x3F000000
  limit : Word := 0x7F800000
  skipLimit : Nat := 16
  mbInit : Nat := 1
  mbMax : Nat := 65535
  examples : Nat := 1
  normSource : Nat := 0xFFFFFFFF
  deriving DecidableEq, Repr

/-- A Tally image, parsed (Chapter 05). -/
structure Image where
  id : DWord := 0
  strings : List Byte := []
  machine : List (Nat × Nat) := []
  axes : List Nat := []
  tensors : List TensorRec := []
  ops : List OpRec := []
  phases : List PhaseRec := []
  initPhase : Option Nat := none
  lastStep : Nat := 0
  items : List (Nat × Nat) := []
  conds : List CondRec := []
  safe : Safeguards := {}
  promos : List PromoRule := []
  progs : List ProgRule := []
  hints : List HintRec := []
  deriving DecidableEq, Repr

/-- A tensor on one rank: its stored elements and scales (R96) and its state for the host (R802). -/
structure Tens where
  fmt : Nat := 0
  codes : List Nat := []
  bscales : List Nat := []
  tscales : List Nat := []
  generation : DWord := 0xFFFFFFFFFFFFFFFF
  /-- A step that may write it is in progress, or was abandoned (R802). -/
  busy : Bool := false
  /-- Writes in this step (R106) and, for an input, the iteration that it is marked written for (R800). -/
  writes : Nat := 0
  marked : Option Nat := none
  deriving DecidableEq, Repr

/-- A partial state of attention (R123): m, l and o. -/
structure AttState where
  m : Word
  l : Word
  o : List Word
  deriving DecidableEq, Repr

/-- Partial states of a query row that wait in ring_fold, by level and index, and the root once it is formed (R319). -/
structure RingAcc where
  held : List ((Nat × Nat) × AttState) := []
  root : Option AttState := none
  deriving DecidableEq, Repr

/-- A rotation under way on a position (R311): its ATTEND, the step that comes next, and each query row's partial states. -/
structure RingRun where
  pos : Nat
  op : Nat
  step : Nat := 0
  rows : List RingAcc := []
  /-- Arrival counters that the step waits for or has waited for, and those whose wait is satisfied (R318). -/
  asked : List Nat := []
  got : List Nat := []
  /-- dK and dV of the blocks that a backward rotation has finished with, by element (R324). -/
  dk : Table Word := []
  dv : Table Word := []
  deriving DecidableEq, Repr

/-- A ring pattern run as a rotation, as one of its members sees it (R308 to R317): the gather's op and the own position, the members' module
slots by group index with the own index, whether they lie in one tray (R312), the receive slots R, a block's bytes, the addresses of the own block
and of the receive slots, the landing tile, and its arrival counters and the release counters of the next member by receive slot; then the landing
tile and receive slots of the next member, and the landing tile of the one before it, whose blocks this member takes. -/
structure RingRec where
  op : Nat
  pos : Nat
  index : Nat
  members : List Nat
  oneTray : Bool
  slots : Nat
  bytes : Nat
  own : Nat
  places : List Nat
  tile : Nat
  arrival : List Nat
  release : List Nat
  nextTile : Nat
  nextPlaces : List Nat
  upTile : Nat
  deriving DecidableEq, Repr

/-- What placement chooses for one op on a rank's tile set: the unit (0 array, 1 thin path, 2 vector unit, 3 copy engines, 4 fabric and combine units,
5 none), the stationary operand, the emit level e, the tiles c that share an output block, the rows M per set, the tiles of a multicast group, the
tiles used, the tier that holds an ATTEND's partial states (R321), whether a gather's ring pattern is a rotation (R309), whether a reduction runs in
the tree (R604), its cost, the bytes streamed to the stream ports and the streamed bytes read from HBM (Table 06-7), and the bytes of partial states that
a tile holds (R321). -/
structure OpPlace where
  op : Nat
  unit : Nat
  stationary : Nat := 0
  emit : Nat := 0
  split : Nat := 1
  rows : Nat := 0
  group : Nat := 1
  tiles : Nat := 1
  stateTier : Nat := 0
  rotates : Bool := false
  inTree : Bool := false
  cost : Nat := 0
  streamed : Nat := 0
  hbmRead : Nat := 0
  held : Nat := 0
  deriving DecidableEq, Repr

/-- A transfer record (Table 06-5). -/
structure Transfer where
  tensor : Nat
  rankPos : Nat
  srcTile : Nat
  dstTile : Nat
  srcTier : Nat
  dstTier : Nat
  sha : Bool
  last : Bool
  counter : Nat
  srcOffset : Nat
  dstOffset : Nat
  length : Nat
  deriving DecidableEq, Repr

/-- A module plan for one count of virtual tiles (R268, R277 to R295): what each op runs as, the home tier of each tensor that a tier holds between
phases, what each phase forms again (tensor, ops), the transfer list of the boundary before each phase, each phase's cost in ps, peak bytes by tier and
phase, the pages of key/value caches (tensor, pages, bytes of a page), the hints ignored with their reasons, and the tier, bytes and phase that do not
fit. -/
structure ModPlan where
  n : Nat
  ops : List OpPlace := []
  /-- Bytes of each tensor on a rank, and the tiles that hold it where its home is tile SRAM. -/
  lens : List Nat := []
  holders : Table Nat := []
  /-- The numbers of tiles over which a tensor of tile SRAM lies in the step's phases. -/
  layouts : Table (List Nat) := []
  homes : Table Nat := []
  offloaded : List Nat := []
  redo : Table (List (Nat × List Nat)) := []
  transfers : Table (List Transfer) := []
  costs : List Nat := []
  peaks : List (List Nat) := []
  caches : List (Nat × Nat × Nat) := []
  ignored : List (Nat × Nat) := []
  misfit : Option (Nat × Nat × Nat) := none
  deriving DecidableEq, Repr

/-- The plan in force (Chapter 06): the job plan's cut, the module plans of every count in ascending order, and this module's share. -/
structure Plan where
  n : Nat := 0
  r : Nat := 0
  w : Nat := 0
  slot : Nat := 0
  fModule : List Nat := []
  fTray : List Nat := []
  fTree : List Nat := []
  countMask : BitVec 256 := 0
  /-- The other modules' counts at PLANNING by module slot (R267, R304). -/
  counts : List (Nat × Nat) := []
  tiles : List Nat := []
  tilesPerRank : Nat := 0
  helpers : Nat := 0
  shadow : List Nat := []
  mods : List ModPlan := []
  phaseDigests : List DWord := []
  digest : DWord := 0
  /-- Time from the origin of Table 06-6 to its step 5, in ns. -/
  planningNs : Nat := 0
  ignoredHints : List (Nat × Nat) := []
  /-- Bytes of each virtual tile's programs in the plan copies, phase by phase (R70). -/
  copyLens : List Nat := []
  rings : List RingRec := []
  deriving DecidableEq, Repr

/-- Job in hand (Chapters 04, 05, 14, 17). -/
structure Job where
  bytes : List Byte := []
  image : Option Image := none
  arriving : Option Nat := none
  tag : BitVec 16 := 0
  started : Bool := false
  restore : Bool := false
  roundSeed : Word := 0
  drawSeed : Word := 0
  k : Nat := 100
  firstStep : DWord := 0
  h : Nat := 10
  tDead : Nat := 20
  waitTimeout : Nat := 100000
  endHold : Nat := 0
  rankMap : List (BitVec 16) := []
  record : List Byte := []
  body : List Byte := []
  plan : Option Plan := none
  /-- When START_JOB was accepted (Table 06-6). -/
  planFrom : Nat := 0
  tensors : Table Tens := []
  /-- Current formats where they differ from the declared ones (R142). -/
  formats : Table Nat := []
  step : DWord := 0
  inInit : Bool := false
  /-- The step in hand has started (step 10 of Table 04-6a). -/
  stepOpen : Bool := false
  item : Nat := 0
  loopIter : Nat := 0
  iters : Nat := 0
  mb : Nat := 1
  phase : Option Nat := none
  /-- The phase whose boundary has started its programs and transfers, until it ends (R294). -/
  opened : Option Nat := none
  /-- Slots of the own tray whose ranks the spare has taken: no path between other slots leads through them (R325). -/
  lostSlots : List Nat := []
  opNext : List Nat := []
  rotations : List RingRun := []
  /-- FP32 results of loop-sum ops, by tensor key, one list per iteration in order (R206). -/
  loopSums : Table (List (List Word)) := []
  opRuns : Table Nat := []
  tallies : Table Tally := []
  lastLocal : Table Tally := []
  /-- The module-local tallies as the telemetry collector sampled them at the last tick (R134, R773). -/
  sampled : Table Tally := []
  reduced : Table Tally := []
  n2 : DWord := 0
  bNoise : DWord := 0x7FF8000000000000
  skip : Bool := false
  /-- N2 and the skip outcome of the step in hand once the guard has run (R164 to R166). -/
  n2Now : Option DWord := none
  skipNow : Bool := false
  /-- Input instances read in the step, by tensor key (Table 14-1), and positions whose await HOST_SIGNAL was released (R241). -/
  readIn : List Nat := []
  awaitDone : List Nat := []
  skipsRun : Nat := 0
  noise : Table DWord := []
  pairIndex : Nat := 0
  updateBegun : Bool := false
  /-- The last step whose update phase this module ran, or S after a restore (R669, R670). -/
  lastUpdate : DWord := 0
  drainHold : Bool := false
  /-- Positions that wait for an input instance (R191), and when a slot last made progress or such a wait last ended (R75, R571). -/
  waitingInput : List Nat := []
  progressAt : Nat := 0
  /-- Instruction memories replaced in the step in hand (R70, Table 06-7). -/
  replacements : Nat := 0
  rangeDrops : Nat := 0
  replayTo : Option Nat := none
  shardDigest : DWord := 0
  shardCount : Nat := 0
  deriving DecidableEq, Repr

/-- A snapshot slot of this module's own keeper area (Table 14-3): state (0 empty, 1 writing, 2 committed, 3 host-held), step, stream, digest list,
image ID, and the formats that the stream is in. -/
structure KeepSlot where
  st : Nat := 0
  step : DWord := 0
  bytes : List Byte := []
  digests : List (List Byte) := []
  imageId : DWord := 0
  formats : Table Nat := []
  deriving DecidableEq, Repr

/-- Recovery, journal and heartwood (Chapter 14). -/
structure Recov where
  /-- Journal ring of 262,144 records by place, the next place to write, and how many of the latest places this job has written (R630). -/
  journal : Table (List Byte) := []
  journalNext : Nat := 0
  journalMine : Nat := 0
  /-- Fault dumps by place of 64 MiB, and the next place (R573). -/
  dumps : Table (List Byte) := []
  dumpNext : Nat := 0
  snapshot : Option Nat := none
  previous : Option Nat := none
  saving : Option Nat := none
  /-- A snapshot trigger is due for this step (R635). -/
  triggerDue : Option Nat := none
  commits : Nat := 0
  ownA : KeepSlot := {}
  ownB : KeepSlot := {}
  attempt : Nat := 0
  window : Bool := false
  notices : List Notice := []
  last : List Notice := []
  toSend : Option (Notice × Nat) := none
  held : Bool := false
  /-- Substituted slots that no spare has filled (R668); the snapshot being restored and its chunks landed (R656). -/
  unfilled : List Nat := []
  rollbackTo : Option Nat := none
  restored : Table (List Byte) := []
  keeperOk : Bool := true
  replays : Nat := 0
  /-- Records of the step whose first replay differed from the journal (R662). -/
  firstReplay : List (List Byte) := []
  /-- Runs of a step that have ended or been abandoned, by step (Table 14-1, attempt). -/
  runs : Table Nat := []
  gapWritten : Bool := false
  /-- The keeper and the kept modules in force where a substitution has changed the ring's (R658, R663). -/
  keeper : Option (BitVec 16) := none
  kept : Option (List (BitVec 16)) := none
  /-- Records that this job has sent to its keeper's journal mirror (R630), and the chunks of a restore not yet asked for (R656). -/
  mirrored : Nat := 0
  toPull : List Nat := []
  deriving DecidableEq, Repr

/-- One child's contribution to a combine slot (R590, R596): its lane, lowest group index, digest and mismatch, and the parts of its fringe. -/
structure Contrib where
  lane : Nat
  lowest : Nat
  digest : DWord
  mismatch : Nat
  parts : Nat
  got : List Nat
  deriving DecidableEq, Repr

/-- A node of one element of a Flume operation (R594): element, level, index and value. -/
structure FNode where
  elem : Nat
  level : Nat
  index : Nat
  value : DWord
  deriving DecidableEq, Repr

/-- A relay's combine slot (R590 to R597): the descriptor's fields, the contributions and the nodes held, the data of a broadcast source, and
the packets sent upward. -/
structure FSlot where
  job : BitVec 16
  /-- Bits 31 to 24 and 7 to 0 of the header's aux: the use of the operation (R607) and the plane-pair index (R583). -/
  aux : Nat := 0
  group : Word
  seq : Word
  op : Nat
  type : Nat
  count : Nat
  kids : Nat
  top : Nat
  contribs : List Contrib := []
  nodes : List FNode := []
  source : Option (List DWord) := none
  sent : List Packet := []
  deriving DecidableEq, Repr

/-- A piece of a bulk chunk in a relay's buffers (R609, R610): the chunk and the piece's offset, the children by lowest group index with their
lanes and words, and the packets sent upward. -/
structure Chunk where
  job : BitVec 16
  group : Word
  chunk : Nat
  offset : Nat
  attempt : Nat
  children : List (Nat × Nat × List DWord) := []
  sent : List Packet := []
  deriving DecidableEq, Repr

/-- A Flume operation of this module in flight (R585, R589, R599): its group and sequence number, the op of the image that it belongs to and its part
in it (0 the op itself, 1 plane masks, 2 descriptor digest, 3 planes missed of a bulk reduction), its digest, the planes sent (bit 0 p, bit 1 p + 64),
the packets sent, the result once it has come, and the positions that have taken it. -/
structure FOp where
  group : Word
  seq : Word
  op : Nat
  part : Nat
  digest : DWord
  planes : Nat
  packets : List Packet := []
  result : Option (List DWord) := none
  taken : List Nat := []
  deriving DecidableEq, Repr

/-- A chunk of a bulk reduction at its member (R606 to R612): plane, X elements, state (0 waiting, 1 sent, 2 arrived, 3 missing), pieces. -/
structure BChunk where
  chunk : Nat
  plane : Nat
  elems : List Nat
  owner : Nat
  st : Nat := 0
  pieces : Table (List Byte) := []
  deriving DecidableEq, Repr

/-- A bulk reduction of this module in the tree (R604 to R612): group and sequence number of its latest Flume operation, the op of the image, its
kind (0x10 reduce, 0x11 reduce-scatter) and stage (0 plane masks, 1 descriptor digest, 2 chunks, 3 missing planes, 4 left to the copy engines,
5 done), Flume op and type codes, own contribution by X element, the slices with their owners, the agreed planes, the attempt, and the positions that
have taken the result. -/
structure Bulk where
  group : Word
  seq : Word
  op : Nat
  pos : Nat
  kind : Nat
  stage : Nat := 0
  fop : Nat
  type : Nat
  lowest : Nat
  words : List DWord
  slices : List (Nat × List Nat)
  planes : List Nat
  attempt : Nat := 0
  chunks : List BChunk := []
  taken : List Nat := []
  deriving DecidableEq, Repr

/-- Flume and bulk reductions (Chapter 13): a relay's slots and buffers, this module's operations, the next sequence number of each group, and the
packets that a relay has refused and that go again 1 µs later (R592, R609). -/
structure Flume where
  slots : List FSlot := []
  chunks : List Chunk := []
  ops : List FOp := []
  bulks : List Bulk := []
  seqs : Table Nat := []
  resend : List Packet := []
  deriving DecidableEq, Repr

/-- A Hauler connection or Warden session (R784 to R790). -/
structure Conn where
  notices : Bool := false
  rxNext : Word := 0
  rxSeen : List Nat := []
  /-- Messages in part: message ID, segments received by rising offset, the whole length once the last segment is in. -/
  parts : List (Nat × List (Nat × List Byte) × Option Nat) := []
  /-- Whole requests not yet performed: message ID and bytes, by rising ID (R790). -/
  done : List (Nat × List Byte) := []
  txNext : Word := 0
  /-- DATA packets unacknowledged: seq, retransmission timeout in µs, resent for a sack gap (R786). -/
  unacked : List (Nat × Nat × Bool) := []
  window : Nat := 64
  /-- Sequence number whose acknowledgement ends the round trip in hand (R787). -/
  roundEnd : Word := 0
  unackedRx : Nat := 0
  /-- Replies and notices that wait for the send window, oldest first. -/
  queue : List Out := []
  /-- Segments of the oldest waiting message that have been sent. -/
  sent : Nat := 0
  /-- Kinds of notice of which one has been discarded since the last of that kind was queued (R806). -/
  lostKinds : List Nat := []
  deriving DecidableEq, Repr

/-- Host port transport and management sessions (Chapter 17). -/
structure Hauler where
  conns : Table Conn := []
  nextConn : Nat := 1
  sessions : List Nat := []
  deriving DecidableEq, Repr

/-- One path's copies of the selectors and latches (R853, R854, R865). -/
structure View where
  faultSel : Word := 0
  faultRec : Option FaultRec := none
  dlinkSel : Word := 0
  ftSel : Word := 0
  telSel : Word := 0
  tallySel : Word := 0
  sensorSel : Word := 0
  /-- The pair last read by its _LO word and the _HI word latched (R853). -/
  latch : Option (Nat × Word) := none
  deriving DecidableEq, Repr

/-- Register-map state that no unit holds (Chapter 19). -/
structure Regs where
  scratch : Word := 0
  events : Word := 0
  faultNew : Nat := 0
  groupMask : Table (BitVec 256) := []
  views : List (Path × View) := []
  /-- For each code with which a request has been refused since the last tick: how many, and the record that the tick writes (R877). -/
  refused : List (Nat × FaultRec) := []
  ftSwitchLo : Word := 0
  ftSwitchHi : Word := 0
  deriving DecidableEq, Repr

/-- JTAG instructions (Table 18-7). -/
inductive JInstr where
  | bypass | idcode | sample | extest | clamp | highz | ctrl | ledger
  deriving DecidableEq, Repr

/-- Test access port (R838 to R841): the instruction held, the boundary register, what its cells last captured, what the last CTRL_ACCESS or IDCODE
captured (R850), and the bytes that the last LEDGER_READ read. -/
structure Jtag where
  ir : JInstr := .idcode
  boundary : BitVec 25 := 0
  sampled : BitVec 25 := 0
  capture : BitVec 81 := 0
  ledger : List Byte := []
  deriving DecidableEq, Repr

/-- The whole module. `pending` is the queue of commands that wait, first in, first out. -/
structure State where
  pending : List Instr := []
  /-- Time in ns since the model's origin (the model's own field). -/
  time : Nat := 0
  /-- How many free values have been drawn (the model's own field). -/
  draws : Nat := 0
  out : List Out := []
  /-- Fault records held, newest first, at most 256 (R865). -/
  faults : List FaultRec := []
  pins : Pins := {}
  dev : Dev := {}
  heat : Heat := {}
  bark : Bark := {}
  stump : Stump := {}
  optics : Optics := {}
  stacking : Stacking := {}
  fabric : Fabric := {}
  remote : Remote := {}
  tiles : Table TileRec := []
  mem : Mem := {}
  mtc : Mtc := {}
  job : Job := {}
  recov : Recov := {}
  flume : Flume := {}
  hauler : Hauler := {}
  regs : Regs := {}
  jtag : Jtag := {}
  deriving DecidableEq, Repr

/-- The module right after VAUX has come on: LOOKOUT with nothing started (Table 01-5, R677), every register at its reset value
(Tables 19-4 to 19-14), and Bark and Stump as the log's entries 2 and 3 name them. -/
def State.reset : State := {}

end Sys2Proof.Machine
end

