-- ==== Sys2Proof/Machine/Bits.lean ====
section
/-! DEFINITION. Bytes and words: little-endian fields (R10), sparse tables, CRC-32 and CRC-32C (R378, R437, R464), SHA-256 and Philox4x32-10
(R106). Everything is structural recursion over lists and natural-number arithmetic. -/
namespace Sys2Proof.Machine

/-- Value of a little-endian byte string (R10). -/
def leNat : List Byte → Nat
  | [] => 0
  | b :: bs => b.toNat + 256 * leNat bs

/-- The low `k` bytes of `n`, least significant first (R10). -/
def leBytes : Nat → Nat → List Byte
  | 0, _ => []
  | k + 1, n => BitVec.ofNat 8 n :: leBytes k (n / 256)

/-- `len` bytes from offset `off`. -/
def slice {α : Type} (bs : List α) (off len : Nat) : List α := (bs.drop off).take len

/-- The little-endian field of `len` bytes at offset `off`. -/
def field (bs : List Byte) (off len : Nat) : Nat := leNat (slice bs off len)

/-- `bs` with the bytes of `new` put at offset `off`. -/
def splice {α : Type} (bs : List α) (off : Nat) (new : List α) : List α :=
  bs.take off ++ new ++ bs.drop (off + new.length)

/-- Bits `hi` to `lo` of `n`. -/
def bits (n hi lo : Nat) : Nat := n / 2 ^ lo % 2 ^ (hi + 1 - lo)

/-- The entry of key `k`, or the default `d`. -/
def tget {α : Type} : Table α → Nat → α → α
  | [], _, d => d
  | (j, v) :: m, k, d => if j = k then v else tget m k d

/-- Removes the entry of key `k`. -/
def tdel {α : Type} : Table α → Nat → Table α
  | [], _ => []
  | (j, v) :: m, k => if j = k then tdel m k else (j, v) :: tdel m k

/-- Puts entry `(k, v)` in its place among rising keys. -/
def tput {α : Type} : Table α → Nat → α → Table α
  | [], k, v => [(k, v)]
  | (j, u) :: m, k, v => if j < k then (j, u) :: tput m k v else if j = k then (k, v) :: m else (k, v) :: (j, u) :: m

/-- Sets key `k` to `v`; a value equal to the default `d` leaves no entry, so that equal tables are equal data. -/
def tset {α : Type} [DecidableEq α] (m : Table α) (k : Nat) (v d : α) : Table α :=
  if v = d then tdel m k else tput m k v

/-- Inserts `n` into a rising list without repeats. -/
def sinsert : List Nat → Nat → List Nat
  | [], n => [n]
  | m :: ms, n => if m < n then m :: sinsert ms n else if m = n then m :: ms else n :: m :: ms

/-- Replaces element `i` of a list. -/
def lset {α : Type} : List α → Nat → α → List α
  | [], _, _ => []
  | _ :: xs, 0, v => v :: xs
  | x :: xs, i + 1, v => x :: lset xs i v

/-- Element `i` of a list, or `d`. -/
def nth {α : Type} (xs : List α) (i : Nat) (d : α) : α := (xs[i]?).getD d

/-- The last `n` elements of a list, in order. -/
def lastOf {α : Type} (n : Nat) (xs : List α) : List α := (xs.reverse.take n).reverse

/-- Sum of a list. -/
def sumNat (xs : List Nat) : Nat := xs.foldl (· + ·) 0

/-- Number of bits set among the low `k` bits. -/
def popcount : Nat → Nat → Nat
  | 0, _ => 0
  | k + 1, n => n % 2 + popcount k (n / 2)

/-- Indices of the bits set among the low `k` bits, rising. -/
def bitList (k n : Nat) : List Nat := (List.range k).filter fun i => n.testBit i

/-- Mask of a list of bit indices. -/
def maskOf (is : List Nat) : Nat := is.foldl (fun m i => m ||| 2 ^ i) 0

/-- One step of a reflected CRC with polynomial `poly`, eight bits of a byte. -/
def crcByte (poly : Nat) : Nat → Nat → Nat
  | 0, c => c
  | k + 1, c => crcByte poly k (if c % 2 = 1 then (c / 2) ^^^ poly else c / 2)

/-- Reflected 32-bit CRC with all-ones start and final complement. -/
def crcWith (poly : Nat) (bs : List Byte) : Nat :=
  (bs.foldl (fun c b => crcByte poly 8 (c ^^^ b.toNat)) 0xFFFFFFFF) ^^^ 0xFFFFFFFF

/-- CRC-32 with the IEEE 802.3 polynomial. -/
def crc32 (bs : List Byte) : Nat := crcWith 0xEDB88320 bs
/-- CRC-32C (Castagnoli). -/
def crc32c (bs : List Byte) : Nat := crcWith 0x82F63B78 bs

/-- Big-endian value of bytes, as SHA-256 reads its words. -/
def beNat (bs : List Byte) : Nat := bs.foldl (fun a b => a * 256 + b.toNat) 0

/-- The low `k` bytes of `n`, most significant first. -/
def beBytes (k n : Nat) : List Byte := (leBytes k n).reverse

/-- The e-th root of `n`, rounded down, from its bit `b - 1` on, bit by bit. -/
def rootBits (e n : Nat) : Nat → Nat → Nat
  | 0, r => r
  | b + 1, r => rootBits e n b (if (r + 2 ^ b) ^ e ≤ n then r + 2 ^ b else r)

/-- The first 32 bits of the fraction of the e-th root of `p`. -/
def rootFraction (e p : Nat) : Nat := rootBits e (p * 2 ^ (32 * e)) 37 0 % 2 ^ 32

/-- The first 64 primes, 2 to 311. -/
def primes64 : List Nat := (List.range 312).filter fun n => decide (2 ≤ n) && (List.range 16).all fun d => decide (n < (d + 2) * (d + 2)) || n % (d + 2) != 0

/-- SHA-256's round constants and first state (FIPS 180-4): fractions of the cube roots of the first 64 primes, of the square roots of the first 8. -/
def shaK : List Nat := primes64.map (rootFraction 3)
def shaStart : List Nat := (primes64.take 8).map (rootFraction 2)

/-- Rotation right of a 32-bit value. -/
def rotr (x n : Nat) : Nat := (x / 2 ^ n) ||| (x * 2 ^ (32 - n) % 2 ^ 32)

/-- Message schedule: `k` further words after the sixteen of the window. -/
def shaExtend : Nat → List Nat → List Nat
  | 0, _ => []
  | k + 1, w =>
    let w15 := nth w 1 0
    let w2 := nth w 14 0
    let s0 := rotr w15 7 ^^^ rotr w15 18 ^^^ (w15 / 8)
    let s1 := rotr w2 17 ^^^ rotr w2 19 ^^^ (w2 / 1024)
    let x := (nth w 0 0 + s0 + nth w 9 0 + s1) % 2 ^ 32
    x :: shaExtend k (w.drop 1 ++ [x])

/-- The rounds of one block. -/
def shaRounds : List (Nat × Nat) → List Nat → List Nat
  | (k, w) :: r, [a, b, c, d, e, f, g, h] =>
    let t1 := h + (rotr e 6 ^^^ rotr e 11 ^^^ rotr e 25) + ((e &&& f) ^^^ ((0xFFFFFFFF ^^^ e) &&& g)) + k + w
    let t2 := (rotr a 2 ^^^ rotr a 13 ^^^ rotr a 22) + ((a &&& b) ^^^ (a &&& c) ^^^ (b &&& c))
    shaRounds r [(t1 + t2) % 2 ^ 32, a, b, c, (d + t1) % 2 ^ 32, e, f, g]
  | _, st => st

/-- One block's compression. -/
def shaBlock (st : List Nat) (block : List Byte) : List Nat :=
  let w := (List.range 16).map fun i => beNat (slice block (4 * i) 4)
  let ws := w ++ shaExtend 48 w
  List.zipWith (fun a b => (a + b) % 2 ^ 32) st (shaRounds (shaK.zip ws) st)

/-- The blocks of a padded message. -/
def shaBlocks : Nat → List Byte → List Nat → List Nat
  | 0, _, st => st
  | k + 1, m, st => shaBlocks k (m.drop 64) (shaBlock st (m.take 64))

/-- SHA-256 (FIPS 180-4). -/
def sha256 (m : List Byte) : List Byte :=
  let pad := (119 - m.length % 64) % 64
  let p := m ++ [0x80] ++ List.replicate pad 0 ++ beBytes 8 (8 * m.length)
  (shaBlocks (p.length / 64) p shaStart).flatMap (beBytes 4)

/-- Bytes 0 to 7 of SHA-256, read little-endian, as plan, shard, journal and Flume digests take them (R159, R296). -/
def digest8 (m : List Byte) : DWord := BitVec.ofNat 64 (leNat ((sha256 m).take 8))

/-- Philox4x32-10 (R106): ten rounds on the counter `c` under the key `k`. -/
def philoxRounds : Nat → (Nat × Nat) → (Nat × Nat × Nat × Nat) → (Nat × Nat × Nat × Nat)
  | 0, _, c => c
  | n + 1, (k0, k1), (c0, c1, c2, c3) =>
    let p0 := 0xD2511F53 * c0
    let p1 := 0xCD9E8D57 * c2
    philoxRounds n ((k0 + 0x9E3779B9) % 2 ^ 32, (k1 + 0xBB67AE85) % 2 ^ 32)
      ((p1 / 2 ^ 32) ^^^ c1 ^^^ k0, p1 % 2 ^ 32, (p0 / 2 ^ 32) ^^^ c3 ^^^ k1, p0 % 2 ^ 32)

/-- Output word `i` (0 to 3) of Philox4x32-10. -/
def philox (k0 k1 c0 c1 c2 c3 i : Nat) : Nat :=
  let (a, b, c, d) := philoxRounds 10 (k0 % 2 ^ 32, k1 % 2 ^ 32) (c0 % 2 ^ 32, c1 % 2 ^ 32, c2 % 2 ^ 32, c3 % 2 ^ 32)
  if i = 0 then a else if i = 1 then b else if i = 2 then c else d

/-! ### Sorting -/

def insertBy {α : Type} (le : α → α → Bool) (x : α) : List α → List α
  | [] => [x]
  | y :: ys => if le x y then x :: y :: ys else y :: insertBy le x ys
/-- Insertion sort; elements that are equal in the order keep their places. -/
def sortBy {α : Type} (le : α → α → Bool) (xs : List α) : List α := xs.foldr (insertBy le) []

end Sys2Proof.Machine
end

