-- ==== Sys2Proof/Machine/Codes.lean ====
section
/-! DEFINITION. Codes: the fault codes of Tables 04-6, 05-13, 06-8, 08-8, 09-9, 10-8, 11-6, 12-7, 13-8, 14-8, 15-14, 16-16, 17-8 and 19-15,
state codes, role codes and the packet opcodes. -/
namespace Sys2Proof.Machine

abbrev errSyncUnderflow : Nat := 0x0101
abbrev errSyncDoubleSet : Nat := 0x0102
abbrev errSyncOverflow : Nat := 0x0103
abbrev errWaitTimeout : Nat := 0x0104
abbrev errWatchdog : Nat := 0x0105
abbrev errRemoteDead : Nat := 0x0201
abbrev errProtection : Nat := 0x0203
abbrev errRemoteKind : Nat := 0x0204
abbrev errJobTag : Nat := 0x0205
abbrev errCollMismatch : Nat := 0x0301
abbrev errFlumeTimeout : Nat := 0x0302
abbrev errFlumeGroups : Nat := 0x0303
abbrev errReduceFailed : Nat := 0x0304
abbrev errStateConflict : Nat := 0x0401
abbrev errImageFormat : Nat := 0x0410
abbrev errImageVersion : Nat := 0x0411
abbrev errImageDigest : Nat := 0x0412
abbrev errImageSignature : Nat := 0x0413
abbrev errImageLimit : Nat := 0x0414
abbrev errImageInvalid : Nat := 0x0415
abbrev errInstanceBusy : Nat := 0x0420
abbrev errStartDisagree : Nat := 0x0421
abbrev errHaulerInvalid : Nat := 0x0422
abbrev errHaulerDenied : Nat := 0x0423
abbrev errStaleGather : Nat := 0x0501
abbrev errJournalSkew : Nat := 0x0502
abbrev errDigestMismatch : Nat := 0x0503
abbrev errPlanDisagree : Nat := 0x0504
abbrev errPlanRom : Nat := 0x0510
abbrev errPlanShape : Nat := 0x0511
abbrev errPlanFit : Nat := 0x0512
abbrev errRecoveryDisagree : Nat := 0x0520
abbrev errRecoveryRepeat : Nat := 0x0521
abbrev errNoRollback : Nat := 0x0522
abbrev errHeartwoodLost : Nat := 0x0523
abbrev errRepairTimeout : Nat := 0x0524
abbrev errSnapshotSkipped : Nat := 0x0525
abbrev errModuleLost : Nat := 0x0526
abbrev errReplayInput : Nat := 0x0527
abbrev errJournalGap : Nat := 0x0528
abbrev errLinkMiswired : Nat := 0x0601
abbrev errLinkVersion : Nat := 0x0602
abbrev errLaneDown : Nat := 0x0610
abbrev errLinkLong : Nat := 0x0611
abbrev errPortNarrow : Nat := 0x0612
abbrev errLaserLow : Nat := 0x0613
abbrev errHostPortDown : Nat := 0x0614
abbrev errRouteUnreachable : Nat := 0x0620
abbrev errTableEpoch : Nat := 0x0621
abbrev errTableBusy : Nat := 0x0622
abbrev errPacketCrc : Nat := 0x0623
abbrev errMtcHoldover : Nat := 0x0630
abbrev errMtcRoot : Nat := 0x0631
abbrev errLinkExtra : Nat := 0x0640
abbrev errLinkRemapped : Nat := 0x0641
abbrev errQuadrantLost : Nat := 0x0701
abbrev errLaneDegraded : Nat := 0x0702
abbrev errDieLinkFenced : Nat := 0x0703
abbrev errSeamFenced : Nat := 0x0704
abbrev errRepairMapFull : Nat := 0x0705
abbrev errSramUncorr : Nat := 0x0720
abbrev errHbmUncorr : Nat := 0x0721
abbrev errAddrUnmapped : Nat := 0x0722
abbrev errHbmPool : Nat := 0x0723
abbrev errShadowDrift : Nat := 0x0801
abbrev errReplicaDiverge : Nat := 0x0802
abbrev errBlockAxis : Nat := 0x0803
abbrev errPromoteCeiling : Nat := 0x0804
abbrev errGradSkipLimit : Nat := 0x0805
abbrev errSafeguardLimit : Nat := 0x0806
abbrev errReplayDecision : Nat := 0x0807
abbrev errBcastRead : Nat := 0x0901
abbrev errRegUnmapped : Nat := 0x0902
abbrev errRegOff : Nat := 0x0903
abbrev errRegPath : Nat := 0x0904
abbrev errRegValue : Nat := 0x0905
abbrev errThermTrip : Nat := 0x0A01
abbrev errSensorSuspect : Nat := 0x0A02
abbrev errNotchFloor : Nat := 0x0A03
abbrev errV48Range : Nat := 0x0A04
abbrev errWardenReset : Nat := 0x0A05
abbrev errAuxclk : Nat := 0x0A06
abbrev errLedgerWrite : Nat := 0x0A07
abbrev errRingFormat : Nat := 0x0B01
abbrev errRingSignature : Nat := 0x0B02
abbrev errRingFloor : Nat := 0x0B03
abbrev errRingCheck : Nat := 0x0B04
abbrev errRingFallback : Nat := 0x0B05
abbrev errRingNone : Nat := 0x0B06
abbrev errStartDegraded : Nat := 0x0B07
abbrev errStartHold : Nat := 0x0B08
abbrev errBark : Nat := 0x0B09
abbrev errIdentity : Nat := 0x0B0A
abbrev errQuoteBusy : Nat := 0x0B0B

/-- State codes (R29). -/
def stCode : DevState → Nat
  | .lookout => 0x0 | .starting => 0x1 | .ready => 0x2 | .loading => 0x3 | .planning => 0x4 | .running => 0x5
  | .draining => 0x6 | .faulted => 0x8 | .filling => 0x9 | .quarantined => 0xA | .relaying => 0xB

/-- Role codes (Table 15-6). -/
def roleCode : Role → Nat
  | .working => 0 | .spare => 1 | .leaf => 2 | .spine => 3 | .core => 4

/-- Variant codes (Table 19-14). -/
def variantCode : Variant → Nat
  | .ca => 0 | .cb => 1 | .fa => 2

/-- States of a Stump slot (Table 15-5). -/
def slotCode : SlotState → Nat
  | .empty => 0 | .writing => 1 | .staged => 2 | .active => 3 | .previous => 4 | .failed => 5

/-- A relay role (Table 01-3). -/
def Role.isRelay : Role → Bool
  | .leaf => true | .spine => true | .core => true | .working => false | .spare => false

/-- VC codes (Table 11-2). -/
def vcCode : VC → Nat
  | .req => 0 | .reqE => 1 | .rsp => 2 | .rspE => 3 | .flume => 4 | .ctrl => 5

/-- Source-unit kinds of a fault record (R865). -/
abbrev uDevice : Nat := 0
abbrev uTile : Nat := 1
abbrev uStack : Nat := 2
abbrev uLane : Nat := 3
abbrev uSeam : Nat := 4
abbrev uWarden : Nat := 5
abbrev uFirewatch : Nat := 6
abbrev uCruise : Nat := 7
abbrev uCombine : Nat := 8
/-- No waiter, peer or tensor. -/
abbrev none32 : Nat := 0xFFFFFFFF

end Sys2Proof.Machine
end

