-- ==== Sys2Proof/Machine/Ops.lean ====
section
/-! DEFINITION. Operations that several commands share: state changes, sending, replies and notices, fault records, ledger events, stopping a
job and declaring a failure, the parts' tables and the reset of a domain. -/
namespace Sys2Proof.Machine

/-- Twelve detail bytes of a fault record, from (value, size) fields (R865). -/
def detail (fs : List (Nat × Nat)) : List Byte :=
  ((fs.flatMap fun (v, n) => leBytes n v) ++ List.replicate 12 0).take 12

/-- A signed value as the pattern of a field of `n` bytes. -/
def signedField (n : Nat) (v : Int) : Nat := (v % (2 ^ (8 * n) : Nat)).toNat

/-- Quadrant of tile `t` (R12, R13). -/
def quadOf (t : Nat) : Nat := 2 * (t / 128) + t % 16 / 8

/-- The tiles of quadrant `q`. -/
def quadTiles (q : Nat) : List Nat := (List.range 256).filter fun t => quadOf t == q

/-- Quadrant of lane `l` (R15) and of stack `m` (R14): four stacks and 36 lanes to a quadrant. -/
def laneQuad (l : Nat) : Nat := l / 36
def stackQuad (m : Nat) : Nat := m / 4

/-- Quadrant of optical engine `e`: OE00 to OE02 Q0, OE03 to OE05 Q2, OE06 to OE08 Q1, OE09 to OE11 Q3, and OE12, the host engine, Q0 (Table 00-5). -/
def engineQuad (e : Nat) : Nat := [0, 2, 1, 3].getD (e / 3) 0

/-- Engine that carries lane `l` (R15): the three engines of its quadrant in the order of Table 00-5, twelve lanes each. -/
def engineOf (l : Nat) : Nat := 3 * engineQuad (3 * laneQuad l) + l % 36 / 12

/-- First of the twelve lanes of engine `e` below 12 (R15). -/
def engineLane (e : Nat) : Nat := 36 * engineQuad e + 12 * (e % 3)

/-- Whether key `k` has an entry. -/
def thas {α : Type} (m : Table α) (k : Nat) : Bool := m.any fun e => e.1 == k

/-- Applies `f` to every entry of a table. -/
def tmap {α : Type} (m : Table α) (f : Nat → α → α) : Table α := m.map fun e => (e.1, f e.1 e.2)

/-- Saturating increment at `lim`. -/
def satInc (lim n : Nat) : Nat := if n < lim then n + 1 else lim

/-- Updates the entry of `k` whose default is `d`. -/
def tupd {α : Type} [DecidableEq α] (m : Table α) (k : Nat) (d : α) (f : α → α) : Table α := tset m k (f (tget m k d)) d

/-- The module carries relay roles (Table 00-1). -/
def isFA (s : State) : Bool := s.bark.made.variant == .fa

/-- Tiles enabled at manufacture: all 256 of a ULS-9640-CA, those of the manufacturing record on a ULS-9640-CB, none on a ULS-9640-FA, which
has root halves only (Table 00-1, R3). -/
def enabledTiles (m : Made) : BitVec 256 :=
  match m.variant with
  | .ca => BitVec.allOnes 256
  | .cb => m.enabled
  | .fa => 0

/-- Tile `t` is enabled and not fenced: its place in the tile map that placement uses (R20). -/
def tileMapped (s : State) (t : Nat) : Bool := (enabledTiles s.bark.made).getLsbD t && !s.stacking.fenced.getLsbD t

/-- Tile `t` is in the tile map and its quadrant is not lost. -/
def tileUsable (s : State) (t : Nat) : Bool := tileMapped s t && !s.dev.qLost.getLsbD (quadOf t)

/-- Number of enabled, unfenced tiles. -/
def usableTiles (s : State) : Nat := (List.range 256).countP (tileMapped s)

/-- The tiles whose crowns the idle-time exerciser drives in the test at hand (R88, R673): so many of each quadrant. The spec does not say which:
DESIGN CHOICE (log 67), the first usable ones. -/
def drivenTiles (s : State) : List Nat :=
  match s.heat.exerciser with
  | (_, _, n) :: _ =>
    if s.dev.st = .ready ∨ s.dev.st = .quarantined then (List.range 4).flatMap fun q => ((quadTiles q).filter (tileUsable s)).take n else []
  | [] => []

/-- Records by part, with their defaults. -/
def tile (s : State) (t : Nat) : TileRec := tget s.tiles t {}
def setTile (t : Nat) (r : TileRec) (s : State) : State := { s with tiles := tset s.tiles t r {} }
def updTile (t : Nat) (f : TileRec → TileRec) (s : State) : State := setTile t (f (tile s t)) s
def lane (s : State) (l : Nat) : LaneRec := tget s.optics.lanes l {}
def setLane (l : Nat) (r : LaneRec) (s : State) : State := { s with optics.lanes := tset s.optics.lanes l r {} }
def updLane (l : Nat) (f : LaneRec → LaneRec) (s : State) : State := setLane l (f (lane s l)) s
def link (s : State) (k : Nat) : Link := tget s.optics.links k {}
def setLink (k : Nat) (r : Link) (s : State) : State := { s with optics.links := tset s.optics.links k r {} }
def hbm (s : State) (m : Nat) : StackRec := tget s.mem.hbms m {}
def setHbm (m : Nat) (r : StackRec) (s : State) : State := { s with mem.hbms := tset s.mem.hbms m r {} }
def updHbm (m : Nat) (f : StackRec → StackRec) (s : State) : State := setHbm m (f (hbm s m)) s
def dlink (s : State) (k : Nat) : DLink := tget s.stacking.links k {}
def setDlink (k : Nat) (r : DLink) (s : State) : State := { s with stacking.links := tset s.stacking.links k r {} }
def notch (s : State) (q : Nat) : Notch := tget s.heat.notches q {}
def setNotch (q : Nat) (r : Notch) (s : State) : State := { s with heat.notches := tset s.heat.notches q r {} }
def slot (r : TileRec) (k : Nat) : Slot := tget r.slots k {}
def setSlot (k : Nat) (v : Slot) (r : TileRec) : TileRec := { r with slots := tset r.slots k v {} }

/-- Appends to what the block has sent. -/
def emit (o : Out) (s : State) : State := { s with out := s.out ++ [o] }

/-- Takes one free value's index. -/
def draw (s : State) : Nat × State := (s.draws, { s with draws := s.draws + 1 })

/-! ### Output lands -/

/-- READY land (Table 01-4, R820): low without VAUX. -/
def readyLand (s : State) : Bool :=
  s.pins.vaux && match s.dev.st with
    | .lookout => false | .starting => false | .faulted => false | .quarantined => false
    | .ready => true | .loading => true | .planning => true | .running => true | .draining => true
    | .filling => true | .relaying => true

/-- FAULT_N land: low in FAULTED and QUARANTINED while VAUX is on. -/
def faultNLand (s : State) : Bool :=
  !(s.pins.vaux && (s.dev.st == .faulted || s.dev.st == .quarantined))

/-! ### Sending on Hauler connections and Warden sessions -/

/-- Segments that a message of `n` body bytes takes: 16 B of message header, 8,192 B a segment (R783, Table 17-2). -/
def segments (n : Nat) : Nat := (n + 16 + 8191) / 8192

/-- Body length of a queued message. -/
def outBody : Out → Nat
  | .reply _ _ _ b => b.length
  | .notify _ _ _ _ _ _ p => 24 + p.length
  | _ => 0

/-- Bit i is set when seq `rxNext` + 1 + i has been received (Table 17-1). -/
def sackOf (c : Conn) : DWord :=
  BitVec.ofNat 64 (maskOf ((List.range 64).filter fun i => c.rxSeen.contains ((c.rxNext.toNat + 1 + i) % 2 ^ 32)))

/-- Connection `k` sends `n` segments: each is a DATA packet with the ack and sack of this moment, awaiting acknowledgement at 200 µs (R785, R786). -/
def sendSegments (k n : Nat) (c : Conn) : Conn × List Out :=
  ({ c with
      txNext := c.txNext + BitVec.ofNat 32 n, unackedRx := 0
      unacked := c.unacked ++ (List.range n).map fun i => ((c.txNext.toNat + i) % 2 ^ 32, 200, false) },
    (List.range n).map fun i => .hauler 2 k c.rxNext (sackOf c) (c.txNext + BitVec.ofNat 32 i))

/-- Sends queued messages as far as the send window goes (R787), segment by segment. -/
def pumpConn (k : Nat) : List Out → Conn → Conn × List Out
  | [], c => ({ c with queue := [] }, [])
  | o :: q, c =>
    let n := segments (outBody o) - c.sent
    let room := c.window - c.unacked.length
    if n ≤ room then
      let (c, hs) := sendSegments k n c
      let (c, os) := pumpConn k q { c with sent := 0 }
      (c, hs ++ o :: os)
    else if room = 0 then ({ c with queue := o :: q }, [])
    else
      let (c, hs) := sendSegments k room c
      ({ c with queue := o :: q, sent := c.sent + room }, hs)

/-- The connections after connection `k` has sent what it has queued, and what it sends. -/
def pumpTable (k : Nat) (conns : Table Conn) : Table Conn × List Out :=
  if thas conns k then
    let r := pumpConn k (tget conns k {}).queue (tget conns k {})
    (tput conns k r.1, r.2)
  else (conns, [])

/-- Changes the connections and sends what that lets go; nothing else changes. -/
def withConns (r : Table Conn × List Out) (s : State) : State := { s with hauler.conns := r.1, out := s.out ++ r.2 }

/-- Sends what connection `k` has queued. -/
def pump (k : Nat) (s : State) : State := withConns (pumpTable k s.hauler.conns) s

/-- Queues a message on connection `k`, if it is open, and sends what the window lets go. -/
def sendTable (k : Nat) (o : Out) (conns : Table Conn) : Table Conn × List Out :=
  if thas conns k then
    let c := tget conns k {}
    pumpTable k (tput conns k { c with queue := c.queue ++ [o] })
  else (conns, [])
def sendOn (k : Nat) (o : Out) (s : State) : State := withConns (sendTable k o s.hauler.conns) s

/-- Replies to a Hauler request (R790). -/
def reply (r : Req) (status : Nat) (body : List Byte) (s : State) : State :=
  sendOn r.conn (.reply r.conn r.msg (BitVec.ofNat 16 status) body) s

/-- Replies to a Warden-protocol request (R807). -/
def wardenReply (r : WReq) (status : Nat) (body : List Byte) (s : State) : State :=
  emit (.wardenReply r.session r.msg (BitVec.ofNat 16 status) body) s

def isNotice : Out → Bool
  | .notify .. => true
  | _ => false

def isJournalNotice : Out → Bool
  | .notify _ k .. => k == 2
  | _ => false

/-- Queues a notice on one connection (R806): a full queue of 1,024 loses its oldest journal notice, and the next journal notice (the arriving one,
where it is of that kind) says so; with no journal notice queued the arriving notice is lost. -/
def queueNotice (k kind : Nat) (job : BitVec 16) (mtc : DWord) (value : Nat) (payload : List Byte) (c : Conn) : Conn :=
  let full := decide (1024 ≤ c.queue.countP isNotice)
  let lost := if full && c.queue.any isJournalNotice then sinsert c.lostKinds 2 else c.lostKinds
  let n := Out.notify k kind (lost.contains kind) job mtc (BitVec.ofNat 64 value) payload
  let told := lost.filter (· != kind)
  if !full then { c with queue := c.queue ++ [n], lostKinds := told }
  else if c.queue.any isJournalNotice then { c with queue := c.queue.eraseP isJournalNotice ++ [n], lostKinds := told }
  else { c with lostKinds := sinsert c.lostKinds kind }

/-- A notice to one connection. -/
def noticeTable (k kind : Nat) (job : BitVec 16) (mtc : DWord) (value : Nat) (payload : List Byte) (conns : Table Conn) : Table Conn × List Out :=
  if thas conns k then pumpTable k (tput conns k (queueNotice k kind job mtc value payload (tget conns k {}))) else (conns, [])
def notifyConn (k kind value : Nat) (payload : List Byte) (s : State) : State :=
  withConns (noticeTable k kind s.job.tag s.mtc.value value payload s.hauler.conns) s

/-- A notice to every connection that asked for job notices (R805). -/
def noticeAll (kind : Nat) (job : BitVec 16) (mtc : DWord) (value : Nat) (payload : List Byte) (conns : Table Conn) : Table Conn × List Out :=
  ((conns.filter fun e => e.2.notices).map (·.1)).foldl (fun r k =>
    let r' := noticeTable k kind job mtc value payload r.1
    (r'.1, r.2 ++ r'.2)) (conns, [])
def notifyAll (kind value : Nat) (payload : List Byte) (s : State) : State :=
  withConns (noticeAll kind s.job.tag s.mtc.value value payload s.hauler.conns) s

/-! ### Device state -/

/-- The crown halves of all tiles are clock-gated in READY, LOADING and RELAYING (R88). -/
def gateTiles (st : DevState) (tiles : Table TileRec) : Table TileRec :=
  if st = .ready ∨ st = .loading ∨ st = .relaying then
    (tiles.map fun e => (e.1, { e.2 with crownGated := true })).filter fun e => e.2 != {}
  else tiles

/-- A transition of Table 01-5, with its notice of kind state (Table 17-6). -/
def enter (st : DevState) (s : State) : State :=
  notifyAll 7 (stCode st) [] { s with dev.prev := s.dev.st, dev.st := st, tiles := gateTiles st s.tiles }

/-! ### Fault records and ledger -/

/-- A fault record's 32 bytes (R865). -/
def recBytes (f : FaultRec) : List Byte :=
  leBytes 8 f.mtc.toNat ++ leBytes 2 f.code.toNat ++ leBytes 1 f.unit.toNat ++ leBytes 1 f.unitKind.toNat ++
    leBytes 4 f.obj.toNat ++ leBytes 4 f.peer.toNat ++ f.detail

/-- A fault record as a list of eight words (R865). -/
def recWord (f : FaultRec) (k : Nat) : Word := BitVec.ofNat 32 (field (recBytes f) (4 * k) 4)

/-- The record of a fault now (R25). -/
def mkRec (s : State) (code kind unit obj peer : Nat) (det : List Byte) : FaultRec :=
  { mtc := s.mtc.value, code := BitVec.ofNat 16 code, unitKind := BitVec.ofNat 8 kind, unit := BitVec.ofNat 8 unit,
    obj := BitVec.ofNat 32 obj, peer := BitVec.ofNat 32 peer, detail := det }

/-- DEV_EVENTS bit that a code sets beside bit 0 (Table 19-4). -/
def eventBit (code : BitVec 16) : Word :=
  let c := code.toNat
  if c = errThermTrip then 2 else if c = errRingFallback then 4 else if c = errStartDegraded then 8
  else if c = errWardenReset then 16 else if c = errAuxclk then 32 else if c = errMtcHoldover then 64 else 0

/-- Writes a fault record: the latest 256 are kept, newest first (R865); DEV_EVENTS bit 0 and FAULT_NEW count it (Table 19-4); the start log
keeps the first code of a start (R687). -/
def writeRec (f : FaultRec) (s : State) : State :=
  { s with
    faults := (f :: s.faults).take 256
    regs.events := s.regs.events ||| 1 ||| eventBit f.code
    regs.faultNew := satInc none32 s.regs.faultNew
    dev.startFault := if s.dev.startFault = 0 && s.dev.st == .starting then f.code else s.dev.startFault }

/-- Raises a fault of this module: the record, and its notice to the host (R806). -/
def raise (code kind unit obj peer : Nat) (det : List Byte) (s : State) : State :=
  let f := mkRec s code kind unit obj peer det
  notifyAll 5 0 (recBytes f) (writeRec f s)

/-- A ledger event waits to be written (R777, R778). -/
def ledgerEvent (die kind band fp : Nat) (f : FaultRec) (s : State) : State :=
  { s with
    bark.queued := s.bark.queued ++ [⟨die, kind, band, BitVec.ofNat 32 fp, s.stump.startCount, s.bark.eventSeq, f⟩]
    bark.eventSeq := s.bark.eventSeq + 1 }

/-- Changes a die's summary (R776). -/
def updSummary (die : Nat) (f : Summary → Summary) (s : State) : State :=
  { s with bark.summaries := tupd s.bark.summaries die {} f }

/-- The newest fault record, or an empty one. -/
def newest (s : State) : FaultRec := s.faults.headD {}

/-- Band in force of a tile's root sensor and of a stack. -/
def rootBand (s : State) (t : Nat) : Nat := (tget s.heat.roots t {}).band
def stackBand (s : State) (m : Nat) : Nat := (tget s.heat.hbms m {}).band

/-! ### Jobs and their end on a fault -/

/-- Endpoint ID of this module, or its relay address, from the running ring; 0xFFFF before one is verified (Table 19-4). -/
def ownEndpoint (s : State) : BitVec 16 := match s.dev.ring with | some r => r.ident | none => 0xFFFF

/-- Position of endpoint `e` in the rank map, or 0xFFFF (R519). -/
def slotOf (s : State) (e : BitVec 16) : Nat :=
  let i := s.job.rankMap.findIdx (· == e)
  if i < s.job.rankMap.length then i else 0xFFFF

/-- Module slot of this module (R272). -/
def ownSlot (s : State) : Nat := slotOf s (ownEndpoint s)

/-- Policy of the running ring with its defaults (R690): value 0 takes the default. -/
def orDefault (v d : Nat) : Nat := if v = 0 then d else v

def policy (s : State) : Policy :=
  match s.dev.ring with
  | some r => r.policy
  | none => ⟨0, 0, 0, 0, 0, 0, 0, 0, 0, 0, 0, 0, 0, 0, 0⟩

/-- Position of endpoint `e` in the machine description. -/
def endpointPos (s : State) (e : BitVec 16) : Option EndpointPos :=
  match s.dev.ring with | some r => r.machine.find? fun x => x.endpoint == e | none => none

/-- Endpoint of the spare, slot 8, of the tray of endpoint `e` (Table 01-3). -/
def trayMate (s : State) (e : BitVec 16) : BitVec 16 :=
  match s.dev.ring, endpointPos s e with
  | some r, some x => ((r.machine.find? fun y => y.pod == x.pod && y.rack == x.rack && y.tray == x.tray && y.slot == 8).map (·.endpoint)).getD 0xFFFF
  | none, _ => 0xFFFF
  | some _, none => 0xFFFF

/-- Where notices go: every other module of the device set, and every spare of their trays (R648). -/
def noticePeers (s : State) : List (BitVec 16) :=
  ((s.remote.deviceSet ++ (s.remote.deviceSet.map (trayMate s)).filter (· != 0xFFFF)).eraseDups).filter (· != ownEndpoint s)

/-- The ring's keeper section. -/
def ringKeeper (s : State) : KeeperCfg := match s.dev.ring with | some r => r.keeper | none => ⟨0xFFFF, 0, 0, 0, 0, []⟩

/-- The keeper of this module and the modules that it keeps: the ring's, as substitutions have changed them (R640, R658, R663). -/
def keeperNow (s : State) : BitVec 16 := s.recov.keeper.getD (ringKeeper s).keeper
def keptNow (s : State) : List (BitVec 16) := s.recov.kept.getD (ringKeeper s).kept

/-- Every sequencer slot and copy engine of the job stops (R649); copies that serve the modules kept here are not of the job. -/
def haltJob (s : State) : State :=
  let halt := fun (_ : Nat) (v : Slot) => if v.st == .running || v.st == .waiting then { v with st := .halted } else v
  { s with
    tiles := tmap s.tiles fun _ r => { r with slots := tmap r.slots halt }
    remote.copies := s.remote.copies.filter fun j => j.req.keeper && (keptNow s).any fun e => j.req.dst == .endpoint e }

/-- States in which the module holds a job that a fault can stop (Table 01-5). -/
def inJob (s : State) : Bool :=
  s.dev.st == .loading || s.dev.st == .planning || s.dev.st == .running || s.dev.st == .draining || s.dev.st == .filling

/-- This module's notice (R648) opens the collection window of its attempt (R649) and is sent twice more. -/
def sendNotice (n : Notice) (s : State) : State :=
  let s := haltJob s
  { s with out := s.out ++ [.notice n (noticePeers s)], recov.toSend := some (n, 2), recov.window := true, recov.notices := s.recov.notices ++ [n] }

/-- The notice of a fault of this module (Table 14-6). -/
def mkNotice (s : State) (action code subject : Nat) (quarantine : Bool) : Notice :=
  { action, flags := (if quarantine then 1 else 0) ||| (if s.job.updateBegun then 2 else 0), job := s.job.tag, subject,
    reporter := ownSlot s, code := BitVec.ofNat 16 code, attempt := s.recov.attempt, step := s.job.step, mtc := s.mtc.value }

/-- Declares a failure (R646, R648): the module sends its notice; when its own job stops, it enters FAULTED. Outside a job nothing happens. -/
def declareFault (action code subject : Nat) (own quarantine : Bool) (s : State) : State :=
  if inJob s then
    let s := sendNotice (mkNotice s action code subject quarantine) s
    if own then enter .faulted s else s
  else s

/-- A fault of this module whose action is A3 on itself, or A4: its own job stops. -/
def stopA3 (code : Nat) (s : State) : State := declareFault 3 code (ownSlot s) true false s
def stopA4 (code : Nat) (s : State) : State := declareFault 4 code 0xFFFF true false s
/-- A fault of failure kind F5 (Table 14-5): step restart, or rollback once the update phase has begun. -/
def stopF5 (code : Nat) (s : State) : State :=
  declareFault (if s.job.updateBegun then 2 else 1) code 0xFFFF false false s
/-- A fault whose action is a rollback. -/
def stopA2 (code : Nat) (s : State) : State := declareFault 2 code 0xFFFF false false s

/-! ### Refused requests -/

/-- A Hauler request refused with `code`: a fault record (Table 17-8) and the reply, no other change (R34, R791). -/
def refuse (r : Req) (code obj : Nat) (det : List Byte) (s : State) : State :=
  reply r code [] (raise code uDevice 0 obj r.conn det s)

/-- ERR_STATE_CONFLICT of a Hauler request (R796). -/
def refuseState (r : Req) (op : Nat) (s : State) : State :=
  refuse r errStateConflict op (detail [(stCode s.dev.st, 1), (0, 3), (r.msg.toNat, 4)]) s

/-- ERR_HAULER_INVALID with the failing body offset (R791). -/
def refuseInvalid (r : Req) (op off : Nat) (s : State) : State :=
  refuse r errHaulerInvalid op (detail [(r.msg.toNat, 4), (off, 4)]) s

/-- A Warden-protocol request refused in this state (R34). -/
def refuseWarden (r : WReq) (op : Nat) (s : State) : State :=
  wardenReply r errStateConflict []
    (raise errStateConflict uDevice 0 op none32 (detail [(stCode s.dev.st, 1), (0, 3), (r.msg.toNat, 4)]) s)

/-! ### Connections end, domains reset -/

/-- A connection ends (R789): its queue and watches go, and a LOAD_PROGRAM still arriving on it is discarded. -/
def endConn (k : Nat) (s : State) : State :=
  let arriving := s.job.arriving == some k
  let s := { s with
    hauler.conns := tdel s.hauler.conns k
    remote.watches := s.remote.watches.filter fun w => w.2.1 != k
    regs.views := s.regs.views.filter fun v => v.1 != .hauler k }
  if arriving && s.dev.st == .loading then enter .ready { s with job := {} } else s

/-- Every connection ends. -/
def endConns (s : State) : State := (s.hauler.conns.map (·.1)).foldl (fun s k => endConn k s) s

/-- The current summary block (R779). -/
def lastBlock : List (Nat × Table Summary) → Table Summary
  | [] => []
  | b :: _ => b.2

/-- At a start a sensor is tested afresh; its offset stays (R756, R757). -/
def freshSensor (r : Sensor) : Sensor := { offset := r.offset, diffs := r.diffs }
def freshSensors (m : Table Sensor) : Table Sensor :=
  (m.map fun e => (e.1, freshSensor e.2)).filter fun e => e.2 != {}

/-- The V48 domain resets (R825): everything outside the lookout domain goes to its reset value, and the regulators turn off. -/
def resetV48 (s : State) : State :=
  { s with
    pins.v48On := false
    dev.ring := none, dev.role := none, dev.trial := false, dev.holdCause := 0, dev.holdsWritten := [], dev.holdSince := none
    dev.restartDue := false, dev.startFault := 0, dev.qLost := 0
    dev.fingerprintsOk := true, dev.startStep := 3
    heat.crowns := freshSensors s.heat.crowns, heat.roots := freshSensors s.heat.roots, heat.hbms := freshSensors s.heat.hbms, heat.notches := [], heat.runtime := 0, heat.runtimeNext := 0
    heat.supply := [], heat.laserLow := [], heat.heater := [], heat.telemetry := [], heat.subs := [], heat.exerciser := []
    heat.crownsOff := true
    optics := {}, stacking := {}, fabric := {}, remote := {}, tiles := [], mem := {}, mtc := {}, job := {}, recov := {}, flume := {}
    hauler.conns := []
    regs.groupMask := [], regs.refused := [], regs.ftSwitchLo := 0, regs.ftSwitchHi := 0
    regs.views := s.regs.views.filter fun v => match v.1 with | .hauler _ => false | .warden _ => true | .jtag => true }

/-- The event log is a ring of 465,920 entries, oldest first (R775, R778). -/
def keepEvents (es : List Event) : List Event := lastOf 465920 es

/-- Writes events to the log (R777, R778). -/
def logEvents (es : List Event) (b : Bark) : Bark :=
  { b with events := keepEvents (b.events ++ es), eventNext := (b.eventNext + es.length) % 465920 }

/-- The sensor offsets that the ledger keeps for dies `from` to `from + n - 1` (R756). -/
def ledgerOffsets (sums : Table Summary) (first n : Nat) : Table Sensor :=
  (List.range n).foldl (fun m i =>
    (tget sums (first + i) {}).offsets.foldl (fun m e => tset m e.1 { offset := e.2 } {}) m) []

/-- The whole module resets (R824, R831): only the Bark, the Stump, the input lands and the model's own fields stay. No event of the ledger
is lost (R779). -/
def resetAll (s : State) : State :=
  { (State.reset) with
    pending := s.pending, time := s.time, draws := s.draws, out := s.out, pins := { s.pins with v48On := false, thermTripN := true, internalOsc := false }
    dev := { (State.reset).dev with kek := s.dev.kek }
    heat.crowns := ledgerOffsets (lastBlock s.bark.blocks) 0 4
    heat.roots := ledgerOffsets (lastBlock s.bark.blocks) 4 4
    heat.hbms := ledgerOffsets (lastBlock s.bark.blocks) 12 16
    bark := { logEvents s.bark.queued s.bark with summaries := lastBlock s.bark.blocks, queued := [] }
    stump := s.stump, jtag := s.jtag }

/-- Crown contents are lost and the crowns are off (R89): slots, instruction memory, sets, vectors, registers and node store. What the root half holds
stays: combine nodes, their children, and what the drain has sent. The spec gives crown memories no contents for when power returns: DESIGN CHOICE
(log 69), they are empty, registers zero. -/
def crownLost (r : TileRec) : TileRec :=
  { ({} : TileRec) with nodes := r.nodes, drained := r.drained, children := r.children.filter fun e => e.1 == 3, uncorr := r.uncorr, corr := r.corr }

/-! ### Time -/

/-- One nanosecond passes (the model's own tick on an empty queue): while it runs, the MTC advances by one plus its correction and slews at
most 1 ns per 10 µs (R619, R623), so it never decreases. -/
def passTime (s : State) : State :=
  if s.pins.refclk && s.mtc.everLocked then
    let step : Int := max (-429496) (min 429496 s.mtc.slew)
    let total : Int := (s.mtc.value.toNat * 2 ^ 32 + s.mtc.frac : Nat) + (2 ^ 32 + s.mtc.rate + step)
    { s with time := s.time + 1, mtc.value := BitVec.ofNat 64 (total / 2 ^ 32).toNat, mtc.frac := (total % 2 ^ 32).toNat,
             mtc.slew := s.mtc.slew - step }
  else { s with time := s.time + 1 }

end Sys2Proof.Machine
end

