-- ==== Sys2Proof/Machine/Storage.lean ====
section
/-! DEFINITION. Tile SRAM and HBM (Chapter 08): the local address map, reads and writes with poison, the scrub walk, the patrol scrub, the
corner-turn read, page retirement, self-refresh and refresh rates. -/
namespace Sys2Proof.Machine

/-- Ranges of the local address map (Table 08-6). -/
inductive Region6 where
  | jobHbm | keeper | reserve | sram (t off : Nat) | sync | control | unmapped
  deriving DecidableEq, Repr

/-- First address past the HBM ranges, of the device reserve, of tile SRAM, of the signal space and of the control space. -/
abbrev hbmEnd : Nat := 0x009000000000
abbrev reserveBase : Nat := 0x008F00000000
abbrev sramBase : Nat := 0x010000000000
abbrev syncBase : Nat := 0x020000000000
abbrev controlBase : Nat := 0x030000000000
abbrev gib : Nat := 0x40000000

/-- Local addresses of the journal ring and the fault dumps, the bytes of one dump, and of each area: 256 MiB (Table 08-7). -/
abbrev journalBase : Nat := reserveBase + 0xC0000000
abbrev dumpBase : Nat := reserveBase + 0xD0000000
abbrev dumpSize : Nat := 0x4000000
abbrev areaBytes : Nat := 0x10000000

/-- Keeper region of the running ring, in bytes. -/
def keeperSize (s : State) : Nat := match s.dev.ring with | some r => r.keeper.regionSize | none => 0
/-- First address past the job region: 576 GiB less the keeper region and the 4 GiB reserve (R370). -/
def jobEnd (s : State) : Nat := reserveBase - keeperSize s

/-- Local address of the header and of the stream of slot A (0) or B (1) of kept module `k` (Table 14-3). -/
def headerAddr (s : State) (k b : Nat) : Nat := jobEnd s + k * (ringKeeper s).areaSize + 0x8000 * b
def streamAddr (s : State) (k b : Nat) : Nat := jobEnd s + k * (ringKeeper s).areaSize + 0x04010000 + (ringKeeper s).slotSize * b

/-- Where a local address lies (R370, R372). -/
def regionOf (s : State) (a : Nat) : Region6 :=
  if a < hbmEnd then
    if isFA s then .unmapped
    else if reserveBase ≤ a then .reserve
    else if jobEnd s ≤ a then .keeper
    else .jobHbm
  else if sramBase ≤ a ∧ a < sramBase + 0x100000000 then
    let t := (a - sramBase) / 0x1000000
    let off := (a - sramBase) % 0x1000000
    if off < 0xC00000 ∧ tileMapped s t then .sram t off else .unmapped
  else if syncBase ≤ a ∧ a < syncBase + 0x100000000 then .sync
  else if controlBase ≤ a ∧ a < controlBase + 0x100000000 then .control
  else .unmapped

/-- Stack of a local HBM address: XOR of the seven nibbles of its page (R353). -/
def hbmStack (a : Nat) : Nat :=
  let p := a / 4096
  (List.range 7).foldl (fun s i => s ^^^ (p / 16 ^ i % 16)) 0

/-- Local address of stack page `sp` of stack `m`: the page's low nibble is the one that leads to the stack (R353, R354). -/
def hbmAddress (m sp : Nat) : Nat :=
  let rest := (List.range 6).foldl (fun s i => s ^^^ (sp / 16 ^ i % 16)) 0
  (sp * 16 + (m ^^^ rest)) * 4096

/-- SRAM address of tile `t`, offset `off`. -/
def sramAddr (t off : Nat) : Nat := sramBase + t * 0x1000000 + off

/-! ### Bytes and poison -/

/-- What a byte reads as that nothing has written: 0, or a free value where a stack's self-test lost its contents (Table 08-5). -/
def blankAt (bist : Table (Nat × Nat)) (a : Nat) : Byte :=
  if a < hbmEnd then
    match bist.find? fun e => e.1 == hbmStack a with
    | some e => if e.2.2 ≤ a then Config.afterBist (hbmStack a) a e.2.1 else 0
    | none => 0
  else 0
abbrev blankByte (m : Mem) (a : Nat) : Byte := blankAt m.bist a

/-- Bytes of records of `size` bytes kept by place, from local address `base` on; what no record covers reads as memory that nothing has written. -/
def recordBytes (m : Mem) (recs : Table (List Byte)) (base size off len : Nat) : List Byte :=
  (List.range len).map fun i =>
    let a := off + i
    ((tget recs (a / size) [])[a % size]?).getD (blankByte m (base + a))

/-- The canonical form of a list of cells: rising addresses, and no byte listed that reads the same unlisted. -/
def cellsWf (bist : Table (Nat × Nat)) (cells : List Host.Cell) : Bool :=
  decide ((cells.map (·.1)).Pairwise (· < ·)) && cells.all fun c => c.2 != blankAt bist c.1
abbrev Memory.wf (m : Mem) : Bool := cellsWf m.bist m.cells

/-- Byte at a local address. -/
def readByte (m : Mem) (a : Nat) : Byte := tget m.cells a (blankByte m a)

/-- `n` bytes from a local address. -/
def readBytes (m : Mem) (a n : Nat) : List Byte := (List.range n).map fun i => readByte m (a + i)

/-- Writes one byte, keeping the canonical form. -/
def writeByte (m : Mem) (a : Nat) (b : Byte) : Mem := { m with cells := tset m.cells a b (blankByte m a) }

/-- Writes bytes from a local address on. -/
def writeBytes : Mem → Nat → List Byte → Mem
  | m, _, [] => m
  | m, a, b :: bs => writeBytes (writeByte m a b) (a + 1) bs

/-- Poison granule of an address: an 8-byte word in SRAM, a 64-byte access in HBM (R338, R357). -/
def granule (a : Nat) : Nat := if a < hbmEnd then 64 else 8
def unitOf (a : Nat) : Nat := a / granule a * granule a

/-- Poison that a write of `n` bytes at `a` leaves: a granule it covers whole is clean again (R339). -/
def poisonAfter (p : List Nat) (a n : Nat) : List Nat :=
  p.filter fun u => !(decide (a ≤ u) && decide (u + granule u ≤ a + n))

/-- Writes bytes at a local address (R335, R339). -/
def writeMem (m : Mem) (a : Nat) (bs : List Byte) : Mem :=
  let m := writeBytes m a bs
  { m with poison := poisonAfter m.poison a bs.length }

/-- Whether a read of `n` bytes at `a` meets poison. -/
def poisoned (m : Mem) (a n : Nat) : Bool :=
  m.poison.any fun u => decide (u < a + n) && decide (a < u + granule u)

/-- Poisons the granule of address `a`. -/
def poisonAt (m : Mem) (a : Nat) : Mem := { m with poison := sinsert m.poison (unitOf a) }

/-- Writes bytes that carry poison with them: every granule that takes a poisoned byte is poisoned (R340). `bad` lists the offsets. -/
def writePoison (m : Mem) (a : Nat) (bs : List Byte) (bad : List Nat) : Mem :=
  bad.foldl (fun m i => poisonAt m (a + i)) (writeMem m a bs)

/-- Offsets of the poisoned bytes of a read. -/
def badOffsets (m : Mem) (a n : Nat) : List Nat :=
  if poisoned m a n then (List.range n).filter fun i => m.poison.contains (unitOf (a + i)) else []

/-- Copies `n` bytes within the module, poison included (R340). -/
def copyMem (m : Mem) (src dst n : Nat) : Mem := writePoison m dst (readBytes m src n) (badOffsets m src n)

/-- Zero with valid check bits over a range of tile SRAM or of the job region (R344, R360), where a byte that nothing has written reads as 0. -/
def zeroRange (m : Mem) (a n : Nat) : Mem :=
  { m with cells := m.cells.filter fun c => !(decide (a ≤ c.1) && decide (c.1 < a + n))
           poison := m.poison.filter fun u => !(decide (a ≤ u) && decide (u < a + n)) }

/-- Zero over every line of every enabled tile's SRAM (R344). -/
def zeroSram (s : State) : State := { s with mem := zeroRange s.mem sramBase 0x100000000 }

/-- Zero over the whole job region (R360). -/
def zeroJob (s : State) : State := { s with mem := zeroRange s.mem 0 (jobEnd s) }

/-! ### Requests to a stack -/

/-- The part of each page that `n` bytes from `a` cover: first address and bytes (R353). -/
def pageParts (a n : Nat) : List (Nat × Nat) :=
  (List.range ((a % 4096 + max n 1 + 4095) / 4096)).map fun i =>
    let lo := max a ((a / 4096 + i) * 4096)
    (lo, min (a + n) ((a / 4096 + i + 1) * 4096) - lo)

/-- A request reaches its stacks: each leaves self-refresh (R742), and its bytes count (Table 19-8). -/
def touchHbm (a n : Nat) (write : Bool) (s : State) : State :=
  if a < hbmEnd then
    (pageParts a n).foldl (fun s p =>
      updHbm (hbmStack p.1) (fun r => { r with
        selfRefresh := false
        readBytes := if write then r.readBytes else r.readBytes + p.2
        writeBytes := if write then r.writeBytes + p.2 else r.writeBytes }) s) s
  else s

/-! ### Row-major indices and the grid -/

def product (xs : List Nat) : Nat := xs.foldl (· * ·) 1

/-- Coordinates of row-major index `i`, the last axis fastest. -/
def unravel : List Nat → Nat → List Nat
  | [], _ => []
  | d :: ds, i => i / product ds % d :: unravel ds i

/-- Row-major index of coordinates. -/
def ravel : List Nat → List Nat → Nat
  | _ :: ds, c :: cs => c * product ds + ravel ds cs
  | [], _ => 0
  | _ :: _, [] => 0

/-- Coordinates from the digits at the tree, tray and module levels (R276). -/
def joinDigits (fTray fMod dTree dTray dMod : List Nat) : List Nat :=
  (List.range dTree.length).map fun a =>
    nth dTree a 0 * (nth fTray a 1 * nth fMod a 1) + nth dTray a 0 * nth fMod a 1 + nth dMod a 0

def machineSizes (im : Image) : List Nat := im.machine.map (·.1)

/-- Rank held at position `pos` of module slot `slot` (R180, R276). -/
def rankAt (im : Image) (p : Plan) (slot pos : Nat) : Nat :=
  ravel (machineSizes im) (joinDigits p.fTray p.fModule (unravel p.fTree (slot / p.w)) (unravel p.fTray (slot % p.w)) (unravel p.fModule pos))

def rankOf (s : State) (im : Image) (pos : Nat) : Nat :=
  match s.job.plan with | some p => rankAt im p p.slot pos | none => pos

/-! ### Where placement lays tensors -/

/-- The state's digest of the plan in force, which finds the owner of a word (R341). -/
def planDigest (s : State) : DWord := match s.job.plan with | some p => p.digest | none => 0

/-- The module plan that this module runs: that of its own count (R269). -/
def ownPlan (s : State) : Option ModPlan :=
  match s.job.plan with
  | some p => p.mods.find? fun m => m.n == p.tiles.length
  | none => none

/-- Physical tile of a virtual tile (R269). -/
def physTile (p : Plan) (v : Nat) : Nat := nth p.tiles v 0

/-- Virtual tiles of the rank at a position (R277, R278). -/
def rankTiles (p : Plan) (pos : Nat) : List Nat :=
  if p.r ≤ p.tiles.length then (List.range p.tilesPerRank).map (pos * p.tilesPerRank + ·) else [pos % max 1 p.tiles.length]

/-- First tile of the rank at a position. -/
def leadTile (p : Plan) (pos : Nat) : Nat := physTile p (nth (rankTiles p pos) 0 0)

/-- Local addresses at which a rank's tensor may lie in the module: one range in local HBM, which a tensor of the keeper has while a phase works on it, or
one run in each tile that holds it in tile SRAM in one of its layouts over the step. Which addresses placement gives out is the Cruise ROM's own
(`Config.tensorBase`). -/
def tensorRanges (p : Plan) (m : ModPlan) (pos tid : Nat) : List (Nat × Nat) :=
  let len := nth m.lens tid 0
  if tget m.homes tid 1 = 0 then
    let ks := max 1 (tget m.holders tid 1) :: tget m.layouts tid []
    (rankTiles p pos).zipIdx.filterMap fun (v, i) =>
      let n := (ks.filter (i < ·)).foldl (fun z k => max z ((len + k - 1) / k)) 0
      if n = 0 then none else some (sramAddr (physTile p v) (Config.tensorBase p.digest p.tiles.length 0 v pos tid), n)
  else [(Config.tensorBase p.digest p.tiles.length 1 0 pos tid, len)]

/-- Address of page `i` of a cache on a rank (R329): the pages lie in the order of the cache's canonical stored form, each one contiguous run. -/
def pageAddr (p : Plan) (m : ModPlan) (pos tid i : Nat) : Option Nat :=
  (m.caches.find? fun c => c.1 == tid).map fun c => Config.tensorBase p.digest p.tiles.length 1 0 pos tid + i * c.2.2

/-- The phase in hand works on the tensor. -/
def workedOn (s : State) (tid : Nat) : Bool :=
  match s.job.image, s.job.phase with
  | some im, some ph =>
    let p := (im.phases[ph]?).getD ⟨0, 0, 0⟩
    (slice im.ops p.first p.count).any fun o => (o.ins ++ o.outs).contains tid
  | none, _ => false
  | some _, none => false

/-- A tensor's contents stand in the module: always, but for one of the keeper, which does while a phase works on it. -/
def standsHere (s : State) (m : ModPlan) (tid : Nat) : Bool := tget m.homes tid 1 != 2 || workedOn s tid

/-- The tensor whose block a receive slot of a rotation holds at an address, while its phase runs (R315): the gather's input. -/
def ringOwner (s : State) (p : Plan) (a : Nat) : Option (Nat × Nat) :=
  match s.job.image with
  | none => none
  | some im => p.rings.findSome? fun r =>
      match im.ops[r.op]? with
      | none => none
      | some g => if s.job.phase = some g.phase ∧ r.places.any (fun x => decide (x ≤ a) && decide (a < x + r.bytes)) then some (r.pos, nth g.ins 0 0) else none

/-- Owner of a local address while a plan is in force: the first tensor, by position and ID, in one of whose ranges it lies, or that of a block in a
receive slot (R341). -/
def ownerOf (s : State) (a : Nat) : Option (Nat × Nat) :=
  match s.job.plan, ownPlan s with
  | some p, some m =>
    ((List.range p.r).findSome? fun pos => (List.range m.lens.length).findSome? fun tid =>
      if standsHere s m tid && (tensorRanges p m pos tid).any fun e => decide (e.1 ≤ a) && decide (a < e.1 + e.2) then some (pos, tid) else none).or
      (ringOwner s p a)
  | none, _ => none
  | some _, none => none

/-- Role of a tensor (Table 05-2); scratch when the image has no such tensor. -/
def roleOf (s : State) (tid : Nat) : Nat :=
  match s.job.image with | some im => ((im.tensors[tid]?).map (·.role)).getD 6 | none => 6

/-- An uncorrectable error in a live tensor's word is handled by the tensor's role (R341, Table 14-4). -/
def failTensor (code : Nat) (owner : Option (Nat × Nat)) (s : State) : State :=
  match owner with
  | none => s
  | some (_, tid) => if roleOf s tid ≤ 1 then stopA2 code s else stopF5 code s

/-- The owning rank of a record (Table 08-8): the rank at the position. -/
def ownerRank (s : State) (owner : Option (Nat × Nat)) : Nat :=
  match owner, s.job.image with
  | some (pos, _), some im => rankOf s im pos
  | some (pos, _), none => pos
  | none, _ => none32
def ownerTensor : Option (Nat × Nat) → Nat
  | some (_, t) => t
  | none => none32

/-- Die index of the ledger (R775). -/
def crownDie (t : Nat) : Nat := quadOf t
def rootDie (t : Nat) : Nat := 4 + quadOf t
def stackDie (m : Nat) : Nat := 12 + m

/-- A read of the SRAM word at offset `off` of tile `t` by requester `req` of Table 08-1 finds `e` (R337, R338). The corrected word that goes back
changes no byte, since what a command reads nothing writes meanwhile (R337, R359). -/
def sramFinds (t off req : Nat) (e : Ecc) (s : State) : State :=
  match e with
  | .ok => s
  | .corrected =>
    updSummary (rootDie t) (fun d => { d with corrected := d.corrected + 1 }) (updTile t (fun r => { r with corr := r.corr + 1 }) s)
  | .uncorrectable =>
    let a := sramAddr t off / 8 * 8
    let own := ownerOf s a
    let (k, s) := draw s
    let s := { s with mem := poisonAt s.mem a }
    let s := updTile t (fun r => { r with uncorr := r.uncorr + 1 }) s
    let s := updSummary (rootDie t) (fun d => { d with uncorrected := d.uncorrected + 1 }) s
    let s := raise errSramUncorr uTile t t (ownerRank s own)
      (detail [(off, 4), (ownerTensor own, 4), ((Config.syndrome k).toNat, 2), (req, 1)]) s
    let s := ledgerEvent (rootDie t) 1 (rootBand s t) 0 (newest s) s
    failTensor errSramUncorr own s

/-- A read of the HBM access at local address `a` for tile `req` (0xFFFF for the patrol scrub) finds `e` (R356, R357). -/
def hbmFinds (a req : Nat) (e : Ecc) (s : State) : State :=
  let m := hbmStack a
  match e with
  | .ok => s
  | .corrected =>
    updSummary (stackDie m) (fun d => { d with corrected := d.corrected + 1 }) (updHbm m (fun r => { r with corr := r.corr + 1 }) s)
  | .uncorrectable =>
    let own := ownerOf s a
    let s := { s with mem := poisonAt s.mem a }
    let s := updHbm m (fun r => { r with uncorr := r.uncorr + 1 }) s
    let s := updSummary (stackDie m) (fun d => { d with uncorrected := d.uncorrected + 1 }) s
    let page := a / 4096 / 16
    let bad := if s.bark.badPages.contains (m, page) then s.bark.badPages else s.bark.badPages ++ [(m, page)]
    let s := { s with bark.badPages := bad }
    let s := raise errHbmUncorr uStack m m req
      (detail [(a, 5), (ownerTensor own, 4), (a % 4096 / 128, 1), (a / 64 % 2, 1)]) s
    let s := ledgerEvent (stackDie m) 1 (stackBand s m) 0 (newest s) s
    failTensor errHbmUncorr own s

/-- A read of local memory finds `e` in its first protected unit. -/
def memFinds (a req hbmReq : Nat) (e : Ecc) (s : State) : State :=
  match regionOf s a with
  | .sram t off => sramFinds t off req e s
  | .jobHbm => hbmFinds a hbmReq e s
  | .keeper => hbmFinds a hbmReq e s
  | .reserve => hbmFinds a hbmReq e s
  | .sync => s
  | .control => s
  | .unmapped => s

/-- A read of `n` bytes from `a` finds errors: `ecc` names the byte offsets at which, and which. -/
def rangeFinds (a n req hbmReq : Nat) (ecc : List (Nat × Ecc)) (s : State) : State :=
  (ecc.filter fun e => decide (e.1 < n)).foldl (fun s e => memFinds (a + e.1) req hbmReq e.2 s) s

/-! ### Scrub walk and patrol scrub -/

/-- Key of a bank's scrub row. -/
def scrubKey (t bank : Nat) : Nat := t * 32 + bank

/-- Words of the line at `a` that belong to no live tensor and are poisoned are overwritten with zero (R341). -/
def cleanLine (a : Nat) (s : State) : State :=
  (List.range 8).foldl (fun s i =>
    let w := a + 8 * i
    if s.mem.poison.contains w && (ownerOf s w).isNone then { s with mem := zeroRange s.mem w 8 } else s) s


/-- SCRUB_WALK (R342): the bank's next line is read, corrected or poisoned, and the row advances. -/
def execScrubWalk (t : Tile) (bank : Fin 32) (ecc : List Ecc) (s : State) : Host.Outcome State Fault Refusal :=
  .next (
    if s.dev.st = .lookout ∨ !tileUsable s t then s
    else
      let row := tget s.mem.scrub (scrubKey t bank) 0
      let off := (row * 32 + bank) * 64
      let s := (ecc.take 8).zipIdx.foldl (fun s e => sramFinds t (off + 8 * e.2) 5 e.1 s) s
      let s := cleanLine (sramAddr t off) s
      { s with mem.scrub := tset s.mem.scrub (scrubKey t bank) (if row = 6143 then 0 else row + 1) 0 })

/-- Pages of a stack (R354). -/
abbrev stackPages : Nat := 9437184

/-- Poisoned accesses of the page at `a` that belong to no live tensor are overwritten with zero (R341, R357): the keeper region and the reserve hold
none of this job (log 86). -/
def cleanPage (a : Nat) (s : State) : State :=
  (s.mem.poison.filter fun u => decide (a ≤ u) && decide (u < a + 4096)).foldl (fun s u =>
    if (ownerOf s u).isNone then { s with mem := writeMem s.mem u (List.replicate 64 0) } else s) s

/-- The stack stands on a quadrant that is lost (R409). -/
def stackLost (s : State) (m : Nat) : Bool := s.dev.qLost.getLsbD (stackQuad m)

/-- Patrol reads of `n` pages from the pointer on; `ecc` names the accesses that show an error, counted from the first page's first. -/
def patrolRead (m n : Nat) (ecc : List (Nat × Ecc)) (s : State) : State :=
  let p := (hbm s m).patrol
  let s := (ecc.filter fun e => decide (e.1 < 64 * n)).foldl (fun s e =>
    hbmFinds (hbmAddress m ((p + e.1 / 64) % stackPages) + 64 * (e.1 % 64)) 0xFFFF e.2 s) s
  let s := (List.range n).foldl (fun s i => cleanPage (hbmAddress m ((p + i) % stackPages)) s) s
  updHbm m (fun r => { r with patrol := (p + n) % stackPages }) s

/-- HBM_PATROL_SCRUB (R358): one page per stack, except in LOOKOUT and STARTING; in self-refresh the page falls due for the next burst. -/
def execHbmPatrolScrub (m : Stack) (ecc : List (Nat × Ecc)) (s : State) : Host.Outcome State Fault Refusal :=
  .next (
    if s.dev.st = .lookout ∨ s.dev.st = .starting ∨ isFA s ∨ stackLost s m then s
    else if (hbm s m).selfRefresh then updHbm m (fun r => { r with due := min 10000 (r.due + 1) }) s
    else patrolRead m 1 ecc s)

/-- HBM_PATROL_BURST (R743): a stack in self-refresh reads the pages that have fallen due and re-enters self-refresh. -/
def execHbmPatrolBurst (m : Stack) (ecc : List (Nat × Ecc)) (s : State) : Host.Outcome State Fault Refusal :=
  .next (
    if (hbm s m).selfRefresh ∧ !stackLost s m then updHbm m (fun r => { r with due := 0, selfRefresh := true }) (patrolRead m (hbm s m).due ecc s)
    else s)

/-- HBM_SELF_REFRESH_ENTRY (R742): after 10 ms without a request, in the states that allow it. -/
def execHbmSelfRefreshEntry (m : Stack) (s : State) : Host.Outcome State Fault Refusal :=
  .next (
    if !isFA s ∧ (s.dev.st = .ready ∨ s.dev.st = .loading ∨ s.dev.st = .faulted ∨ s.dev.st = .quarantined ∨ s.dev.st = .relaying) then
      updHbm m (fun r => { r with selfRefresh := true }) s
    else s)

/-- REFRESH_RATE_APPLY (R365): the rate that the tick selected takes effect at the refresh interval boundary. -/
def execRefreshRateApply (m : Stack) (s : State) : Host.Outcome State Fault Refusal :=
  .next (updHbm m (fun r => { r with refresh := r.refreshNext }) s)

/-! ### Corner-turn read -/

/-- Element `j` of width `w` bits in a packed row at local address `a` (R96). -/
def packedElem (m : Mem) (a w j : Nat) : Nat :=
  leNat (readBytes m (a + j * w / 8) 5) / 2 ^ (j * w % 8) % 2 ^ w

/-- Elements of `w` bits packed least significant bit first from a byte boundary on (R96). -/
def packRow (w : Nat) (xs : List Nat) : List Byte := leBytes ((w * xs.length + 7) / 8) (xs.foldr (fun x n => n * 2 ^ w + x % 2 ^ w) 0)

/-- Columns `first` to `first + n - 1` of the turned block as emitted rows of 256 elements, each packed (R345, R346). -/
def turnBlock (m : Mem) (base pitch rows cols w first n : Nat) : List (List Byte) :=
  (List.range n).map fun i => packRow w ((List.range 256).map fun r =>
    if first + i < cols ∧ r < rows then packedElem m (base + r * pitch) w (first + i) else 0)

/-- The turn block lies inside the tile's SRAM (R331). -/
def blockFits (base pitch rows cols width : Nat) : Bool := decide (base + (rows - 1) * pitch + (cols * width + 7) / 8 ≤ 0xC00000)

/-- Bank and row of the line at an SRAM offset (R331). -/
def sramBank (off : Nat) : Nat := off / 64 % 32
def sramRow (off : Nat) : Nat := off / 64 / 32

/-- Root cycles that filling a turn buffer takes: the most of the block's lines that lie in one bank (R350). -/
def fillCycles (base pitch rows cols width : Nat) : Nat :=
  let lines := (List.range rows).flatMap fun r =>
    let lo := (base + r * pitch) / 64
    let hi := (base + r * pitch + (cols * width + 7) / 8 - 1) / 64
    (List.range (hi + 1 - lo)).map (lo + ·)
  let lines := lines.foldl sinsert []
  (List.range 32).foldl (fun k b => max k (lines.filter fun l => sramBank (l * 64) == b).length) 0

/-- A block fills the turn buffer whose turn it is and leaves from there (R349). -/
def turnOut (t w : Nat) (rows scales : List (List Byte)) (fill : Nat) (bad : Bool) (s : State) : State :=
  emit (.turned t w rows scales fill bad)
    (updTile t (fun r => if r.turnNext then { r with turnB := rows, turnNext := false } else { r with turnA := rows, turnNext := true }) s)

/-- Byte ranges of the tile's SRAM that a corner-turn read reads: the block's rows and the scale arrays. -/
def turnReads (base pitch rows cols width : Nat) (scales : List (Nat × Nat)) : List (Nat × Nat) :=
  ((List.range rows).map fun r => (base + r * pitch, (cols * width + 7) / 8)) ++ scales

/-- What the unit's reads of SRAM ranges of tile `t` find: `ecc` names SRAM offsets (R337, R338). -/
def readsFind (t req : Nat) (ranges : List (Nat × Nat)) (ecc : List (Nat × Ecc)) (s : State) : State :=
  (ecc.filter fun e => ranges.any fun x => decide (x.1 ≤ e.1) && decide (e.1 < x.1 + x.2)).foldl (fun s e => sramFinds t e.1 req e.2 s) s

/-- CORNER_TURN_READ (R345 to R351): the block's columns leave as packed rows, 32-bit elements in two halves of 128, each of which takes the time of its
own lines (R348); the scale arrays at the offsets and lengths `scales` (block scales, tensor scales) leave unchanged, in stored order (R347). -/
def execCornerTurnRead (t : Tile) (base pitch rows cols width : Nat) (scales : List (Nat × Nat)) (ecc : List (Nat × Ecc)) (s : State) :
    Host.Outcome State Fault Refusal :=
  .next (
    if 1 ≤ rows ∧ rows ≤ 256 ∧ 1 ≤ cols ∧ cols ≤ 256 ∧ [1, 2, 3, 4, 6, 8, 16, 32].contains width ∧ blockFits base pitch rows cols width ∧
        scales.length ≤ 2 ∧ scales.all (fun x => decide (x.1 + x.2 ≤ 0xC00000)) ∧ tileUsable s t then
      let a := sramAddr t base
      let reads := turnReads base pitch rows cols width scales
      let s := readsFind t 4 reads ecc s
      let sc := scales.map fun x => readBytes s.mem (sramAddr t x.1) x.2
      let bad := reads.any fun x => poisoned s.mem (sramAddr t x.1) x.2
      let half := fun (h : Nat) => turnBlock s.mem a pitch rows cols width (128 * h) 128
      let fill := fun (h : Nat) => if 128 * h < cols then fillCycles (base + 512 * h) pitch rows (min 128 (cols - 128 * h)) width else 0
      if width = 32 then turnOut t 32 (half 1) sc (fill 1) bad (turnOut t 32 (half 0) sc (fill 0) bad s)
      else turnOut t width (turnBlock s.mem a pitch rows cols width 0 256) sc (fillCycles base pitch rows cols width) bad s
    else s)

/-! ### Page retirement -/

/-- Stack page `k` of a stack's spare pool (Table 08-7): its 256 pages follow one another, since the pool is interleaved like all of the HBM. -/
def sparePage (k : Nat) : Nat := (reserveBase + 0xE0000000) / 65536 + k

/-- Training and page retirement of stack `m` at start (Table 08-2, R361, R362): bad interface lanes are remapped, and the listed pages, 256 at most, are
mapped to the spare pool's in ascending order (DESIGN CHOICE, log 99); more are recorded once with ERR_HBM_POOL. -/
def retireStack (m : Nat) (s : State) : State :=
  let listed := ((s.bark.badPages ++ s.bark.retire).filter fun e => e.1 == m).map (·.2)
  let pages := listed.foldl sinsert []
  let kept := pages.take 256
  let s := updHbm m (fun r => { r with retired := kept.zipIdx.map fun e => (e.1, sparePage e.2), remapped := Config.badLanes m s.time, trained := true, poolFull := decide (256 < pages.length) }) s
  if 256 < pages.length then
    raise errHbmPool uStack m m none32 (detail [(pages.length, 4), (kept.length, 4)]) s
  else s

/-- HBM training and page retirement at step 7 of the start (Table 15-1). -/
def startStacks (s : State) : State :=
  if isFA s then s else ((List.range 16).filter fun m => !stackLost s m).foldl (fun s m => retireStack m s) s

end Sys2Proof.Machine
end

