-- ==== Sys2Proof/Machine/DieLinks.lean ====
section
/-! DEFINITION. Die links (Chapter 09): their places, wires and phase codes, and the sending and replaying of transfers. -/
namespace Sys2Proof.Machine

/-- Seam of a bridge link: 0 B01, 1 B23, 2 B02, 3 B13 (Table 09-1). -/
def seamOf (k : Nat) : Nat := (k - 256) / 8

/-- The two quadrants that a seam joins, the lower-numbered first. -/
def seamQuads : Nat → Nat × Nat
  | 0 => (0, 1)
  | 1 => (2, 3)
  | 2 => (0, 2)
  | _ => (1, 3)

/-- The two tiles of a bridge link, that of the lower-numbered quadrant first (Table 09-1). -/
def bridgeTiles (k : Nat) : Nat × Nat :=
  let i := (k - 256) % 8
  match seamOf k with
  | 0 => (16 * i + 7, 16 * i + 8)
  | 1 => (16 * (8 + i) + 7, 16 * (8 + i) + 8)
  | 2 => (16 * 7 + i, 16 * 8 + i)
  | _ => (16 * 7 + 8 + i, 16 * 8 + 8 + i)

/-- The tile at the receiving end of direction `dir` (Table 09-6: 0 toward the crown or the higher-numbered quadrant). -/
def linkTile (k dir : Nat) : Nat := if k < 256 then k else if dir = 0 then (bridgeTiles k).2 else (bridgeTiles k).1

/-- Whether the module has the link: a ULS-9640-FA has bridge links only (R376). -/
def hasLink (s : State) (k : Nat) : Bool := decide (k < 288) && (!isFA s || decide (256 ≤ k))

/-- Ledger die of a link: the root of the tile's quadrant, or the bridge die (Table 16-15). -/
def linkDie (k : Nat) : Nat := if k < 256 then rootDie k else 8 + seamOf k
def linkUnitKind (k : Nat) : Nat := if k < 256 then uTile else uSeam
def linkUnit (k : Nat) : Nat := if k < 256 then k else seamOf k

def dirOf (l : DLink) (d : Nat) : DLinkDir := if d = 0 then l.toCrown else l.toRoot
def setDir (l : DLink) (d : Nat) (r : DLinkDir) : DLink := if d = 0 then { l with toCrown := r } else { l with toRoot := r }
def seg (r : DLinkDir) (i : Nat) : Seg := tget r.segs i {}
def setSeg (r : DLinkDir) (i : Nat) (v : Seg) : DLinkDir := { r with segs := tset r.segs i v {} }

/-- Active segments of a width (R377). -/
def activeSegs : Width → List Nat
  | .full => List.range 16
  | .lower => List.range 8
  | .upper => (List.range 8).map (· + 8)
  | .fenced => []

/-- Key of a segment's phase code in the Bark's table (R401). -/
def phaseKey (link dir sg band : Nat) : Nat := ((link * 2 + dir) * 16 + sg) * 5 + band

/-- Phase code in use of a segment at a band (R395). -/
def phaseCode (s : State) (link dir sg band : Nat) : Nat :=
  tget (seg (dirOf (dlink s link) dir) sg).codes band (tget s.bark.phases (phaseKey link dir sg band) 0)

/-! ### Retry -/

/-- Next sequence number, mod 64. -/
def seqNext (n : Nat) : Nat := (n + 1) % 64

/-- A link direction can send a transfer: the link runs and its replay buffer of 8 has room (R380, R385). -/
def canTransfer (s : State) (k d : Nat) : Bool :=
  let l := dlink s k
  l.width != .fenced && !l.paused && decide ((dirOf l d).held.length < 8)

/-- A transfer over the segments `ss` (R378): the number and data of one that is valid, each segment's share filled up with zeros, with the last number
accepted of the other direction and whether that must replay (R380). -/
def transferOver (ss : List Nat) (x : Option (Nat × List Byte)) (ack : Nat) (nak : Bool) : List Segment :=
  let ctl := (match x with | some q => q.1 * 1024 + 4 | none => 0) + ack * 16 + if nak then 8 else 0
  let bs := match x with | some q => q.2 | none => []
  ss.zipIdx.map fun e =>
    let part := slice bs (512 * e.2) 512
    let data := part ++ List.replicate (512 - part.length) 0
    ⟨Fin.ofNat 16 e.1, data, BitVec.ofNat 48 (crc32 (data ++ leBytes 2 ctl) * 65536 + ctl)⟩

/-- A transfer as it leaves over every active segment, with what this end has accepted of the other direction; `none` for an idle one. -/
def transferOut (s : State) (k d : Nat) (x : Option (Nat × List Byte)) : Out :=
  let o := dirOf (dlink s k) (1 - d)
  .transfer k d (transferOver (activeSegs (dlink s k).width) x o.rxLast o.nak)

/-- Sends one transfer on a link direction and holds it (R380). -/
def sendTransfer (k d : Nat) (bs : List Byte) (s : State) : State :=
  let l := dlink s k
  let r := dirOf l d
  emit (transferOut s k d (some (r.txSeq, bs)))
    (setDlink k (setDir l d { r with txSeq := seqNext r.txSeq, held := r.held ++ [(r.txSeq, bs)] }) s)

/-- Sends held transfers again, in order. -/
def resendHeld (k d : Nat) (held : List (Nat × List Byte)) (s : State) : State := held.foldl (fun s q => emit (transferOut s k d (some q)) s) s

/-- An ack releases the held transfers up to it (R380); a later oldest transfer starts its count of replays anew (R383). -/
def takeAck (r : DLinkDir) (ack : Nat) : DLinkDir :=
  let i := r.held.findIdx (·.1 == ack)
  if i < r.held.length then { r with held := r.held.drop (i + 1), again := 0 } else r

/-- Data of one transfer at a width (R378). -/
def transferBytes (w : Width) : Nat := 512 * (activeSegs w).length

/-- Bytes cut into transfers of a width. -/
def cutTransfers (w : Width) (bs : List Byte) : List (List Byte) :=
  let n := transferBytes w
  (List.range ((bs.length + n - 1) / max 1 n)).map fun i => slice bs (i * n) n

/-- The next `n` units of 64 B of the consumers with data waiting, round-robin from the one after `last` (R77), with what is left and the consumer served
last. A unit that the data does not fill ends in zeros. -/
def nextUnits : Nat → Table (List Byte) → Nat → List Byte × Table (List Byte) × Nat
  | 0, w, last => ([], w, last)
  | n + 1, w, last =>
    match ((List.range 8).map fun i => (last + 1 + i) % 8).find? fun c => thas w c with
    | none => ([], w, last)
    | some c =>
      let bs := tget w c []
      let (rest, w', last') := nextUnits n (tset w c (bs.drop 64) []) c
      (bs.take 64 ++ List.replicate (64 - bs.length) 0 ++ rest, w', last')

/-- A vertical link sends what waits for a direction, while it takes transfers (R77, R380, R385). -/
def pumpVertical (k d : Nat) : Nat → State → State
  | 0, s => s
  | n + 1, s =>
    let l := dlink s k
    let r := dirOf l d
    if !canTransfer s k d then s
    else match r.waiting with
    | bs :: rest => pumpVertical k d n (sendTransfer k d bs (setDlink k (setDir l d { r with waiting := rest }) s))
    | [] =>
      if r.queued.isEmpty then s
      else
        let (bs, queued, lastServed) := nextUnits (transferBytes l.width / 64) r.queued r.lastServed
        pumpVertical k d n (sendTransfer k d bs (setDlink k (setDir l d { r with queued, lastServed }) s))

/-- Bytes of consumer `c` cross the vertical link of tile `t` in direction `d`, 0 toward the crown (Table 02-7). -/
def crossVertical (t d c : Nat) (bs : List Byte) (s : State) : State :=
  let l := dlink s t
  let r := dirOf l d
  pumpVertical t d 8 (setDlink t (setDir l d { r with queued := tset r.queued c (tget r.queued c [] ++ bs) [] }) s)

/-- A vertical link's direction after its width has changed: what the far end has not accepted is cut anew, from the number that it waits for (R378, R386). -/
def recut (w : Width) (r : DLinkDir) : DLinkDir :=
  let r := takeAck r r.rxLast
  { r with held := [], waiting := cutTransfers w ((r.held.map (·.2) ++ r.waiting).flatten), txSeq := seqNext r.rxLast }

/-- Replays every held transfer in order (R381), and notes the replay for the counts of R383. -/
def replayDir (k d : Nat) (s : State) : State :=
  let l := dlink s k
  let r := dirOf l d
  if r.held.isEmpty then s
  else
    let recent := s.time :: r.recent.filter fun t => s.time < t + 1000000
    let s := setDlink k (setDir l d { r with again := r.again + 1, recent, retries := r.retries + 1 }) s
    resendHeld k d r.held s

end Sys2Proof.Machine
end

