-- ==== Sys2Proof/Machine/Operands.lean ====
section
/-! DEFINITION. The arithmetic of Chapter 03: formats and scales, conversion and rounding, the exact leaf, the canonical tree, attention combine
and the vector unit's arithmetic. An exact real number is a rational with a sign for its zero. -/
namespace Sys2Proof.Machine

/-- A decoded value (R91): an exact number, an infinity or NaN; `neg` carries the sign of a zero. -/
inductive Num where
  | nan
  | inf (neg : Bool)
  | fin (neg : Bool) (mag : Rat)
  deriving DecidableEq, Repr

/-- Powers of two. -/
def pow2 (e : Int) : Rat := if e < 0 then mkRat 1 (2 ^ (-e).toNat) else ((2 ^ e.toNat : Nat) : Rat)

/-- The real number of a finite value. -/
def Num.real : Num → Rat
  | .fin n m => if n then -m else m
  | .nan => 0
  | .inf _ => 0

/-- A finite value from a real; `z` is the sign of a zero. -/
def Num.ofRat (z : Bool) (q : Rat) : Num := if q = 0 then .fin z 0 else if q < 0 then .fin true (-q) else .fin false q

def Num.isZero : Num → Bool
  | .fin _ m => m == 0
  | .nan => false
  | .inf _ => false

def Num.isFinite : Num → Bool
  | .fin _ _ => true
  | .nan => false
  | .inf _ => false

def Num.neg : Num → Bool
  | .nan => false
  | .inf n => n
  | .fin n _ => n

/-- Exact IEEE product: 0 × ∞ is NaN (R111, R117). -/
def Num.mul : Num → Num → Num
  | .nan, _ => .nan
  | _, .nan => .nan
  | .inf a, .inf b => .inf (a != b)
  | .inf a, .fin b m => if m = 0 then .nan else .inf (a != b)
  | .fin a m, .inf b => if m = 0 then .nan else .inf (a != b)
  | .fin a m, .fin b n => .fin (a != b) (m * n)

/-- Exact IEEE sum: x + (−x) is +0 and (−0) + (−0) is −0 (R117). -/
def Num.add : Num → Num → Num
  | .nan, _ => .nan
  | _, .nan => .nan
  | .inf a, .inf b => if a = b then .inf a else .nan
  | .inf a, .fin _ _ => .inf a
  | .fin _ _, .inf b => .inf b
  | .fin a m, .fin b n => Num.ofRat (a && b && m == 0 && n == 0) ((if a then -m else m) + (if b then -n else n))

def Num.negate : Num → Num
  | .nan => .nan
  | .inf n => .inf (!n)
  | .fin n m => .fin (!n) m

/-! ### Rounding -/

/-- Element rounding (R103): to nearest, ties to even, or stochastic with its 32-bit draw (R107). -/
inductive Rnd where
  | rne
  | sr (draw : Nat)
  deriving DecidableEq, Repr

/-- Rounds a real number to an integer grid. -/
def rndInt (m : Rnd) (y : Rat) : Int :=
  let lo := y.floor
  let f := y - lo
  if f = 0 then lo
  else match m with
    | .rne => if f < 1 / 2 then lo else if 1 / 2 < f then lo + 1 else if lo % 2 = 0 then lo else lo + 1
    | .sr d => if (d : Int) < (f * ((2 ^ 32 : Nat) : Rat)).floor then lo + 1 else lo

/-- Floor of the base-2 logarithm of a positive rational. -/
def log2Floor (q : Rat) : Int :=
  let k : Int := (q.num.toNat.log2 : Int) - (q.den.log2 : Int)
  if pow2 k ≤ q then k else k - 1

/-- Ceiling of the base-2 logarithm of a positive rational. -/
def log2Ceil (q : Rat) : Int := let k := log2Floor q; if pow2 k = q then k else k + 1

/-! ### IEEE formats with infinities: FP32, BF16, FP64 -/

/-- Decodes a pattern with `eb` exponent and `mb` fraction bits (Table 03-1). -/
def decF (eb mb c : Nat) : Num :=
  let e := c / 2 ^ mb % 2 ^ eb
  let f := c % 2 ^ mb
  let n := c / 2 ^ (eb + mb) % 2 == 1
  let bias : Int := 2 ^ (eb - 1) - 1
  if e = 2 ^ eb - 1 then (if f = 0 then .inf n else .nan)
  else if e = 0 then .fin n (f * pow2 (1 - bias - mb))
  else .fin n ((2 ^ mb + f : Nat) * pow2 (e - bias - mb))

/-- The canonical NaN of a format (R112). -/
def nanF (eb mb : Nat) : Nat := (2 ^ eb - 1) * 2 ^ mb + 2 ^ (mb - 1)

/-- Rounds into a format, subnormals kept, overflow to ±∞ on the grid of R107, every NaN canonical. -/
def encF (eb mb : Nat) (m : Rnd) : Num → Nat
  | .nan => nanF eb mb
  | .inf n => (if n then 2 ^ (eb + mb) else 0) + (2 ^ eb - 1) * 2 ^ mb
  | .fin n q =>
    let s := if n then 2 ^ (eb + mb) else 0
    if q = 0 then s
    else
      let emin : Int := 2 - 2 ^ (eb - 1)
      let e := max (log2Floor q) emin
      let k := (rndInt m ((if n then -q else q) / pow2 (e - mb))).natAbs
      s + min ((e - emin).toNat * 2 ^ mb + k) ((2 ^ eb - 1) * 2 ^ mb)

def dec32 (w : Word) : Num := decF 8 23 w.toNat
def enc32 (m : Rnd) (x : Num) : Word := BitVec.ofNat 32 (encF 8 23 m x)
def dec16 (c : Nat) : Num := decF 8 7 c
def enc16 (m : Rnd) (x : Num) : Nat := encF 8 7 m x
def dec64 (w : DWord) : Num := decF 11 52 w.toNat
def enc64 (x : Num) : DWord := BitVec.ofNat 64 (encF 11 52 .rne x)

/-- FP32 arithmetic rounded once to nearest-even (R125). -/
def fadd (a b : Word) : Word := enc32 .rne (Num.add (dec32 a) (dec32 b))
def fsub (a b : Word) : Word := enc32 .rne (Num.add (dec32 a) (Num.negate (dec32 b)))
def fmul (a b : Word) : Word := enc32 .rne (Num.mul (dec32 a) (dec32 b))
def ffma (a b c : Word) : Word := enc32 .rne (Num.add (Num.mul (dec32 a) (dec32 b)) (dec32 c))
/-- FP64 arithmetic of Flume adds and of the guards (R116, R164). -/
def dadd (a b : DWord) : DWord := enc64 (Num.add (dec64 a) (dec64 b))
def dsub (a b : DWord) : DWord := enc64 (Num.add (dec64 a) (Num.negate (dec64 b)))
def dmul (a b : DWord) : DWord := enc64 (Num.mul (dec64 a) (dec64 b))

/-- a < b as real numbers with infinities; false on NaN. −0 is below +0 when `signed` (R125). -/
def Num.lt (signed : Bool) : Num → Num → Bool
  | .nan, _ => false
  | _, .nan => false
  | .inf a, .inf b => a && !b
  | .inf a, .fin _ _ => a
  | .fin _ _, .inf b => !b
  | .fin a m, .fin b n =>
    if m = 0 && n = 0 then signed && a && !b
    else decide ((if a then -m else m) < (if b then -n else n))

/-- The canonical FP32 NaN (R112). -/
abbrev nan32 : Word := 0x7FC00000

/-- min and max: NaN when either operand is NaN; −0 below +0 (R125). -/
def fmin (a b : Word) : Word :=
  if dec32 a = .nan ∨ dec32 b = .nan then nan32 else if Num.lt true (dec32 b) (dec32 a) then b else a
def fmax (a b : Word) : Word :=
  if dec32 a = .nan ∨ dec32 b = .nan then nan32 else if Num.lt true (dec32 a) (dec32 b) then b else a

/-! ### exp, log, reciprocal, reciprocal square root (R126) -/

/-- A positive rational strictly between two consecutive multiples of 2^-k that enclose the root, or the exact root: rounding it to any grid
whose points are multiples of 2^-k rounds the root itself. -/
def sqrtNear (q : Rat) (k : Nat) : Rat :=
  let n := q.num.toNat * 2 ^ (2 * k)
  let s := (n / q.den).sqrt
  if s * s * q.den = n then mkRat s (2 ^ k) else mkRat (2 * s + 1) (2 ^ (k + 1))

/-- Reciprocal. -/
def Num.rcp : Num → Num
  | .nan => .nan
  | .inf n => .fin n 0
  | .fin n m => if m = 0 then .inf n else .fin n (1 / m)

/-- Reciprocal square root (Table 03-8). -/
def Num.rsqrt : Num → Num
  | .nan => .nan
  | .inf n => if n then .nan else .fin false 0
  | .fin n m => if m = 0 then .inf n else if n then .nan else .fin false (sqrtNear (1 / m) 400)

/-- Square root of FP64 (R168). -/
def Num.sqrt : Num → Num
  | .nan => .nan
  | .inf n => if n then .nan else .inf false
  | .fin n m => if m = 0 then .fin n 0 else if n then .nan else .fin false (sqrtNear m 1200)

/-- Fixed-point precision of the transcendental intervals. -/
abbrev fxBits : Nat := 400

/-- Taylor terms of exp(y) in units of 2^-fxBits: `t` is the term of index `i`. -/
def expTerms : Nat → Nat → Int → Int → Int
  | 0, _, _, _ => 0
  | k + 1, i, y, t => t + expTerms k (i + 1) y (t * y / 2 ^ fxBits / (i + 1 : Nat))

def squares : Nat → Int → Int
  | 0, t => t
  | k + 1, t => squares k (t * t / 2 ^ fxBits)

/-- Bounds on exp of a rational of magnitude below 110. -/
def expBounds (x : Rat) : Rat × Rat :=
  let y := (x * pow2 (fxBits - 8)).floor
  let t := squares 8 (expTerms 90 0 y (2 ^ fxBits))
  let err := t / 2 ^ 360 + 2 ^ 20
  (((t - err : Int) : Rat) * pow2 (-(fxBits : Int)), ((t + err : Int) : Rat) * pow2 (-(fxBits : Int)))

/-- Terms z^(2i+1)/(2i+1) of atanh. -/
def atanhTerms : Nat → Nat → Int → Int → Int
  | 0, _, _, _ => 0
  | k + 1, i, z2, p => p / (2 * i + 1 : Nat) + atanhTerms k (i + 1) z2 (p * z2 / 2 ^ fxBits)

def lnOneTwo (m : Rat) : Int :=
  let z := ((m - 1) / (m + 1) * pow2 fxBits).floor
  2 * atanhTerms 140 0 (z * z / 2 ^ fxBits) z

/-- Bounds on the natural logarithm of a positive rational. -/
def logBounds (x : Rat) : Rat × Rat :=
  let k := log2Floor x
  let t := lnOneTwo (x / pow2 k) + k * lnOneTwo 2
  (((t - 2 ^ 30 : Int) : Rat) * pow2 (-(fxBits : Int)), ((t + 2 ^ 30 : Int) : Rat) * pow2 (-(fxBits : Int)))

/-- Rounds a value known between two bounds: the common rounding of both, else the configuration's (R126 fixes it, the interval did not). -/
def encBounds (fn eb mb : Nat) (arg : Word) (b : Rat × Rat) : Nat :=
  let lo := encF eb mb .rne (Num.ofRat false b.1)
  let hi := encF eb mb .rne (Num.ofRat false b.2)
  if lo = hi then lo else (Config.transcendental (fn * 64 + mb) arg).toNat % 2 ^ (eb + mb + 1)

/-- exp in the format of `eb`, `mb` (Table 03-8). -/
def expF (eb mb : Nat) (arg : Word) : Num → Nat
  | .nan => nanF eb mb
  | .inf n => if n then 0 else encF eb mb .rne (.inf false)
  | .fin n m =>
    if m = 0 then encF eb mb .rne (.fin false 1)
    else if 110 < m then (if n then 0 else encF eb mb .rne (.inf false))
    else encBounds 0 eb mb arg (expBounds (if n then -m else m))

/-- log in the format of `eb`, `mb` (Table 03-8). -/
def logF (eb mb : Nat) (arg : Word) : Num → Nat
  | .nan => nanF eb mb
  | .inf n => if n then nanF eb mb else encF eb mb .rne (.inf false)
  | .fin n m =>
    if m = 0 then encF eb mb .rne (.inf true)
    else if n then nanF eb mb
    else if m = 1 then 0
    else encBounds 1 eb mb arg (logBounds m)

def fexp (a : Word) : Word := BitVec.ofNat 32 (expF 8 23 a (dec32 a))
def flog (a : Word) : Word := BitVec.ofNat 32 (logF 8 23 a (dec32 a))
def frcp (a : Word) : Word := enc32 .rne (Num.rcp (dec32 a))
def frsqrt (a : Word) : Word := enc32 .rne (Num.rsqrt (dec32 a))
/-- FP64 square root (R168). -/
def dsqrt (a : DWord) : DWord := enc64 (Num.sqrt (dec64 a))

/-! ### Narrow formats. Format codes are those of Table 05-1. -/

/-- Geometry of a float element: exponent bits, fraction bits, bias. -/
def narrowFloat : Nat → Option (Nat × Nat × Int)
  | 2 => some (4, 3, 7) | 3 => some (5, 2, 15) | 4 => some (2, 3, 1) | 5 => some (3, 2, 3) | 6 => some (2, 1, 1)
  | 8 => some (2, 1, 1) | _ => none

/-- Element width in bits (Table 03-1). -/
def elemBits : Nat → Nat
  | 0 => 32 | 1 => 16 | 2 => 8 | 3 => 8 | 4 => 6 | 5 => 6 | 6 => 4 | 7 => 8 | 8 => 4 | 9 => 3 | 0xA => 2 | 0xB => 2 | 0xC => 1
  | 0x10 => 32 | 0x11 => 32 | 0x12 => 64 | _ => 0

/-- Block size (Table 03-3); 0 for formats without blocks. -/
def blockSize : Nat → Nat
  | 2 => 32 | 3 => 32 | 4 => 32 | 5 => 32 | 6 => 32 | 7 => 32 | 8 => 16 | 9 => 16 | 0xA => 16 | 0xB => 32 | 0xC => 32 | _ => 0

/-- The format has block scales. -/
def isBlock (f : Nat) : Bool := 2 ≤ f && f ≤ 0xC
/-- The format has tensor scales over groups of 4,096. -/
def isGrouped (f : Nat) : Bool := 8 ≤ f && f ≤ 0xC

/-- Element value of a code (Table 03-1). -/
def elemVal (f c : Nat) : Num :=
  match narrowFloat f with
  | some (eb, mb, bias) =>
    let e := c / 2 ^ mb % 2 ^ eb
    let k := c % 2 ^ mb
    let n := c / 2 ^ (eb + mb) % 2 == 1
    if f = 2 ∧ e = 15 ∧ k = 7 then .nan
    else if f = 3 ∧ e = 31 then (if k = 0 then .inf n else .nan)
    else if e = 0 then .fin n (k * pow2 (1 - bias - mb))
    else .fin n ((2 ^ mb + k : Nat) * pow2 (e - bias - mb))
  | none =>
    if f = 0 then decF 8 23 c
    else if f = 1 then decF 8 7 c
    else if f = 7 then Num.ofRat false ((BitVec.ofNat 8 c).toInt * pow2 (-6))
    else if f = 9 then Num.ofRat false ((BitVec.ofNat 3 c).toInt : Rat)
    else if f = 0xA then Num.ofRat false ((c % 4 : Nat) - 3 / 2)
    else if f = 0xB then (if c % 4 = 1 then .fin false 1 else if c % 4 = 3 then .fin true 1 else .fin false 0)
    else if f = 0xC then .fin (c % 2 == 1) 1
    else if f = 0x10 then Num.ofRat false ((BitVec.ofNat 32 c).toInt : Rat)
    else if f = 0x12 then decF 11 52 c
    else .fin false c

/-- Block-scale value of a code (Table 03-2): NaN, the zero code as 0, or a positive number. -/
def scaleVal (f c : Nat) : Num :=
  if f < 8 then (if c = 0xFF then .nan else .fin false (pow2 ((c : Int) - 127)))
  else if f = 8 then
    (if c = 0xFF then .nan
     else if c / 8 = 0 then .fin false ((c % 8 : Nat) * pow2 (-25))
     else .fin false ((8 + c % 8 : Nat) * pow2 ((c / 8 : Nat) - 26)))
  else if f = 0xA then
    (if c = 0xF then .nan else if c = 0xE then .fin false 0 else .fin false (pow2 (-(c : Int))))
  else if c = 0x7F ∨ 0x80 ≤ c then .nan else elemVal 2 c

/-- The NaN code of a format's block scale. -/
def scaleNaN (f : Nat) : Nat := if f < 9 then 0xFF else if f = 0xA then 0xF else 0x7F
/-- The zero code of a format's block scale. -/
def scaleZero (f : Nat) : Nat := if f = 0xA then 0xE else 0

/-- Decoded value of an element with its scales (R93, R94). -/
def decodeElem (f code bscale tscale : Nat) : Num :=
  if isBlock f then
    let t := if isGrouped f then (if tscale = 0xFF then Num.nan else .fin false (pow2 ((tscale : Int) - 127))) else .fin false 1
    let b := scaleVal f bscale
    if t = .nan ∨ b = .nan then .nan
    else if b.isZero then .fin false 0
    else Num.mul (Num.mul (elemVal f code) b) t
  else elemVal f code

/-- emax, qmax and smax (Table 03-5). -/
def emaxOf : Nat → Int
  | 2 => 8 | 3 => 15 | 4 => 2 | 5 => 4 | 6 => 2 | _ => 0
def qmaxOf : Nat → Rat
  | 2 => 448 | 3 => 57344 | 4 => 15 / 2 | 5 => 28 | 6 => 6 | 7 => 127 / 64 | 8 => 6 | 9 => 3 | 0xA => 3 / 2 | _ => 1
def smaxOf : Nat → Rat
  | 0xA => 1 | _ => 448

/-- round_element (R103) of a real `y` with sign `neg` of a zero: code, and whether the clamp changed the value (R104). -/
def roundElement (f : Nat) (m : Rnd) (neg : Bool) (y : Rat) : Nat × Bool :=
  match narrowFloat f with
  | some (eb, mb, bias) =>
    let a := if y < 0 then -y else y
    let emin := 1 - bias
    let etop := emaxOf f
    let top := if f = 8 then 2 else etop
    let e := if a = 0 then emin else min (max (log2Floor a) emin) top
    let k := (rndInt m (y / pow2 (e - mb))).natAbs
    let v := k * pow2 (e - mb)
    let s := if y < 0 ∨ (y = 0 ∧ neg) then 2 ^ (eb + mb) else 0
    let mag := if qmaxOf f < v then qmaxOf f else v
    let e' := if mag = 0 then emin else max (log2Floor mag) emin
    (s + (e' - emin).toNat * 2 ^ mb + (mag / pow2 (e' - mb)).floor.toNat, decide (qmaxOf f < v))
  | none =>
    if f = 7 then
      let k := rndInt m (y * 64)
      ((max (min k 127) (-127) % 256).toNat, decide (127 < k ∨ k < -127))
    else if f = 9 then
      let k := rndInt m y
      ((max (min k 3) (-3) % 8).toNat, decide (3 < k ∨ k < -3))
    else if f = 0xB then
      let k := rndInt m y
      ((max (min k 1) (-1) % 4).toNat, decide (1 < k ∨ k < -1))
    else if f = 0xA then
      let k := rndInt m (y + 3 / 2)
      ((max (min k 3) 0).toNat, decide (3 < k ∨ k < 0))
    else ((if y < 0 then 1 else 0), false)

/-- round_scale (R102). -/
def roundScale (f : Nat) (r : Rat) : Nat :=
  if r = 0 then scaleZero f
  else if f = 0xA then (max 0 (min 13 (-(log2Ceil r)))).toNat
  else if f = 8 then
    let e := max (log2Floor r) (-22)
    if 448 < r then 0xFE
    else min 0xFE ((e + 22).toNat * 8 + (rndInt .rne (r / pow2 (e - 3))).toNat)
  else
    let e := max (log2Floor r) (-6)
    if 448 < r then 0x7E
    else min 0x7E ((e + 6).toNat * 8 + (rndInt .rne (r / pow2 (e - 3))).toNat)

/-- Magnitude of a finite value. -/
def Num.mag : Num → Rat
  | .fin _ m => m
  | .nan => 0
  | .inf _ => 0

def ratMax (xs : List Rat) : Rat := xs.foldl (fun a b => if a < b then b else a) 0
def ratSum (xs : List Rat) : Rat := xs.foldl (· + ·) 0

/-- What a conversion of a run of elements gives: element codes, block scales, saturated and underflowed counts. -/
structure Quant where
  codes : List Nat := []
  bscales : List Nat := []
  tscale : Nat := 0
  sat : Nat := 0
  under : Nat := 0
  deriving DecidableEq, Repr

/-- Consecutive runs of `n` elements, `fuel` of them at most. -/
def chunksOf {α : Type} (n : Nat) : Nat → List α → List (List α)
  | 0, _ => []
  | k + 1, xs => if xs.isEmpty then [] else xs.take n :: chunksOf n k (xs.drop n)

/-- Converts the elements of one block whose scale value is `S` (R100): codes and counts (R104). -/
def quantElems (f : Nat) (S : Rat) (xs : List (Num × Rnd)) : List (Nat × Bool × Bool) :=
  xs.map fun (x, m) =>
    if S = 0 then (0, false, f != 0xC && !x.isZero)
    else
      let (c, sat) := roundElement f m x.neg (x.real / S)
      (c, f != 0xC && sat, f != 0xC && !x.isZero && (elemVal f c).isZero)

def countSat (es : List (Nat × Bool × Bool)) : Nat := es.countP fun e => e.2.1
def countUnder (es : List (Nat × Bool × Bool)) : Nat := es.countP fun e => e.2.2

/-- quantise_mx on one block (R100). -/
def quantiseMx (f : Nat) (xs : List (Num × Rnd)) : Quant :=
  if xs.any fun x => !x.1.isFinite then
    { codes := xs.map fun _ => 0, bscales := [0xFF], sat := xs.length }
  else
    let amax := ratMax (xs.map fun x => x.1.mag)
    let X : Int := if amax = 0 then 127 else max 0 (min 254 (log2Floor amax - emaxOf f + 127))
    let es := quantElems f (pow2 (X - 127)) xs
    { codes := es.map (·.1), bscales := [X.toNat], sat := countSat es, under := countUnder es }

/-- Target of a block of an N format (R100); none for a poisoned block. -/
def blockTarget (f : Nat) (b : List (Num × Rnd)) : Option Rat :=
  if b.any fun x => !x.1.isFinite then none
  else if f = 0xC then some (ratSum (b.map fun x => x.1.mag) / (b.length : Rat))
  else some (ratMax (b.map fun x => x.1.mag) / qmaxOf f)

/-- The second part of quantise_n (R100): the values of a group under its tensor scale `T`. -/
def quantiseAt (f T : Nat) (xs : List (Num × Rnd)) : Quant :=
  let one := fun (b : List (Num × Rnd)) =>
    match blockTarget f b with
    | none => (b.map fun _ => (0, f != 0xC, false), scaleNaN f)
    | some t =>
      let sc := roundScale f (t / pow2 ((T : Int) - 127))
      (quantElems f ((scaleVal f sc).mag * pow2 ((T : Int) - 127)) b, sc)
  let rs := (chunksOf (blockSize f) xs.length xs).map one
  let es := rs.flatMap (·.1)
  { codes := es.map (·.1), bscales := rs.map (·.2), tscale := T, sat := countSat es, under := countUnder es }

/-- quantise_n (R100) of one group: the tensor scale from the blocks' targets, then the blocks under it. -/
def quantiseN (f : Nat) (xs : List (Num × Rnd)) : Quant :=
  let G := ratMax ((chunksOf (blockSize f) xs.length xs).filterMap (blockTarget f))
  let T : Int := if G = 0 then 127 else max 0 (min 254 (log2Ceil (G / smaxOf f) + 127))
  quantiseAt f T.toNat xs

/-- Conversion into an unblocked format (R105). -/
def quantisePlain (f : Nat) (xs : List (Num × Rnd)) : Quant :=
  let es := xs.map fun (x, m) =>
    let c := if f = 1 then encF 8 7 m x else if f = 0x12 then encF 11 52 m x else encF 8 23 m x
    let v := elemVal f c
    (c, x.isFinite && !v.isFinite, x.isFinite && !x.isZero && v.isZero)
  { codes := es.map (·.1), sat := countSat es, under := countUnder es }

/-- Converts a run along the blocking axis: blocks of an MX format or groups of an N format, in order (R95). -/
def quantiseRun (f : Nat) (xs : List (Num × Rnd)) : Quant × List Nat :=
  if isGrouped f then
    let qs := (chunksOf 4096 xs.length xs).map (quantiseN f)
    ({ codes := qs.flatMap (·.codes), bscales := qs.flatMap (·.bscales), sat := sumNat (qs.map (·.sat)), under := sumNat (qs.map (·.under)) },
      qs.map (·.tscale))
  else if isBlock f then
    let qs := (chunksOf (blockSize f) xs.length xs).map (quantiseMx f)
    ({ codes := qs.flatMap (·.codes), bscales := qs.flatMap (·.bscales), sat := sumNat (qs.map (·.sat)), under := sumNat (qs.map (·.under)) }, [])
  else (quantisePlain f xs, [])

/-- Decodes a run of up to 256 elements that travels with its scales (R45, R97). -/
def decodeRun (r : Run) : List Num :=
  r.codes.zipIdx.map fun (c, i) => decodeElem r.fmt c (nth r.bscales (i / blockSize r.fmt) 0) r.tscale

/-! ### The exact leaf -/

/-- The leaf of a list of exact terms (R110, R111). -/
def leafOf (ts : List Num) : Word :=
  if ts.any (· == .nan) ∨ (ts.any (· == .inf false) ∧ ts.any (· == .inf true)) then nan32
  else if ts.any (· == .inf false) then 0x7F800000
  else if ts.any (· == .inf true) then 0xFF800000
  else enc32 .rne (Num.ofRat false (ratSum (ts.map Num.real)))

/-- A contraction's leaf: exact products of decoded operands (R110). -/
def leafProducts (xs ys : List Num) : Word := leafOf (List.zipWith Num.mul xs ys)

/-! ### The canonical tree -/

/-- One node: its members added left to right (R115). -/
def foldNode {α : Type} (op : α → α → α) : List α → Option α
  | [] => none
  | x :: xs => some (xs.foldl op x)

/-- The nodes of the next level: runs of 8 from index 0 (R115). -/
def nextLevel {α : Type} (op : α → α → α) (level : List α) : List α :=
  (chunksOf 8 level.length level).filterMap (foldNode op)

/-- Levels are folded until one node is left; `fuel` bounds the depth. -/
def treeFuel {α : Type} (op : α → α → α) : Nat → List α → List α
  | 0, xs => xs
  | k + 1, xs => if xs.length ≤ 1 then xs else treeFuel op k (nextLevel op xs)

/-- canonical_sum with a node operation (R115, Table 03-7); none of no children. -/
def canonicalTree {α : Type} (op : α → α → α) (xs : List α) : Option α := (treeFuel op xs.length xs).head?

/-- canonical_sum in FP32 (R115, R116). -/
def canonicalSum (xs : List Word) : Word := (canonicalTree fadd xs).getD 0

/-! ### Attention combine -/

/-- attention_combine (R123). -/
def attentionCombine (a b : AttState) : AttState :=
  if a.m = 0xFF800000 then b
  else if b.m = 0xFF800000 then a
  else
    let m := fmax a.m b.m
    let a1 := fexp (fsub a.m m)
    let a2 := fexp (fsub b.m m)
    { m, l := fadd (fmul a.l a1) (fmul b.l a2), o := List.zipWith (fun x y => fadd (fmul x a1) (fmul y a2)) a.o b.o }

/-! ### Integers and conversions of the vector unit (R127, R212) -/

/-- FP32 to saturating INT32, ties to even, NaN to 0. -/
def f2i (a : Word) : Word :=
  match dec32 a with
  | .nan => 0
  | .inf n => if n then 0x80000000 else 0x7FFFFFFF
  | .fin n m =>
    let k := rndInt .rne (if n then -m else m)
    if 2 ^ 31 - 1 < k then 0x7FFFFFFF else if k < -2 ^ 31 then 0x80000000 else BitVec.ofInt 32 k

def i2f (a : Word) : Word := enc32 .rne (Num.ofRat false (a.toInt : Rat))
def u2f (a : Word) : Word := enc32 .rne (Num.ofRat false (a.toNat : Rat))

/-- Philox draw of element `i` for stochastic rounding (R106). -/
def srDraw (seed tensor step w i : Nat) : Nat :=
  philox seed tensor (i / 4) (i / 4 / 2 ^ 32) step w (i % 4)

/-! ### Vector-unit lanes and expression instructions (R125 to R127, Table 05-10) -/

/-- A floating pattern that is a NaN. -/
def isNan32 (a : Word) : Bool := dec32 a == .nan

/-- 1.0 or +0. -/
def truth (b : Bool) : Word := if b then 0x3F800000 else 0

/-- xa < xb, xa ≤ xb, xa == xb on FP32 patterns: false with a NaN, ±0 equal. -/
def flt (a b : Num) : Bool :=
  match a, b with
  | .nan, _ => false
  | _, .nan => false
  | .inf n, .inf m => n && !m
  | .inf n, .fin _ _ => n
  | .fin _ _, .inf m => !m
  | x, y => decide (x.real < y.real)
def feq (a b : Num) : Bool :=
  match a, b with
  | .nan, _ => false
  | _, .nan => false
  | .inf n, .inf m => n == m
  | .inf _, .fin _ _ => false
  | .fin _ _, .inf _ => false
  | x, y => decide (x.real = y.real)

/-- Rounded to BF16 and widened back (RBF). -/
def rbf (a : Word) : Word := BitVec.ofNat 32 (enc16 .rne (dec32 a) * 65536)

/-- One FP32 or integer lane (Table 05-10). -/
def vecLane (op : VecOp) (a b c : Word) : Word :=
  match op with
  | .add => fadd a b
  | .sub => fsub a b
  | .mul => fmul a b
  | .fma => ffma a b c
  | .min => fmin a b
  | .max => fmax a b
  | .neg => if isNan32 a then nan32 else a ^^^ 0x80000000
  | .abs => if isNan32 a then nan32 else a &&& 0x7FFFFFFF
  | .rcp => frcp a
  | .rsq => frsqrt a
  | .exp => fexp a
  | .log => flog a
  | .rbf => rbf a
  | .cps => if isNan32 a then nan32 else (a &&& 0x7FFFFFFF) ||| (b &&& 0x80000000)
  | .clt => truth (flt (dec32 a) (dec32 b))
  | .cle => truth (flt (dec32 a) (dec32 b) || feq (dec32 a) (dec32 b))
  | .ceq => truth (feq (dec32 a) (dec32 b))
  | .sel => if (dec32 a).isZero then c else b
  | .iadd => a + b
  | .isub => a - b
  | .imul => a * b
  | .iand => a &&& b
  | .ior => a ||| b
  | .ixor => a ^^^ b
  | .shl => a <<< (b.toNat % 32)
  | .shr => a >>> (b.toNat % 32)
  | .sra => a.sshiftRight (b.toNat % 32)
  | .ilt => if a.toInt < b.toInt then 1 else 0
  | .i2f => i2f a
  | .u2f => u2f a
  | .f2i => f2i a

/-- A BF16 lane rounds its exact result directly to BF16 (R125); an operation with no BF16 form answers none (Table 02-6). -/
def vecLane16 (op : VecOp) (a b c : Nat) : Option Nat :=
  let x := dec16 a
  let y := dec16 b
  let z := dec16 c
  let one := fun (t : Bool) => if t then 0x3F80 else 0
  let wide := fun (n : Nat) => BitVec.ofNat 32 (n * 65536)
  match op with
  | .add => some (enc16 .rne (Num.add x y))
  | .sub => some (enc16 .rne (Num.add x (Num.negate y)))
  | .mul => some (enc16 .rne (Num.mul x y))
  | .fma => some (enc16 .rne (Num.add (Num.mul x y) z))
  | .min => some ((fmin (wide a) (wide b)).toNat / 65536)
  | .max => some ((fmax (wide a) (wide b)).toNat / 65536)
  | .rcp => some (enc16 .rne (Num.rcp x))
  | .rsq => some (enc16 .rne (Num.rsqrt x))
  | .exp => some (expF 8 7 (wide a) x)
  | .log => some (logF 8 7 (wide a) x)
  | .clt => some (one (flt x y))
  | .cle => some (one (flt x y || feq x y))
  | .ceq => some (one (feq x y))
  | .sel => some (if x.isZero then c else b)
  | .neg => some (if x == .nan then 0x7FC0 else a ^^^ 0x8000)
  | .abs => some (if x == .nan then 0x7FC0 else a % 0x8000)
  | .cps => some (if x == .nan then 0x7FC0 else a % 0x8000 + b / 0x8000 * 0x8000)
  | .rbf => some (if x == .nan then 0x7FC0 else a)
  | .iadd => none
  | .isub => none
  | .imul => none
  | .iand => none
  | .ior => none
  | .ixor => none
  | .shl => none
  | .shr => none
  | .sra => none
  | .ilt => none
  | .i2f => none
  | .u2f => none
  | .f2i => none

/-- A 32-bit lane that holds two BF16 lanes. -/
def vecPair16 (op : VecOp) (a b c : Word) : Option Word :=
  match vecLane16 op (a.toNat % 65536) (b.toNat % 65536) (c.toNat % 65536),
        vecLane16 op (a.toNat / 65536) (b.toNat / 65536) (c.toNat / 65536) with
  | some lo, some hi => some (BitVec.ofNat 32 (hi * 65536 + lo))
  | _, _ => none

end Sys2Proof.Machine
end

