-- ==== Sys2Proof/Machine/Packets.lean ====
section
/-! DEFINITION. Packets, frames and links: header bytes and CRC (Table 11-1), frames and the link layer (Chapter 10), plane choice and injection
(R478), and the machine time counter's exchange (R619 to R626). -/
namespace Sys2Proof.Machine

/-! ### Packets -/

/-- Bytes of a header flit (Table 11-1). -/
def headerBytes (p : Packet) : List Byte :=
  leBytes 2 p.dst.toNat ++ leBytes 2 p.src.toNat ++ leBytes 6 p.addr.toNat ++ leBytes 1 p.srcTile.toNat ++ leBytes 1 p.plane.toNat ++
  leBytes 4 p.seq.toNat ++ leBytes 2 p.job.toNat ++ leBytes 1 p.opcode.toNat ++ leBytes 1 p.len.toNat ++ leBytes 1 p.flags.toNat ++
  leBytes 1 p.age.toNat ++ leBytes 1 p.group.toNat ++ leBytes 1 p.hops.toNat ++ leBytes 4 p.aux.toNat ++ leBytes 4 p.crc.toNat

/-- CRC of a packet: bytes 20, 21 and 23 taken as 0 (R464). -/
def packetCrc (p : Packet) : Word :=
  BitVec.ofNat 32 (crc32c ((headerBytes { p with flags := 0, age := 0, hops := 0, crc := 0 }).take 28 ++ p.payload))

def sealPacket (p : Packet) : Packet := { p with crc := packetCrc p }

/-- A packet set to another plane; its CRC follows, unless it was wrong (Table 11-1). -/
def replane (x : Nat) (p : Packet) : Packet :=
  let q := { p with plane := BitVec.ofNat 8 x }
  if p.crc = packetCrc p then sealPacket q else q

/-- Flits of a packet (R463). -/
def flitsOf (p : Packet) : Nat := 1 + p.len.toNat % 16

def emptyPacket : Packet := ⟨0, 0, 0, 0, 0xFF, 0, 0, 0, 0, 0, 0, 0, 0, 0, 0, [], false⟩

/-- Pads payload to whole flits. -/
def padFlits (bs : List Byte) : List Byte := bs ++ List.replicate ((32 - bs.length % 32) % 32) 0

/-- Class of an opcode: 0 request, 1 response, 2 Flume, 3 control (R465, Tables 12-2 and 13-7). -/
def classOf (op : Nat) : Nat :=
  if op < 0x40 ∨ op = 0x84 then 0
  else if op < 0x80 ∨ op = 0x85 ∨ op = 0x86 then 1
  else if op ≤ 0x82 then 2
  else 3

/-- Class of a packet: a BUSY_RELAY goes as the packet that it refuses (Table 13-7), a response where that one's descriptor is a bulk chunk's, which
names no elements for an operation that has some (Tables 13-1 and 13-2, log 47). -/
def packetClass (p : Packet) : Nat :=
  if p.opcode = 0x82 ∧ field p.payload 0 1 ≤ 4 ∧ field p.payload 2 1 = 0 then 1 else classOf p.opcode.toNat

/-- A packet of the source module that is routed adaptively into the tree: a request or response whose plane its sender has not preset, as for reduction
chunks and retransmissions (R477, R478, R499). -/
def roams (p : Packet) : Bool := classOf p.opcode.toNat < 2 && !p.flags.getLsbD 5 && !p.flags.getLsbD 6

/-- VC on which a class enters a mesh or a tree lane (Table 11-2). -/
def vcOf (cls : Nat) : VC := match cls with | 0 => .req | 1 => .rsp | 2 => .flume | _ => .ctrl

/-- The escape VC of a VC's class. -/
def escapeVc : VC → VC
  | .req => .reqE | .reqE => .reqE | .rsp => .rspE | .rspE => .rspE | .flume => .flume | .ctrl => .ctrl

/-- The adaptive VC of a VC's class. -/
def adaptiveVc : VC → VC
  | .req => .req | .reqE => .req | .rsp => .rsp | .rspE => .rsp | .flume => .flume | .ctrl => .ctrl

/-! ### Lanes and the links over them -/

/-- The receiver of a lane has no lock and counts codewords anew (R420). -/
def unlocked (r : LaneRec) : LaneRec := { r with lockA := false, lockB := false, runA := (0, 0), runB := (0, 0) }

/-- The link of a lane: tray port Kq (link 144 + q) over lanes 36q + 32 to 36q + 35 of a compute module, else the lane's own (R453). -/
def linkOf (s : State) (l : Nat) : Nat := if !isFA s && 32 ≤ l % 36 then 144 + l / 36 else l

def isTrayLink (k : Nat) : Bool := 144 ≤ k

/-- Lanes of a link. -/
def lanesOf (k : Nat) : List Nat := if isTrayLink k then (List.range 4).map fun i => 36 * (k - 144) + 32 + i else [k]

def laneUp (s : State) (l : Nat) : Bool := (lane s l).st == .up

/-- A link is up while one of its lanes is. -/
def linkUp (s : State) (k : Nat) : Bool := (lanesOf k).any (laneUp s)

/-- A lane carries every kind of traffic: discovered, and not limited to CTRL (R709). -/
def carries (s : State) (l : Nat) : Bool := laneUp s l && (lane s l).discovered && !(lane s l).ctrlOnly

/-- Tree plane that a lane of a compute module serves (R16, R711); none for a tray lane. -/
def planeOf (s : State) (l : Nat) : Option Nat :=
  if isFA s ∨ 32 ≤ l % 36 then none
  else some (((lane s l).remapped).getD (32 * (l / 36) + l % 36))

/-- The lane that serves a plane, if one does. -/
def laneOfPlane (s : State) (p : Nat) : Option Nat := (List.range 144).find? fun l => carries s l && planeOf s l == some p

/-- The lane of a plane that takes packets to hold: UP, or retraining (R499). -/
def holdingLane (s : State) (p : Nat) : Option Nat :=
  (List.range 144).find? fun l => (laneUp s l || (lane s l).retraining) && planeOf s l == some p

/-- Entry of the wiring map for a lane. -/
def wireOf (s : State) (l : Nat) : Option Wire :=
  match s.dev.ring with | some r => r.wiring.find? fun w => w.lane == l | none => none

/-- Partner of a lane in the wiring map, or 0xFFFF. -/
def partnerOf (s : State) (l : Nat) : BitVec 16 := match wireOf s l with | some w => w.partner | none => 0xFFFF

/-- Replay buffer, VC buffer and xoff thresholds of a link (R442, R447, R448, R453). -/
def replayRoom (k : Nat) : Nat := if isTrayLink k then 1024 else 256
def vcRoom (k : Nat) : Nat := if isTrayLink k then 262144 else 65536
def xoffSet (k : Nat) : Nat := if isTrayLink k then 16384 else 4096
def xoffClear (k : Nat) : Nat := if isTrayLink k then 8192 else 2048

/-! ### Frames -/

/-- Control word bits 95 to 0 (Table 10-6). -/
def ctlLow (vcs : List Nat) (seq ack kind : Nat) (nak : Bool) (xoff : Nat) : Nat :=
  xoff * 2 ^ 14 + kind * 2 ^ 20 + (if nak then 2 ^ 23 else 0) + ack * 2 ^ 24 + seq * 2 ^ 36 +
    (vcs.zipIdx.foldl (fun a e => a + e.1 * 8 ^ e.2) 0) * 2 ^ 48

/-- A frame's bits under its CRC. -/
def frameCrc (flits : List Byte) (low : Nat) : Nat := crc32 (flits ++ leBytes 12 low)

def mkFrame (flits : List Byte) (vcs : List Nat) (seq ack kind : Nat) (nak : Bool) (xoff : Nat) : Frame :=
  let fl := flits ++ List.replicate (512 - flits.length) 0
  let low := ctlLow (vcs ++ List.replicate (16 - vcs.length) 7) seq ack kind nak xoff
  ⟨fl, BitVec.ofNat 128 (frameCrc fl low * 2 ^ 96 + low)⟩

/-- Fields of a control word. -/
def ctlField (f : Frame) (hi lo : Nat) : Nat := bits f.ctl.toNat hi lo
def slotVcs (f : Frame) : List Nat := (List.range 16).map fun i => bits f.ctl.toNat (50 + 3 * i) (48 + 3 * i)

/-- CRC, kind and slot codes of a received frame pass (R438, R439). -/
def frameGood (f : Frame) : Bool :=
  decide (f.flits.length = 512) && f.ctl.toNat / 2 ^ 96 == frameCrc f.flits (f.ctl.toNat % 2 ^ 96) &&
    decide (ctlField f 22 20 < 4) && !(slotVcs f).contains 6

/-- The lane by which a link's next frame leaves: round-robin over its UP lanes, in ascending number (R454). -/
def nextLane (s : State) (k : Nat) : Nat :=
  let ups := (lanesOf k).filter (laneUp s)
  match (link s k).lastLane with
  | none => ups.headD k
  | some l => (ups.find? (l < ·)).getD (ups.headD k)

/-- A frame leaves by a lane, behind those that it still sends: 10.56 ns (R418, R436). -/
def frameOut (l : Nat) (f : Frame) (s : State) : State := emit (.frame l f) (updLane l (fun r => { r with sentTill := r.sentTill + 1056 }) s)

/-- A frame leaves by the link's next lane (R454). -/
def putFrame (k : Nat) (f : Frame) (s : State) : State :=
  let l := nextLane s k
  frameOut l f (if isTrayLink k then
    setLink k { link s k with lastLane := some l, sentOn := tput (link s k).sentOn (ctlField f 47 36) l } s else s)

/-- Frames leave in order. -/
def putFrames (k : Nat) (fs : List Frame) (s : State) : State := fs.foldl (fun s f => putFrame k f s) s

/-- An idle frame of a link: its control word carries the last frame accepted, nak and xoff (R437, R440, R441, R448). -/
def idleFrame (s : State) (k : Nat) : Frame := let r := link s k; mkFrame [] [] r.txSeq r.rxLast 1 r.nak r.xoffOut.toNat

/-- Sends the acknowledgement state; on a tray port it goes out on every UP lane (R449, R454). -/
def sendIdle (k : Nat) (s : State) : State := ((lanesOf k).filter (laneUp s)).foldl (fun t l => frameOut l (idleFrame s k) t) s

/-- Sends a sequenced frame and holds it for replay (R440, R442). -/
def sendFrame (k kind : Nat) (flits : List Byte) (vcs : List Nat) (s : State) : State :=
  let r := link s k
  let f := mkFrame flits vcs r.txSeq r.rxLast kind r.nak r.xoffOut.toNat
  putFrame k f (setLink k { r with txSeq := (r.txSeq + 1) % 4096, replay := r.replay ++ [f] } s)

/-! ### Discovery records (R707) -/

/-- Plane, tray port of a lane as registers and init frames show them: port 0 to 3 and lane in the port, or 0xFF. -/
def portOf (s : State) (l : Nat) : Nat := if !isFA s && 32 ≤ l % 36 then l / 36 else 0xFF
def portLaneOf (s : State) (l : Nat) : Nat := if !isFA s && 32 ≤ l % 36 then l % 36 - 32 else 0xFF

/-- This end's discovery record on a lane (Table 15-11). -/
def ownDiscovery (s : State) (l : Nat) : Discovery :=
  match s.dev.ring with
  | none => ⟨0x4443, 1, 1, s.bark.made.serial, 0xFFFF, 7, BitVec.ofNat 8 (stCode s.dev.st), 0, 0, 0, 0, 0, 0, BitVec.ofNat 16 l,
      BitVec.ofNat 8 (portOf s l), BitVec.ofNat 8 (portLaneOf s l), 0, 0, 0, 0, Config.wardenRom, if isFA s then 0 else Config.cruiseRom⟩
  | some r => ⟨0x4443, 1, 1, s.bark.made.serial, r.ident, BitVec.ofNat 8 (roleCode r.role), BitVec.ofNat 8 (stCode s.dev.st),
      BitVec.ofNat 16 r.pod, BitVec.ofNat 16 r.rack, BitVec.ofNat 8 r.tray, BitVec.ofNat 8 r.slot, BitVec.ofNat 8 r.plane,
      BitVec.ofNat 8 r.level, BitVec.ofNat 16 l, BitVec.ofNat 8 (portOf s l), BitVec.ofNat 8 (portLaneOf s l), BitVec.ofNat 32 r.generation,
      r.machineId, s.fabric.digest, if s.fabric.epoch then 1 else 0, Config.wardenRom, if isFA s then 0 else Config.cruiseRom⟩

/-- Bytes of a discovery record (Table 15-11): flit slots 0 to 2. -/
def discoveryBytes (d : Discovery) : List Byte :=
  leBytes 2 d.magic.toNat ++ leBytes 1 d.verMin.toNat ++ leBytes 1 d.verMax.toNat ++ leBytes 16 d.serial.toNat ++ leBytes 2 d.ident.toNat ++
  leBytes 1 d.role.toNat ++ leBytes 1 d.state.toNat ++ leBytes 2 d.pod.toNat ++ leBytes 2 d.rack.toNat ++ leBytes 1 d.tray.toNat ++
  leBytes 1 d.slot.toNat ++ leBytes 1 d.plane.toNat ++ leBytes 1 d.level.toNat ++ leBytes 2 d.lane.toNat ++ leBytes 1 d.port.toNat ++
  leBytes 1 d.portLane.toNat ++ leBytes 4 d.generation.toNat ++ leBytes 8 d.machineId.toNat ++ leBytes 8 d.tableDigest.toNat ++
  leBytes 1 d.epoch.toNat ++ [0, 0, 0] ++ leBytes 4 d.wardenRom.toNat ++ leBytes 4 d.cruiseRom.toNat ++ List.replicate 28 0

/-- What may change in a discovery record while the lane is UP (R707): the state code, the table digest, the epoch bit. -/
def recordNow (s : State) : Nat × DWord × Bool := (stCode s.dev.st, s.fabric.digest, s.fabric.epoch)

/-- Sends the discovery record on a lane in a sequenced frame of kind 3 (R440, R707), when the replay buffer has room (R445). -/
def sendDiscovery (l : Nat) (s : State) : State :=
  let k := linkOf s l
  let r := link s k
  if replayRoom k ≤ r.replay.length then s
  else
    let f := mkFrame (discoveryBytes (ownDiscovery s l)) [] r.txSeq r.rxLast 3 r.nak r.xoffOut.toNat
    let r := { r with txSeq := (r.txSeq + 1) % 4096, replay := r.replay ++ [f] }
    let r := if isTrayLink k then { r with lastLane := some l, sentOn := tput r.sentOn ((r.txSeq + 4095) % 4096) l } else r
    frameOut l f (updLane l (fun x => { x with announced := some (recordNow s) }) (setLink k r s))

/-- UP lanes whose partner has an older record are sent the new one (R707). -/
def announce (s : State) : State :=
  (s.optics.lanes.filter fun e => e.2.st == .up && e.2.announced != some (recordNow s)).foldl (fun s e => sendDiscovery e.1 s) s

/-! ### Queues. Keys: 2,048 t + 8 port + VC toward a neighbour (port 0 N, 1 S, 2 E, 3 W, 4 Up), port 5 waits in router t for an open port,
port 6 waits there for the escape table, port 7 for the tile's ingress; 1,000,000 + k for link k. -/

def queueKey (t port vc : Nat) : Nat := 2048 * t + 8 * port + vc
def linkKey (k : Nat) : Nat := 1000000 + k
def heldAt (s : State) (key : Nat) : List Queued := tget s.fabric.queues key []
/-- The packets of a queue, as they came. -/
def queueAt (s : State) (key : Nat) : List Packet := (heldAt s key).map (·.p)
def setQueue (key : Nat) (q : List Queued) (s : State) : State := { s with fabric.queues := tset s.fabric.queues key q [] }
def pushQueue (key : Nat) (h : Queued) (s : State) : State := setQueue key (heldAt s key ++ [h]) s

/-- A packet that enters a router now: by input port `port` (0 N, 1 S, 2 E, 3 W, 4 Up, 16 + l lane l; 6 from this tile). -/
def entering (s : State) (port : Nat) (p : Packet) : Queued := { p, since := s.time, port }

/-- Age of a packet in units of 8 ns, with the time that it has waited in this router (R495). -/
def ageNow (s : State) (h : Queued) : Nat := min 255 (h.p.age.toNat + (s.time - h.since) / 8)

/-- The packet as it leaves the router: its wait is added to its age (R495). -/
def aged (s : State) (h : Queued) : Packet := { h.p with age := BitVec.ofNat 8 (ageNow s h) }

/-! ### Port counters (Table 11-4) -/

def countPort (key : Nat) (f : PortCtr → PortCtr) (s : State) : State := { s with fabric.ctrs := tupd s.fabric.ctrs key {} f }

/-- Counter key of a port: a lane, a tray port (1,000 + q) or a mesh port (2,000 + 8 tile + port). -/
def laneCtr (l : Nat) : Nat := l
def trayCtr (q : Nat) : Nat := 1000 + q
def meshCtr (t port : Nat) : Nat := 2000 + 8 * t + port
/-- Counter key of a link, and of the port by which a packet reaches a router. -/
def linkCtr (k : Nat) : Nat := if isTrayLink k then trayCtr (k - 144) else laneCtr k
def inCtr (s : State) (t : Nat) (port : Port) : Nat :=
  match port with
  | .lane l => linkCtr (linkOf s l)
  | .north => meshCtr t 0 | .south => meshCtr t 1 | .east => meshCtr t 2 | .west => meshCtr t 3 | .up => meshCtr t 4 | .here => meshCtr t 6

/-- Flits of a packet that a port carries on a VC: direction 0 received, 1 sent. -/
def countFlits (key vc dir n : Nat) (s : State) : State :=
  countPort key (fun c => { c with flits := tset c.flits (2 * vc + dir) ((tget c.flits (2 * vc + dir) 0 + n) % 2 ^ 64) 0 }) s

/-- High-water mark of a VC's queue. -/
def countDepth (key vc depth : Nat) (s : State) : State :=
  countPort key (fun c => { c with depthHw := tset c.depthHw vc (max (tget c.depthHw vc 0) (min depth 65535)) 0 }) s

/-- VC of a packet on a link (Table 11-2): a tray port uses the escape VC from the dateline on. -/
def linkVc (k : Nat) (p : Packet) : VC :=
  let v := vcOf (packetClass p)
  if isTrayLink k && p.flags.getLsbD 3 then escapeVc v else v

/-- Flits that a VC of a link has queued. -/
def linkDepth (s : State) (k v : Nat) : Nat :=
  sumNat (((queueAt s (linkKey k)).filter fun p => vcCode (linkVc k p) == v).map flitsOf)

/-! ### Arbitration of an output port (R493, R494, R587) -/

/-- VC order on equal age (R493): RSP-E, RSP, CTRL, FLUME, REQ-E, REQ. -/
def vcRank : Nat → Nat
  | 3 => 0 | 2 => 1 | 5 => 2 | 4 => 3 | 1 => 4 | _ => 5

/-- Group of a FLUME packet, of its descriptor in payload flit 0 (Table 13-2). -/
def groupField (p : Packet) : Nat := leNat ((p.payload.drop 4).take 4)

/-- Depth of an output port's token bucket, and what it gains in a nanosecond: 5% of the port's rate (R494), in tenths of a byte. A lane
carries 50 B/ns, a tray port 200 B/ns, a mesh link 1,024 B/ns. -/
def bucketDepth : Nat := 20480
def bucketFill (ctr : Nat) : Nat := if ctr < 1000 then 25 else if ctr < 2000 then 100 else 512

/-- A FLUME flit's worth of tokens is there (R494). -/
def hasTokens (s : State) (ctr : Nat) : Bool := decide (tget s.fabric.flumeUsed ctr 0 + 320 ≤ bucketDepth)

/-- Heads of the queues behind an output port: of each input port and VC the packet that came first; of FLUME the first of each group (R587). -/
def heads : List (Nat × Queued) → List (Nat × Queued)
  | [] => []
  | e :: rest => e :: (heads rest).filter fun x => x.1 != e.1 ||
      (if e.1 = 4 then groupField x.2.p != groupField e.2.p else x.2.port != e.2.port)

/-- Place of a head in R493's order, and in R587's among FLUME packets; the lowest goes first. The pointer after the last winner counts among
saturated ages. -/
def serveRank (s : State) (ctr : Nat) (e : Nat × Queued) : Nat :=
  let age := ageNow s e.2
  let last := tget s.fabric.lastPort ctr 511
  let byPort := if age = 255 then (e.2.port + 511 - last) % 512 else e.2.port
  let byGroup := (groupField e.2.p + 2 ^ 32 - (tget s.fabric.lastGroup ctr (2 ^ 32 - 1) + 1)) % 2 ^ 32
  if e.1 = 4 then (if hasTokens s ctr then 0 else ((255 - age) * 8 + vcRank 4 + 1) * 2 ^ 42) + byGroup * 512 + byPort
  else ((255 - age) * 8 + vcRank e.1 + 1) * 2 ^ 42 + byPort

/-- The packet that an output port sends next, of the queued ones (with their VCs) that may go now (R493). -/
def winner (s : State) (ctr : Nat) (q : List (Nat × Queued)) : Option (Nat × Queued) :=
  (heads q).foldl (fun b e => match b with
    | none => some e
    | some c => if serveRank s ctr e < serveRank s ctr c then some e else some c) none

/-- An output port has served a packet: the pointers move on, and a FLUME packet takes its tokens (R493, R494, R587). -/
def served (ctr v : Nat) (h : Queued) (s : State) : State :=
  let s := { s with fabric.lastPort := tset s.fabric.lastPort ctr h.port 511 }
  if v = 4 then
    { s with fabric.flumeUsed := tset s.fabric.flumeUsed ctr (min bucketDepth (tget s.fabric.flumeUsed ctr 0 + 320 * flitsOf h.p)) 0,
             fabric.lastGroup := tset s.fabric.lastGroup ctr (groupField h.p) (2 ^ 32 - 1) }
  else s

/-- A link's queue with each packet's VC. -/
def linkQueue (s : State) (k : Nat) : List (Nat × Queued) := (heldAt s (linkKey k)).map fun h => (vcCode (linkVc k h.p), h)

/-- A VC of a link sends now: the partner has not stopped it (R450), and a link no lane of which carries traffic sends CTRL alone (R505, R709). -/
def vcSends (s : State) (k v : Nat) : Bool := !(link s k).xoffIn.getLsbD v && (v == 5 || (lanesOf k).any (carries s))

/-- Moves what may go from a link's queue into frames, one packet to a frame, in R493's order: while the replay buffer has room, and of the VCs
that send now (R445, R467). -/
def pumpPackets (k : Nat) : Nat → State → State
  | 0, s => s
  | n + 1, s =>
    if (link s k).replay.length < replayRoom k then
      match winner s (linkCtr k) ((linkQueue s k).filter fun e => vcSends s k e.1) with
      | none => s
      | some (v, h) =>
        let p := aged s h
        let s := served (linkCtr k) v h (setQueue (linkKey k) ((heldAt s (linkKey k)).erase h) s)
        pumpPackets k n (countFlits (linkCtr k) v 1 (flitsOf p)
          (sendFrame k 0 (headerBytes p ++ p.payload) (List.replicate (flitsOf p) v) s))
    else s

def pumpLink (k : Nat) (s : State) : State :=
  if linkUp s k then pumpPackets k (heldAt s (linkKey k)).length s else s

/-- A held packet leaves by link `k`: its escape flag is cleared as it leaves the mesh (R470). -/
def sendHeld (k : Nat) (h : Queued) (s : State) : State :=
  let h := { h with p := { h.p with flags := h.p.flags &&& 0xFB } }
  let s := pushQueue (linkKey k) h s
  let v := vcCode (linkVc k h.p)
  pumpLink k (countDepth (linkCtr k) v (linkDepth s k v) s)

/-- A packet that this router makes leaves by link `k`. -/
def sendByLink (k : Nat) (p : Packet) (s : State) : State := sendHeld k (entering s 6 p) s

/-- Two root cycles of a nanosecond with a packet waiting behind xoff (Table 11-4, R39, R450). -/
def countStalls (s : State) : State :=
  (List.range 148).foldl (fun s k =>
    (List.range 6).foldl (fun s v =>
      if (link s k).xoffIn.getLsbD v && linkDepth s k v != 0 then
        countPort (linkCtr k) (fun c => { c with stall := tset c.stall v ((tget c.stall v 0 + 2) % 2 ^ 64) 0 }) s
      else s) s) s

/-- Token buckets fill for a nanosecond (R494). -/
def fillBuckets (s : State) : State :=
  { s with fabric.flumeUsed := (tmap s.fabric.flumeUsed fun ctr n => n - bucketFill ctr).filter fun e => e.2 != 0 }

/-- Frames of a deskew buffer that have waited 64 ns for an earlier one are discarded, and the link asks for the missing frame (R441, R455). -/
def lapseDeskew (k : Nat) (s : State) : State :=
  let r := link s k
  let stay := r.deskew.filter fun e => decide (s.time ≤ e.2 + 64)
  if stay.length < r.deskew.length then
    sendIdle k (setLink k { r with deskew := stay, nak := true, drops := r.drops + (r.deskew.length - stay.length) } s)
  else s

/-- Egress depth of a lane in units of 256 B (R479). -/
def egressDepth (s : State) (l : Nat) : Nat := 32 * sumNat ((queueAt s (linkKey l)).map flitsOf) / 256

/-- Every 256 root cycles, 128 ns, the tiles learn the egress depths anew (R479). -/
def refreshDepths (s : State) : State :=
  if s.time % 128 = 0 then
    { s with fabric.depths := (List.range 144).foldl (fun m l => tset m l (egressDepth s l) 0) [] }
  else s

/-- This end's init frame (R429, Table 10-5): it echoes the last token received, with the root cycles since that came. -/
def ownInit (s : State) (l : Nat) : InitFrame :=
  let r := lane s l
  ⟨0x4B4C, 1, 1, BitVec.ofNat 16 l, BitVec.ofNat 8 (portOf s l), BitVec.ofNat 8 (portLaneOf s l), r.token, r.lastToken,
    BitVec.ofNat 32 (2 * (s.time - r.tokenAt))⟩

/-- An init frame as a frame: its fields in flit slot 0, kind 2 (R429, Tables 10-5 and 10-6). -/
def initAsFrame (s : State) (l : Nat) (f : InitFrame) : Frame :=
  let r := link s (linkOf s l)
  mkFrame (leBytes 2 f.magic.toNat ++ leBytes 1 f.verMin.toNat ++ leBytes 1 f.verMax.toNat ++ leBytes 2 f.lane.toNat ++ leBytes 1 f.port.toNat ++
    leBytes 1 f.portLane.toNat ++ leBytes 4 f.token.toNat ++ leBytes 4 f.echo.toNat ++ leBytes 4 f.turnaround.toNat ++ List.replicate 12 0)
    [] r.txSeq r.rxLast 2 r.nak r.xoffOut.toNat

/-- Sends this end's init frame as it stands now (R429). -/
def sendInit (l : Nat) (s : State) : State := frameOut l (initAsFrame s l (ownInit s l)) s

/-- A lane that has sent all its frames goes on with init frames in INIT, with idle ones while UP: a frame always follows the last (R418, R428, R445). -/
def fillLane (s : State) (l : Nat) : State :=
  let r := lane s l
  if 100 * s.time < r.sentTill then s
  else if r.st = .init then sendInit l s
  else if r.st = .up then frameOut l (idleFrame s (linkOf s l)) s
  else s

/-- What an empty queue lets happen: a nanosecond passes. -/
def idle (s : State) : State :=
  let s := refreshDepths (passTime (fillBuckets (countStalls s)))
  let s := (s.optics.lanes.map (·.1)).foldl fillLane s
  announce ((List.range 4).foldl (fun s q => lapseDeskew (144 + q) s) s)

/-! ### Links that go down -/

/-- The partner of a lane is a relay (Tables 10-8 and 13-5): that of a compute module's tree lanes and of a relay's lanes but a leaf's down-lanes. -/
def relayPartner (s : State) (l : Nat) : Bool :=
  if isFA s then s.dev.role != some .leaf || decide (72 ≤ l) else decide (l % 36 < 32)

/-- Peer of a lane's records: the partner's endpoint ID, or 0xFFFF for a relay (Table 10-8). -/
def lanePeer (s : State) (l : Nat) : Nat := if relayPartner s l then 0xFFFF else (partnerOf s l).toNat

/-- ERR_LANE_DOWN (Table 10-8): cause, lane state before, frames discarded. -/
def raiseDown (l cause before frames : Nat) (s : State) : State :=
  let r := lane s l
  raise errLaneDown uLane l l (lanePeer s l)
    (detail [(cause, 1), (before, 1), (frames, 4), (r.marginA, 1), (r.marginB, 1), (signedField 2 r.powA, 2), (signedField 2 r.powB, 2)]) s

/-- No lane of a link is UP, and none retrains, after which it could go on (R433, R458). -/
def linkDead (s : State) (k : Nat) : Bool := !linkUp s k && (lanesOf k).all fun i => !(lane s i).retraining

/-- A link that goes down discards its replay buffer and what is queued for it; answers how many (R435, R458, R499). -/
def dropLink (k : Nat) (s : State) : Nat × State :=
  ((link s k).replay.length + (heldAt s (linkKey k)).length, setLink k {} (setQueue (linkKey k) [] s))

/-- The last lane of a tray port has left UP, or its last retraining lane is held: the port goes down (R435, R458). DESIGN CHOICE (log 102): the record's
cause is 0 where the lane leaves for none of Table 10-8's causes. -/
def portDown (l before : Nat) (s : State) : State :=
  let k := linkOf s l
  if isTrayLink k && linkDead s k then let (n, s) := dropLink k s; raiseDown l 0 before n s else s

/-! ### Plane choice and injection -/

/-- A plane has been withdrawn from an endpoint's reach mask (R502). -/
def planeLost (s : State) (x : BitVec 16) (p : Nat) : Bool := (tget s.fabric.lostReach x.toNat []).contains p

/-- Planes that R478 permits toward `x`, with their lanes. -/
def permittedPlanes (s : State) (x : BitVec 16) : List (Nat × Nat) :=
  ((List.range 144).filterMap fun l => if carries s l then (planeOf s l).map fun p => (p, l) else none).filter
    fun e => !planeLost s x e.1

/-- The plane of lowest egress depth; ties go to the first at or after the pointer (R478). -/
def choosePlane (s : State) (x : BitVec 16) (avoid : List Nat) : Option Nat :=
  let ps := (permittedPlanes s x).filter fun e => !avoid.contains e.1
  let key := fun (e : Nat × Nat) => tget s.fabric.depths e.2 0 * 128 + (e.1 + 128 - s.fabric.planePtr) % 128
  (ps.foldl (fun b e => match b with
    | none => some e
    | some c => if key e < key c then some e else some c) none).map (·.1)

/-- Sequence number of the next packet to `x` in a class (R497). -/
def seqKey (x : BitVec 16) (cls : Nat) : Nat := x.toNat * 4 + cls

/-- Epoch bit of a packet injected now: the new one from the first MTC value at or after the switch time (R508). -/
def epochNow (s : State) : Bool :=
  if s.fabric.armed && decide (s.fabric.switchTime.toNat ≤ s.mtc.value.toNat) then !s.fabric.epoch else s.fabric.epoch

/-- Stamps a packet for injection: source, sequence number, job tag (0xFFFF stays on keeper traffic, R556), epoch bit and CRC (R497, R508). -/
def stampPacket (s : State) (p : Packet) : Packet :=
  sealPacket { p with
    src := ownEndpoint s
    job := if p.job = 0xFFFF then p.job else s.job.tag
    seq := BitVec.ofNat 32 (tget s.remote.seqNext (seqKey p.dst (classOf p.opcode.toNat)) 0)
    flags := if epochNow s then p.flags ||| 1 else p.flags &&& 0xFE }

def bumpSeq (p : Packet) (s : State) : State :=
  let k := seqKey p.dst (classOf p.opcode.toNat)
  { s with remote.seqNext := tset s.remote.seqNext k ((tget s.remote.seqNext k 0 + 1) % 2 ^ 32) 0 }

/-- Record of a packet with no permitted plane (R481). -/
def unreachable (p : Packet) (s : State) : State :=
  let lanes := ((List.range 144).filter fun l => laneUp s l && (planeOf s l).isSome).length
  let bitsSet := 128 - (tget s.fabric.lostReach p.dst.toNat []).length
  raise errRouteUnreachable uTile p.srcTile.toNat p.dst.toNat p.srcTile.toNat
    (detail [(lanes % 128, 1), (bitsSet % 128, 1), (p.opcode.toNat, 1)]) s

/-- Injects a packet (R477, R478, R481): to this module itself without a plane, on the tray ring when marked, else on the chosen or preset
plane. Answers the packet sent, or none when no plane permits it. -/
def injectPacket (p : Packet) (tray : Bool) (preset : Option Nat) (s : State) : Option Packet × State :=
  if p.dst = ownEndpoint s ∧ !p.flags.getLsbD 5 then
    let q := stampPacket s { p with plane := 0xFF }
    (some q, emit (.packet q) (bumpSeq q s))
  else if tray then
    let q := stampPacket s { p with plane := 0xFE }
    (some q, emit (.packet q) (bumpSeq q s))
  else
    match (match preset with | some x => some x | none => choosePlane s p.dst []) with
    | none => (none, unreachable p s)
    | some x =>
      let q := stampPacket s { p with plane := BitVec.ofNat 8 x }
      let s := match preset with
        | some _ => s
        | none => { s with fabric.planePtr := (s.fabric.planePtr + 1) % 128 }
      (some q, emit (.packet q) (bumpSeq q s))

/-! ### Machine time -/

/-- Time-parent lanes of the ring, in order of preference (R620). -/
def timeParents (s : State) : List Nat := match s.dev.ring with | some r => r.clock.parents.map (·.val) | none => []

def isTimeRoot (s : State) : Bool := match s.dev.ring with | some r => r.clock.isRoot | none => false

/-- The first UP time-parent lane that reports the highest-ranked root reported as locked (R621). -/
def chooseParent (s : State) : Option Nat :=
  let ls := (timeParents s).filter fun l => laneUp s l && (match tget s.mtc.reports l (0, 0, false) with | (_, _, k) => k)
  let best := ls.foldl (fun b l => min b (tget s.mtc.reports l (0, 0, false)).1) none32
  ls.find? fun l => (tget s.mtc.reports l (0, 0, false)).1 == best

/-- TIME_PARENT_SWITCH (R625): the next lane of R621, or none and the lock is lost. -/
def switchParent (s : State) : State :=
  if isTimeRoot s then s
  else match chooseParent s with
    | some l => { s with mtc.parent := some l }
    | none => { s with mtc.parent := none, mtc.locked := false }

/-- MTC_SYNC_SEND (R622): the send time goes to the parent on the time-parent lane; before the first lock, on the first UP one. -/
def execMtcSyncSend (s : State) : Host.Outcome State Fault Refusal :=
  .next (
    match (match s.mtc.parent with | some l => some l | none => (timeParents s).find? (laneUp s)) with
    | some l =>
      if h : l < 144 then emit (.mtcSync (.request ⟨l, h⟩ s.mtc.value)) s else s
    | none => s)

/-- Signed difference of two MTC values. -/
def mtcDiff (a b : DWord) : Int := (a - b).toInt

/-- The child takes an answer (R621, R622, R623, R626). -/
def takeAnswer (l : Nat) (t1 t2 t3 t4 : DWord) (rank hops : Nat) (locked : Bool) (s : State) : State :=
  let s := { s with mtc.reports := tput s.mtc.reports l (rank, hops, locked) }
  let off := (mtcDiff t2 t1 - mtcDiff t4 t3) / 2
  let s := { s with mtc.parent := chooseParent s }
  if s.mtc.parent = some l then
    let (k, s) := draw s
    if !s.mtc.everLocked ∧ s.dev.st = .starting then
      { s with mtc.value := s.mtc.value + BitVec.ofInt 64 off, mtc.locked := true, mtc.everLocked := true, mtc.rootRank := rank,
               mtc.hops := hops + 1, mtc.offset := off, mtc.holdoverWritten := false }
    else
      let s := if s.mtc.rootRank ≠ rank then
          raise errMtcRoot uDevice 0 rank s.mtc.rootRank (detail [(hops + 1, 1), (signedField 4 off, 4)]) s
        else s
      { s with mtc.locked := true, mtc.everLocked := true, mtc.rootRank := rank, mtc.hops := hops + 1, mtc.offset := off, mtc.slew := off * 2 ^ 32,
               mtc.rate := max (-429496) (min 429496 (Config.frequency k off)), mtc.holdoverWritten := false }
  else s

/-- MTC_SYNC (R622): a parent answers a request with the MTC of its arrival and of the answer's departure; a child takes, with its MTC of the arrival,
an answer that comes on one of its time-parent lanes. -/
def execMtcSync (m : MtcSync) (s : State) : Host.Outcome State Fault Refusal :=
  .next (
    match m with
    | .request l t1 => emit (.mtcSync (.answer l t1 s.mtc.value s.mtc.value s.mtc.rootRank s.mtc.hops s.mtc.locked)) s
    | .answer l t1 t2 t3 rank hops locked =>
      if laneUp s l && (timeParents s).contains l.val && !isTimeRoot s then takeAnswer l t1 t2 t3 s.mtc.value rank hops locked s else s)

/-- MTC_HOLDOVER (R625): with no time-parent lane left, 1 ms without lock raises ERR_MTC_HOLDOVER. -/
def execMtcHoldover (s : State) : Host.Outcome State Fault Refusal :=
  .next (
    let last := match s.mtc.parent with | some l => l | none => (timeParents s).headD none32
    let s := switchParent s
    if !s.mtc.locked && s.mtc.everLocked && !isTimeRoot s && !s.mtc.holdoverWritten then
      raise errMtcHoldover uDevice 0 (if isFA s then 0xFFFF else (ownEndpoint s).toNat) last
        (detail [(1, 4), (s.mtc.rootRank, 1), (s.mtc.hops, 1), (signedField 4 s.mtc.offset, 4)])
        { s with mtc.holdoverWritten := true, regs.events := s.regs.events ||| 0x40 }
    else s)

end Sys2Proof.Machine
end

