-- ==== Sys2Proof/Machine/Routing.lean ====
section
/-! DEFINITION. Routing (Chapter 11): the mesh and its escape routes, arrival of a packet at a router, tray ring, relay forwarding, multicast,
reach, tray states, tables and their epochs. -/
namespace Sys2Proof.Machine

/-! ### Mesh geometry. Ports 0 N, 1 S, 2 E, 3 W (Table 19-12). -/

def neighbour (t port : Nat) : Option Nat :=
  match port with
  | 0 => if 16 ≤ t then some (t - 16) else none
  | 1 => if t < 240 then some (t + 16) else none
  | 2 => if t % 16 < 15 then some (t + 1) else none
  | 3 => if 0 < t % 16 then some (t - 1) else none
  | _ => none

/-- Port of the neighbour that faces back. -/
def backPort : Nat → Nat
  | 0 => 1 | 1 => 0 | 2 => 3 | 3 => 2 | n => n

/-- Bridge link of a hop that crosses a seam (Table 09-1). -/
def bridgeOf (t port : Nat) : Option Nat :=
  let r := t / 16
  let c := t % 16
  if (port = 2 ∧ c = 7) ∨ (port = 3 ∧ c = 8) then some (if r < 8 then 256 + r else 264 + (r - 8))
  else if (port = 1 ∧ r = 7) ∨ (port = 0 ∧ r = 8) then some (if c < 8 then 272 + c else 280 + (c - 8))
  else none

/-- A router forwards unless its quadrant is lost: a fenced tile keeps its router (R20, R391, R409). -/
def routerUp (s : State) (t : Nat) : Bool := !s.dev.qLost.getLsbD (quadOf t)

/-- A mesh port leads somewhere that is not fenced. -/
def portUnfenced (s : State) (t port : Nat) : Bool :=
  match neighbour t port with
  | none => false
  | some u => routerUp s u && match bridgeOf t port with | some k => (dlink s k).width != .fenced | none => true

/-- A mesh port takes traffic now: unfenced and not paused by relink (R385). -/
def portOpen (s : State) (t port : Nat) : Bool :=
  portUnfenced s t port && match bridgeOf t port with | some k => !(dlink s k).paused | none => true

/-- Ports that shorten the way from `t` to `u` (R472): E or W first, which wins a tie. -/
def productive (t u : Nat) : List Nat :=
  (if t % 16 < u % 16 then [2] else if u % 16 < t % 16 then [3] else []) ++
  (if t / 16 < u / 16 then [1] else if u / 16 < t / 16 then [0] else [])

/-- Flits in the downstream buffer of a port and VC. -/
def fullness (s : State) (t port vc : Nat) : Nat := sumNat ((queueAt s (queueKey t port vc)).map flitsOf)

/-- Fullness of a port in the adaptive choice: a bridge link at half width counts for twice what it holds (R388; DESIGN CHOICE, log 43: the spec
gives the weight's purpose and no formula). -/
def weighted (s : State) (t port vc : Nat) : Nat :=
  match bridgeOf t port with
  | some k => if (dlink s k).width == .full then fullness s t port vc else 2 * fullness s t port vc + 1
  | none => fullness s t port vc

/-- The adaptive choice (R472). -/
def adaptivePort (s : State) (t u vc : Nat) : Option Nat :=
  match (productive t u).filter (portOpen s t) with
  | [] => none
  | [a] => some a
  | a :: b :: _ => if weighted s t b vc < weighted s t a vc then some b else some a

/-- XY order of the escape route: along the row, then along the column (R474). -/
def xyPort (t u : Nat) : Option Nat := (productive t u).head?

/-! ### Up*/down* escape routes (R475) -/

/-- Mesh neighbours over ports that a set of fences leaves. -/
def freeNeighbours (links routers : List Nat) (t : Nat) : List Nat :=
  (((List.range 4).filterMap fun p => match neighbour t p with
    | some u => if routers.contains u || (match bridgeOf t p with | some k => links.contains k | none => false) then none else some u
    | none => none).mergeSort fun a b => a ≤ b)

/-- Breadth-first levels from the lowest-numbered unfenced tile: the levels found so far, and the frontier. -/
def bfsLevels (links routers : List Nat) : Nat → Nat → List Nat → Table Nat → Table Nat
  | 0, _, _, m => m
  | k + 1, d, front, m =>
    let next := ((front.flatMap (freeNeighbours links routers)).filter fun u => !thas m u).dedup
    if next.isEmpty then m else bfsLevels links routers k (d + 1) next (next.foldl (fun m u => tput m u (d + 1)) m)

def escapeLevels (links routers : List Nat) : Table Nat :=
  match (List.range 256).find? fun t => !routers.contains t with
  | some r => bfsLevels links routers 256 0 [r] [(r, 0)]
  | none => []

/-- One round of relaxation of hop counts to a destination: `down` allows only hops away from the root. -/
def relaxDist (links routers : List Nat) (lv : Table Nat) (down : Bool) (base m : Table Nat) : Table Nat :=
  (List.range 256).foldl (fun m t =>
    let next := (freeNeighbours links routers t).filter fun u =>
      if down then tget lv t 0 < tget lv u 0 else tget lv u 0 < tget lv t 0
    let best := (next.filterMap fun u => if thas m u then some (tget m u 0 + 1) else none).foldl min (tget base t 1000)
    if best < tget m t 1000 then tput m t best else m) m

def iterDist (links routers : List Nat) (lv : Table Nat) (down : Bool) (base : Table Nat) : Nat → Table Nat → Table Nat
  | 0, m => m
  | k + 1, m => iterDist links routers lv down base k (relaxDist links routers lv down base m)

/-- Next tile of the escape route from `t` to `u`; `descended` once the packet has taken a hop away from the root. Ties go to the lower tile. -/
def upDownNext (links routers : List Nat) (descended : Bool) (t u : Nat) : Option Nat :=
  let lv := escapeLevels links routers
  let dn := iterDist links routers lv true [] 64 [(u, 0)]
  let up := iterDist links routers lv false dn 64 dn
  let cost := fun v => if tget lv t 0 < tget lv v 0 then tget dn v 1000 else if descended then 1000 else tget up v 1000
  ((freeNeighbours links routers t).foldl (fun b v => match b with
    | none => if cost v < 1000 then some v else none
    | some w => if cost v < cost w then some v else some w) none)

/-- Port from `t` to an adjacent tile. -/
def portTo (t u : Nat) : Option Nat := (List.range 4).find? fun p => neighbour t p == some u

/-- The copy of the escape table in force: the fences it was computed for, or none for XY (R506, R513). -/
def escapeNow (s : State) : Option (List Nat × List Nat) := if s.fabric.escapeSel then s.fabric.escape1 else s.fabric.escape0

/-- The escape route's port in force (R474 to R476). -/
def escapePort (s : State) (t u : Nat) (descended : Bool) : Option Nat :=
  match escapeNow s with
  | none => xyPort t u
  | some (links, routers) => (upDownNext links routers descended t u).bind (portTo t)

/-- A hop arrived over port `port` at `t` leads away from the escape tree's root. -/
def arrivedDown (s : State) (t port : Nat) : Bool :=
  match escapeNow s, neighbour t port with
  | some (links, routers), some v => let lv := escapeLevels links routers; decide (tget lv v 0 < tget lv t 0)
  | _, _ => false

/-! ### Where a packet goes in a module's mesh -/

/-- Tile of a stack's attachment: western for channels 0 to 15, eastern for 16 to 31 (R471, R14). -/
def stackTile (a : Nat) : Nat :=
  let m := hbmStack a
  let col := 2 * (m % 8) + (if a % 4096 / 128 < 16 then 0 else 1)
  if m < 8 then col else 240 + col

/-- Tile that holds a device counter (Table 12-1). -/
def counterTile (d : Nat) : Nat := 16 * (d % 64 / 8) + d % 64 % 8

/-- Destination tile of a local address (R471). -/
def addrTile (a : Nat) : Nat :=
  if a < hbmEnd then stackTile a
  else if a < syncBase then (a - sramBase) / 0x1000000 % 256
  else if a < syncBase + 0x100000 then (a - syncBase) / 0x1000
  else counterTile ((a - syncBase - 0x100000) / 0x10)

/-- Router to which lane `l` attaches (R421). -/
def laneTile (l : Nat) : Nat :=
  let q := l / 36
  let i := l % 36
  16 * (8 * (q / 2) + 2 * i / 9) + (if q % 2 = 0 then 0 else 15)

/-! ### The tray chord ring -/

/-- Own tray slot from the ring (R17). -/
def traySlot (s : State) : Nat := match s.dev.ring with | some r => r.slot | none => 0

/-- Slot that port Kq of slot `a` reaches: +1, −1, +2, −2 mod 9 (R17). -/
def chordTo (a q : Nat) : Nat := (a + (match q with | 0 => 1 | 1 => 8 | 2 => 2 | _ => 7)) % 9

def chordAlive (s : State) (a q : Nat) : Bool :=
  !s.fabric.deadSlots.contains (chordTo a q) && !s.fabric.deadPorts.contains (a, q) &&
    !s.fabric.deadPorts.contains (chordTo a q, match q with | 0 => 1 | 1 => 0 | 2 => 3 | _ => 2) &&
    (a != traySlot s || linkUp s (144 + q))

/-- A path to slot `b` may go on through slot `c`: not where the spare has taken that slot's ranks (R325). -/
def chordThrough (s : State) (c b : Nat) : Bool := c == b || !s.job.lostSlots.contains c

/-- First port of a path of at most `k` chords from `a` to `b`, the lowest port among those of `k` chords (R313, R325). -/
def chordPath (s : State) : Nat → Nat → Nat → Option Nat
  | 0, _, _ => none
  | k + 1, a, b => (List.range 4).find? fun q => chordAlive s a q && chordThrough s (chordTo a q) b &&
      (chordTo a q == b || (chordPath s k (chordTo a q) b).isSome)

/-- Port of the path of fewest chords (R313). -/
def trayPort (s : State) (b : Nat) : Option Nat :=
  (List.range 9).findSome? fun k => chordPath s k (traySlot s) b

/-- Tray slot of an endpoint in the machine description. -/
def slotOfEndpoint (s : State) (e : BitVec 16) : Option Nat :=
  match s.dev.ring with | some r => (r.machine.find? fun m => m.endpoint == e).map (·.slot) | none => none

/-- A chord crosses the dateline between slots 8 and 0 (R484). -/
def crossesDateline (a q : Nat) : Bool :=
  match q with
  | 0 => a == 8
  | 1 => a == 0
  | 2 => a == 7 || a == 8
  | _ => a == 0 || a == 1

/-! ### Tables and epochs -/

def copyOf (s : State) (e : Bool) : Tables := if e then s.fabric.copy1 else s.fabric.copy0

/-- The table copy by which a packet of epoch bit `e` is routed: `ok` tables, `stale` an old epoch whose copy is invalid (R510), `early` a
new epoch whose copy is incomplete (R506, R512). -/
inductive CopyFor where
  | ok (t : Tables) | stale | early
  deriving DecidableEq, Repr

def copyFor (s : State) (e : Bool) : CopyFor :=
  if e = s.fabric.epoch then .ok (copyOf s e)
  else if s.fabric.oldValid || s.fabric.inactiveComplete then .ok (copyOf s e)
  else if s.fabric.changing then .early
  else .stale

/-- Digest of an epoch's tables: bytes 0 to 7 of SHA-256 over down, FLUME and CTRL entries, two bytes each (Table 13-6). -/
def tableBytes (t : Tables) : List Byte :=
  let entries := fun (m : Table Nat) => m.flatMap fun e => leBytes 2 e.1 ++ leBytes 2 e.2
  entries t.down ++ entries t.flume ++ entries t.ctrl

def tablesDigest (t : Tables) : DWord := digest8 (tableBytes t)

/-- ERR_TABLE_EPOCH (Table 11-6). -/
def raiseEpoch (t partner table : Nat) (s : State) : State :=
  raise errTableEpoch uTile t t partner
    (detail [(if s.fabric.epoch then 1 else 0, 1), (table, 1), (s.fabric.digest.toNat, 8)]) s

/-- Destination-indexed entry (R506, R510, R512): the entry, or none with the drop counted. -/
def tableEntry (pick : Tables → Table Nat) (tableNo t ctr : Nat) (p : Packet) (s : State) : Option Nat × State :=
  match copyFor s (p.flags.getLsbD 0) with
  | .ok c =>
    let e := tget (pick c) p.dst.toNat 0xFFFF
    if e = 0xFFFF then (none, countPort ctr (fun c => { c with noRoute := c.noRoute + 1 }) s) else (some e, s)
  | .stale =>
    let e := tget (pick (copyOf s s.fabric.epoch)) p.dst.toNat 0xFFFF
    if e = 0xFFFF then (none, countPort ctr (fun c => { c with oldEpoch := c.oldEpoch + 1 }) s) else (some e, s)
  | .early =>
    let s := countPort ctr (fun c => { c with newEpoch := c.newEpoch + 1 }) s
    if s.fabric.epochWritten.contains t then (none, s)
    else (none, raiseEpoch t 0xFFFF tableNo { s with fabric.epochWritten := t :: s.fabric.epochWritten })

/-! ### Arrival at a router -/

/-- What is queued for a mesh port, with the VCs. -/
def meshQueue (s : State) (t port : Nat) : List (Nat × Queued) :=
  (List.range 6).flatMap fun v => (heldAt s (queueKey t port v)).map fun h => (v, h)

/-- Replaces a queued packet's record. -/
def setHeld (key : Nat) (h h' : Queued) (s : State) : State :=
  setQueue key ((heldAt s key).map fun x => if x == h then h' else x) s

/-- Router and port from which direction `d` of bridge link `k` is fed (Table 09-1). -/
def bridgePort (k d : Nat) : Nat × Nat :=
  if d = 0 then ((bridgeTiles k).1, if seamOf k < 2 then 2 else 1) else ((bridgeTiles k).2, if seamOf k < 2 then 3 else 0)

/-- Sends what waits for a direction of a bridge link, one packet to a transfer (DESIGN CHOICE, log 43), in R493's order, while the link takes
transfers (R380, R385). -/
def pumpBridge (k d : Nat) : Nat → State → State
  | 0, s => s
  | n + 1, s =>
    let (t, port) := bridgePort k d
    if canTransfer s k d then
      match winner s (meshCtr t port) ((meshQueue s t port).filter fun e => e.2.transfer.isNone) with
      | none => s
      | some (v, h) =>
        let q := (dirOf (dlink s k) d).txSeq
        let s := served (meshCtr t port) v h (setHeld (queueKey t port v) h { h with transfer := some q } s)
        pumpBridge k d n (countFlits (meshCtr t port) v 1 (flitsOf h.p) (sendTransfer k d (headerBytes h.p ++ h.p.payload) s))
    else s

/-- A packet joins a mesh port's queue; over a seam it goes out at once if the link takes it. -/
def pushPort (t port : Nat) (vc : VC) (h : Queued) (s : State) : State :=
  let s := pushQueue (queueKey t port (vcCode vc)) h s
  let s := countDepth (meshCtr t port) (vcCode vc) (fullness s t port (vcCode vc)) s
  match bridgeOf t port with
  | some k => pumpBridge k (if port = 2 ∨ port = 1 then 0 else 1) 8 s
  | none => s

/-- Packet with its escape flag set or cleared. -/
def withEscape (p : Packet) (b : Bool) : Packet := { p with flags := if b then p.flags ||| 4 else p.flags &&& 0xFB }

/-- Moves a packet from router `t` one hop toward tile `u` of the same mesh: on the escape route once committed to it, on a productive
port otherwise; with none open it waits (R472 to R476, R489). -/
def hopToward (t u : Nat) (vc : VC) (descended : Bool) (h : Queued) (s : State) : State :=
  if vc = .req ∨ vc = .rsp then
    match adaptivePort s t u (vcCode vc) with
    | some port => pushPort t port vc h s
    | none => pushQueue (queueKey t 5 (vcCode vc)) h s
  else
    match escapePort s t u descended with
    | some port => if portOpen s t port then pushPort t port vc h s else pushQueue (queueKey t 6 (vcCode vc)) h s
    | none => pushQueue (queueKey t 6 (vcCode vc)) h s

/-- Reserved opcodes (R523, R618): 0x83 and 0x8B to 0xFF, and those below 0x80 that Table 12-2 does not list. -/
def reservedOpcode (op : Nat) : Bool :=
  !((1 ≤ op && op ≤ 6) || (0x41 ≤ op && op ≤ 0x45) || (0x80 ≤ op && op ≤ 0x82) || (0x84 ≤ op && op ≤ 0x8A))

/-- The module enforces job tags by native mode (R555). -/
def nativeMode (s : State) : Bool := (policy s).protectionMode ≤ 1

/-- Modules that the ring lets exchange tag 0xFFFF with this one: its keeper and those it keeps (R558). -/
def keeperPeer (s : State) (x : BitVec 16) : Bool :=
  x != 0xFFFF && (keeperNow s == x || (keptNow s).contains x)

/-- The local address of a request lies in HBM, or in the SRAM of a tile, that the loss of a quadrant took away (R411). -/
def addrLost (s : State) (a : Nat) : Bool :=
  s.dev.qLost != 0 && (decide (a < hbmEnd) ||
    (decide (sramBase ≤ a) && decide (a < sramBase + 0x100000000) && s.dev.qLost.getLsbD (quadOf ((a - sramBase) / 0x1000000))))

/-- REQ is stopped at tile `t`'s ingress: 64 operations wait on one of its lines, those of the line's open group and those behind it (R544; which
ones count is DEDUCED, log 43). -/
def ingressFull (s : State) (t : Nat) : Bool :=
  s.remote.groups.any fun g => addrTile (64 * g.line) == t && decide (64 ≤ g.ops.length + g.waiting.length)

/-- A packet that fails its CRC at its destination is dropped and counted (R466). -/
def dropCrc (t : Nat) (p : Packet) (s : State) : State :=
  countPort (meshCtr t 4) (fun c => { c with crcDrops := c.crcDrops + 1 })
    { s with fabric.lastCrcSrc := p.src, fabric.lastCrcOp := p.opcode, fabric.lastCrcPlane := p.plane, fabric.lastCrcTile := t,
             fabric.crcThisTick := s.fabric.crcThisTick + 1 }

/-- A relay takes a packet addressed to it, at router `t` (R466, R489, R618). -/
def acceptRelay (t : Nat) (p : Packet) (s : State) : State :=
  if p.crc ≠ packetCrc p then dropCrc t p s
  else if reservedOpcode p.opcode.toNat then { s with fabric.reservedDrops := s.fabric.reservedDrops + 1 }
  else emit (.deliver t p) s

/-- The endpoint takes a packet at its destination tile: CRC, reserved opcodes and job tags (R466, R558, R618); then it is delivered. -/
def acceptAt (t : Nat) (p : Packet) (s : State) : State :=
  let op := p.opcode.toNat
  if p.crc ≠ packetCrc p then dropCrc t p s
  else if reservedOpcode op then { s with fabric.reservedDrops := s.fabric.reservedDrops + 1 }
  else if nativeMode s && classOf op ≤ 1 && p.job != s.job.tag && !(p.job == 0xFFFF && keeperPeer s p.src) then
    { s with fabric.tagSrc := p.src, fabric.tagJob := p.job, fabric.tagOp := p.opcode, fabric.tagTile := t,
             fabric.tagThisTick := s.fabric.tagThisTick + 1, remote.protectDrops := s.remote.protectDrops + 1 }
  else
    let s := if p.addr.toNat < hbmEnd && classOf op = 0 then touchHbm p.addr.toNat 0 false s else s
    emit (.deliver t p) s

/-- A packet has reached its destination tile: a request waits in the router while the tile's ingress is stopped (R544). -/
def arriveAt (t : Nat) (vc : VC) (h : Queued) (s : State) : State :=
  if (vc = .req ∨ vc = .reqE) ∧ ingressFull s t then pushQueue (queueKey t 7 (vcCode vc)) h s else acceptAt t (aged s h) s

/-- A held packet leaves the module at the router of lane `l`, or of tray port Kq. -/
def leaveByLane (l : Nat) (h : Queued) (s : State) : State := sendHeld l h s

def leaveByTray (q : Nat) (h : Queued) (s : State) : State :=
  sendHeld (144 + q) (if crossesDateline (traySlot s) q then { h with p := { h.p with flags := h.p.flags ||| 8 } } else h) s

/-- XY tree of a multicast (R491): ports onto which the router at `t` copies a packet that came from `port` (6 at the source), toward the
members of `mask` seen from the source row. -/
def multicastPorts (t port : Nat) (mask : BitVec 256) : List Nat :=
  let c := t % 16
  let cols := (List.range 16).filter fun k => (List.range 16).any fun r => mask.getLsbD (16 * r + k)
  let onRow := port = 2 ∨ port = 3 ∨ port = 6
  let east := onRow && port != 2 && cols.any (c < ·)
  let west := onRow && port != 3 && cols.any (· < c)
  let north := port != 0 && (List.range 16).any fun r => decide (r < t / 16) && mask.getLsbD (16 * r + c)
  let south := port != 1 && (List.range 16).any fun r => decide (t / 16 < r) && mask.getLsbD (16 * r + c)
  (if north then [0] else []) ++ (if south then [1] else []) ++ (if east then [2] else []) ++ (if west then [3] else [])

/-- Members of a multicast to which port `o` of the router at `t` leads. -/
def behindPort (t o : Nat) (mask : BitVec 256) : List Nat :=
  ((List.range 256).filter fun u => mask.getLsbD u).filter fun u =>
    if o = 0 then u % 16 == t % 16 && decide (u / 16 < t / 16) else if o = 1 then u % 16 == t % 16 && decide (t / 16 < u / 16)
    else if o = 2 then decide (t % 16 < u % 16) else decide (u % 16 < t % 16)

/-- Copies of a multicast for single members go toward them by the escape route, in place of a branch over a fenced link (R393); a lost quadrant's are gone. -/
def detour (t : Nat) (vc : VC) (h : Queued) (us : List Nat) (s : State) : State :=
  (us.filter (routerUp s)).foldl (fun s u => hopToward t u (escapeVc vc) false { h with heading := some (.tile u), transfer := none, taken := false } s) s

/-- Multicast at a router (R491, R492). DESIGN CHOICE (log 43): a branch over a fenced link is taken by copies for its members. -/
def routeMulticast (t port : Nat) (vc : VC) (h : Queued) (s : State) : State :=
  let mask := tget s.fabric.groups h.p.group.toNat 0
  let s := (multicastPorts t port mask).foldl (fun s o =>
    if portUnfenced s t o then pushPort t o (escapeVc vc) h s else detour t vc h (behindPort t o mask) s) s
  if mask.getLsbD t then acceptAt t (aged s h) s else s

/-- A relay's packet goes on in the relay's mesh to the router of the lane that it leaves by (R412, R486). -/
def crossTo (t l : Nat) (vc : VC) (down : Bool) (h : Queued) (s : State) : State :=
  if laneTile l = t then leaveByLane l { h with heading := none } s else hopToward t (laneTile l) vc down { h with heading := some (.lane l) } s

/-- A packet of a heading of its own, at router `t`. -/
def routeHeaded (x : Heading) (t : Nat) (vc : VC) (down : Bool) (h : Queued) (s : State) : State :=
  match x with
  | .tile u => if u = t then acceptAt t (aged s h) s else hopToward t u vc down h s
  | .lane l => crossTo t l vc down h s

/-- The lane and the packet by which one for another module goes on: the lane of its plane, or of a plane chosen anew where that carries nothing now; a
packet routed by its plane alone waits there until the lane is UP again or DOWN, and CTRL goes by any UP lane (R499, R505). -/
def wayOut (s : State) (p : Packet) : Option (Nat × Packet) :=
  match laneOfPlane s p.plane.toNat with
  | some l => some (l, p)
  | none =>
    match if roams p then choosePlane s p.dst [] else none with
    | some x => (laneOfPlane s x).map fun l => (l, replane x p)
    | none => (holdingLane s p.plane.toNat).map fun l => (l, p)

/-- Routes a packet that router `t` holds and that came by `port` (R471, R489): to its tile, or to the lane or tray port by which it leaves. One for a tile of
a lost quadrant is taken here, and answered with the error of R411. A module
in STARTING carries nothing on the chord ring (R314, R482). -/
def routePacket (t port : Nat) (vc : VC) (h : Queued) (s : State) : State :=
  let down := arrivedDown s t port
  let p := h.p
  match h.heading with
  | some x => routeHeaded x t vc down h s
  | none =>
  if p.flags.getLsbD 4 then routeMulticast t port vc h s
  else if p.dst = ownEndpoint s then
    if p.flags.getLsbD 5 then acceptRelay t (aged s h) s
    else
      let u := addrTile p.addr.toNat
      if u = t ∨ !routerUp s u then arriveAt t vc h s else hopToward t u vc down h s
  else if p.plane = 0xFE ∧ s.dev.st ≠ .starting then
    match (slotOfEndpoint s p.dst).bind (trayPort s) with
    | some q =>
      let u := laneTile (36 * q + 32)
      if u = t then leaveByTray q h s else hopToward t u (if port = 5 then escapeVc vc else vc) down h s
    | none => countPort (meshCtr t 4) (fun c => { c with noRoute := c.noRoute + 1 }) s
  else if p.plane = 0xFE then countPort (meshCtr t 4) (fun c => { c with noRoute := c.noRoute + 1 }) s
  else
    match wayOut s p with
    | some (l, p) =>
      let u := laneTile l
      let h := { h with p }
      if u = t then leaveByLane l h s else hopToward t u vc down h s
    | none => countPort (meshCtr t 4) (fun c => { c with noRoute := c.noRoute + 1 }) s

/-- Code of an input port: N 0, S 1, E 2, W 3, Up 4, a lane 5, this tile 6. -/
def portCode : Port → Nat
  | .north => 0 | .south => 1 | .east => 2 | .west => 3 | .up => 4 | .lane _ => 5 | .here => 6

/-- Number of an input port in R493's order (DESIGN CHOICE, log 43: Table 19-12's ports, then the tile's own, then the lanes). -/
def portNumber : Port → Nat
  | .lane l => 16 + l.val
  | p => portCode p

/-- Counter key of the input port of a number. -/
def portCtrOf (s : State) (t n : Nat) : Nat := if n < 16 then meshCtr t n else linkCtr (linkOf s (n - 16))

/-- Two packets that differ in age at most. -/
def samePacket (p q : Packet) : Bool := { p with age := 0 } == { q with age := 0 }

/-- What a mesh port's next packet is: over a seam one whose transfer has been accepted, else the upstream router's winner (R379, R493). -/
def nextOver (s : State) (u out v : Nat) (p : Packet) : Option Queued :=
  match bridgeOf u out with
  | some _ => (heldAt s (queueKey u out v)).find? fun h => h.taken && samePacket h.p p
  | none => match winner s (meshCtr u out) (meshQueue s u out) with
    | some (w, h) => if w = v && samePacket h.p p then some h else none
    | none => none

/-- The next flits of a VC's ingress buffer spell a packet (R446). -/
def nextIn (r : Link) (v : Nat) (p : Packet) : Bool :=
  let q := tget r.ingress v []
  decide (flitsOf p ≤ q.length) && (q.take (flitsOf p)).flatten == headerBytes p ++ p.payload

/-- What an arrival takes out of the upstream buffer, the neighbour's output queue or the ingress buffer of a lane that attaches to this router, with the
age and the heading that it has by then (R421, R446, R448, R493, R495); none when this packet is not the next there. -/
def takeFrom (t : Nat) (port : Port) (vc : VC) (p : Packet) (s : State) : Option ((Packet × Option Heading) × State) :=
  let v := vcCode vc
  match port with
  | .lane l =>
    let k := linkOf s l
    let r := link s k
    let n := flitsOf p
    if laneTile l = t && nextIn r v p then
      let q := (tget r.ingress v []).drop n
      let off := if 32 * q.length < xoffClear k then r.xoffOut &&& BitVec.ofNat 6 (63 - 2 ^ v) else r.xoffOut
      let s' := setLink k { r with ingress := tset r.ingress v q [], xoffOut := off } s
      some ((p, none), if off != r.xoffOut then sendIdle k s' else s')
    else none
  | .here => some ((p, none), s)
  | .up => some ((p, none), s)
  | _ =>
    match neighbour t (portCode port) with
    | none => none
    | some u =>
      let out := backPort (portCode port)
      (nextOver s u out v p).map fun h =>
        let s' := setQueue (queueKey u out v) ((heldAt s (queueKey u out v)).erase h) s
        ((aged s h, h.heading), if h.transfer.isSome then s' else countFlits (meshCtr u out) v 1 (flitsOf p) (served (meshCtr u out) v h s'))

/-- VC of a packet in the mesh that it enters by a port: off a lane it is set again by Table 11-2 (R470). -/
def meshVc (port : Port) (vc : VC) : VC := match port with | .lane _ => adaptiveVc vc | _ => vc

/-- ROUTER_PACKET_ARRIVE (R466 to R495): a router takes a packet, counts the hop and routes it. -/
def execRouterPacketArrive (t : Tile) (port : Port) (vc : VC) (p : Packet) (s : State) : Host.Outcome State Fault Refusal :=
  .next (
    if s.dev.st = .lookout ∨ !s.pins.v48On ∨ !routerUp s t then s
    else match takeFrom t port vc p s with
      | none => s
      | some ((p, x), s) =>
        let s := countFlits (inCtr s t port) (vcCode vc) 0 (flitsOf p) s
        let q := { p with hops := p.hops + 1 }
        if p.hops = 254 then countPort (meshCtr t (portCode port)) (fun c => { c with hopDrops := c.hopDrops + 1 }) s
        else routePacket t (portCode port) (meshVc port vc) { entering s (portNumber port) q with heading := x } s)

/-- MESH_ESCAPE (R473): a packet that has found no productive port open for 64 root cycles, 32 ns, moves to the escape VC of its class. The port by
which it came counts it (DESIGN CHOICE, log 43: Table 11-4 does not say which port does). -/
def execMeshEscape (t : Tile) (vc : VC) (s : State) : Host.Outcome State Fault Refusal :=
  .next (
    match heldAt s (queueKey t 5 (vcCode vc)) with
    | [] => s
    | h :: hs =>
      if s.time < h.since + 32 then s
      else
        let s := setQueue (queueKey t 5 (vcCode vc)) hs s
        let s := countPort (portCtrOf s t h.port) (fun c => { c with escape := c.escape + 1 }) s
        routePacket t 6 (escapeVc vc) { h with p := withEscape h.p true } s)

/-- Bridge links fenced and routers out of use, for which an escape table is computed (R475). -/
def fencesNow (s : State) : List Nat × List Nat :=
  (((List.range 32).map (256 + ·)).filter fun k => (dlink s k).width == .fenced, (List.range 256).filter fun t => !routerUp s t)

/-- Packets that wait in their routers, by the router, the kind of wait (5 for an open port, 6 for the escape table, 7 for the tile's ingress) and the VC. -/
def parked (s : State) (kind : Nat) : List (Nat × Nat × List Queued) :=
  (s.fabric.queues.filter fun e => e.1 < 1000000 && e.1 % 2048 / 8 == kind).map fun e => (e.1 / 2048, e.1 % 8, e.2)

/-- Packets that wait for the escape table. -/
def waitingEscape (s : State) : List (Nat × Nat × List Queued) := parked s 6

def vcOfCode : Nat → VC
  | 0 => .req | 1 => .reqE | 2 => .rsp | 3 => .rspE | 4 => .flume | _ => .ctrl

/-- Waiting packets try again, in the order in which they wait. -/
def retryParked (kind : Nat) (s : State) : State :=
  let w := parked s kind
  let s := w.foldl (fun s e => setQueue (queueKey e.1 kind e.2.1) [] s) s
  w.foldl (fun s e => e.2.2.foldl (fun s h => routePacket e.1 6 (vcOfCode e.2.1) h s) s) s

/-- Writes the inactive copy of the escape table and switches to it (R513). -/
def installEscape (e : Option (List Nat × List Nat)) (s : State) : State :=
  if s.fabric.escapeSel then { s with fabric.escape0 := e, fabric.escapeSel := false } else { s with fabric.escape1 := e, fabric.escapeSel := true }

/-- ESCAPE_TABLE_INSTALL (R476, R513): the table for the fences now standing; waiting packets go on. -/
def execEscapeTableInstall (s : State) : Host.Outcome State Fault Refusal :=
  .next (
    let f := fencesNow s
    retryParked 6 (installEscape (if f.1.isEmpty && f.2.isEmpty then none else some f) s))

/-! ### Relays -/

def ringLevels (s : State) : Nat := match s.dev.ring with | some r => r.levels | none => 1
def ringPlane (s : State) : Nat := match s.dev.ring with | some r => r.plane | none => 0
def ringIndex (s : State) : Nat := match s.dev.ring with | some r => r.index | none => 0
def ringPod (s : State) : Nat := match s.dev.ring with | some r => r.pod | none => 0

/-- Lanes of a relay that lead up (Table 13-5). -/
def upLanes (s : State) : List Nat :=
  match s.dev.role with
  | some .leaf => if 2 ≤ ringLevels s then (List.range 72).map (72 + ·) else []
  | some .spine => if 3 ≤ ringLevels s then (List.range 72).map (72 + ·) else []
  | _ => []

def isUpLane (s : State) (l : Nat) : Bool := (upLanes s).contains l

/-- Index of the relay at the other end of an up-lane (Table 13-5). -/
def upPartner (s : State) (l : Nat) : Nat :=
  let u := l - 72
  match s.dev.role with
  | some .leaf => if ringLevels s = 3 then 72 * (ringIndex s / 72) + u else u
  | _ => 4 * (ringIndex s % 72) + u / 18

/-- Rack of an endpoint, where the ring's description names it. -/
def rackOf (s : State) (e : BitVec 16) : Option Nat :=
  match s.dev.ring with | some r => (r.machine.find? fun m => m.endpoint == e).map (·.rack) | none => none

/-- An up-lane takes a packet of a VC now: CTRL on any UP one (R505, R709). -/
def laneTakes (s : State) (vc : VC) (l : Nat) : Bool := if vc = .ctrl then laneUp s l else carries s l

/-- A withdrawal excludes the up-lane toward the destination (Table 11-3). -/
def upExcluded (s : State) (l : Nat) (dst : BitVec 16) : Bool :=
  match rackOf s dst with
  | none => false
  | some rack => s.fabric.excluded.any fun x => match x with
    | .rackVia p r sp => p == ringPlane s && r == rack && sp == upPartner s l
    | .podVia p d c => p == ringPlane s && d == rack / 72 && c == upPartner s l
    | .endpoint _ _ => false
    | .rack _ _ => false

/-- The lane of lowest egress depth among `ls`; ties go to the lowest number (R486). -/
def leastLane (s : State) (ls : List Nat) : Option Nat :=
  ls.foldl (fun b l => match b with
    | none => some l
    | some c => if egressDepth s l < egressDepth s c then some l else some c) none

/-- The lane is lost with its quadrant (R412). -/
def laneLost (s : State) (l : Nat) : Bool := s.dev.qLost.getLsbD (laneQuad l)

/-- The lanes that no loss of a quadrant has taken, or all where it has taken all of them. -/
def liveLanes (s : State) (ls : List Nat) : List Nat := let live := ls.filter fun l => !laneLost s l; if live.isEmpty then ls else live

/-- Down-lanes that a down-table entry leads to (Table 13-6). -/
def downLanes (s : State) (entry : Nat) : List Nat :=
  match s.dev.role with
  | some .leaf => [entry]
  | some .spine => [if ringLevels s = 3 then entry % 72 else entry]
  | _ => (List.range 18).map (18 * entry + ·)

/-- Lanes by which a relay sends toward another relay's address, computed from the wiring (Tables 13-5, 13-6): bits 15-14 level, 13-0 index. -/
def relayLanes (s : State) (addr : Nat) : List Nat :=
  let lvl := addr / 2 ^ 14
  let idx := addr % 2 ^ 14
  let own := ringIndex s
  let run := fun (a n : Nat) => (List.range n).map (a + ·)
  match s.dev.role with
  | some .leaf => if lvl = 0 then upLanes s else (upLanes s).filter (· == 72 + (if lvl = 1 then idx % 72 else idx / 4))
  | some .spine =>
    if ringLevels s ≠ 3 then (if lvl = 0 then [idx] else [])
    else if lvl = 0 then (if idx / 72 = own / 72 then [idx % 72] else upLanes s)
    else if lvl = 1 then (if idx % 72 = own % 72 then upLanes s else [])
    else if idx / 4 = own % 72 then run (72 + 18 * (idx % 4)) 18 else []
  | some .core => if lvl = 0 then run (18 * (idx / 72)) 18 else if lvl = 1 ∧ idx % 72 = own / 4 then run (18 * (idx / 72)) 18 else []
  | _ => []

/-- A relay-addressed packet goes on toward its relay, never up once it descends (R488, R489). -/
def forwardRelay (l : Nat) (vc : VC) (h : Queued) (s : State) : State :=
  match leastLane s ((relayLanes s h.p.dst.toNat).filter fun u => !laneLost s u && (!isUpLane s u || (laneTakes s vc u && !h.p.flags.getLsbD 1))) with
  | some u => crossTo (laneTile l) u vc false (if isUpLane s u then h else { h with p := { h.p with flags := h.p.flags ||| 2 } }) s
  | none => countPort (laneCtr l) (fun c => { c with noRoute := c.noRoute + 1 }) s

/-- A relay routes a packet that came by lane `l` (R486 to R489): up while the destination lies above, down by the table once it has turned. -/
def routeRelay (l : Nat) (vc : VC) (h : Queued) (s : State) : State :=
  let t := laneTile l
  let p := h.p
  if p.flags.getLsbD 5 && p.dst == ownEndpoint s then
    acceptRelay t (aged s h) s
  else if p.flags.getLsbD 5 then forwardRelay l vc h s
  else
    let pick : Tables → Table Nat := if vc = .flume then (·.flume) else if vc = .ctrl then (·.ctrl) else (·.down)
    let no := if vc = .flume then 1 else if vc = .ctrl then 2 else 0
    let below := match copyFor s (p.flags.getLsbD 0) with
      | .ok c => tget (pick c) p.dst.toNat 0xFFFF != 0xFFFF
      | .stale => tget (pick (copyOf s s.fabric.epoch)) p.dst.toNat 0xFFFF != 0xFFFF
      | .early => true
    if below || p.flags.getLsbD 1 then
      let (e, s) := tableEntry pick no t (laneCtr l) p s
      match e.bind fun e => leastLane s (liveLanes s (downLanes s e)) with
      | some d =>
        if laneLost s d then countPort (laneCtr l) (fun c => { c with noRoute := c.noRoute + 1 }) s
        else crossTo t d vc false { h with p := { p with flags := p.flags ||| 2 } } s
      | none => s
    else
      match leastLane s ((upLanes s).filter fun u => laneTakes s vc u && !upExcluded s u p.dst) with
      | some u => crossTo t u vc false h s
      | none => countPort (laneCtr l) (fun c => { c with noRoute := c.noRoute + 1 }) s

/-- RELAY_FORWARD (R486 to R489), by a lane that is not lost (R412). -/
def execRelayForward (l : Lane) (vc : VC) (p : Packet) (s : State) : Host.Outcome State Fault Refusal :=
  .next (
    if !isFA s ∨ s.dev.st ≠ .relaying ∨ laneLost s l then s
    else match takeFrom (laneTile l) (.lane l) vc p s with
      | none => s
      | some ((p, _), s) =>
        let s := countFlits (laneCtr l) (vcCode vc) 0 (flitsOf p) s
        if p.hops = 254 then countPort (laneCtr l) (fun c => { c with hopDrops := c.hopDrops + 1 }) s
        else routeRelay l vc (entering s (16 + l.val) { p with hops := p.hops + 1 }) s)

/-! ### Reach, tray states, digests, epochs -/

/-- Applies a withdrawal or restoral (Table 11-3). -/
def applyReach (sub : ReachSubject) (restoral : Bool) (s : State) : State :=
  let mask := fun (x p : Nat) (s : State) =>
    let lost := tget s.fabric.lostReach x []
    { s with fabric.lostReach := tset s.fabric.lostReach x (if restoral then lost.filter (· != p) else sinsert lost p) [] }
  match sub with
  | .endpoint p x => if isFA s then s else mask x p s
  | .rack p rack =>
    if isFA s then s
    else
      let xs : List Nat := match s.dev.ring with | some r => (r.machine.filter fun m => m.rack == rack).map (·.endpoint.toNat) | none => []
      xs.foldl (fun s x => mask x p s) s
  | .rackVia _ _ _ =>
    { s with fabric.excluded := if restoral then s.fabric.excluded.filter (· != sub) else s.fabric.excluded ++ [sub] }
  | .podVia _ _ _ =>
    { s with fabric.excluded := if restoral then s.fabric.excluded.filter (· != sub) else s.fabric.excluded ++ [sub] }

/-- MTC time of the last withdrawal or restoral applied for a subject. -/
def reachTime (s : State) (sub : ReachSubject) : Option DWord :=
  (s.fabric.reachTimes.find? fun e => e.1 == sub).map (·.2)

/-- REACH (R500 to R502): applied only when later than the last one applied for the same subject. -/
def execReach (sub : ReachSubject) (restoral : Bool) (mtc : DWord) (s : State) : Host.Outcome State Fault Refusal :=
  .next (
    let later := match reachTime s sub with | some t => decide (t.toNat < mtc.toNat) | none => true
    if later then
      applyReach sub restoral
        { s with fabric.reachTimes := (sub, mtc) :: s.fabric.reachTimes.filter fun e => e.1 != sub }
    else s)

/-- TRAY_STATE (R482, R483): a tray module's live ports; chord paths follow from them. -/
def execTrayState (slot : Fin 9) (live : Bool) (ports : BitVec 4) (s : State) : Host.Outcome State Fault Refusal :=
  .next (
    let dead := !live || ports == 0
    let slots := s.fabric.deadSlots.filter (· != slot.val)
    let keep := s.fabric.deadPorts.filter fun e => e.1 != slot.val
    let lost := ((List.range 4).filter fun q => !ports.getLsbD q).map fun q => (slot.val, q)
    { s with fabric.deadSlots := if dead then sinsert slots slot.val else slots, fabric.deadPorts := keep ++ lost })

/-- EPOCH_SWITCH (R508): at the first MTC value at or after the switch time, the armed copy comes into force. -/
def execEpochSwitch (s : State) : Host.Outcome State Fault Refusal :=
  .next (
    if s.fabric.armed && decide (s.fabric.switchTime.toNat ≤ s.mtc.value.toNat) then
      let e := !s.fabric.epoch
      { s with fabric.epoch := e, fabric.oldValid := true, fabric.inactiveComplete := false, fabric.armed := false,
               fabric.changing := false, fabric.epochWritten := [], fabric.digest := tablesDigest (copyOf s e) }
    else s)

/-- Old-epoch packets held in the module's routers. -/
def heldOld (s : State) : Nat :=
  sumNat (s.fabric.queues.map fun e => e.2.countP fun h => h.p.flags.getLsbD 0 != s.fabric.epoch)

/-- OLD_EPOCH_RETIRE (R509): with no old-epoch packet held, 100 µs after the switch time. -/
def execOldEpochRetire (s : State) : Host.Outcome State Fault Refusal :=
  .next (
    if s.fabric.oldValid && heldOld s == 0 && decide (s.fabric.switchTime.toNat + 100000 ≤ s.mtc.value.toNat) then
      { s with fabric.oldValid := false }
    else s)

end Sys2Proof.Machine
end

