-- ==== Sys2Proof/Machine/Seams.lean ====
section
/-! DEFINITION. Die links at work (Chapter 09): transfers received, relink with spares, half width and fences, the repair map, and the loss of a
quadrant. -/
namespace Sys2Proof.Machine

/-! ### What others are told of a lane (R483, R500) -/

/-- This module's tray-port states go to the other modules of its tray when they change (R483). -/
def tellTray (s0 s : State) (k : Nat) : State :=
  if isTrayLink k && linkUp s0 k != linkUp s k then
    emit (.trayState (traySlot s) (BitVec.ofNat 4 (maskOf ((List.range 4).filter fun q => linkUp s (144 + q))))) s
  else s

/-- Subject of the withdrawal that a relay sends for one of its down-lanes (Table 11-3). -/
def reachSubject (s : State) (l : Nat) : Option ReachSubject :=
  if !isFA s ∨ isUpLane s l then none
  else match s.dev.role with
    | some .leaf => some (.endpoint (ringPlane s) (partnerOf s l).toNat)
    | some .spine => some (.rackVia (ringPlane s) (if ringLevels s = 3 then 72 * (ringIndex s / 72) + l else l) (ringIndex s))
    | some .core => some (.podVia (ringPlane s) (l / 18) (ringIndex s))
    | _ => none

/-- Sends a withdrawal or restoral on CTRL (R500). -/
def sendReach (l : Nat) (restoral : Bool) (s : State) : State :=
  match reachSubject s l with
  | some x => emit (.reach x restoral s.mtc.value) s
  | none => s

/-! ### Transfers -/

/-- The control bits of a segment without its CRC (Table 09-3). -/
def ctlBits (x : Segment) : Nat := x.ctl.toNat % 65536

/-- A segment passes its CRC over its 512 B and bits 15 to 0 (R378). -/
def segmentGood (x : Segment) : Bool :=
  decide (x.data.length = 512) && x.ctl.toNat / 65536 == crc32 (x.data ++ leBytes 2 (ctlBits x))

/-- A transfer is accepted when every active segment passes and all agree (R379). -/
def transferGood (w : Width) (xs : List Segment) : Bool :=
  decide (xs.map (·.seg.val) = activeSegs w) && xs.all segmentGood &&
    match xs with
    | [] => false
    | x :: rest => rest.all fun y => ctlBits y / 4 == ctlBits x / 4

/-- The packet that transfer `q` of a bridge link's direction carries has reached the far end (R379). -/
def markTaken (k d q : Nat) (s : State) : State :=
  if k < 256 then s
  else
    let (t, port) := bridgePort k d
    (List.range 6).foldl (fun s v =>
      setQueue (queueKey t port v) ((heldAt s (queueKey t port v)).map fun h =>
        if h.transfer = some q ∧ !h.taken then { h with taken := true } else h) s) s

/-- Sends what waits for a direction of a link: packets cross bridge links, a tile's operands and results its vertical link. -/
def pumpDir (k d : Nat) (s : State) : State := if k < 256 then pumpVertical k d 8 s else pumpBridge k d 8 s

/-- DIE_LINK_TRANSFER (R379 to R381). A discard goes back in an idle transfer; idle transfers that say nothing new are not in the output (log 43). -/
def execDieLinkTransfer (k : Fin 288) (d : Fin 2) (segs : List Segment) (s : State) : Host.Outcome State Fault Refusal :=
  .next (
    let l := dlink s k
    if !hasLink s k || l.width == .fenced || l.paused then s
    else
      let r := dirOf l d
      if transferGood l.width segs then
        let c := match segs with | x :: _ => ctlBits x | [] => 0
        let q := c / 1024 % 64
        let valid := c / 4 % 2 == 1
        let next := valid && q == seqNext r.rxLast
        let r' := if valid then (if next then { r with rxLast := q, nak := false } else { r with nak := true }) else r
        let l := setDir l d r'
        let o := 1 - d.val
        let s := setDlink k (setDir l o (takeAck (dirOf l o) (c / 16 % 64))) (if next then markTaken k d q s else s)
        pumpDir k o (if c / 8 % 2 = 1 then replayDir k o s else s)
      else
        let s := setDlink k (setDir l d { r with nak := true }) s
        emit (transferOut s k (1 - d) none) s)

/-- DIE_LINK_REPLAY_TIMEOUT (R381): a transfer unacknowledged for 64 link cycles replays from the oldest held. -/
def execDieLinkReplayTimeout (k : Fin 288) (d : Fin 2) (s : State) : Host.Outcome State Fault Refusal :=
  .next (if (dlink s k).width == .fenced || (dlink s k).paused then s else replayDir k d s)

/-! ### Quadrant loss -/

/-- Quadrants that unfenced seams join to Q0 (R393, R394). -/
def seamFenced (s : State) (m : Nat) : Bool :=
  (List.range 8).all fun i => (dlink s (256 + 8 * m + i)).width == .fenced

def reachQuads (s : State) : List Nat :=
  let grow := fun (qs : List Nat) =>
    (List.range 4).filter fun q => qs.contains q ||
      (List.range 4).any fun m => !seamFenced s m &&
        ((seamQuads m == (q, (seamQuads m).2) && qs.contains (seamQuads m).2) ||
         (seamQuads m == ((seamQuads m).1, q) && qs.contains (seamQuads m).1))
  grow (grow (grow [0]))

/-- Seams of a quadrant, in order. -/
def quadSeams : Nat → List Nat
  | 0 => [0, 2]
  | 1 => [0, 3]
  | 2 => [1, 2]
  | _ => [1, 3]

/-- The sixteen links of a quadrant's two seams. -/
def quadLinks (q : Nat) : List Nat := (quadSeams q).flatMap fun m => (List.range 8).map fun i => 256 + 8 * m + i

/-- The end of link `k` on the far side of `q` has reported that `q`'s clock is missing. -/
def clockReported (s : State) (q k : Nat) : Bool :=
  let (lo, _) := seamQuads (seamOf k)
  (dlink s k).clockMissing.getLsbD (if q = lo then 0 else 1)

/-- Nanosecond at which the far end of link `k` reported it. -/
def clockAt (s : State) (q k : Nat) : Nat :=
  let l := dlink s k
  if q = (seamQuads (seamOf k)).1 then l.clockAtLow else l.clockAtHigh

/-- Every link of the two seams of `q` has reported a missing clock, all within 1,024 root cycles (512 ns) of the first report (R407). -/
def clocksGone (s : State) (q : Nat) : Bool :=
  let first := (quadLinks q).foldl (fun t k => min t (clockAt s q k)) s.time
  (quadLinks q).all fun k => clockReported s q k && decide (clockAt s q k ≤ first + 512)

/-- The link that reported first. -/
def firstReport (s : State) (q : Nat) : Nat :=
  (quadLinks q).foldl (fun b k => if clockAt s q k < clockAt s q b then k else b) ((quadLinks q).headD 0)

/-- The 36 lanes of a lost quadrant are out of use until the next start (R409): what is told of an UP one is told (R412, R483, R500, R625). -/
def loseLanes (q : Nat) (s : State) : State :=
  (List.range 36).foldl (fun s i =>
    let l := 36 * q + i
    let s' := updLane l (fun r => { unlocked r with st := .disabled, retraining := false }) s
    if laneUp s l then
      let s' := portDown l 4 (sendReach l false (tellTray s s' (linkOf s l)))
      if s'.mtc.parent = some l then switchParent s' else s'
    else if (lane s l).retraining then portDown l 2 s'
    else s') s

/-- What the routers and lanes of a lost quadrant hold is lost with them (R409, R503). -/
def losePackets (q : Nat) (s : State) : State :=
  let gone := fun (key : Nat) =>
    if key < 1000000 then quadOf (key / 2048) == q
    else (lanesOf (key - 1000000)).all fun l => laneQuad l == q
  { s with fabric.queues := s.fabric.queues.filter fun e => !gone e.1
           optics.links := s.optics.links.filter fun e => !(lanesOf e.1).all fun l => laneQuad l == q }

/-- Declares quadrant `q` lost (R407, R409 to R413): cause 1 clock lost, 2 reset, 3 power-good, 4 disconnected. -/
def loseQuadrant (q first cause : Nat) (s : State) : State :=
  if q = 0 ∨ 3 < q ∨ s.dev.qLost.getLsbD q then s
  else
    let reporting := maskOf (((quadLinks q).zipIdx.filter fun e => clockReported s q e.1).map (·.2))
    let lostTiles := ((quadTiles q).filter (tileUsable s)).length
    let st := s.dev.st
    let s := { s with
      dev.qLost := s.dev.qLost ||| BitVec.ofNat 4 (2 ^ q)
      stacking.links := tmap s.stacking.links fun k l => if (quadLinks q).contains k then { l with paused := false } else l }
    let s := losePackets q (loseLanes q s)
    let s := raise errQuadrantLost uDevice 0 q first
      (detail [(reporting, 2), (cause, 1), (stCode st, 1), (lostTiles, 2)]) s
    let s := ledgerEvent (4 + q) 1 0 0 (newest s) s
    let s := retryParked 6 (retryParked 5 s)
    if isFA s then s
    else if st == .planning || st == .running || st == .filling then stopA3 errQuadrantLost s
    else if st == .loading then enter .ready { s with job := {} }
    else s

/-- The lowest lost quadrant. -/
def lostQuad (s : State) : Nat := ((List.range 4).find? fun q => s.dev.qLost.getLsbD q).getD 0

/-- Detail of ERR_QUADRANT_LOST where it refuses a program or a fill (R410): the links that report the quadrant, and the state; DESIGN CHOICE for the
fields that belong to the loss alone, which are 0 (log 41). -/
def lostDetail (s : State) : List Byte :=
  detail [(maskOf (((quadLinks (lostQuad s)).zipIdx.filter fun e => clockReported s (lostQuad s) e.1).map (·.2)), 2), (0, 1), (stCode s.dev.st, 1)]

/-- Quadrants other than Q0 that fenced seams cut off are lost (R394). -/
def loseCutOff (s : State) : State :=
  ((List.range 4).filter fun q => !(reachQuads s).contains q).foldl (fun s q => loseQuadrant q 0xFFFF 4 s) s

/-- A seam whose 8 links are all fenced is fenced (R392); written once. -/
def checkSeam (m : Nat) (s : State) : State :=
  if seamFenced s m && !s.stacking.seamsWritten.getLsbD m then
    let s := { s with stacking.seamsWritten := s.stacking.seamsWritten ||| BitVec.ofNat 4 (2 ^ m) }
    let cut := maskOf ((List.range 4).filter fun q => !(reachQuads s).contains q)
    loseCutOff (raise errSeamFenced uSeam m m none32 (detail [(0xFF, 1), (cut, 1)]) s)
  else s

/-! ### Repair map, relink -/

/-- The last 8 bytes of a copy of the repair map (R400): its entry count, and CRC-32 over the 64 KiB before the CRC. Bytes that no entry fills are 0xFF, as
flash erases them: PRESUMED (log 101). -/
def mapTail (es : List Repair) : List Byte :=
  let bytes := es.flatMap fun e => leBytes 2 e.link ++ leBytes 1 e.dir ++ leBytes 1 e.seg ++ leBytes 1 e.group ++ leBytes 1 e.wire ++ leBytes 1 e.kind ++ leBytes 1 e.origin
  let n := leBytes 4 es.length
  n ++ leBytes 4 (crc32 (bytes ++ List.replicate (65528 - bytes.length) 0xFF ++ n))

/-- Appends a repair-map entry, or writes ERR_REPAIR_MAP_FULL once per start (R400, R402); the ledger counts the repair (R387). -/
def addRepair (e : Repair) (s : State) : State :=
  let s := updSummary (linkDie e.link) (fun d =>
    if e.kind = 6 then { d with fences := satInc none32 d.fences } else { d with repairs := satInc none32 d.repairs }) s
  let s := ledgerEvent (linkDie e.link) 2 (dlink s e.link).band 0 { mtc := s.mtc.value } s
  if s.bark.repairs.length < 8191 then { s with bark.repairs := s.bark.repairs ++ [e], bark.mapTail := mapTail (s.bark.repairs ++ [e]) }
  else
    let s := { s with stacking.unrecorded := s.stacking.unrecorded + 1 }
    if s.stacking.mapFullWritten then s
    else raise errRepairMapFull uWarden 0 none32 none32 (detail [(8191, 4), (s.stacking.unrecorded, 4)]) { s with stacking.mapFullWritten := true }

/-- Failing wires of one segment: clock wires, and group failures as (group, wire). -/
def segFails (fails : List WireFail) (d sg : Nat) : List WireFail := fails.filter fun f => f.dir.val == d && f.seg.val == sg

/-- Table 09-4 applied to one segment: its new record and the repairs to enter. The control group has 6 wires (Table 09-2). -/
def relinkSeg (link d sg : Nat) (v : Seg) (fails : List WireFail) : Seg × List Repair :=
  let fs := fails.filter WireFail.real
  let clock := fs.any fun f => f.wire.val == 32
  let clock2 := fs.any fun f => f.wire.val == 33
  let badClock := if v.spareClock then clock2 else clock && clock2
  let useClock := !v.spareClock && clock && !clock2
  let groups := (List.range 17).filter fun g => fs.any fun f => f.group.val == g && (f.wire.val < 32 || f.wire.val == 34)
  let one := fun g =>
    let spareBad := fs.any fun f => f.group.val == g && f.wire.val == 34
    let inUse := thas v.spares g
    let ws := (((fs.filter fun f => f.group.val == g && f.wire.val < 32).map (·.wire.val)).filter
      fun w => !(inUse && tget v.spares g 0 == w)).dedup
    if inUse && spareBad then (true, none)
    else match ws with
      | [] => (false, none)
      | [w] => if inUse || spareBad then (true, none) else (false, some (g, w))
      | _ => (true, none)
  let rs := groups.map one
  let failed := v.failed || badClock || rs.any (·.1)
  let fixes := rs.filterMap (·.2)
  let v' := { v with failed, spareClock := v.spareClock || useClock, spares := fixes.foldl (fun t e => tput t e.1 e.2) v.spares }
  (v', (if useClock then [{ link, dir := d, seg := sg, group := 0xFF, wire := 32, kind := 2, origin := 1 }] else []) ++
    (fixes.map fun e => { link, dir := d, seg := sg, group := e.1, wire := e.2, kind := 1, origin := 1 }) ++
    (if failed && !v.failed then [{ link, dir := d, seg := sg, group := 0xFF, wire := 0xFF, kind := 3, origin := 1 }] else []))

/-- Segments of a link that have failed in either direction. -/
def failedSegs (l : DLink) : List Nat := (List.range 16).filter fun i => (seg l.toCrown i).failed || (seg l.toRoot i).failed

/-- Width after a test (Table 09-4). -/
def widthAfter (l : DLink) : Width :=
  let f := failedSegs l
  let lo := f.any (· < 8)
  let hi := f.any (8 ≤ ·)
  match l.width with
  | .full => if lo && hi then .fenced else if lo then .upper else if hi then .lower else .full
  | .lower => if lo then .fenced else .lower
  | .upper => if hi then .fenced else .upper
  | .fenced => .fenced

/-- Fences a tile (R391, R20): it leaves the tile map, and its crown half stays gated until the next start (R88), which fences it again where the repair
map says so or a test finds so (R402 to R404). -/
def fenceTile (t : Nat) (s : State) : State :=
  updTile t (fun r => { r with crownGated := true }) { s with stacking.fenced := s.stacking.fenced ||| BitVec.ofNat 256 (2 ^ t) }

/-- What a direction of a fenced bridge link had not delivered goes back to its router as new traffic on other links (R389), a multicast's branch as copies
for its members; with `loss` the packets of held transfers are lost (R390). -/
def reinject (k d : Nat) (loss : Bool) (s : State) : State :=
  if k < 256 then s
  else
    let (t, port) := bridgePort k d
    let back := (meshQueue s t port).filter fun e => !e.2.taken
    let s := (List.range 6).foldl (fun s v => setQueue (queueKey t port v) ((heldAt s (queueKey t port v)).filter (·.taken)) s) s
    (back.filter fun e => !(loss && e.2.transfer.isSome)).foldl (fun s e =>
      if e.2.p.flags.getLsbD 4 ∧ e.2.heading = none then
        detour t (vcOfCode e.1) e.2 (behindPort t port (tget s.fabric.groups e.2.p.group.toNat 0)) s
      else routePacket t 6 (vcOfCode e.1) { e.2 with transfer := none } s) s

/-- A fenced link's direction holds and sends nothing more. -/
def emptied (r : DLinkDir) : DLinkDir := { r with held := [], waiting := [], queued := [] }

/-- Segments of a direction that passed. -/
def passedSegs (l : DLink) (d : Nat) : List Nat := (List.range 16).filter fun i => !(seg (dirOf l d) i).failed

/-- The last accepted number of the other direction goes to the far end over every segment of direction `d` that passed (R389). -/
def tellAccepted (k d : Nat) (s : State) : State :=
  let l := dlink s k
  if (passedSegs l d).isEmpty then s
  else emit (.transfer k d (transferOver (passedSegs l d) none (dirOf l (1 - d)).rxLast (dirOf l (1 - d)).nak)) s

/-- Fences a link after a test (R389 to R392). Both ends learn by the last accepted numbers what the far end has; the rest is sent another way.
With no segment of either direction passing, the held transfers are lost and the job stops (R390). -/
def fenceLink (k d : Nat) (atStart : Bool) (s : State) : State :=
  let l := dlink s k
  let loss := (passedSegs l 0).isEmpty && (passedSegs l 1).isEmpty
  let held := l.toCrown.held.length + l.toRoot.held.length
  let s := tellAccepted k 1 (tellAccepted k 0 s)
  let s := setDlink k { l with
    width := .fenced, paused := false, toCrown := emptied l.toCrown, toRoot := emptied l.toRoot } s
  let s := raise errDieLinkFenced (linkUnitKind k) (linkUnit k) k (linkTile k d)
    (detail [(d, 1), (maskOf (passedSegs l d), 2), (if loss then 1 else 0, 1), (if loss then held else 0, 1), (l.band, 1)]) s
  let s := addRepair { link := k, dir := d, seg := 0, group := 0xFF, wire := 0xFF, kind := 6, origin := 1 } s
  let s := if k < 256 then fenceTile k s else checkSeam (seamOf k) s
  let s := reinject k 1 loss (reinject k 0 loss s)
  if atStart then s
  else if loss then stopA3 errDieLinkFenced s
  else if k < 256 then stopA2 errDieLinkFenced s
  else s

/-- Applies the outcome of a test to link `k` (R384, R386, R389); the records name the direction and the segment that failed (R414). -/
def applyTest (k : Nat) (fails : List WireFail) (codes : List (Nat × Nat × Nat)) (atStart : Bool) (s : State) : State :=
  let l := dlink s k
  let one := fun (acc : DLink × List Repair) (e : Nat × Nat) =>
    let r := dirOf acc.1 e.1
    let (v, rs) := relinkSeg k e.1 e.2 (seg r e.2) (segFails fails e.1 e.2)
    (setDir acc.1 e.1 (setSeg r e.2 v), acc.2 ++ rs)
  let touched := ((List.range 2).flatMap fun d => (List.range 16).map fun i => (d, i)).filter fun e => !(segFails fails e.1 e.2).isEmpty
  let (l', rs) := touched.foldl one (l, [])
  let s := rs.foldl (fun s e => addRepair e s) (setDlink k l' s)
  let w := widthAfter l'
  let bad := touched.filter fun e => (seg (dirOf l' e.1) e.2).failed
  let (d, f) := (bad.head?.or touched.head?).getD (0, (failedSegs l').headD 0)
  if w == .fenced && l.width != .fenced then fenceLink k d atStart s
  else
    let active := activeSegs w
    let s := codes.foldl (fun s c =>
      if active.contains c.2.1 then
        let l := dlink s k
        let r := dirOf l c.1
        let v := seg r c.2.1
        setDlink k (setDir l c.1 (setSeg r c.2.1 { v with codes := tput v.codes l.band (c.2.2 % 64) })) s
      else s) s
    let s := setDlink k { dlink s k with width := w } s
    if w != l.width then
      let wf := match (segFails fails d f).filter WireFail.real with | x :: _ => (x.group.val, x.wire.val) | [] => (0xFF, 0xFF)
      let margin := ((seg (dirOf l' d) f).margin).getD 0xFF
      let s := raise errLaneDegraded (linkUnitKind k) (linkUnit k) k (linkTile k d)
        (detail [(d, 1), (if w == .upper then 1 else 0, 1), (f, 1), (wf.1, 1), (wf.2, 1), (l.band, 1), (margin, 1)]) s
      addRepair { link := k, dir := d, seg := f, group := 0xFF, wire := 0xFF, kind := if w == .upper then 5 else 4, origin := 1 } s
    else s

/-- Replays of a link direction within the last 1,000,000 link cycles of 1 ns (R383). -/
def recentReplays (s : State) (r : DLinkDir) : Nat := (r.recent.filter fun t => decide (s.time < t + 1000000)).length

/-- RELINK_START (R383, R384): both directions pause. -/
def execRelinkStart (k : Fin 288) (d : Fin 2) (s : State) : Host.Outcome State Fault Refusal :=
  .next (
    let l := dlink s k
    let r := dirOf l d
    if hasLink s k && l.width != .fenced && !l.paused && (decide (4 ≤ r.again) || decide (64 ≤ recentReplays s r)) then
      setDlink k { l with paused := true, relinks := satInc 255 l.relinks } s
    else s)

/-- The link resumes: held transfers are replayed, packets that waited for it go on (R23, R385), and the counts of R383 begin anew. -/
def resumeLink (k : Nat) (narrowed : Bool) (s : State) : State :=
  let l := dlink s k
  let l := if narrowed && decide (k < 256) then { l with toCrown := recut l.width l.toCrown, toRoot := recut l.width l.toRoot } else l
  let s := setDlink k { l with paused := false, toCrown.again := 0, toCrown.recent := [], toRoot.again := 0, toRoot.recent := [] } s
  let s := resendHeld k 1 l.toRoot.held (resendHeld k 0 l.toCrown.held s)
  retryParked 6 (retryParked 5 (pumpDir k 1 (pumpDir k 0 s)))

/-- RELINK_COMPLETE (R384 to R392, R399): the outcome of the test of a paused link; the phase found is that of the band now in force. -/
def execRelinkComplete (k : Fin 288) (fails : List WireFail) (codes : List (Fin 2 × Fin 16 × Nat)) (s : State) :
    Host.Outcome State Fault Refusal :=
  .next (
    if (dlink s k).paused then
      let before := (dlink s k).width
      let s := applyTest k fails (codes.map fun c => (c.1.val, c.2.1.val, c.2.2)) false s
      if (dlink s k).width == .fenced then s else resumeLink k ((dlink s k).width != before) s
    else s)

/-- One repair-map entry applied at start (R403). -/
def applyRepair (e : Repair) (s : State) : State :=
  if !hasLink s e.link then s
  else
    let l := dlink s e.link
    let r := dirOf l e.dir
    let v := seg r e.seg
    if e.kind = 1 then setDlink e.link (setDir l e.dir (setSeg r e.seg { v with spares := tput v.spares e.group e.wire })) s
    else if e.kind = 2 then setDlink e.link (setDir l e.dir (setSeg r e.seg { v with spareClock := true })) s
    else if e.kind = 3 then setDlink e.link (setDir l e.dir (setSeg r e.seg { v with failed := true })) s
    else if e.kind = 4 then setDlink e.link { l with width := .lower } s
    else if e.kind = 5 then setDlink e.link { l with width := .upper } s
    else if e.kind = 6 then
      let s := setDlink e.link { l with width := .fenced } s
      if e.link < 256 then fenceTile e.link s else s
    else s

/-- Die-link training at step 7 of the start (R403 to R405): seams that the map or the tests have fenced are fenced, with what they cut off (R392, R394),
and the tile map in the Bark is written (Table 15-2). -/
def startLinks (obs : TrainObs) (s : State) : State :=
  let s := s.bark.repairs.foldl (fun s e => applyRepair e s) { s with stacking := {} }
  let links := ((obs.wires.map (·.1.val)) ++ (obs.codes.map (·.1.val))).dedup
  let s := links.foldl (fun s k =>
    if hasLink s k then
      applyTest k ((obs.wires.filter fun w => w.1.val == k).map (·.2))
        ((obs.codes.filter fun c => c.1.val == k).map fun c => (c.2.1.val, c.2.2.1.val, c.2.2.2)) true s
    else s) s
  let s := (List.range 4).foldl (fun s m => checkSeam m s) s
  { s with bark.fenced := s.stacking.fenced }

/-- MISSING_CLOCK (R406, R407): the receiving end stops sending and marks the bridge link fenced; what it had not delivered takes other links, as
under R389 (DESIGN CHOICE, log 43: R406 names no fate for it). -/
def execMissingClock (k : Fin 32) (fromQuad : Quad) (s : State) : Host.Outcome State Fault Refusal :=
  .next (
    let id := 256 + k.val
    let (lo, hi) := seamQuads (seamOf id)
    if s.pins.v48On ∧ (fromQuad.val = lo ∨ fromQuad.val = hi) then
      let l := dlink s id
      let bit := if fromQuad.val = lo then 1 else 2
      let again := l.clockMissing.getLsbD (bit - 1)
      let l := if again then l else if bit = 1 then { l with clockAtLow := s.time } else { l with clockAtHigh := s.time }
      let s := setDlink id { l with width := .fenced, paused := false, clockMissing := l.clockMissing ||| BitVec.ofNat 2 bit,
                                    toCrown.held := [], toRoot.held := [] } s
      let s := if clocksGone s fromQuad then loseQuadrant fromQuad (firstReport s fromQuad) 1 s else s
      reinject id 1 false (reinject id 0 false (checkSeam (seamOf id) s))
    else s)

/-- QUADRANT_RESET_SEEN (R407): the Warden sees a quadrant's reset or power-good fall. -/
def execQuadrantResetSeen (q : Quad) (powerGood : Bool) (s : State) : Host.Outcome State Fault Refusal :=
  .next (if s.dev.st = .lookout ∨ !s.pins.v48On then s else loseQuadrant q 0xFFFF (if powerGood then 3 else 2) s)

end Sys2Proof.Machine
end

