-- ==== Sys2Proof/Machine/Lanes.lean ====
section
/-! DEFINITION. Lanes and the link layer (Chapter 10), discovery (R707 to R713), loss and return of lanes, the host port. -/
namespace Sys2Proof.Machine

/-- A packet queued for lost lane `l` is routed adaptively: on its source module as its plane was chosen, on a relay while it ascends (R486, R488,
R499). -/
def choosesAgain (s : State) (l : Nat) (p : Packet) : Bool :=
  if isFA s then isUpLane s l && classOf p.opcode.toNat < 2 && !p.flags.getLsbD 1 && !p.flags.getLsbD 5 else roams p

/-- Adaptively routed packets queued for a lost tree lane choose again; the others wait (R499). -/
def rechoose (l : Nat) (s : State) : State :=
  let q := heldAt s (linkKey l)
  let stay := q.filter fun h => !choosesAgain s l h.p
  let go := q.filter fun h => choosesAgain s l h.p
  go.foldl (fun s h =>
    let vc := vcOf (packetClass h.p)
    if isFA s then
      match leastLane s ((upLanes s).filter fun u => carries s u && !upExcluded s u h.p.dst) with
      | some u => crossTo (laneTile l) u vc false h s
      | none => pushQueue (linkKey l) h s
    else routePacket (laneTile l) 6 vc h s) (setQueue (linkKey l) stay s)

/-- What follows when a lane leaves UP (R457, R499, R500, R625). -/
def laneLeavesUp (l : Nat) (s0 s : State) : State :=
  let k := linkOf s l
  let s := if isTrayLink k then
      if linkUp s k then
        let lost := (link s k).replay.filter fun f => tget (link s k).sentOn (ctlField f 47 36) l == l
        let n := lost.length
        let s := putFrames k lost s
        raise errPortNarrow uLane l (k - 144) (partnerOf s l).toNat
          (detail [(maskOf (((lanesOf k).zipIdx.filter fun e => laneUp s e.1).map (·.2)), 1), (l, 2), (n, 4)]) s
      else s
    else rechoose l s
  let s := tellTray s0 s k
  let s := sendReach l false s
  if s.mtc.parent = some l then switchParent s else s

/-- Puts a lane in HELD for a cause: 1 length, 2 skew, 3 miswired, 4 version (Table 19-9). -/
def holdLane (l cause : Nat) (s : State) : State :=
  let s' := updLane l (fun r => { unlocked r with st := .held, heldCause := cause, retraining := false }) s
  if laneUp s l then portDown l 4 (laneLeavesUp l s s') else if (lane s l).retraining then portDown l 2 s' else s'

/-- This end takes a fresh token (R429). -/
def newToken (l : Nat) (s : State) : State :=
  let (k, s) := draw s
  updLane l (fun r => { r with token := Config.token k }) s

/-! ### Training -/

/-- LANE_TRAINING_ATTEMPT (R428): every second, in every state except LOOKOUT. -/
def execLaneTrainingAttempt (l : Lane) (s : State) : Host.Outcome State Fault Refusal :=
  .next (
    if s.dev.st ≠ .lookout ∧ (lane s l).st = .down then
      updLane l (fun r => { unlocked r with st := .training, retraining := false }) s
    else s)

/-- The next codeword of a wavelength decodes or is uncorrectable: lock comes after 4 in a row that decode, and goes after 16 in a row that are
uncorrectable (R420). -/
def takeWord (x : Bool × Nat × Nat) (ok : Bool) : Bool × Nat × Nat :=
  let (lock, good, bad) := x
  let good := if ok then min 4 (good + 1) else 0
  let bad := if ok then 0 else min 16 (bad + 1)
  (if good = 4 then true else if bad = 16 then false else lock, good, bad)

/-- A wavelength's receiver takes the codewords that have come. -/
def takeWords (w : Wave) (words : List Bool) (r : LaneRec) : LaneRec :=
  match w with
  | .a => let (lock, run) := words.foldl takeWord (r.lockA, r.runA); { r with lockA := lock, runA := run }
  | .b => let (lock, run) := words.foldl takeWord (r.lockB, r.runB); { r with lockB := lock, runB := run }

/-- A trained lane enters INIT with a fresh token: frame 0 of its stream begins, and is an init frame (R418, R428, R429). -/
def enterInit (l : Nat) (s : State) : State :=
  sendInit l (newToken l (updLane l (fun r => { r with st := .init, streamFrom := s.out.length, sentTill := 100 * s.time, lastToken := 0, tokenAt := s.time, delay4 := 0 }) s))

/-- CODEWORD_LOCK (R418, R420, R428): codewords of a wavelength have come, each decoded or uncorrectable; with lock on both wavelengths a lane goes from
TRAINING to INIT, and a retraining one waits for its return. -/
def execCodewordLock (l : Lane) (w : Wave) (words : List Bool) (s : State) : Host.Outcome State Fault Refusal :=
  .next (
    let r := lane s l
    if r.st = .training ∨ r.st = .init ∨ r.st = .up then
      let r := takeWords w words r
      if r.st = .training ∧ r.lockA ∧ r.lockB ∧ !r.retraining then enterInit l (setLane l r s) else setLane l r s
    else s)

/-- TRAINING_TIMEOUT (R428): no lock within 1 s. -/
def execTrainingTimeout (l : Lane) (s : State) : Host.Outcome State Fault Refusal :=
  .next (
    if (lane s l).st = .training ∧ !(lane s l).retraining then
      updLane l (fun r => { unlocked r with st := .down }) s
    else s)

/-- ERR_LINK_LONG (Table 10-8). -/
def raiseLong (l cause ns limit : Nat) (s : State) : State :=
  raise errLinkLong uLane l l (lanePeer s l) (detail [(cause, 1), (0, 1), (ns, 4), (limit, 4)]) s

/-- Lanes of a tray port that lie more than 64 ns beyond its shortest UP lane are held (R456). -/
def checkSkew (k : Nat) (s : State) : State :=
  if isTrayLink k then
    let ups := (lanesOf k).filter (laneUp s)
    let best := ups.foldl (fun b l => min b (lane s l).delay4) none32
    (ups.filter fun l => best + 256 < (lane s l).delay4).foldl
      (fun s l => raiseLong l 2 (((lane s l).delay4 - best) / 4) 64 (holdLane l 2 s)) s
  else s

/-- A lane comes UP with a measured delay (R428, R707): discovery begins. A link of which no lane was UP or retraining starts its sequence anew; a tray
port whose last lane retrains keeps it, and replays on the lane that has come (R433, R457). -/
def laneComesUp (l delay4 : Nat) (s : State) : State :=
  let k := linkOf s l
  let s0 := s
  let s := if linkDead s k then setLink k {} s else s
  let s := updLane l (fun r => { r with st := .up, delay4, heldCause := 0, discovered := false, ctrlOnly := false, announced := none }) s
  let s := if linkUp s0 k then s else putFrames k (link s k).replay s
  let s := tellTray s0 s k
  let s := sendDiscovery l s
  pumpLink k (checkSkew k s)

/-- Twice the fibre delay in half nanoseconds: (rtt − turnaround) / 2 − 50 ns, with the turnaround in root cycles of 0.5 ns (R430). -/
def delayQuarter (rtt turnaround : Nat) : Int := 2 * (rtt : Int) - turnaround - 200

/-- INIT_FRAME (R429, R430, R708): its token is echoed from the lane's next frame on, with the turnaround since the token first came; the echo of this end's
token gives the fibre delay, and a lane that comes UP, or is held, has sent the partner its echo. -/
def execInitFrame (l : Lane) (f : InitFrame) (rtt : Nat) (s : State) : Host.Outcome State Fault Refusal :=
  .next (
    if (lane s l).st ≠ .init ∨ f.magic ≠ 0x4B4C then s
    else if f.verMax < 1 ∨ 1 < f.verMin then
      raise errLinkVersion uLane l l (lanePeer s l)
        (detail [(1, 1), (1, 1), (1, 1), (f.verMin.toNat, 1), (f.verMax.toNat, 1)]) (holdLane l 4 s)
    else
      let s := if f.token = (lane s l).lastToken then s else updLane l (fun r => { r with lastToken := f.token, tokenAt := s.time }) s
      if f.echo ≠ (lane s l).token then s
      else
        let s := sendInit l s
        let d4 := (delayQuarter rtt f.turnaround.toNat).toNat
        if 2020 < d4 then raiseLong l 1 (d4 / 4) 505 (holdLane l 1 (updLane l (fun r => { r with delay4 := d4 }) s)) else laneComesUp l d4 s)

/-! ### Discovery -/

/-- Peer of a record about the partner that a discovery record shows: its endpoint ID, or 0xFFFF for a relay (Table 15-14). -/
def foundPeer (d : Discovery) : Nat := if d.role.toNat ≤ 1 then d.ident.toNat else 0xFFFF

/-- ERR_LINK_MISWIRED (Table 15-14). -/
def raiseMiswired (l cause : Nat) (d : Discovery) (s : State) : State :=
  let w := wireOf s l
  raise errLinkMiswired uLane l l (foundPeer d)
    (detail [(cause, 1), (0, 1), ((partnerOf s l).toNat, 2), ((match w with | some w => w.partnerLane | none => 0xFFFF), 2),
             (d.lane.toNat, 2), (d.machineId.toNat, 4)]) s

/-- Lane `l` is held as miswired. -/
def miswire (l cause : Nat) (d : Discovery) (s : State) : State := raiseMiswired l cause d (holdLane l 3 s)

/-- Serves plane `p` for this start (R710): of two lanes remapped to one plane the lower serves it. -/
def remapLane (l p : Nat) (d : Discovery) (s : State) : State :=
  match (List.range 144).find? fun k => k != l && laneUp s k && (lane s k).remapped == some p with
  | some k =>
    if k < l then miswire l 3 d s
    else
      let s := raiseMiswired k 3 d (holdLane k 3 s)
      raise errLinkRemapped uLane l l d.ident.toNat (detail [((planeOf s l).getD 0, 1), (p, 1)])
        (updLane l (fun r => { r with remapped := some p, discovered := true }) s)
  | none =>
    let planned := (planeOf s l).getD 0
    raise errLinkRemapped uLane l l d.ident.toNat (detail [(planned, 1), (p, 1)])
      (updLane l (fun r => { r with remapped := some p, discovered := true }) s)

/-- What of the partner's ring generation, Warden ROM and Cruise ROM version differs (R709); a relay has no Cruise ROM. -/
def recordDiffers (s : State) (d : Discovery) : BitVec 3 :=
  let generation := match s.dev.ring with | some r => d.generation.toNat != r.generation | none => false
  (if generation then 1 else 0) ||| (if d.wardenRom != Config.wardenRom then 2 else 0) |||
    (if !isFA s && decide (d.role.toNat ≤ 1) && d.cruiseRom != Config.cruiseRom then 4 else 0)

/-- A lane whose partner's table digest is this module's carries every kind of traffic, and a relay restores what the lane reaches; one whose digest differs
carries CTRL alone (R500, R504, R505, R709). -/
def takeDigest (l peer : Nat) (digest : DWord) (s : State) : State :=
  if digest ≠ s.fabric.digest then raiseEpoch (laneTile l) peer 0 (updLane l (fun r => { r with ctrlOnly := true }) s)
  else
    let fresh := !carries s l
    let s := updLane l (fun r => { r with discovered := true, ctrlOnly := false }) s
    pumpLink (linkOf s l) (if fresh then sendReach l true s else s)

/-- TABLE_DIGEST (R504, R505): the digest of an UP lane's partner. -/
def execTableDigest (l : Lane) (digest : DWord) (s : State) : Host.Outcome State Fault Refusal :=
  .next (if laneUp s l then takeDigest l (lanePeer s l) digest s else s)

/-- DISCOVERY_RECORD (R708, R709): the first row of Table 15-12 that applies. -/
def execDiscoveryRecord (l : Lane) (d : Discovery) (s : State) : Host.Outcome State Fault Refusal :=
  .next (
    match s.dev.ring with
    | none => s
    | some r =>
      if !laneUp s l ∨ d.magic ≠ 0x4443 then s
      else if d.verMax < 1 ∨ 1 < d.verMin then
        raise errLinkVersion uLane l l (foundPeer d)
          (detail [(2, 1), (1, 1), (1, 1), (d.verMin.toNat, 1), (d.verMax.toNat, 1)]) (holdLane l 4 s)
      else
        let s := updLane l (fun x => { x with partner := BitVec.ofNat 32 (d.lane.toNat * 65536 + d.ident.toNat), differs := recordDiffers s d }) s
        let w := (wireOf s l).getD ⟨l, 0xFFFF, 0⟩
        if d.machineId ≠ r.machineId ∨ !(r.wiring.any fun x => x.partner == d.ident) then miswire l 1 d s
        else if portOf s l < 4 then
          if d.ident ≠ w.partner ∨ d.port.toNat ≠ w.partnerLane / 36 ∨ d.portLane.toNat ≠ w.partnerLane % 36 - 32 then
            raiseMiswired l 2 d ((lanesOf (linkOf s l)).foldl (fun s k => holdLane k 3 s) s)
          else takeDigest l (foundPeer d) d.tableDigest s
        else if !isFA s && d.role == 2 && d.level == 0 && d.rack.toNat == r.rack && d.pod.toNat == r.pod && r.policy.treeRemap == 2 &&
            d.lane.toNat == w.partnerLane && some d.plane.toNat != planeOf s l then
          remapLane l d.plane.toNat d s
        else if d.ident ≠ w.partner ∨ d.lane.toNat ≠ w.partnerLane then miswire l 3 d s
        else takeDigest l (foundPeer d) d.tableDigest s)

/-- LANE_EXTRA_LIGHT (R422, R712): light above −12 dBm on a DISABLED lane, once per lane per start. -/
def execLaneExtraLight (l : Lane) (powA powB : Int) (s : State) : Host.Outcome State Fault Refusal :=
  .next (
    let r := lane s l
    if s.dev.st ≠ .lookout ∧ r.st = .disabled ∧ (-120 < powA ∨ -120 < powB) ∧ !r.extraWritten then
      raise errLinkExtra uLane l l none32 (detail [(signedField 2 powA, 2), (signedField 2 powB, 2)])
        (setLane l { r with extraWritten := true } s)
    else s)

/-! ### Loss and return -/

/-- Frames that a link has replayed within the last 1 ms (R432). -/
def replaysNow (s : State) (k : Nat) : Nat := sumNat (((link s k).replayed.filter fun e => decide (s.time < e.1 + 1000000)).map (·.2))

/-- A cause of R432 holds: 1 lock lost on a wavelength, 2 the replay limit, 3 the replay rate, 4 a received power below −12 dBm. -/
def retrainDue (s : State) (l cause : Nat) : Bool :=
  let r := lane s l
  (cause == 1 && !(r.lockA && r.lockB)) || (cause == 2 && decide (8 ≤ (link s (linkOf s l)).again)) ||
    (cause == 3 && decide (4096 ≤ replaysNow s (linkOf s l))) || (cause == 4 && (decide (r.powA < -120) || decide (r.powB < -120)))

/-- An UP lane retrains; the link keeps its sequence state (R432, R433). DESIGN CHOICE (log 102): a wavelength that has kept its lock keeps it when the
other has lost it, and in the other cases both are locked anew. -/
def startRetrain (l cause : Nat) (s : State) : State :=
  let s' := updLane l (fun r =>
    { (if cause = 1 then r else unlocked r) with st := .training, retraining := true, retrains := satInc 255 r.retrains, retrainCause := cause }) s
  laneLeavesUp l s s'

/-- LANE_RETRAIN (R432): cause 1 lock lost, 2 replay limit, 3 replay rate, 4 power. -/
def execLaneRetrain (l : Lane) (cause : Nat) (s : State) : Host.Outcome State Fault Refusal :=
  .next (if laneUp s l && retrainDue s l cause then startRetrain l cause s else s)

/-- RETRAIN_COMPLETE (R433, R434, R456, R500): the lane is UP again with both wavelengths locked; its frame stream begins anew (DESIGN CHOICE, log 102), and
the sender replays from the last acknowledged frame. -/
def execRetrainComplete (l : Lane) (s : State) : Host.Outcome State Fault Refusal :=
  .next (
    if (lane s l).retraining then
      let k := linkOf s l
      let s' := updLane l (fun r => { r with st := .up, retraining := false, lockA := true, lockB := true, runA := (4, 0), runB := (4, 0)
                                             streamFrom := s.out.length, sentTill := 100 * s.time }) s
      let s' := putFrames k (link s' k).replay s'
      pumpLink k (checkSkew k (if carries s' l then sendReach l true (tellTray s s' k) else tellTray s s' k))
    else s)

/-- RETRAIN_TIMEOUT (R433, R435, R458, R499): DOWN after 20 ms; a link without lanes discards its replay buffer and what is queued for it. -/
def execRetrainTimeout (l : Lane) (s : State) : Host.Outcome State Fault Refusal :=
  .next (
    if (lane s l).retraining then
      let k := linkOf s l
      let s' := updLane l (fun r => { unlocked r with st := .down, retraining := false }) s
      let (n, s') := if linkDead s' k then dropLink k s' else (0, s')
      raiseDown l (let c := (lane s l).retrainCause; if c = 0 then 5 else c) 2 n s'
    else s)

/-! ### Frames -/

/-- Acknowledges up to `ack`: later frames stay held; a released frame ends the count of replays of the oldest (R432, R442). -/
def ackFrames (r : Link) (ack : Nat) : Link :=
  let i := r.replay.findIdx fun f => ctlField f 47 36 == ack
  if i < r.replay.length then { r with replay := r.replay.drop (i + 1), again := 0, answering := none } else r

/-- Replays every held frame, unchanged (R443, R451). -/
def replayLink (k : Nat) (s : State) : State :=
  let r := link s k
  if r.replay.isEmpty then s
  else
    let replayed := (s.time, r.replay.length) :: r.replayed.filter fun e => decide (s.time < e.1 + 1000000)
    putFrames k r.replay (setLink k { r with retries := r.retries + r.replay.length, again := r.again + 1, replayed } s)

/-- Nanoseconds that a link takes to send `n` frames over its UP lanes, at 10.56 ns each (R436, R454). -/
def framesTime (s : State) (k n : Nat) : Nat :=
  let ups := max 1 ((lanesOf k).filter (laneUp s)).length
  (((n + ups - 1) / ups) * 1056 + 99) / 100

/-- Flits that a frame brings for a VC, in slot order (R446). -/
def vcFlits (f : Frame) (v : Nat) : List (List Byte) :=
  ((slotVcs f).zipIdx.filter fun e => e.1 == v).map fun e => (f.flits.drop (32 * e.2)).take 32

/-- Takes the flits of an accepted frame into the VC buffers; xoff is set above its threshold (R446, R448). -/
def fillBuffers (k : Nat) (f : Frame) (r : Link) : Link :=
  (List.range 6).foldl (fun r v =>
    let q := tget r.ingress v [] ++ vcFlits f v
    { r with ingress := tset r.ingress v q []
             xoffOut := if xoffSet k < 32 * q.length then r.xoffOut ||| BitVec.ofNat 6 (2 ^ v) else r.xoffOut }) r

/-- A frame would overflow a VC buffer (R452). -/
def overflows (k : Nat) (f : Frame) (r : Link) : Bool :=
  (List.range 6).any fun v => decide (vcRoom k < 32 * ((tget r.ingress v []).length + (vcFlits f v).length))

/-- The control word's ack, nak and xoff at the sender: naks that repeat while a replay is on its way are ignored (R437, R443, R450). -/
def takeControl (k : Nat) (f : Frame) (s : State) : State :=
  let r := ackFrames { link s k with xoffIn := BitVec.ofNat 6 (ctlField f 19 14) } (ctlField f 35 24)
  let ack := ctlField f 35 24
  let answered := match r.answering with | some (a, till) => a == ack && decide (s.time < till) | none => false
  if f.ctl.getLsbD 23 && !answered then
    pumpLink k (replayLink k (setLink k { r with answering := some (ack, s.time + framesTime s k r.replay.length) } s))
  else pumpLink k (setLink k (if f.ctl.getLsbD 23 then r else { r with answering := none }) s)

/-- Accepts the frame that is next in sequence, unless its flits would overflow a VC buffer (R441, R446, R452). -/
def acceptFrame (k : Nat) (f : Frame) (s : State) : State :=
  let r := link s k
  if overflows k f r then setLink k { r with nak := true, overruns := r.overruns + 1 } s
  else setLink k (fillBuffers k f { r with rxLast := ctlField f 47 36, nak := false }) s

/-- A tray port takes out of its deskew buffer the frames whose turn has come (R455). -/
def drainDeskew (k : Nat) : Nat → State → State
  | 0, s => s
  | n + 1, s =>
    let r := link s k
    match r.deskew.find? fun e => ctlField e.1 47 36 == (r.rxLast + 1) % 4096 with
    | none => s
    | some e => drainDeskew k n (acceptFrame k e.1 (setLink k { r with deskew := r.deskew.erase e } s))

/-- A frame of a tray port that came before its turn: it waits in the deskew buffer (R455). -/
def early (k seq : Nat) (r : Link) : Bool := isTrayLink k && decide ((seq + 4095 - r.rxLast) % 4096 < replayRoom k)

/-- FRAME_RECEIVE (R437 to R455). -/
def execFrameReceive (l : Lane) (f : Frame) (s : State) : Host.Outcome State Fault Refusal :=
  .next (
    if !laneUp s l then s
    else
      let k := linkOf s l
      if !frameGood f then
        let r := link s k
        sendIdle k (setLink k { r with nak := true, badCrc := r.badCrc + 1 } s)
      else
        let s := takeControl k f s
        let kind := ctlField f 22 20
        let seq := ctlField f 47 36
        if kind = 0 ∨ kind = 3 then
          let r := link s k
          if seq = (r.rxLast + 1) % 4096 then sendIdle k (drainDeskew k r.deskew.length (acceptFrame k f s))
          else if early k seq r then
            (if r.deskew.any fun e => ctlField e.1 47 36 == seq then s
             else setLink k { r with deskew := r.deskew ++ [(f, s.time)] } s)
          else sendIdle k (setLink k { r with nak := true, drops := r.drops + 1 } s)
        else s)

/-- FRAME_REPLAY_TIMEOUT (R444): the oldest held frame has been unacknowledged for 4 µs. -/
def execFrameReplayTimeout (l : Lane) (s : State) : Host.Outcome State Fault Refusal :=
  .next (if laneUp s l then replayLink (linkOf s l) s else s)

/-! ### Host port -/

/-- HOST_PORT_DOWN (R459, R789): ERR_HOST_PORT_DOWN, and every connection ends. -/
def execHostPortDown (lanes : BitVec 8) (cause : Nat) (s : State) : Host.Outcome State Fault Refusal :=
  .next (
    if s.optics.hostUp then
      raise errHostPortDown uDevice 0 0 none32 (detail [(lanes.toNat, 1), (cause, 1)])
        (endConns { s with optics.hostUp := false })
    else s)

/-- HOST_PORT_UP (R461): the port is trained, in any state except LOOKOUT. -/
def execHostPortUp (s : State) : Host.Outcome State Fault Refusal :=
  .next (if s.dev.st = .lookout ∨ !s.pins.v48On then s else { s with optics.hostUp := true })

/-- Frame check sequence of a MAC frame, the CRC-32 of IEEE 802.3. -/
def macFcs (body : List Byte) : List Byte := leBytes 4 (crc32 body)

/-- A MAC frame with its FCS, padded to 64 B (Table 10-7). -/
def sealMac (body : List Byte) : List Byte := let b := body ++ List.replicate (60 - body.length) 0; b ++ macFcs b

/-- The MAC takes a frame: of 64 to 9,216 B, with a right FCS (Table 10-7). -/
def macGood (f : List Byte) : Bool :=
  decide (64 ≤ f.length) && decide (f.length ≤ 9216) && f.drop (f.length - 4) == macFcs (f.take (f.length - 4))

/-- A frame's type is MAC control, 0x8808, and its opcode PAUSE, 0x0001, or PFC, 0x0101 (PRESUMED of IEEE 802.3, log 102). -/
def isPause (f : List Byte) : Bool :=
  let x := (f.drop 12).take 4
  x == [0x88, 0x08, 0x00, 0x01] || x == [0x88, 0x08, 0x01, 0x01]

/-- ETHERNET_PAUSE_RECEIVE (Table 10-7): a PAUSE or PFC frame is discarded and counted; one that fails its checks is discarded by the MAC. -/
def execEthernetPauseReceive (frame : List Byte) (s : State) : Host.Outcome State Fault Refusal :=
  .next (
    if !s.optics.hostUp then s
    else if !macGood frame then { s with optics.badMac := s.optics.badMac + 1 }
    else if isPause frame then { s with optics.pauses := s.optics.pauses + 1 }
    else s)

/-- At step 7 of the start the lanes that the wiring map names are DOWN, the others DISABLED and dark (R422, R428). -/
def startLanes (s : State) : State :=
  match s.dev.ring with
  | none => s
  | some r =>
    r.wiring.foldl (fun s w => if w.lane < 144 ∧ !s.dev.qLost.getLsbD (laneQuad w.lane) then updLane w.lane (fun x => { x with st := .down }) s else s)
      { s with optics.lanes := [], optics.links := [] }

end Sys2Proof.Machine
end

