-- ==== Sys2Proof/Machine/LineCode.lean ====
section
/-! DEFINITION. Coding of a lane (R416 to R418): how the frames that leave by a lane stand on its two wavelengths as 16-byte units, 257-bit blocks,
codewords of 10-bit symbols and PAM4 levels, and how a receiver reads units back out of codewords. -/
namespace Sys2Proof.Machine

/-- A list in pieces of `n`, the last one perhaps shorter. -/
def pieces {α : Type} (n : Nat) : Nat → List α → List (List α)
  | 0, _ => []
  | _ + 1, [] => []
  | k + 1, x :: xs => (x :: xs).take n :: pieces n k ((x :: xs).drop n)

/-- The 528 bytes of a frame: sixteen flit slots, then the control word (R436). -/
def frameBytes (f : Frame) : List Byte := f.flits ++ leBytes 16 f.ctl.toNat

/-- A frame stream in 16-byte units (R417). -/
def unitsOf (fs : List Frame) : List (List Byte) := pieces 16 (33 * fs.length) (fs.flatMap frameBytes)

/-- The units of one wavelength: even ones on λA, odd ones on λB (R417). -/
def waveUnits (w : Wave) (us : List (List Byte)) : List (List Byte) :=
  (us.zipIdx.filter fun e => e.2 % 2 == (match w with | .a => 0 | .b => 1)).map (·.1)

/-- A block of 257 bits: the header bit, 0 in this version, then 32 bytes (R416); bit 0 leaves first (DESIGN CHOICE, log 65). -/
def blockBits (bytes : List Byte) : Nat := 2 * leNat bytes

/-- The 32 bytes of a block; the receiver ignores the header bit (R416). -/
def bytesOfBlock (b : Nat) : List Byte := leBytes 32 (b / 2)

/-- Data symbols of twenty blocks: 514 of ten bits each (R416). -/
def dataSymbols (blocks : List Nat) : List Nat :=
  let v := blocks.foldr (fun b a => b % 2 ^ 257 + 2 ^ 257 * a) 0
  (List.range 514).map fun i => v / 1024 ^ i % 1024

/-- The blocks that 514 data symbols hold. -/
def symbolBlocks (syms : List Nat) : List Nat :=
  let v := syms.foldr (fun x a => x % 1024 + 1024 * a) 0
  (List.range 20).map fun i => v / 2 ^ (257 * i) % 2 ^ 257

/-- A codeword of RS(544,514): the data symbols and thirty parity symbols (R416). The spec names the code and no generator, so the parity is a
free value (log 65). -/
def codeword (blocks : List Nat) : List Nat :=
  let d := dataSymbols blocks
  d ++ (List.range 30).map fun i => Config.rsParity d i % 1024

/-- A codeword that decodes: its parity belongs to its data (R420). -/
def decodes (c : List Nat) : Bool :=
  decide (c.length = 544) && c.drop 514 == (List.range 30).map fun i => Config.rsParity (c.take 514) i % 1024

/-- A received word lies within the fifteen symbol errors of codeword `c` that the code corrects (R416, R431). -/
def corrects (r c : List Nat) : Bool :=
  decodes c && decide (r.length = 544) && decide ((r.zip c).countP (fun e => e.1 != e.2) ≤ 15)

/-- PAM4 level of two bits, by Gray code (R416). -/
def pam4 : Nat → Nat
  | 0 => 0 | 1 => 1 | 3 => 2 | _ => 3

/-- The five levels of a symbol, its low bits first (DESIGN CHOICE, log 65). -/
def symbolLevels (x : Nat) : List Nat := (List.range 5).map fun i => pam4 (x / 4 ^ i % 4)

/-- Frames that have left by lane `l` since it entered INIT, frame 0 first: they follow back to back, idle and init frames among them (R418). -/
def laneFrames (s : State) (l : Nat) : List Frame :=
  (s.out.drop (lane s l).streamFrom).filterMap fun o => match o with
    | .frame k f => if k = l then some f else none
    | _ => none

/-- Blocks of one wavelength of a lane: two units to a block, in order (R417). -/
def waveBlocks (s : State) (l : Nat) (w : Wave) : List Nat :=
  let us := waveUnits w (unitsOf (laneFrames s l))
  ((pieces 2 us.length us).filter (·.length == 2)).map fun p => blockBits p.flatten

/-- The whole codewords that a wavelength of a lane has sent: twenty blocks each, the first beginning with frame 0 (R416, R418). -/
def waveCodewords (s : State) (l : Nat) (w : Wave) : List (List Nat) :=
  let bs := waveBlocks s l w
  ((pieces 20 bs.length bs).filter (·.length == 20)).map codeword

/-- The light of a wavelength as PAM4 levels. -/
def waveLevels (s : State) (l : Nat) (w : Wave) : List Nat := (waveCodewords s l w).flatMap fun c => c.flatMap symbolLevels

/-- What a receiver reads of a wavelength's codewords: their units in order. -/
def readUnits (cs : List (List Nat)) : List (List Byte) :=
  cs.flatMap fun c => (symbolBlocks (c.take 514)).flatMap fun b => [(bytesOfBlock b).take 16, (bytesOfBlock b).drop 16]

/-- The frame stream of both wavelengths' units: they alternate, λA first, and 33 make a frame (R417, R418). -/
def readFrames (as bs : List (List Byte)) : List Frame :=
  let us := (as.zip bs).flatMap fun e => [e.1, e.2]
  ((pieces 33 us.length us).filter (·.length == 33)).map fun p =>
    ⟨(p.take 32).flatten, BitVec.ofNat 128 (leNat ((p.drop 32).flatten))⟩

end Sys2Proof.Machine
end

