-- ==== Sys2Proof/Machine/Issue.lean ====
section
/-! DEFINITION. The tile sequencer (Chapter 02): tile programs and the plan copies that the loader reads them from, which instruction a unit takes
next, what its fetch finds, and its retirement; and the sync counters' table. -/
namespace Sys2Proof.Machine

/-! ### Sync counters. Key 256 t + c for tile counter c of tile t, 65,536 + d for device counter d. -/

def tileCtr (t c : Nat) : Nat := 256 * t + c
def deviceCtr (d : Nat) : Nat := 65536 + d
/-- Host counter h is device counter 4,080 + h (Table 12-1). -/
def hostCtr (h : Nat) : Nat := deviceCtr (4080 + h)
def ctr (s : State) (k : Nat) : Ctr := tget s.remote.ctrs k {}
def setCtr (k : Nat) (c : Ctr) (s : State) : State := { s with remote.ctrs := tset s.remote.ctrs k c {} }

/-! ### Programs. The instruction encoding is the Cruise ROM's (Chapter 02): DESIGN CHOICE (log 20), an instruction is the unit it goes to and
its bytes, and a plan copy lists each slot's instructions, each with its unit and length before its bytes. -/

/-- A slot's program as the plan copy holds it. -/
def codeInstr (i : TInstr) : List Byte := leBytes 1 i.unit ++ leBytes 2 i.code.length ++ i.code
def codeSlot (p : List TInstr) : List Byte := leBytes 4 p.length ++ p.flatMap codeInstr
def codeTile (ps : List (List TInstr)) : List Byte := ps.flatMap codeSlot

/-- `n` instructions read back, and the bytes after them. -/
def readInstrs : Nat → List Byte → List TInstr × List Byte
  | 0, bs => ([], bs)
  | n + 1, bs =>
    let len := field bs 1 2
    let r := readInstrs n (bs.drop (3 + len))
    (⟨field bs 0 1, slice bs 3 len⟩ :: r.1, r.2)

/-- The programs of `n` slots read back. -/
def readSlots : Nat → List Byte → List (List TInstr)
  | 0, _ => []
  | n + 1, bs =>
    let r := readInstrs (field bs 0 4) (bs.drop 4)
    r.1 :: readSlots n r.2

/-- First byte of the plan-copy area (Table 08-7). -/
def planArea : Nat := reserveBase

/-- Place of virtual tile `v`'s programs of a phase in the plan copies: offset and bytes. The copies run phase by phase, tile by tile. -/
def copyPlace (p : Plan) (phase v : Nat) : Nat × Nat :=
  let k := phase * p.tiles.length + v
  (sumNat (p.copyLens.take k), nth p.copyLens k 0)

/-- The programs of a tile in a phase, read from the plan copy in HBM (R70, R84). -/
def copiedProgram (s : State) (p : Plan) (phase v : Nat) : List (List TInstr) :=
  let e := copyPlace p phase v
  readSlots 8 (readBytes s.mem (planArea + e.1) e.2)

/-- Bytes of instruction memory that programs take. -/
def codeBytes (ps : List (List TInstr)) : Nat := sumNat (ps.map fun p => sumNat (p.map fun i => i.code.length))

/-- A tile's instruction memory when the programs of phase `phase` are to be there: those of every phase where they fit 256 KiB together, else
those of the phase (R70). -/
def memoryFor (s : State) (p : Plan) (phases phase v : Nat) : Table (List (List TInstr)) :=
  let all := (List.range phases).map fun i => (i, copiedProgram s p i v)
  if sumNat (all.map fun e => codeBytes e.2) ≤ 262144 then all else [(phase, copiedProgram s p phase v)]

/-- The program that slot `k` runs. -/
def program (r : TileRec) (k : Nat) : List TInstr := nth (tget r.imem r.phase []) k []

/-- A slot between instructions for the units: how many of the sequencer's own it has retired, the fetch outcomes still to come, how many fetches were
corrected, and whether one found an error that could not be. -/
structure Advance where
  v : Slot
  ecc : List Ecc
  retired : Nat := 0
  corrected : Nat := 0
  bad : Bool := false
  deriving DecidableEq, Repr

/-- A scalar instruction acts on the slot's program counter and registers as the ROM's encoding says (`Config.scalar`). -/
def runScalar (code : List Byte) (v : Slot) : Slot :=
  let out := Config.scalar code v.pc ((List.range 16).map fun k => tget v.regs k 0)
  { v with pc := out.1, regs := (out.2.take 16).zipIdx.foldl (fun m e => tset m e.2 e.1 0) [] }

/-- The sequencer goes on to the next instruction for a unit, each instruction of its own (unit 7) fetched with its outcome; past the last instruction
the slot is IDLE. `fuel` bounds the instructions. -/
def advance : Nat → List TInstr → Advance → Advance
  | 0, _, a => a
  | fuel + 1, p, a =>
    match p[a.v.pc]? with
    | none => { a with v := { a.v with st := .idle } }
    | some i =>
      if i.unit ≠ 7 then a
      else match a.ecc.headD .ok with
        | .uncorrectable => { a with ecc := a.ecc.tail, bad := true }
        | .corrected =>
          advance fuel p { a with v := runScalar i.code a.v, ecc := a.ecc.tail, retired := a.retired + 1, corrected := a.corrected + 1 }
        | .ok => advance fuel p { a with v := runScalar i.code a.v, ecc := a.ecc.tail, retired := a.retired + 1 }

/-- Slot `k` run up to its next instruction for a unit. -/
def ownSteps (r : TileRec) (k : Nat) (ecc : List Ecc) : Advance := advance 65536 (program r k) { v := slot r k, ecc }

/-- Where a running slot stands once its own instructions have run: they act on nothing but the slot, so it makes no difference when (R73). -/
def settled (r : TileRec) (k : Nat) : Slot :=
  if (slot r k).st = .running ∧ !(slot r k).released then (ownSteps r k []).v else slot r k

/-- The unit that the next instruction of slot `k` goes to. -/
def nextUnit (r : TileRec) (k : Nat) : Option Nat := ((program r k)[(settled r k).pc]?).map (·.unit)

/-- A slot at the start of its program: RUNNING, or IDLE where it has none (R68). -/
def startSlot (p : List TInstr) : Slot := if p.isEmpty then {} else { st := .running }

/-- The slots of a tile start the programs of the phase. -/
def startSlots (r : TileRec) : Table Slot :=
  (List.range 8).foldl (fun m k => tset m k (startSlot (program r k)) {}) []

/-! ### Units and their turns -/

/-- The bit of unit 0 array, 1 thin path or 2 vector unit (R85). -/
def unitBit (u : Nat) : BitVec 3 := BitVec.ofNat 3 (2 ^ u)

/-- Slot `k` is ready with an instruction for unit `u`. -/
def wants (r : TileRec) (u k : Nat) : Bool := (settled r k).st == .running && !(slot r k).released && nextUnit r k == some u

/-- The slot that unit `u` serves next: the first that wants it in ascending slot number after the one it served last (R72). -/
def nextSlot (r : TileRec) (u : Nat) : Option Nat :=
  ((List.range 8).map fun i => (tget r.lastUnit u 7 + 1 + i) % 8).find? (wants r u)

/-- The arrival counters of the phase's transfers have reached the count of the tile's records (R294). -/
def arrived (s : State) (t : Nat) : Bool := (tile s t).awaits.all fun e => decide (e.2 ≤ (ctr s (tileCtr t e.1)).value)

/-- The first operation of the phase has waited for its arrivals, and takes them from their counters (R294, R564). -/
def takeArrivals (t : Nat) (s : State) : State :=
  (tile s t).awaits.foldl (fun s e => setCtr (tileCtr t e.1) { ctr s (tileCtr t e.1) with value := (ctr s (tileCtr t e.1)).value - e.2 } s)
    (updTile t (fun r => { r with awaits := [] }) s)

/-- Slot `k` of tile `t` can issue to unit `u`: the tile is usable, its crown powered and awake, its vertical link not paused (what crosses it waits,
R385), the phase's transfers in, and it is the slot's turn (R71, R72, R294). -/
def canIssue (s : State) (t k u : Nat) : Bool :=
  !(decide (u ≤ 3) && (dlink s t).paused) && !isFA s && tileUsable s t && !s.heat.crownsOff && !(tile s t).crownGated && nextSlot (tile s t) u == some k && arrived s t

/-- Unit `u` takes an instruction of slot `k`: it wakes if it is clock-gated (R85), and round-robin goes on from the slot (R72). -/
def turn (u k : Nat) (r : TileRec) : TileRec := { r with gated := r.gated &&& ~~~ unitBit u, lastUnit := tput r.lastUnit u k }

/-- Slot `k` retires its instruction (R75). -/
def retired (k : Nat) (r : TileRec) : TileRec :=
  let v := slot r k
  { r with retired := (r.retired + 1) % 2 ^ 64, slots := tset r.slots k { v with pc := v.pc + 1, released := false } {} }

/-- Slot `k` retires its instruction for unit `u` (R71, R72, R75, R85). -/
def serve (u k : Nat) (r : TileRec) : TileRec := retired k (turn u k r)

/-- Retirement of an instruction for unit `u`, noted for the device watchdog (R75, R571). -/
def retire (u t k : Nat) (s : State) : State :=
  updTile t (serve u k) { s with job.progressAt := s.time }

/-! ### Faults of slots and of crown storage -/

/-- Halts a slot (R76). -/
def haltSlot (t k : Nat) (s : State) : State := updTile t (fun r => setSlot k { slot r k with st := .halted } r) s

/-- A corrected error in crown storage is counted in the ledger and changes nothing else (R82). -/
def crownCorrected (t : Nat) (s : State) : State :=
  updSummary (crownDie t) (fun d => { d with corrected := satInc (2 ^ 64 - 1) d.corrected }) s

/-- An uncorrectable error in crown storage is handled as one in activations (R83, F5 of Table 14-4): the step's work is computed again. Table 08-8
has no fields for crown storage: DESIGN CHOICE (log 23), its record names the tile, with no offset, no tensor and requester 0xFF. -/
def crownUncorrectable (t : Nat) (s : State) : State :=
  let s := updSummary (crownDie t) (fun d => { d with uncorrected := satInc (2 ^ 64 - 1) d.uncorrected }) s
  let s := raise errSramUncorr uTile t t none32 (detail [(none32, 4), (none32, 4), (0, 2), (0xFF, 1)]) s
  let s := ledgerEvent (crownDie t) 1 (tget s.heat.crowns t {}).band 0 (newest s) s
  stopF5 errSramUncorr s

/-- The loader rewrites a tile's programs from the plan copy (R69, R84). -/
def reloadTile (t : Nat) (s : State) : State :=
  match s.job.plan with
  | none => s
  | some p =>
    let phases := match s.job.image with | some im => im.phases.length | none => 0
    let v := p.tiles.findIdx (· == t)
    if v < p.tiles.length then updTile t (fun r => { r with imem := memoryFor s p phases r.phase v }) s else s

/-- An uncorrectable error in a fetch halts the slot, the loader restores the tile's program, and the work is computed again (R84). -/
def fetchFailed (t k : Nat) (s : State) : State := reloadTile t (crownUncorrectable t (haltSlot t k s))

/-- What an instruction fetch finds (R82, R84); without an uncorrectable error `f` goes on. -/
def fetched (t k : Nat) (e : Ecc) (f : State → State) (s : State) : State :=
  match e with
  | .ok => f s
  | .corrected => f (crownCorrected t s)
  | .uncorrectable => fetchFailed t k s

/-- `n` corrected fetches. -/
def correctedTimes (t : Nat) : Nat → State → State
  | 0, s => s
  | n + 1, s => correctedTimes t n (crownCorrected t s)

/-- Slot `k` runs the sequencer's own instructions before its next one for a unit, which count as progress (R75); where all its fetches succeed `f` goes
on with the outcomes left. -/
def ownInstrs (t k : Nat) (ecc : List Ecc) (f : List Ecc → State → State) (s : State) : State :=
  let a := ownSteps (tile s t) k ecc
  let s := if a.retired = 0 then s else { s with job.progressAt := s.time }
  let s := correctedTimes t a.corrected (updTile t (fun r => { r with slots := tset r.slots k a.v {}, retired := (r.retired + a.retired) % 2 ^ 64 }) s)
  if a.bad then fetchFailed t k s else f a.ecc s

/-- A slot whose program has no instruction left for a unit runs to its end (R68). -/
def finish (t k : Nat) (ecc : List Ecc) (s : State) : State :=
  if (slot (tile s t) k).st = .running ∧ (settled (tile s t) k).st = .idle then ownInstrs t k ecc (fun _ s => s) s else s

/-- A slot whose wait is satisfied retires it and goes on (R74, R87). -/
def resume (t k : Nat) (s : State) : State :=
  if (slot (tile s t) k).released then finish t k [] (updTile t (retired k) { s with job.progressAt := s.time }) else s

/-- An instruction for unit `u` that the unit accepts when `ok` holds: the sequencer's own instructions before it, its fetch, then `f`. -/
def issued (i : Issue) (u : Nat) (ok : Bool) (f : State → State) (s : State) : State :=
  if canIssue s i.tile i.slot u && ok then
    ownInstrs i.tile i.slot i.fetch (fun ecc s => fetched i.tile i.slot (ecc.headD .ok) (fun s => finish i.tile i.slot ecc.tail (f s)) s)
      (takeArrivals i.tile s)
  else s

end Sys2Proof.Machine
end

