-- ==== Sys2Proof/Machine/Remote.lean ====
section
/-! DEFINITION. Remote memory and synchronisation (Chapter 12): sync counters, requests at their target, responses at their source, copies,
retransmission, dead targets and the watchdog. -/
namespace Sys2Proof.Machine

/-! ### Sync counters -/

/-- Address of a counter's slot (Table 12-1). -/
def ctrAddr (k : Nat) : Nat :=
  if k < 65536 then syncBase + k / 256 * 0x1000 + k % 256 * 0x10 else syncBase + 0x100000 + (k - 65536) * 0x10

/-- Tile that holds a counter (Table 12-1). -/
def ctrTile (k : Nat) : Nat := if k < 65536 then k / 256 else counterTile (k - 65536)

/-- Counter at a signal-space address, if one is mapped there (R520, R522). -/
def ctrAt (s : State) (a : Nat) : Option Nat :=
  if a < syncBase ∨ syncBase + 0x100000 + 4096 * 0x10 ≤ a then none
  else if a < syncBase + 0x100000 then
    let t := (a - syncBase) / 0x1000
    if tileMapped s t then some (tileCtr t ((a - syncBase) % 0x1000 / 0x10)) else none
  else some (deviceCtr ((a - syncBase - 0x100000) / 0x10))

/-- A counter slot's 16 bytes (R521). -/
def ctrBytes (c : Ctr) : List Byte :=
  leBytes 4 c.value ++ leBytes 1 (if c.isFlag then 1 else 0) ++ leBytes 1 (min 255 c.waiters.length) ++ List.replicate 10 0

/-- Largest value of a counter (R564). -/
abbrev ctrMax : Nat := 2 ^ 31 - 1

/-! ### Requests at the source -/

/-- Device set check at egress in native mode (R557). -/
def egressOk (s : State) (p : Packet) : Bool :=
  !nativeMode s || s.remote.deviceSet.contains p.dst || (p.job == 0xFFFF && keeperPeer s p.dst) || p.dst == ownEndpoint s

/-- Room for `n` requests of a tile to a destination (R526, R527). -/
def roomFor (s : State) (t : Nat) (dst : BitVec 16) (n : Nat) : Bool :=
  decide ((s.remote.pend.countP fun e => e.key.tile.val == t) + n ≤ 1024) && decide ((s.remote.pend.countP fun e => e.key.dst == dst) + n ≤ 1024)
abbrev hasRoom (s : State) (t : Nat) (dst : BitVec 16) : Bool := roomFor s t dst 1

/-- Endpoint of a destination: a module slot goes through the rank map (R519). -/
def destOf (s : State) : Dest → BitVec 16
  | .slot n => nth s.job.rankMap n 0xFFFF
  | .endpoint e => e

/-- A slot that detects a fault in its own request halts (R76). -/
def haltIssuer (t : Nat) (by' : Option Nat) (s : State) : State :=
  match by' with
  | some k => haltSlot t k s
  | none => s

/-- Issues a request of a slot or, for none, of the copy engine: injected, and kept among the tile's outstanding requests (R526, R528, R557); one that
cannot leave halts its slot (R76). -/
def issue (t : Tile) (by' : Option Nat) (p : Packet) (ret : Nat) (counter : Option Nat) (tray : Bool) (s : State) : State :=
  let p := { p with srcTile := BitVec.ofNat 8 t.val }
  if !egressOk s p then
    stopA3 errProtection (haltIssuer t by'
      (raise errProtection uTile t p.dst.toNat t (detail [(p.opcode.toNat, 1), (0, 1), (0xFF, 1), (0, 1), (p.addr.toNat, 6)]) s))
  else match injectPacket p tray none s with
    | (none, s) => haltIssuer t by' s
    | (some q, s) =>
      { s with remote.pend := s.remote.pend ++ [⟨⟨t, q.dst, q.seq⟩, q, ret, counter, by', s.time, s.time, 0, [q.plane.toNat], false⟩] }

/-- A request packet to `dst`. -/
def reqPacket (dst : BitVec 16) (op addr aux : Nat) (payload : List Byte) (poison : Bool) : Packet :=
  let body := padFlits payload
  { emptyPacket with dst, addr := BitVec.ofNat 48 addr, opcode := BitVec.ofNat 8 op, aux := BitVec.ofNat 32 aux, payload := body,
                     len := BitVec.ofNat 8 (body.length / 32), poison }

/-! ### Copies -/

/-- A copy's packet with the tag of its traffic (R556). -/
def tagged (c : CopyReq) (p : Packet) : Packet := if c.keeper then { p with job := 0xFFFF } else p

/-- STORE_FLAG of no data bytes that signals an arrival counter by 1 (R545). -/
def arrivalFlag (s : State) (c : CopyReq) : Packet :=
  tagged c <| reqPacket (destOf s c.dst) 3 c.dstAddr 1 (leBytes 6 (ctrAddr c.counter) ++ List.replicate 26 0) false

/-- `n` bytes of a copy's source from an offset on, and whether poison is among them: of memory, or the bytes that a heartwood copy carries. -/
def copyBytes (s : State) (j : CopyJob) (off n : Nat) : List Byte :=
  match j.data with | some bs => slice bs off n | none => readBytes s.mem (j.req.src + off) n
def copyPoison (s : State) (j : CopyJob) (off n : Nat) : Bool := j.data.isNone && poisoned s.mem (j.req.src + off) n

/-- Requests that a copy still has to send, as (bytes covered, packet): its STOREs in ascending address with a flag after each 64 KiB on the
progress option, the digest, then the arrival flag (R545, R547). -/
def copyNext (s : State) (j : CopyJob) : List (Nat × Packet) :=
  let c := j.req
  let sent := j.sent
  if sent < c.length then
    let n := min 256 (c.length - sent)
    let st := tagged c <| reqPacket (destOf s c.dst) 2 (c.dstAddr + sent) n (copyBytes s j sent n) (copyPoison s j sent n)
    if c.progress && (sent + n) % 65536 == 0 then [(n, st), (0, arrivalFlag s c)] else [(n, st)]
  else if sent = c.length then
    (if c.digest then [(0, tagged c <| reqPacket (destOf s c.dst) 2 c.digestAddr 32 (sha256 (copyBytes s j 0 c.length))
        (copyPoison s j 0 c.length))] else []) ++
      [(1, arrivalFlag s c)]
  else []

/-- Sends what a copy may send now; `fuel` bounds the packets of one command. -/
def sendCopy : Nat → CopyJob → State → CopyJob × State
  | 0, j, s => (j, s)
  | k + 1, j, s =>
    match copyNext s j with
    | [] => (j, s)
    | ps =>
      if h : j.tile < 256 then
        if roomFor s j.tile (destOf s j.req.dst) ps.length then
          let s := ps.foldl (fun s e => issue ⟨j.tile, h⟩ none e.2 0 none j.req.tray s) s
          sendCopy k { j with sent := j.sent + sumNat (ps.map (·.1)) } s
        else (j, s)
      else (j, s)

/-- Puts `b` in the place of the first `a`. -/
def putFirst (a b : CopyJob) : List CopyJob → List CopyJob
  | [] => []
  | x :: xs => if x = a then b :: xs else x :: putFirst a b xs

/-- The copy that a tile's engine works on: it takes one at a time, in the order in which they came (R71). -/
def engineCopy (s : State) (t : Nat) : Option CopyJob := s.remote.copies.find? fun j => j.tile == t

/-- Copy engines go on while their tiles' tables have room (R526), each with one copy at a time. -/
def pumpCopies (s : State) : State :=
  s.remote.copies.foldl (fun s j =>
    if j.waitOn.isNone && engineCopy s j.tile == some j then
      let (j', s) := sendCopy 2048 j s
      { s with remote.copies := if j'.req.length < j'.sent then s.remote.copies.erase j else putFirst j j' s.remote.copies }
    else s) s

/-! ### Signals and waits -/

/-- Releases waiters in order while the first one's threshold is met (R567): the counter after, and those released. -/
def releaseWaiters : List (Nat × Nat × Nat × Nat × Nat) → Nat → List (Nat × Nat × Nat × Nat × Nat) × Nat × List (Nat × Nat × Nat × Nat × Nat)
  | [], v => ([], v, [])
  | w :: ws, v =>
    let th := w.2.2.2.1
    if th ≤ v then
      let (rest, v', out) := releaseWaiters ws (v - th)
      (rest, v', w :: out)
    else (w :: ws, v, [])

/-- A released waiter goes on: a slot runs (R567), once its crown is awake (R87), a copy engine sends its copy (R316), an await HOST_SIGNAL may pass (R241),
a rotation of the rank position has its block (R318). -/
def wakeWaiter (k : Nat) (w : Nat × Nat × Nat × Nat × Nat) (s : State) : State :=
  if w.1 = 0 then
    if (slot (tile s w.2.1) w.2.2.1).st = .waiting then
      let s := updTile w.2.1 (fun r => setSlot w.2.2.1 { slot r w.2.2.1 with st := .running, released := true } r) s
      if (tile s w.2.1).crownGated then s else resume w.2.1 w.2.2.1 s
    else s
  else if w.1 = 1 then
    pumpCopies { s with remote.copies := s.remote.copies.map fun c => if c.tile == w.2.1 && c.waitOn == some k then { c with waitOn := none } else c }
  else if w.1 = 3 then
    { s with job.rotations := s.job.rotations.map fun x => if x.pos == w.2.2.1 && x.asked.contains k then { x with got := sinsert x.got k } else x }
  else { s with job.awaitDone := sinsert s.job.awaitDone w.2.2.1 }

/-- Failure code of a signal (R564), or 0. -/
def signalFault (c : Ctr) (n : Nat) : Nat :=
  if c.isFlag then (if 2 ≤ c.value + n then errSyncDoubleSet else 0) else if ctrMax < c.value + n then errSyncOverflow else 0

/-- The watch of a counter, if a signal from `old` to `new` reaches its threshold: its connection (R575). -/
def watchHit (s : State) (k old new : Nat) : Option Nat :=
  (s.remote.watches.find? fun w => hostCtr w.1 == k && decide (old < w.2.2) && decide (w.2.2 ≤ new)).map (·.2.1)

/-- A signal that does not fail: the value rises, a watch is notified, waiters are released in order (R564, R565, R567). -/
def doSignal (k n ep t : Nat) (s : State) : State :=
  let c := ctr s k
  let v := c.value + n
  let s := match watchHit s k c.value v with
    | some conn => notifyConn conn 1 v [] s
    | none => s
  let (ws, v', out) := releaseWaiters c.waiters v
  let s := setCtr k { c with value := v', waiters := ws, lastEp := BitVec.ofNat 16 ep, lastTile := t } s
  out.foldl (fun s w => wakeWaiter k w s) s

/-- Record of a failed signal (Table 12-7). -/
def raiseSignal (code k n ep t op : Nat) (s : State) : State :=
  let c := ctr s k
  if code = errSyncDoubleSet then
    let w := match c.waiters with | w :: _ => w.2.1 | [] => 0xFFFF
    raise code uTile (ctrTile k) (ctrAddr k % 2 ^ 32) w (detail [(ep, 2), (t, 1), (op, 1), (n, 4)]) s
  else raise code uTile (ctrTile k) (ctrAddr k % 2 ^ 32) ep (detail [(c.value, 4), (n, 4), (t, 1), (op, 1)]) s

/-- Signals a counter for the job; a failing signal leaves it unchanged and stops the job on the module (R570). -/
def signalCtr (k n ep t op : Nat) (s : State) : State :=
  let code := signalFault (ctr s k) n
  if code = 0 then doSignal k n ep t s else stopA3 code (raiseSignal code k n ep t op s)

/-- Waiter field of a fault record: the tile in bits 15–8, the slot or engine in bits 7–0. -/
def waiterField (t k : Nat) : Nat := t * 256 + k

/-- Threshold ranges of a wait (Table 12-6), and the range of its timeout in µs, 0 for the job's default (R74, R568). -/
def waitOk (c : Ctr) (th : Nat) : Bool := decide (1 ≤ th) && decide (th ≤ ctrMax) && (!c.isFlag || th == 1)
def timeoutOk (timeout : Nat) : Bool := decide (timeout ≤ 1000000)

/-- A wait (R564 to R568): released at once when no one waits before it and the value meets its threshold. -/
def doWait (k : Nat) (w : Nat × Nat × Nat × Nat × Nat) (s : State) : Bool × State :=
  let c := ctr s k
  let th := w.2.2.2.1
  if c.waiters.isEmpty ∧ th ≤ c.value then (true, setCtr k { c with value := c.value - th } s)
  else (false, setCtr k { c with waiters := c.waiters ++ [w] } s)

/-- SEQ_WAIT (R74, R75, R564, R568): the slot goes on, or waits and retires the instruction when it is released. -/
def execSeqWait (i : Issue) (c th timeout : Nat) (s : State) : Host.Outcome State Fault Refusal :=
  .next (issued i 6 (decide (c < 256) && waitOk (ctr s (tileCtr i.tile c)) th && timeoutOk timeout) (fun s =>
    let (now, s) := doWait (tileCtr i.tile c) (0, i.tile, i.slot, th, if timeout = 0 then s.job.waitTimeout else timeout) s
    if now then retire 6 i.tile i.slot s
    else updTile i.tile (fun r => setSlot i.slot { slot r i.slot with st := .waiting, waitCtr := tileCtr i.tile c } (turn 6 i.slot r)) s) s)

/-- SEQ_TAKE (R75, R564): the value falls at once, or ERR_SYNC_UNDERFLOW halts the slot. -/
def execSeqTake (i : Issue) (c n : Nat) (s : State) : Host.Outcome State Fault Refusal :=
  .next (issued i 6 (decide (c < 256) && decide (1 ≤ n) && decide (n ≤ ctrMax)) (fun s =>
    let key := tileCtr i.tile c
    let v := ctr s key
    if n ≤ v.value then retire 6 i.tile i.slot (setCtr key { v with value := v.value - n } s)
    else
      stopA3 errSyncUnderflow (haltSlot i.tile i.slot
        (raise errSyncUnderflow uTile i.tile (ctrAddr key % 2 ^ 32) (waiterField i.tile i.slot) (detail [(v.value, 4), (n, 4)]) s))) s)

/-- WAIT_TIMEOUT (R74, R568 to R570): the waiter at `place` of the counter's waiters was not released in time. -/
def execWaitTimeout (k place : Nat) (s : State) : Host.Outcome State Fault Refusal :=
  .next (
    let c := ctr s k
    match c.waiters[place]? with
    | none => s
    | some w =>
      let s := setCtr k { c with waiters := c.waiters.eraseIdx place } s
      let s := raise errWaitTimeout uTile w.2.1 (ctrAddr k % 2 ^ 32) (if w.1 = 2 then w.2.1 else waiterField w.2.1 w.2.2.1)
        (detail [(c.value, 4), (w.2.2.2.1, 4), (c.lastEp.toNat, 2), (c.lastTile, 1)]) s
      let s := if w.1 = 0 then haltSlot w.2.1 w.2.2.1 s
        else if w.1 = 1 then { s with remote.copies := s.remote.copies.filter fun j => !(j.tile == w.2.1 && j.waitOn == some k) }
        else s
      stopA3 errWaitTimeout s)

/-! ### Requests at the target -/

def win (s : State) (x : BitVec 16) : Win := tget s.remote.wins x.toNat {}
def setWin (x : BitVec 16) (w : Win) (s : State) : State := { s with remote.wins := tset s.remote.wins x.toNat w {} }

/-- Where a seq lies in a source's window (R530 to R534). -/
inductive SeqPlace where
  | fresh | duplicate | beyond
  deriving DecidableEq, Repr

/-- Numbers run modulo 2^32 (R497): one of the half circle behind the base lies below it (DESIGN CHOICE, log 103). -/
def placeOf (w : Win) (q : Nat) : SeqPlace :=
  let d := (q + 2 ^ 32 - w.base % 2 ^ 32) % 2 ^ 32
  if 2 ^ 31 ≤ d ∨ w.done.contains q then .duplicate else if 1024 ≤ d then .beyond else .fresh

/-- The base advances past every performed seq (R531). -/
def slideWin : Nat → Win → Win
  | 0, w => w
  | k + 1, w =>
    if w.done.contains w.base then slideWin k { base := (w.base + 1) % 2 ^ 32, done := w.done.filter (· != w.base) } else w

/-- Marks a seq performed (R531). -/
def markDone (x : BitVec 16) (q : Nat) (s : State) : State :=
  let w := win s x
  setWin x (slideWin 1024 { w with done := sinsert w.done q }) s

/-- Sends the response of a request (R524): with the request's seq, to the requesting tile. -/
def respond (p : Packet) (op aux : Nat) (payload : List Byte) (s : State) : State :=
  let body := padFlits payload
  let q := { emptyPacket with
    dst := p.src, src := ownEndpoint s, addr := BitVec.ofNat 48 (sramAddr p.srcTile.toNat 0), srcTile := BitVec.ofNat 8 (addrTile p.addr.toNat)
    seq := p.seq, job := p.job, opcode := BitVec.ofNat 8 op, len := BitVec.ofNat 8 (body.length / 32), aux := BitVec.ofNat 32 aux
    payload := body, flags := if s.fabric.epoch then 1 else 0 }
  if p.src = ownEndpoint s then emit (.packet (sealPacket q)) s
  else if p.plane = 0xFE then emit (.packet (sealPacket { q with plane := 0xFE })) s
  else match choosePlane s p.src [] with
    | some x => emit (.packet (sealPacket { q with plane := BitVec.ofNat 8 x })) { s with fabric.planePtr := (s.fabric.planePtr + 1) % 128 }
    | none => unreachable q s

/-- ERROR carrying a fault code. -/
def respondError (p : Packet) (code : Nat) (s : State) : State := respond p 0x45 code [] s

/-- Bytes that a request covers (R561). -/
def requestBytes (p : Packet) : Nat :=
  match p.opcode.toNat with
  | 1 => p.aux.toNat
  | 2 => p.aux.toNat
  | 3 => field p.payload 6 2
  | 4 => if p.aux.getLsbD 4 then 8 else 4
  | 5 => 16
  | _ => field p.payload 6 8

/-- Permission bit of an opcode (Table 12-5). -/
def permBit : Nat → Nat
  | 1 => 0 | 2 => 1 | 3 => 1 | 4 => 2 | 5 => 3 | _ => 4

/-- Local address of a request: as it stands in native mode, through its window in Hyard window mode (R560, R561); none fails the check. -/
def requestAddr (s : State) (p : Packet) : Option Nat :=
  if nativeMode s then some p.addr.toNat
  else
    let e := tget s.remote.windows (p.addr.toNat / 2 ^ 42) ⟨0, 0, 0, 0⟩
    let off := p.addr.toNat % 2 ^ 42
    if e.job = p.job ∧ e.perm.getLsbD (permBit p.opcode.toNat) ∧ off + requestBytes p ≤ e.length then some (e.base + off) else none

/-- Why a request may not touch an address, or 0 (R373, R411, R525). -/
def placeFault (s : State) (p : Packet) (a : Nat) : Nat :=
  let op := p.opcode.toNat
  if addrLost s a then errQuadrantLost
  else match regionOf s a with
    | .unmapped => errAddrUnmapped
    | .control => errAddrUnmapped
    | .sync =>
      if (ctrAt s a).isNone then errAddrUnmapped
      else if op = 2 ∨ op = 3 ∨ op = 4 then errRemoteKind
      else 0
    | .keeper => if op ≠ 5 ∧ (keptNow s).contains p.src then 0 else errAddrUnmapped
    | .reserve => if op ≠ 5 ∧ keeperPeer s p.src ∧ p.job = 0xFFFF then 0 else errAddrUnmapped
    | .jobHbm => if op = 5 then errAddrUnmapped else 0
    | .sram _ _ => if op = 5 then errAddrUnmapped else 0

/-- Addresses of a range that meet every hole of the address map in it: its first and last, one in each 4 MiB, the size of the smallest hole outside the
signal space, and one in each 4 KiB of that (Table 12-1). -/
def probes (a n : Nat) : List Nat :=
  a :: (a + (n - 1)) :: ((List.range ((n - 1) / 0x400000)).map fun i => a + 0x400000 * (i + 1)) ++
    (((List.range 0x110).map fun i => syncBase + 0x1000 * i).filter fun b => decide (a ≤ b) && decide (b < a + n))

/-- Why a request is not performed at an address, or 0: every byte that it covers, and the counter of a STORE_FLAG, must be within its reach. -/
def addrFault (s : State) (p : Packet) (a : Nat) : Nat :=
  let range := ((probes a (requestBytes p)).find? fun b => placeFault s p b != 0).map (placeFault s p)
  match range with
  | some code => code
  | none => if p.opcode = 3 ∧ (ctrAt s (field p.payload 0 6)).isNone then errAddrUnmapped else 0

/-- An ATOMIC that is not aligned or has no operation (R525, Table 12-3). -/
def atomicBad (p : Packet) (a : Nat) : Bool :=
  p.opcode == 4 && (decide (9 < p.aux.toNat % 16) || a % (if p.aux.getLsbD 4 then 8 else 4) != 0)

/-- Refuses a request at an address (R373, R411, R525). -/
def refuseAddr (p : Packet) (a code : Nat) (s : State) : State :=
  let s := if code = errAddrUnmapped then
      raise errAddrUnmapped uDevice 0 p.src.toNat none32 (detail [(a, 6), (p.opcode.toNat, 1)]) s
    else s
  respondError p code s

/-- The open combining group on a line (R542). -/
def groupOn (s : State) (line : Nat) : Option Group := s.remote.groups.find? fun g => g.line == line

/-- The first open combining group on a line that `n` bytes from `a` touch. -/
def groupAcross (s : State) (a n : Nat) : Option Group :=
  s.remote.groups.find? fun g => decide (a / 64 ≤ g.line) && decide (g.line ≤ (a + (n - 1)) / 64)

/-- A request waits behind the open group of its line, once (R532, R542). -/
def waitBehind (line : Nat) (p : Packet) (s : State) : State :=
  { s with remote.groups := s.remote.groups.map fun g =>
      if g.line == line && !(g.waiting.any fun q => q.src == p.src && q.seq == p.seq) then { g with waiting := g.waiting ++ [p] } else g }

/-- A request runs unless an open group on one of its lines holds it back (R542). -/
def behindGroup (p : Packet) (a n : Nat) (f : State → State) (s : State) : State :=
  match groupAcross s a n with
  | some g => waitBehind g.line p s
  | none => f s

/-- A byte of the local address space as a read sees it: the journal ring and the fault dumps of the reserve stand in their own fields (Table 08-7). -/
def localByte (s : State) (a : Nat) : Byte :=
  if journalBase ≤ a ∧ a < journalBase + areaBytes then ((recordBytes s.mem s.recov.journal journalBase 1024 (a - journalBase) 1)[0]?).getD 0
  else if dumpBase ≤ a ∧ a < dumpBase + areaBytes then ((recordBytes s.mem s.recov.dumps dumpBase dumpSize (a - dumpBase) 1)[0]?).getD 0
  else readByte s.mem a

/-- Reads `n` bytes for a LOAD: counter slots in signal space, memory elsewhere (R525). -/
def loadBytes (s : State) (a n : Nat) : List Byte :=
  (List.range n).map fun i =>
    match ctrAt s (a + i) with
    | some k => nth (ctrBytes (ctr s k)) ((a + i) % 16) 0
    | none => localByte s (a + i)

/-- Answers a LOAD (R340, R531, R532); `ecc` names the bytes from `a` on at which its reads find errors (R337, R338, R356, R357). -/
def answerLoad (p : Packet) (a : Nat) (ecc : List (Nat × Ecc)) (s : State) : State :=
  let n := p.aux.toNat
  let s := rangeFinds a n 1 p.srcTile.toNat ecc s
  respond p 0x41 (if poisoned s.mem a n then 1 else 0) (loadBytes s a n) (touchHbm a n false s)

/-- The version of a gathered shard has landed (R669, R670): a step that is not the last update's, or another version in the same step. -/
def checkVersion (a : Nat) (p : Packet) (s : State) : State :=
  match s.job.plan with
  | none => s
  | some pl => match Config.versionTensor pl.digest a with
    | none => s
    | some tid =>
      if p.aux.toNat = 16 then
        let v := field p.payload 0 8
        let d := field p.payload 8 8
        let want := s.job.lastUpdate.toNat
        let old := s.remote.versions.find? fun e => e.1 == tid
        let bad := v != want || (match old with | some e => e.2.1 != v || e.2.2 != BitVec.ofNat 64 d | none => false)
        if bad then
          stopA2 errStaleGather (raise errStaleGather uDevice 0 tid (slotOf s p.src) (detail [(want, 4), (v, 4), (d, 4)]) s)
        else { s with remote.versions := (tid, v, BitVec.ofNat 64 d) :: s.remote.versions.filter fun e => e.1 != tid }
      else s

/-- Writes a packet's data, its poison with it (R335, R340). -/
def storeData (a n : Nat) (bs : List Byte) (poison : Bool) (s : State) : State :=
  touchHbm a n true { s with mem := writePoison s.mem a (bs.take n) (if poison then List.range n else []) }

/-- Performs a STORE (R531). -/
def performStore (p : Packet) (a : Nat) (s : State) : State :=
  let s := storeData a p.aux.toNat p.payload p.poison s
  let s := markDone p.src p.seq.toNat s
  checkVersion a p (respond p 0x42 0 [] s)

/-- A request that fails its window check is counted, recorded against its source and answered with ERROR (R561, Table 12-7). -/
def refuseWindow (p : Packet) (s : State) : State :=
  respondError p errProtection
    (raise errProtection uTile (addrTile (p.addr.toNat % 2 ^ 42) % 256) p.src.toNat p.srcTile.toNat
      (detail [(p.opcode.toNat, 1), (1, 1), (p.addr.toNat / 2 ^ 42, 1), (0, 1), (p.addr.toNat, 6)])
      { s with remote.windowDrops := s.remote.windowDrops + 1 })

/-- A request touches what the loss of a quadrant took away (R411). -/
def reachesLost (s : State) (p : Packet) (a : Nat) : Bool := (probes a (requestBytes p)).any (addrLost s)

/-- What a request command does first (R411, R525, R530 to R534, R560, R561): performs, repeats, refuses or drops. `fresh` performs it at its
local address, `again` answers a duplicate. -/
def takeRequest (op : Nat) (p : Packet) (fresh again : Nat → State → State) (s : State) : State :=
  if p.opcode.toNat ≠ op ∨ s.dev.st = .lookout then s
  else match requestAddr s p with
    | none => refuseWindow p s
    | some a =>
      match placeOf (win s p.src) p.seq.toNat with
      | .beyond => { s with remote.beyondDrops := s.remote.beyondDrops + 1 }
      | .duplicate => if reachesLost s p a then respondError p errQuadrantLost s else again a s
      | .fresh =>
        let code := addrFault s p a
        if code ≠ 0 then refuseAddr p a code s
        else if atomicBad p a then respondError p errRemoteKind s
        else fresh a s

/-- LOAD (R524 to R534). -/
def execLoad (p : Packet) (ecc : List (Nat × Ecc)) (s : State) : Host.Outcome State Fault Refusal :=
  .next (takeRequest 1 p
    (fun a s => behindGroup p a (requestBytes p) (fun s => answerLoad p a ecc (markDone p.src p.seq.toNat s)) s)
    (fun a s => answerLoad p a ecc s) s)

/-- STORE (R531, R541 to R543). -/
def execStore (p : Packet) (s : State) : Host.Outcome State Fault Refusal :=
  .next (takeRequest 2 p
    (fun a s => behindGroup p a (requestBytes p) (performStore p a) s)
    (fun _ s => respond p 0x42 0 [] s) s)

/-- STORE_FLAG (R536 to R538): held until every earlier request of its source is performed; with 256 held, BUSY. -/
def execStoreFlag (p : Packet) (s : State) : Host.Outcome State Fault Refusal :=
  .next (takeRequest 3 p
    (fun _ s =>
      if s.remote.heldFlags.any fun h => h.src == p.src && h.pkt.seq == p.seq then s
      else if 256 ≤ s.remote.heldFlags.length then respond p 0x44 0 [] s
      else { s with remote.heldFlags := s.remote.heldFlags ++ [⟨p.src, p⟩] })
    (fun _ s => respond p 0x42 0 [] s) s)

/-- STORE_FLAG_PERFORM (R411, R536, R542): the flag whose turn has come writes its data, then signals its counter; an open group on its line holds it. -/
def execStoreFlagPerform (src : BitVec 16) (s : State) : Host.Outcome State Fault Refusal :=
  .next (
    match s.remote.heldFlags.find? fun h => h.src == src && h.pkt.seq.toNat == (win s src).base with
    | none => s
    | some h =>
      let p := h.pkt
      let n := requestBytes p
      let a := (requestAddr s p).getD p.addr.toNat
      if n ≠ 0 ∧ (groupAcross s a n).isSome then s
      else if reachesLost s p a then
        respondError p errQuadrantLost { s with remote.heldFlags := s.remote.heldFlags.erase h }
      else
        let s := { s with remote.heldFlags := s.remote.heldFlags.erase h }
        let s := if n = 0 then s else storeData a n (p.payload.drop 32) p.poison s
        let s := respond p 0x42 0 [] (markDone src p.seq.toNat s)
        match ctrAt s (field p.payload 0 6) with
        | some k => signalCtr k p.aux.toNat src.toNat p.srcTile.toNat 3 s
        | none => s)

/-! ### Atomics -/

/-- New value of an atomic operation on a word of `w` bits (Table 12-3). -/
def atomicNew (op w old x cmp : Nat) : Nat :=
  let so := (BitVec.ofNat w old).toInt
  let sx := (BitVec.ofNat w x).toInt
  match op with
  | 0 => (old + x) % 2 ^ w
  | 1 => if sx < so then x else old
  | 2 => if so < sx then x else old
  | 3 => min old x
  | 4 => max old x
  | 5 => old &&& x
  | 6 => old ||| x
  | 7 => old ^^^ x
  | 8 => x
  | _ => if old = cmp then x else old

/-- Applies one ATOMIC of a group, answers it and keeps its result (R533, R540, R542); where a quadrant's loss took its word, it is refused (R411). -/
def applyAtomic (p : Packet) (s : State) : State :=
  let a := (requestAddr s p).getD p.addr.toNat
  if reachesLost s p a then respondError p errQuadrantLost s
  else
  let w := if p.aux.getLsbD 4 then 8 else 4
  let old := leNat (readBytes s.mem a w)
  let new := atomicNew (p.aux.toNat % 16) (8 * w) old (field p.payload 0 w) (field p.payload 8 w)
  let bad := poisoned s.mem a w
  let s := { s with
    mem := writePoison s.mem a (leBytes w new) (if bad then List.range w else [])
    remote.results := s.remote.results ++ [(p.src, p.seq, BitVec.ofNat 64 old, bad)] }
  let s := touchHbm a w true (touchHbm a w false s)
  respond p 0x43 (if bad then 1 else 0) (leBytes 8 old) (markDone p.src p.seq.toNat s)

/-- Result-cache entries in use, those of open groups included (R533). -/
def resultsUsed (s : State) : Nat :=
  s.remote.results.length + sumNat (s.remote.groups.map fun g => g.ops.length + g.waiting.countP fun q => q.opcode == 4)

/-- ATOMIC (R533, R540 to R544): joins or opens the combining group of its line. -/
def execAtomic (p : Packet) (s : State) : Host.Outcome State Fault Refusal :=
  .next (takeRequest 4 p
    (fun a s =>
      if 16384 ≤ resultsUsed s then respond p 0x44 0 [] s
      else match groupOn s (a / 64) with
        | none => { s with remote.groups := s.remote.groups ++ [⟨a / 64, [p], []⟩] }
        | some g =>
          if g.ops.any (fun q => q.src == p.src && q.seq == p.seq) then s
          else if g.ops.length < 64 && g.waiting.isEmpty then
            { s with remote.groups := s.remote.groups.map fun h => if h.line == g.line then { h with ops := h.ops ++ [p] } else h }
          else waitBehind (a / 64) p s)
    (fun _ s => match s.remote.results.find? fun e => e.1 == p.src && e.2.1 == p.seq with
      | some e => respond p 0x43 (if e.2.2.2 then 1 else 0) (leBytes 8 e.2.2.1.toNat) s
      | none => s) s)

/-- Errors named by local address, as byte offsets from `a`. -/
def eccFrom (a : Nat) (ecc : List (Nat × Ecc)) : List (Nat × Ecc) := (ecc.filter fun e => decide (a ≤ e.1)).map fun e => (e.1 - a, e.2)

/-- A request that waited behind a group is performed, unless a group on another of its lines holds it (R541, R542). -/
def performWaiting (p : Packet) (ecc : List (Nat × Ecc)) (s : State) : State :=
  let a := (requestAddr s p).getD p.addr.toNat
  if reachesLost s p a then respondError p errQuadrantLost s
  else if p.opcode = 1 then behindGroup p a (requestBytes p) (fun s => answerLoad p a (eccFrom a ecc) (markDone p.src p.seq.toNat s)) s
  else if p.opcode = 2 then behindGroup p a (requestBytes p) (performStore p a) s
  else if p.opcode = 4 then applyAtomic p s
  else s

/-- ATOMIC_GROUP_CLOSE (R542): one read-modify-write in arrival order, then what waited behind it. `ecc` names the local addresses at which the group's
read of its line, and then the waiting LOADs, find errors (R337, R338, R356, R357). -/
def execAtomicGroupClose (line : Nat) (ecc : List (Nat × Ecc)) (s : State) : Host.Outcome State Fault Refusal :=
  .next (
    match groupOn s line with
    | none => s
    | some g =>
      let s := { s with remote.groups := s.remote.groups.filter fun h => h.line != line }
      let s := rangeFinds (64 * line) 64 1 (match g.ops with | p :: _ => p.srcTile.toNat | [] => 0) (eccFrom (64 * line) ecc) s
      let s := g.ops.foldl (fun s p => applyAtomic p s) s
      let rest := ecc.filter fun e => e.1 / 64 != line
      retryParked 7 (g.waiting.foldl (fun s p => performWaiting p rest s) s))

/-- ATOMIC_RESULT_EXPIRE (R533): the result's 64 µs have passed. -/
def execAtomicResultExpire (src : BitVec 16) (seq : Word) (s : State) : Host.Outcome State Fault Refusal :=
  .next { s with remote.results := s.remote.results.filter fun e => !(e.1 == src && e.2.1 == seq) }

/-- SIGNAL (R539): performed on arrival. -/
def execSignal (p : Packet) (s : State) : Host.Outcome State Fault Refusal :=
  .next (takeRequest 5 p
    (fun a s => match ctrAt s a with
      | some k => signalCtr k p.aux.toNat p.src.toNat p.srcTile.toNat 5 (respond p 0x42 0 [] (markDone p.src p.seq.toNat s))
      | none => s)
    (fun _ s => respond p 0x42 0 [] s) s)

/-! ### Signals of a slot -/

/-- SEQ_SIGNAL (R75, R564, R570): a slot signals a counter of its own tile, or one of another tile or module by a SIGNAL request (Table 12-6). -/
def execSeqSignal (i : Issue) (d : Dest) (t : Tile) (c n : Nat) (s : State) : Host.Outcome State Fault Refusal :=
  .next (
    let here := destOf s d == ownEndpoint s && t == i.tile
    issued i 6 (decide (c < 256) && decide (1 ≤ n) && decide (n ≤ ctrMax) && (here || hasRoom s i.tile (destOf s d))) (fun s =>
      let key := tileCtr t c
      if here then
        let code := signalFault (ctr s key) n
        if code = 0 then doSignal key n (ownEndpoint s).toNat t (retire 6 i.tile i.slot s)
        else stopA3 code (haltSlot i.tile i.slot (raiseSignal code key n (ownEndpoint s).toNat t 5 s))
      else
        let u := issue i.tile (some i.slot) (reqPacket (destOf s d) 5 (ctrAddr key) n [] false) 0 none false s
        if (slot (tile u i.tile) i.slot).st = .running then retire 6 i.tile i.slot u else u) s)

/-- COPY_ENGINE_COPY (R71, R545, R547, R477 to R481): the tile's copy engine takes the copy when it is free. -/
def execCopyEngineCopy (i : Issue) (c : CopyReq) (ecc : List (Nat × Ecc)) (s : State) : Host.Outcome State Fault Refusal :=
  .next (issued i 4 (decide (1 ≤ c.length) && decide (c.length ≤ 4 * gib) && (engineCopy s i.tile).isNone) (fun s =>
    let s := retire 4 i.tile i.slot s
    let s := { s with remote.copies := s.remote.copies ++ [{ tile := i.tile, req := c, sent := 0, waitOn := none }] }
    pumpCopies (rangeFinds c.src c.length 2 i.tile ecc s)) s)

/-- COPY_PULL (R78, R545, R546): the target's copy engine copies 1 B to 4 GiB from its memory to the requester; ACK when accepted. A length outside
that range is no copy: DESIGN CHOICE (log 45), it is answered with ERR_REMOTE_KIND. -/
def execCopyPull (p : Packet) (ecc : List (Nat × Ecc)) (s : State) : Host.Outcome State Fault Refusal :=
  .next (takeRequest 6 p
    (fun a s =>
      let opts := field p.payload 15 1
      let length := field p.payload 6 8
      let c : CopyReq := { src := a, dst := .endpoint p.src, dstAddr := field p.payload 0 6, length
                           counter := tileCtr p.srcTile.toNat (field p.payload 14 1), progress := opts % 2 == 1,
                           digest := opts / 2 % 2 == 1, digestAddr := Config.digestSlot p.aux.toNat, tray := p.plane == 0xFE
                           keeper := p.job == 0xFFFF }
      if length = 0 ∨ 4 * gib < length then respondError p errRemoteKind (markDone p.src p.seq.toNat s)
      else
        let s := respond p 0x42 0 [] (markDone p.src p.seq.toNat s)
        let s := { s with remote.copies := s.remote.copies ++ [{ tile := addrTile a % 256, req := c, sent := 0, waitOn := none }] }
        pumpCopies (rangeFinds a length 2 p.srcTile.toNat ecc s))
    (fun _ s => respond p 0x42 0 [] s) s)

/-- Where a member reads the block that it uses at a rotation step: its own block in place at step 0, else receive slot (step - 1) mod R (R315). -/
def blockPlace (r : RingRec) (step : Nat) : Nat := if step = 0 then r.own else nth r.places ((step - 1) % r.slots) 0

/-- The copy that passes the block of a rotation step to the next member, where the member uses it one step later (R311, R315, R316). -/
def teeCopy (r : RingRec) (step : Nat) : CopyReq :=
  let slot := step % r.slots
  { src := blockPlace r step, dst := .slot (nth r.members ((r.index + r.members.length - 1) % r.members.length) 0), dstAddr := nth r.nextPlaces slot 0
    length := r.bytes, counter := tileCtr r.nextTile (nth r.arrival slot 0), progress := true, digest := false, digestAddr := 0, tray := r.oneTray
    keeper := false }

/-- TEE_FORWARD (R311, R315, R316, R323): the block of a rotation step goes on to the next member, unless that member owns it, which is so at the
last step; a forward into a receive slot that has held a block before, in this rotation or one before it, waits on the next member's release counter for
it. -/
def execTeeForward (ring step : Nat) (ecc : List (Nat × Ecc)) (s : State) : Host.Outcome State Fault Refusal :=
  .next (
    match s.job.plan.bind fun p => p.rings[ring]? with
    | none => s
    | some r =>
      if r.members.length ≤ step + 1 ∨ s.dev.st ≠ .running then s
      else
        let k := tileCtr r.tile (nth r.release (step % r.slots) 0)
        let (now, s) := if s.remote.filled.contains k then doWait k (1, r.tile, 0, 1, s.job.waitTimeout) s
          else (true, { s with remote.filled := s.remote.filled ++ [k] })
        let s := { s with remote.copies := s.remote.copies ++ [{ tile := r.tile, req := teeCopy r step, sent := 0, waitOn := if now then none else some k }] }
        pumpCopies (rangeFinds (teeCopy r step).src r.bytes 2 r.tile ecc s))

/-- The outstanding request that a response answers: by requesting tile, responder and seq (R524, R526). -/
def pendOf (s : State) (p : Packet) : Option Pend :=
  s.remote.pend.find? fun e => e.key.tile.val == addrTile p.addr.toNat && e.key.dst == p.src && e.key.seq == p.seq

def pendAt (s : State) (k : ReqKey) : Option Pend := s.remote.pend.find? fun e => e.key == k

/-- Frees an entry and signals its completion counter by 1 (R528, R550). -/
def complete (e : Pend) (s : State) : State :=
  let s := { s with remote.pend := s.remote.pend.filter fun x => x.key != e.key }
  let s := match e.counter with
    | some k => signalCtr k 1 (ownEndpoint s).toNat e.key.tile 5 s
    | none => s
  pumpCopies s

/-- Takes a response, or counts it when its request has been completed (R551). -/
def takeResponse (op : Nat) (p : Packet) (f : Pend → State → State) (s : State) : State :=
  if p.opcode.toNat ≠ op then s
  else match pendOf s p with
    | none => { s with remote.lateDrops := s.remote.lateDrops + 1 }
    | some e => f e s

/-- LOAD_DATA (R528, R340): lands data, with its poison, at the return address. -/
def execLoadData (p : Packet) (s : State) : Host.Outcome State Fault Refusal :=
  .next (takeResponse 0x41 p (fun e s => complete e (storeData e.ret e.pkt.aux.toNat p.payload (p.aux.getLsbD 0) s)) s)

/-- ACK (R528). -/
def execAck (p : Packet) (s : State) : Host.Outcome State Fault Refusal :=
  .next (takeResponse 0x42 p complete s)

/-- ATOMIC_DATA (R528): lands the old value. -/
def execAtomicData (p : Packet) (s : State) : Host.Outcome State Fault Refusal :=
  .next (takeResponse 0x43 p (fun e s => complete e (storeData e.ret (if e.pkt.aux.getLsbD 4 then 8 else 4) p.payload (p.aux.getLsbD 0) s)) s)

/-- BUSY (R535): the request waits to be sent again. -/
def execBusy (p : Packet) (s : State) : Host.Outcome State Fault Refusal :=
  .next (takeResponse 0x44 p (fun e s =>
    { s with remote.pend := s.remote.pend.map fun x => if x.key == e.key then { x with busy := true } else x }) s)

/-- Sends a request's packet again on a plane, noting it. -/
def sendAgain (e : Pend) (plane : Nat) (retry : Bool) (s : State) : State :=
  let q := { e.pkt with plane := BitVec.ofNat 8 plane, flags := if retry then e.pkt.flags ||| 0x40 else e.pkt.flags }
  let e' := { e with pkt := q, busy := false, sent := s.time, tries := if retry then e.tries + 1 else e.tries, planes := e.planes ++ [plane] }
  emit (.packet q) { s with remote.pend := s.remote.pend.map fun x => if x.key == e.key then e' else x }

/-- BUSY_RESEND (R535): the same seq, on any plane. -/
def execBusyResend (k : ReqKey) (s : State) : Host.Outcome State Fault Refusal :=
  .next (
    match pendAt s k with
    | none => s
    | some e =>
      if !e.busy then s
      else if e.pkt.plane = 0xFF ∨ e.pkt.plane = 0xFE then sendAgain e e.pkt.plane.toNat false s
      else match choosePlane s k.dst [] with
        | some x => sendAgain e x false s
        | none => unreachable e.pkt s)

/-- What a dead target leaves at the return address: 0x7FFF_DEAD in every word, poisoned (R550). -/
def landDead (e : Pend) (s : State) : State :=
  let n := if e.pkt.opcode = 1 then e.pkt.aux.toNat else if e.pkt.opcode = 4 then (if e.pkt.aux.getLsbD 4 then 8 else 4) else 0
  if n = 0 then s else storeData e.ret n ((List.range ((n + 3) / 4)).flatMap fun _ => leBytes 4 0x7FFFDEAD) (e.pkt.opcode == 1) s

/-- ERR_REMOTE_DEAD against a destination: reported to recovery, which substitutes its slot (R550, R552). -/
def targetDead (e : Pend) (s : State) : State :=
  let s := raise errRemoteDead uTile e.key.tile e.key.dst.toNat e.key.tile
    (detail [(e.pkt.opcode.toNat, 1), (e.tries + 1, 1), (s.job.tDead, 4), (e.pkt.addr.toNat, 6)]) s
  let s := declareFault 3 errRemoteDead (slotOf s e.key.dst) false false s
  complete e (landDead e s)

/-- ERROR (R553, R554): the slot that issued the request halts, or the tile's copy engine (R76). -/
def execError (p : Packet) (s : State) : Host.Outcome State Fault Refusal :=
  .next (takeResponse 0x45 p (fun e s =>
    let code := p.aux.toNat % 65536
    if code = errQuadrantLost then targetDead e s
    else
      let det := if code = errProtection then detail [(e.pkt.opcode.toNat, 1), (1, 1), (e.pkt.addr.toNat / 2 ^ 42, 1), (0, 1), (e.pkt.addr.toNat, 6)]
        else if code = errRemoteKind then detail [(e.pkt.opcode.toNat, 1), (e.pkt.aux.toNat % 32, 1), (e.pkt.addr.toNat, 6)]
        else detail [(e.pkt.addr.toNat, 6), (e.pkt.opcode.toNat, 1)]
      let s := { s with remote.pend := s.remote.pend.filter fun x => x.key != e.key }
      let s := match e.slot with
        | some k => haltSlot e.key.tile k s
        | none => { s with remote.copies := s.remote.copies.filter fun j => j.tile != e.key.tile.val }
      let (obj, peer) := if code = errAddrUnmapped then ((ownEndpoint s).toNat, none32) else (e.key.dst.toNat, e.key.tile.val)
      stopA3 code (raise code uTile e.key.tile obj peer det s)) s)

/-- RETRANSMIT (R548): 10 µs after the last transmission without a response; at most 3, none at or after T_dead, each to another module on a tree
plane not yet used. -/
def execRetransmit (k : ReqKey) (s : State) : Host.Outcome State Fault Refusal :=
  .next (
    match pendAt s k with
    | none => s
    | some e =>
      if e.tries < 3 ∧ !e.busy ∧ e.sent + 10000 ≤ s.time ∧ s.time < e.first + 1000 * s.job.tDead then
        if e.pkt.plane = 0xFF ∨ e.pkt.plane = 0xFE then sendAgain e e.pkt.plane.toNat true s
        else match choosePlane s k.dst e.planes with
          | some x => sendAgain e x true s
          | none => s
      else s)

/-- T_DEAD_EXPIRE (R549, R550): T_dead from the first transmission has passed. -/
def execTDeadExpire (k : ReqKey) (s : State) : Host.Outcome State Fault Refusal :=
  .next (
    match pendAt s k with
    | some e => if e.first + 1000 * s.job.tDead ≤ s.time then targetDead e s else s
    | none => s)

/-! ### Watchdog -/

def slotSt : SlotSt → Nat
  | .idle => 0 | .running => 1 | .waiting => 2 | .halted => 3

/-- A slot in a fault dump (R573): state, program counter, the counter that it waits on, scalar registers. -/
def dumpSlot (v : Slot) : List Byte :=
  leBytes 1 (slotSt v.st) ++ leBytes 4 v.pc ++ leBytes 4 v.waitCtr ++ (List.range 16).flatMap fun i => leBytes 4 (tget v.regs i 0).toNat

/-- A fault dump (R573): every slot of every tile in order, then the value and kind of every tile and device counter. -/
def faultDump (s : State) : List Byte :=
  ((List.range 256).flatMap fun t => (List.range 8).flatMap fun k => dumpSlot (slot (tile s t) k)) ++
  (List.range (65536 + 4096)).flatMap fun k => leBytes 4 (ctr s k).value ++ leBytes 1 (if (ctr s k).isFlag then 1 else 0)

def countSlots (s : State) (st : SlotSt) : Nat := sumNat (s.tiles.map fun e => e.2.slots.countP fun k => k.2.st == st)

/-- DEVICE_WATCHDOG (R75, R571 to R573): 10 s in RUNNING without progress of any slot, not while an input or recovery is awaited. -/
def execDeviceWatchdog (s : State) : Host.Outcome State Fault Refusal :=
  .next (
    if s.dev.st = .running ∧ s.job.waitingInput = [] ∧ !s.recov.held ∧ s.recov.rollbackTo = none ∧ s.job.progressAt + 10000000000 ≤ s.time then
      let off := s.recov.dumpNext * 0x4000000
      let s := { s with recov.dumps := tput s.recov.dumps s.recov.dumpNext (faultDump s), recov.dumpNext := (s.recov.dumpNext + 1) % 4 }
      stopA3 errWatchdog (raise errWatchdog uDevice 0 (ownSlot s) none32
        (detail [(off, 4), (countSlots s .waiting, 2), (countSlots s .running, 2)]) s)
    else s)

/-- Counters, held requests and windows of a job are cleared (R577, R578): every counter 0, of kind count, no waiter released. -/
def clearRemote (s : State) : State :=
  { s with remote := { s.remote with ctrs := [], pend := [], copies := [], wins := [], results := [], heldFlags := [], groups := [], seqNext := [], versions := [], filled := [] } }

end Sys2Proof.Machine
end

