-- ==== Sys2Proof/Machine/Start.lean ====
section
/-! DEFINITION. Start, rings and identity (Chapter 15), with the supplies, clocks and resets that begin a start (Chapters 16 and 18). -/
namespace Sys2Proof.Machine

/-! ### Control block and start log -/

/-- A use of the Stump (R834): after a STUMP_RST_N pulse the SFDP table is read in 1S-1S-1S mode at 25 MHz, and 8D-8D-8D mode is entered at the
highest clock that it states, up to 200 MHz. -/
def useStump (s : State) : State :=
  if s.stump.clock = 0 then { s with stump.clock := min 200 s.stump.part } else s

/-- The control block in force. -/
def Stump.control (u : Stump) : ControlBlock :=
  ⟨u.sequence, u.stateA, u.failsA, u.stateB, u.failsB, u.controlFloor, u.startCount⟩

/-- Writes a new control block (R686): its sequence rises, and it goes into the copy that does not hold the block in force. -/
def writeControl (f : Stump → Stump) (s : State) : State :=
  let u := s.stump
  useStump { s with stump := { f u with sequence := u.sequence + 1, inCopy1 := !u.inCopy1, otherCopy := some u.control } }

/-- A slot's state, failure count and ring; slot B is `true`. -/
def slotState (u : Stump) (b : Bool) : SlotState := if b then u.stateB else u.stateA
def slotFails (u : Stump) (b : Bool) : Nat := if b then u.failsB else u.failsA
def slotRing (u : Stump) (b : Bool) : Option Ring := if b then u.slotB else u.slotA
def putSlotState (b : Bool) (v : SlotState) (u : Stump) : Stump := if b then { u with stateB := v } else { u with stateA := v }
def putSlotFails (b : Bool) (n : Nat) (u : Stump) : Stump := if b then { u with failsB := n } else { u with failsA := n }
def putSlotRing (b : Bool) (r : Ring) (u : Stump) : Stump := if b then { u with slotB := some r } else { u with slotA := some r }
def slotNo (b : Bool) : Nat := if b then 1 else 0

/-- Appends this start's entry to the start log, a ring of 14,336 entries (R687, Table 15-4): it is interrupted until something else is known. -/
def appendLog (s : State) : State :=
  { s with stump.log := lastOf 14336 (s.stump.log ++ [⟨s.stump.startCount, false, 0, 3, 0⟩]) }

/-- Changes the last entry of the start log. -/
def updLog (f : StartLog → StartLog) (s : State) : State :=
  match s.stump.log.getLast? with
  | some e => { s with stump.log := s.stump.log.dropLast ++ [f e] }
  | none => s

/-- A start that VAUX, AUX_RST_N or MOD_RST_N ends before step 10 is interrupted in the start log, one in a hold too; a trial that has failed stays so
(R697). -/
def noteInterrupted (s : State) : State :=
  if s.dev.st = .starting ∧ 4 ≤ s.dev.startStep ∧ s.dev.startStep < 10 ∧ s.dev.restartDue = false then updLog (fun e => { e with outcome := 3 }) s else s

/-- The start's outcome with its slot, generation and first fault code (R687). -/
def logOutcome (outcome : Nat) (s : State) : State :=
  updLog (fun e => { e with slotB := s.dev.ringSlotB, outcome, code := s.dev.startFault,
                            generation := match s.dev.ring with | some r => r.generation | none => 0 }) s

/-! ### Verification and choice of a ring -/

/-- A Bark region whose two copies have both failed (R683), by offset div 128 KiB. -/
def regionLost (s : State) (i : Nat) : Bool := let r := tget s.bark.regions i {}; !r.copy0 && !r.copy1

/-- Floor of a valid floor record, else 0; the effective floor (R700). -/
def recordFloor (s : State) : Nat :=
  match s.stump.floorRec with
  | some f => if f.formOk && f.rsaOk && f.slhOk then f.floor else 0
  | none => 0
def effectiveFloor (s : State) : Nat := max s.stump.controlFloor (recordFloor s)

/-- A POLICY field is 0 or in its range (R690). -/
def inRange (lo hi v : Nat) : Bool := v == 0 || (decide (lo ≤ v) && decide (v ≤ hi))

/-- POLICY ranges (Table 15-8). -/
def policyOk (p : Policy) : Bool :=
  inRange 1 2 p.protectionMode && inRange 1 2 p.unsignedImages && inRange 1 3 p.haulerRegisters && inRange 1 2 p.haulerQuotes &&
  inRange 1 2 p.treeRemap && inRange 1 128 p.minTreeLanes && inRange 1 4 p.minTrayPorts && inRange 1 144 p.minRelayLanes &&
  inRange 1 256 p.minTiles && inRange 60000 86400000 p.holdLimit && inRange 10 100000 p.tFlume && inRange 100 100000 p.tChunk &&
  inRange 60000 604800000 p.repairLimit

/-- Why a ring is rejected, by Table 15-9: a format check with its failing offset, the signatures that fail, or the floor. -/
inductive RingFail where
  | format (offset check : Nat) | signature (rsa slh : Bool) | floor
  deriving DecidableEq, Repr

/-- Verification of a ring against an effective floor (R691), in the order of Table 15-9. -/
def verifyRing (s : State) (r : Ring) (eff : Nat) : Option RingFail :=
  if !r.formOk || r.major != 1 || decide (31 * 2 ^ 20 < r.imageLength) then some (.format (Config.ringOffset r.generation 1) 1)
  else if !r.digestOk then some (.format 48 2)
  else if regionLost s 4 || decide (s.bark.ownerKeys.length ≤ r.keyIndex) then some (.signature true true)
  else if !r.rsaOk || !r.slhOk then some (.signature (!r.rsaOk) (!r.slhOk))
  else if r.generation < eff then some .floor
  else if !policyOk r.policy then some (.format (Config.ringOffset r.generation 5) 5)
  else none

/-- Generation of the active ring, 0 without one. -/
def activeGeneration (s : State) : Nat :=
  let u := s.stump
  match (if u.stateA == .active then u.slotA else if u.stateB == .active then u.slotB else none) with
  | some r => r.generation
  | none => 0

/-- Records why the ring of slot `slotNo` (0xFF for none) is rejected (Table 15-14). -/
def raiseRing (slotNo : Nat) (r : Ring) (f : RingFail) (s : State) : State :=
  match f with
  | .format off check => raise errRingFormat uWarden 0 slotNo none32 (detail [(r.generation, 4), (off, 4), (check, 4)]) s
  | .signature rsa slh =>
    raise errRingSignature uWarden 0 slotNo none32 (detail [(r.keyIndex, 2), ((if rsa then 1 else 0) + (if slh then 2 else 0), 1)]) s
  | .floor =>
    raise errRingFloor uWarden 0 slotNo none32 (detail [(r.generation, 4), (effectiveFloor s, 4), (activeGeneration s, 4)]) s

def ringFailCode : RingFail → Nat
  | .format _ _ => errRingFormat
  | .signature _ _ => errRingSignature
  | .floor => errRingFloor

/-- choose_ring (R692): the places still to be tried, in order. -/
def chooseRing (eff : Nat) : List (SlotState × Bool) → State → Option (Bool × Ring × Bool) × State
  | [], s => (none, s)
  | (wanted, b) :: rest, s =>
    if slotState s.stump b == wanted then
      match slotRing s.stump b with
      | some r =>
        match verifyRing s r eff with
        | none => (some (b, r, wanted == .staged), s)
        | some f => chooseRing eff rest (writeControl (putSlotState b .failed) (raiseRing (slotNo b) r f s))
      | none => chooseRing eff rest (writeControl (putSlotState b .failed) s)
    else chooseRing eff rest s

/-- The order of choose_ring. -/
def ringOrder : List (SlotState × Bool) :=
  [(.staged, false), (.staged, true), (.active, false), (.active, true), (.previous, false), (.previous, true)]

/-! ### Holds -/

/-- A hold (R698): the device stays in STARTING, and writes ERR_START_HOLD once per cause. -/
def hold (cause found required : Nat) (s : State) : State :=
  let s := logOutcome 2 { s with dev.holdCause := cause }
  if s.dev.holdsWritten.contains cause then s
  else
    let since := s.dev.holdSince.getD s.time
    raise errStartHold uWarden 0 cause none32 (detail [(found, 4), (required, 4), ((s.time - since) / 1000000000, 4)])
      { s with dev.holdSince := some since, dev.holdsWritten := s.dev.holdsWritten ++ [cause] }

/-- Step 5 (R692): the ring is chosen, or the start holds. -/
def chooseStep (s : State) : State :=
  let eff := effectiveFloor s
  match chooseRing eff ringOrder s with
  | (some (b, r, trial), s) =>
    let s := { s with dev.ring := some r, dev.role := some r.role, dev.ringSlotB := b, dev.trial := trial, dev.holdCause := 0, dev.startStep := 5 }
    updLog (fun e => { e with slotB := b, generation := r.generation }) s
  | (none, s) =>
    let s := if s.dev.holdsWritten.contains 6 then s
      else raise errRingNone uWarden 0 none32 none32
        (detail [(slotCode s.stump.stateA, 1), (slotCode s.stump.stateB, 1), (0, 2), (eff, 4), (s.stump.startCount, 4)]) s
    hold 6 0 0 s

/-! ### The start -/

/-- ERR_IDENTITY (R717). -/
def raiseIdentity (cause : Nat) (s : State) : State :=
  raise errIdentity uWarden 0 none32 none32 (detail [(cause, 1)]) { s with dev.identityOk := false }

/-- ERR_BARK for a region both copies of which have failed (R683). -/
def raiseRegion (i : Nat) (s : State) : State := raise errBark uWarden 0 i none32 (detail [(1, 1)]) s

/-- Step 4: each region is read; a lost one acts as Table 15-3 states (R682, R683). -/
def readBark (s : State) : State :=
  let lost := (List.range 12).filter (regionLost s)
  lost.foldl (fun s i =>
    if i = 1 then raiseIdentity 1 s
    else if i = 2 then raiseIdentity 2 s
    else if i = 3 then raiseIdentity 3 s
    else if i = 4 then s
    else
      let s := raiseRegion i s
      if i = 8 then { s with bark.phases := [] } else if i = 11 then { s with bark.retire := [] } else s) s

/-- Steps 3 to 5 of Table 15-1 (R677, R678): the device enters STARTING, begins the start, reads the Bark and chooses a ring. -/
def beginStart (s : State) : State :=
  let s := enter .starting s
  let s := { s with dev.startFault := 0, dev.restartDue := false, dev.holdCause := 0, dev.holdsWritten := [], dev.holdSince := none }
  let s := appendLog (writeControl (fun u => { u with startCount := (u.startCount + 1) % 2 ^ 32 }) s)
  chooseStep (readBark { s with dev.startStep := 4 })

/-- A low pulse on STUMP_RST_N (R835): the next use of the Stump reads its SFDP table anew. -/
def pulseStump (s : State) : State := emit .stumpReset { s with stump.clock := 0 }

/-- Step 1 (R677, R715, R717, R835): the Stump reset is pulsed, the PUF is read and the key-encryption key derived, unless it is still held from
an earlier step 1 since VAUX came on. -/
def firstStep (holdN modRstN puf unwrap : Bool) (s : State) : State :=
  let s := pulseStump s
  let kek := s.dev.kek || puf
  let s := { s with pins.holdN := holdN, pins.modRstN := modRstN, dev.startStep := 1, dev.kek := kek, dev.identityOk := kek && unwrap }
  if !kek then raiseIdentity 1 s else if !unwrap then raiseIdentity 2 s else s

/-- VAUX_ON (R677, R824, R831, R835): LOOKOUT, and step 1 unless AUX_RST_N is low. -/
def execVauxOn (holdN modRstN puf unwrap : Bool) (s : State) : Host.Outcome State Fault Refusal :=
  .next (
    let s := resetAll { s with pins.vaux := true }
    let s := { s with pins.holdN := holdN, pins.modRstN := modRstN, dev.kek := false }
    if s.pins.auxRstN then firstStep holdN modRstN puf unwrap s else pulseStump s)

/-- VAUX_LOSS (R697, R715, R831): the lookout domain resets and the key-encryption key is lost. -/
def execVauxLoss (s : State) : Host.Outcome State Fault Refusal :=
  .next (
    let s := resetAll { noteInterrupted s with pins.vaux := false }
    { s with dev.kek := false, jtag := {} })

/-- AUX_RST_N_ASSERT (R32, R697, R824). -/
def execAuxRstNAssert (s : State) : Host.Outcome State Fault Refusal :=
  .next (if s.pins.vaux then resetAll { noteInterrupted s with pins.auxRstN := false } else { s with pins.auxRstN := false })

/-- AUX_RST_N_RELEASE (R824, R828, R835): the module behaves as at VAUX on. -/
def execAuxRstNRelease (holdN modRstN puf unwrap : Bool) (s : State) : Host.Outcome State Fault Refusal :=
  .next (
    let low := !s.pins.auxRstN
    let s := { s with pins.auxRstN := true }
    if s.pins.vaux && low then firstStep holdN modRstN puf unwrap s else s)

/-- The lookout runs and no reset of the whole module is asserted. -/
def lookoutUp (s : State) : Bool := s.pins.vaux && s.pins.auxRstN

/-- The V48 domain is reset and the device waits in STARTING (R408, R825). -/
def fallToStarting (s : State) : State := enter .starting (resetV48 s)

/-- MOD_RST_N_ASSERT (R697, R825, R826): no effect in LOOKOUT but on the hand-over. -/
def execModRstNAssert (s : State) : Host.Outcome State Fault Refusal :=
  .next (
    let s := { s with pins.modRstN := false }
    if lookoutUp s && s.dev.st != .lookout then fallToStarting (noteInterrupted s) else s)

/-- The hand-over from LOOKOUT to STARTING (R677, R826 to R828). -/
def handOver (s : State) : State :=
  if lookoutUp s && s.dev.st == .lookout && s.dev.startStep == 2 && s.pins.holdN && s.pins.modRstN then beginStart s else s

/-- MOD_RST_N_RELEASE (R678, R825, R826, R828). -/
def execModRstNRelease (s : State) : Host.Outcome State Fault Refusal :=
  .next (
    let low := !s.pins.modRstN
    let s := { s with pins.modRstN := true }
    if lookoutUp s && s.dev.st == .starting && low && !s.dev.q0Held then beginStart s else handOver s)

/-- HOLD_N_RISE (R827, R828): looked at only in LOOKOUT. -/
def execHoldNRise (s : State) : Host.Outcome State Fault Refusal :=
  .next (handOver { s with pins.holdN := true })

/-- WARDEN_SELF_TEST_PASS (R677, R678): step 2. -/
def execWardenSelfTestPass (s : State) : Host.Outcome State Fault Refusal :=
  .next (
    if lookoutUp s && s.dev.st == .lookout && s.dev.startStep == 1 then handOver { s with dev.startStep := 2 } else s)

/-! ### Steps 6 to 9 -/

/-- The first die whose fingerprint differs from the Bark (R684): its index and both values. -/
def fingerprintDiff (s : State) (found : List DWord) : Option (Nat × DWord × DWord) :=
  ((List.range (max found.length s.bark.made.fingerprints.length)).find? fun i => nth found i 0 != nth s.bark.made.fingerprints i 0).map
    fun i => (i, nth s.bark.made.fingerprints i 0, nth found i 0)

/-- Step 7's comparison of die fingerprints (R684). -/
def compareFingerprints (found : List DWord) (s : State) : State :=
  match fingerprintDiff s found with
  | none => { s with dev.fingerprintsOk := true }
  | some (i, e, f) =>
    raise errBark uWarden 0 5 none32 (detail [(2, 1), (i, 1), (e.toNat % 2 ^ 40, 5), (f.toNat % 2 ^ 40, 5)]) { s with dev.fingerprintsOk := false }

/-- The ring's settings come in force (R504, R619, R620, R731, R736): tables in the copy of the ring's epoch, crown clocks, the time root. -/
def applyRing (r : Ring) (s : State) : State :=
  let s := { s with
    fabric.epoch := r.epoch, fabric.oldValid := false, fabric.inactiveComplete := false, fabric.digest := tablesDigest r.tables
    fabric.copy0 := if r.epoch then ⟨[], [], []⟩ else r.tables
    fabric.copy1 := if r.epoch then r.tables else ⟨[], [], []⟩
    heat.runtime := 0, heat.runtimeNext := 0, heat.crownsOff := !s.pins.thermTripN
    mtc := if r.clock.isRoot then { locked := true, everLocked := true } else {} }
  (List.range 4).foldl (fun s q => setNotch q { notch s q with crownK := nth r.clock.crownK q 100 } s) s

/-- Steps 6 to 8 (Table 15-1). -/
def powerUp (v48 : Nat) (obs : TrainObs) (r : Ring) (s : State) : State :=
  let s := { s with pins.v48On := true, pins.v48 := v48, dev.holdCause := 0, dev.holdSince := none, tiles := [], dev.startStep := 6 }
  let s := applyRing r (compareFingerprints obs.fingerprints s)
  let s := zeroSram (startStacks (startLinks obs s))
  startLanes { s with dev.startStep := 7 }

/-- V48_IN_RANGE (R680, R684, R361, R404): start goes on at step 6 once a ring is verified, with REFCLK present (R732). -/
def execV48InRange (v48 : Nat) (obs : TrainObs) (s : State) : Host.Outcome State Fault Refusal :=
  .next (
    let s := { s with pins.v48 := v48 }
    match s.dev.ring with
    | some r =>
      if lookoutUp s && s.dev.st == .starting && s.dev.startStep == 5 && s.pins.modRstN && s.pins.refclk && decide (4000 ≤ v48) &&
          decide (v48 ≤ 6000) then powerUp v48 obs r s
      else s
    | none => s)

/-! ### Step 10 -/

/-- Tree lanes UP, tray ports up, lanes UP (Table 15-10). -/
def treeLanesUp (s : State) : Nat := (List.range 144).countP fun l => l % 36 < 32 && laneUp s l
def trayPortsUp (s : State) : Nat := (List.range 4).countP fun q => linkUp s (144 + q)
def allLanesUp (s : State) : Nat := (List.range 144).countP fun l => laneUp s l

/-- Lanes and ports that Table 15-10 requires. -/
def neighboursOk (s : State) (p : Policy) : Bool :=
  if isFA s then decide (orDefault p.minRelayLanes 136 ≤ allLanesUp s)
  else decide (orDefault p.minTreeLanes 120 ≤ treeLanesUp s) && decide (orDefault p.minTrayPorts 2 ≤ trayPortsUp s)

/-- The role agrees with the variant and the slot with the role (R27). -/
def roleOk (s : State) (r : Ring) : Bool :=
  Role.isRelay r.role == isFA s && r.relay == isFA s &&
    match r.role with
    | .working => decide (r.slot ≤ 7)
    | .spare => r.slot == 8
    | .leaf => true
    | .spine => true
    | .core => true

/-- Warden ROM version within the policy's bounds; 0 allows any. -/
def romOk (p : Policy) : Bool :=
  decide (p.wardenRomMin ≤ Config.wardenRom.toNat) && (p.wardenRomMax == 0 || decide (Config.wardenRom.toNat ≤ p.wardenRomMax))

/-- KEEPER sizes (Table 15-10, R371). -/
def keeperOk (k : KeeperCfg) : Bool :=
  decide (k.regionSize + 4 * gib ≤ 576 * gib) && decide (k.kept.length * k.areaSize ≤ k.regionSize) && decide (k.offload ≤ k.regionSize)

/-- First failing row of Table 15-10, 1 to 9; 0 when every check passes. -/
def failingRow (s : State) (r : Ring) : Nat :=
  if !roleOk s r then 1
  else if !romOk r.policy then 2
  else if !(r.wiring.all fun w => decide (w.lane < 144)) then 3
  else if !isFA s && !keeperOk r.keeper then 4
  else if regionLost s 0 || regionLost s 5 || regionLost s 6 || regionLost s 7 || !s.dev.fingerprintsOk then 5
  else if !isFA s && decide (usableTiles s < orDefault r.policy.minTiles 248) then 6
  else if s.pins.v48 < 4000 ∨ 6000 < s.pins.v48 then 7
  else if !s.mtc.locked && !r.clock.isRoot then 8
  else if !neighboursOk s r.policy then 9
  else 0

/-- Found and required values of a hold (Table 15-14). -/
def holdValues (s : State) (r : Ring) (row : Nat) : Nat × Nat :=
  if row = 6 then (usableTiles s, orDefault r.policy.minTiles 248)
  else if row = 7 then (s.pins.v48, 4000)
  else if row = 8 then (0, 1)
  else if row = 9 then
    (if isFA s then (allLanesUp s, orDefault r.policy.minRelayLanes 136)
     else if treeLanesUp s < orDefault r.policy.minTreeLanes 120 then (treeLanesUp s, orDefault r.policy.minTreeLanes 120)
     else (trayPortsUp s, orDefault r.policy.minTrayPorts 2))
  else (0, 0)

/-- ERR_RING_CHECK (Table 15-14). -/
def raiseCheck (row : Nat) (r : Ring) (s : State) : State :=
  raise errRingCheck uWarden 0 (slotNo s.dev.ringSlotB) none32
    (detail [(row, 1), (slotFails s.stump s.dev.ringSlotB, 1), (0, 2), (r.generation, 4), (s.stump.startCount, 4)]) s

/-- The slot that the next start uses once the trial slot has failed, 0xFF without one, and its ring's generation. -/
def fallbackSlot (s : State) : Nat × Nat :=
  match [(SlotState.active, false), (.active, true), (.previous, false), (.previous, true)].find? fun e => slotState s.stump e.2 == e.1 with
  | some (_, b) => (slotNo b, match slotRing s.stump b with | some r => r.generation | none => 0)
  | none => (0xFF, 0)

/-- A trial failure (R693, R694). -/
def trialFail (row : Nat) (r : Ring) (s : State) : State :=
  let b := s.dev.ringSlotB
  let s := writeControl (fun u => putSlotFails b (slotFails u b + 1) u) s
  let s := raiseCheck row r s
  let s :=
    if 2 ≤ slotFails s.stump b then
      let s := writeControl (putSlotState b .failed) s
      let (k, g) := fallbackSlot s
      raise errRingFallback uWarden 0 (slotNo b) k (detail [(r.generation, 4), (g, 4)]) s
    else s
  logOutcome 1 { s with dev.restartDue := true, dev.holdCause := 0 }

/-- Ring commit (R696). -/
def commitRing (r : Ring) (s : State) : State :=
  let b := s.dev.ringSlotB
  writeControl (fun u =>
    let u := if s.dev.trial then
        let u := if slotState u (!b) == .active then putSlotState (!b) .previous u else u
        putSlotState b .active u
      else u
    { u with failsA := 0, failsB := 0, controlFloor := max u.controlFloor r.floor }) s

/-- Each failed Bark copy is rewritten from the good one (R682). -/
def repairBark (s : State) : State :=
  { s with bark.regions := s.bark.regions.filter fun e => !e.2.copy0 && !e.2.copy1 }

/-- The phase codes found this start go to the Bark (R401). -/
def savePhases (s : State) : State :=
  s.stacking.links.foldl (fun s e =>
    [(0, e.2.toCrown), (1, e.2.toRoot)].foldl (fun s d =>
      d.2.segs.foldl (fun s g =>
        g.2.codes.foldl (fun s c => { s with bark.phases := tset s.bark.phases (phaseKey e.1 d.1 g.1 c.1) c.2 0 }) s) s) s) s

/-- Band of a quadrant's hottest root, the notch ceiling of a band (Table 16-4), and what each field's default is. -/
def hotBand (s : State) (q : Nat) : Nat := (quadTiles q).foldl (fun b t => max b (rootBand s t)) 0
def powerCfg (s : State) : PowerCfg := match s.dev.ring with | some r => r.power | none => ⟨0, 0, 0, []⟩
def ceilingOf (s : State) (band : Nat) : Nat := orDefault (nth (powerCfg s).ceilings band 0) (if band = 4 then 40 else 63)

/-- Notches at the end of STARTING (R764). -/
def startNotches (s : State) : State :=
  if isFA s then s
  else (List.range 4).foldl (fun s q => setNotch q { notch s q with notch := ceilingOf s (hotBand s q), calm := 0 } s) s

/-- Whether a lane is missing (R713). -/
def lanesMissing (s : State) (r : Ring) : Bool := r.wiring.any fun w => !laneUp s w.lane

/-- ERR_START_DEGRADED (R713). -/
def noteDegraded (r : Ring) (s : State) : State :=
  if lanesMissing s r then
    raise errStartDegraded uWarden 0 none32 none32
      (detail [(if isFA s then 0 else treeLanesUp s % 128, 1), (if isFA s then 0 else trayPortsUp s, 1),
               (if isFA s then allLanesUp s else 0, 1), (usableTiles s, 2)]) s
  else s

/-- A ledger event of kind start (R777). -/
def noteStart (s : State) : State := ledgerEvent 4 6 0 0 { mtc := s.mtc.value } s

/-- Step 10 passed: the ring commits and the device is READY or RELAYING (Table 01-5). -/
def completeStart (r : Ring) (s : State) : State :=
  let s := logOutcome 0 (noteDegraded r (commitRing r s))
  let s := savePhases (repairBark (startNotches (noteStart s)))
  let s := { s with dev.holdCause := 0, dev.holdSince := none, dev.trial := false, dev.startStep := 10 }
  enter (if r.role = .working then .ready else .relaying) s

/-- The start checks (R693, R695, R698). -/
def checkStart (r : Ring) (s : State) : State :=
  match failingRow s r with
  | 0 => completeStart r s
  | row =>
    if row ≤ 4 then
      if s.dev.trial then trialFail row r s
      else
        let s := if s.dev.holdsWritten.contains 6 then s else raiseCheck row r s
        hold 6 0 0 s
    else
      let (found, required) := holdValues s r row
      hold (row - 4) found required s

/-- START_CHECKS (R698): once discovery and MTC lock have had their time. -/
def execStartChecks (s : State) : Host.Outcome State Fault Refusal :=
  .next (
    match s.dev.ring with
    | some r => if lookoutUp s && s.dev.st == .starting && s.dev.startStep == 7 && !s.dev.restartDue then checkStart r s else s
    | none => s)

/-- START_HOLD_RETRY (R680, R698): once per second the check that holds the start is made again. -/
def execStartHoldRetry (s : State) : Host.Outcome State Fault Refusal :=
  .next (
    if !lookoutUp s || s.dev.st != .starting || s.dev.restartDue || !s.pins.modRstN || s.dev.q0Held then s
    else match s.dev.ring with
      | none => if s.dev.startStep = 4 then chooseStep s else s
      | some r =>
        if s.dev.startStep = 5 then (if s.pins.v48 < 4000 ∨ 6000 < s.pins.v48 ∨ !s.pins.refclk then hold 3 s.pins.v48 4000 s else s)
        else if s.dev.startStep = 7 ∧ s.dev.holdCause ≠ 0 then checkStart r s
        else s)

/-- RING_TRIAL_RESTART (R693): 1 s after a trial failure, from the hand-over to STARTING. -/
def execRingTrialRestart (s : State) : Host.Outcome State Fault Refusal :=
  .next (
    if lookoutUp s && s.dev.st == .starting && s.dev.restartDue && s.pins.modRstN then beginStart (resetV48 s) else s)

/-- HOLD_LIMIT_EXPIRE (R699): a hold of a trial that lasts longer than the ring's hold_limit is a trial failure. -/
def execHoldLimitExpire (s : State) : Host.Outcome State Fault Refusal :=
  .next (
    match s.dev.ring with
    | some r =>
      let since := s.dev.holdSince.getD s.time
      if lookoutUp s && s.dev.st == .starting && s.dev.trial && !s.dev.restartDue && s.dev.holdCause != 0 &&
          decide (since + 1000000 * orDefault r.policy.holdLimit 600000 < s.time) then
        trialFail (if s.dev.holdCause = 6 then 0 else s.dev.holdCause + 4) r s
      else s
    | none => s)

/-! ### Loss of Q0, supplies and clocks -/

/-- A loss of Q0 (R408): the lookout holds the module in reset until Q0's domain is stable. Nothing happens in LOOKOUT. -/
def loseQ0 (s : State) : State :=
  if s.dev.st = .lookout then s else let s := fallToStarting s; { s with dev.q0Held := true }

/-- Q0_LOSS (R32, R408). -/
def execQ0Loss (s : State) : Host.Outcome State Fault Refusal := .next (loseQ0 s)

/-- Q0_DOMAIN_STABLE (R408, R678). -/
def execQ0DomainStable (s : State) : Host.Outcome State Fault Refusal :=
  .next (
    if lookoutUp s && s.dev.st == .starting && s.dev.q0Held then
      let s := { s with dev.q0Held := false }
      if s.pins.modRstN then beginStart s else s
    else s)

/-- REFCLK_LOSS (R732): no edge for 10 µs; a loss of Q0. -/
def execRefclkLoss (s : State) : Host.Outcome State Fault Refusal :=
  .next (let s := { s with pins.refclk := false }; loseQ0 s)

/-- REFCLK_RETURN (R732): the hold at step 6 can end. -/
def execRefclkReturn (s : State) : Host.Outcome State Fault Refusal := .next { s with pins.refclk := true }

/-- AUXCLK_LOSS (R729): the lookout runs on its internal oscillator; ERR_AUXCLK once. -/
def execAuxclkLoss (s : State) : Host.Outcome State Fault Refusal :=
  .next (
    if !lookoutUp s || s.pins.internalOsc then s
    else raise errAuxclk uWarden 0 none32 none32 (detail [(0, 4)]) { s with pins.internalOsc := true, heat.oscTicks := 0 })

/-- AUXCLK_RETURN (R729): AUXCLK has run for 100 ms without a gap. -/
def execAuxclkReturn (s : State) : Host.Outcome State Fault Refusal := .next { s with pins.internalOsc := false }

/-- V48_SHUTDOWN (R740): below 36 V or above 62 V the regulators turn off, and the event is a loss of Q0. -/
def execV48Shutdown (v48 : Nat) (s : State) : Host.Outcome State Fault Refusal :=
  .next (
    if s.pins.v48On && (decide (v48 < 3600) || decide (6200 < v48)) then
      let lo := if s.heat.v48Out then min s.heat.v48Low v48 else v48
      let hi := if s.heat.v48Out then max s.heat.v48High v48 else v48
      let s := raise errV48Range uFirewatch 0 0 none32 (detail [(v48, 2), (lo, 2), (hi, 2), (2, 1)]) { s with pins.v48 := v48 }
      loseQ0 s
    else { s with pins.v48 := v48 })

end Sys2Proof.Machine
end

