-- ==== Sys2Proof/Machine/Thermal.lean ====
section
/-! DEFINITION. The Firewatch and the management tick (Chapter 16): cross-check, bands, trip, refresh and admission, notches, phase and heater
codes, telemetry and the ledger. Temperatures are in 0.25 °C. -/
namespace Sys2Proof.Machine

/-! ### Cross-check (R751 to R759) -/

/-- Inserts into a rising list of integers. -/
def insertInt (x : Int) : List Int → List Int
  | [] => [x]
  | y :: ys => if x ≤ y then x :: y :: ys else y :: insertInt x ys
def sortInts (xs : List Int) : List Int := xs.foldr insertInt []

/-- Four neighbours from four places, each its direct neighbour and the sensors in the opposite direction, nearest first: a missing or suspect
neighbour gives way to the nearest sensor opposite that is neither a neighbour already nor suspect (R751). -/
def pickNeighbours (sus : List Nat) (places : List (Option Nat × List Nat)) : List Nat :=
  let good := fun (e : Option Nat × List Nat) => e.1.filter fun n => !sus.contains n
  let direct := places.filterMap good
  (places.filter fun e => (good e).isNone).foldl (fun ch e =>
    match e.2.find? fun n => !ch.contains n && !sus.contains n with
    | some n => ch ++ [n]
    | none => ch) direct

/-- Tiles to the north, south, east and west of tile `i`, nearest first. -/
def rays (i : Nat) : List Nat × List Nat × List Nat × List Nat :=
  ((List.range (i / 16)).map fun k => i - 16 * (k + 1), (List.range (15 - i / 16)).map fun k => i + 16 * (k + 1),
   (List.range (15 - i % 16)).map fun k => i + (k + 1), (List.range (i % 16)).map fun k => i - (k + 1))

/-- Neighbours of a crown or root sensor (R751). -/
def tileNeighbours (sus : List Nat) (i : Nat) : List Nat :=
  let (n, s, e, w) := rays i
  pickNeighbours sus [(n.head?, s), (s.head?, n), (e.head?, w), (w.head?, e)]

/-- Neighbours of a stack: two on each side along its edge (R752). -/
def stackNeighbours (sus : List Nat) (i : Nat) : List Nat :=
  let left := (List.range (i % 8)).map fun k => i - (k + 1)
  let right := (List.range (7 - i % 8)).map fun k => i + (k + 1)
  pickNeighbours sus [(left[0]?, right), (left[1]?, right), (right[0]?, left), (right[1]?, left)]

/-- Recorded offset: the mean of the differences, rounded down, within ±8 °C (R756). -/
def meanOffset (diffs : List Int) (old : Int) : Int :=
  if diffs.isEmpty then old
  else max (-32) (min 32 ((diffs.foldl (· + ·) 0) / (diffs.length : Int)))

/-- Band of a value (Table 16-7). -/
def bandOf (v : Int) : Nat := if 380 ≤ v then 4 else if 340 ≤ v then 3 else if 300 ≤ v then 2 else if 240 ≤ v then 1 else 0
/-- Lower bound of a band. -/
def bandFloor (b : Nat) : Int := if b = 4 then 380 else if b = 3 then 340 else if b = 2 then 300 else 240

/-- Band after a value (R748): up at the higher band's bound, down 2 °C below the current one's. -/
def nextBand (cur : Nat) (v : Int) : Nat :=
  if cur < bandOf v then bandOf v else if bandOf v < cur ∧ v ≤ bandFloor cur - 8 then bandOf v else cur

/-- A sensor is suspect, or has met R754 at the last tick, whose step 2 then substitutes it (R750); SENSOR_SUSPECT reports it. -/
def isSuspect (r : Sensor) : Bool := r.suspect || r.count == 4

/-- Value in use (R755, R759). -/
def valueInUse (r : Sensor) : Option Int :=
  if isSuspect r && !r.notSubst then some (r.median + r.offset) else r.reading

/-- Sets the value in use and the band that it selects (R747); the first value takes its own band. -/
def settle (r : Sensor) : Sensor :=
  match valueInUse r with
  | none => r
  | some v => { r with value := some v, band := if r.value.isNone then bandOf v else nextBand r.band v }

/-- Cross-check of one sensor against its neighbours' latched readings (R753, R754, R756); with fewer than four it is not checked. -/
def checkSensor (nb : List Int) (r : Sensor) : Sensor :=
  let v := sortInts nb
  match r.reading, v with
  | some x, [a, b, c, d] =>
    let m := (b + c) / 2
    let diff := x - m
    let spread := d - a
    let off := decide (spread ≤ 24) && (decide (48 < diff) || decide (diff < -48))
    if isSuspect r then { r with median := m, spread }
    else
      let diffs := (diff :: r.diffs).take 1024
      { r with median := m, spread, count := if off then r.count + 1 else 0, diffs, offset := meanOffset diffs r.offset }
  | _, _ => if isSuspect r then r else { r with count := 0 }

/-- Quadrant of sensors of a kind that share R759's bound, and that bound: 8 a quadrant, 4 of the stacks. -/
def quotaOf (many : Bool) (i : Nat) : Nat × Nat := if many then (0, 4) else (quadOf i, 8)

/-- Sensor `i`, suspect since this tick, is substituted while fewer than the bound are (R759). -/
def allot (many : Bool) (m : Table Sensor) (i : Nat) : Table Sensor :=
  let (g, n) := quotaOf many i
  let used := m.countP fun e => e.1 != i && isSuspect e.2 && !e.2.notSubst && (quotaOf many e.1).1 == g
  tupd m i {} fun r => { r with notSubst := decide (n ≤ used) }

/-- Steps 1 to 3 for one kind of sensor: readings latched, cross-check, bands. -/
def latchSensors (stack : Bool) (n : Nat) (nbs : List Nat → Nat → List Nat) (readings : List Int) (m : Table Sensor) : Table Sensor :=
  let m := (List.range n).foldl (fun m i => match readings[i]? with | some x => tupd m i {} (fun r => { r with reading := some x }) | none => m) m
  let sus := (m.filter fun e => isSuspect e.2).map (·.1)
  let look := fun i => (tget m i {}).reading
  let c := (List.range n).foldl (fun acc i => tupd acc i {} fun r => checkSensor ((nbs sus i).filterMap look) r) m
  let fresh := (c.filter fun e => isSuspect e.2 && !sus.contains e.1).map (·.1)
  tmap (fresh.foldl (allot stack) c) fun _ r => settle r

/-- Sensor ID (R745). -/
def sensorId : SensorKind → Nat → Nat
  | .crown, i => i
  | .root, i => 0x4000 + i
  | .stack, i => 0x8000 + i
  | .lookout, _ => 0xC000

/-- Sensors of a kind, and their write. -/
def sensorsOf (s : State) : SensorKind → Table Sensor
  | .crown => s.heat.crowns
  | .root => s.heat.roots
  | .stack => s.heat.hbms
  | .lookout => [(0, s.heat.lookout)]
def setSensor (k : SensorKind) (i : Nat) (r : Sensor) (s : State) : State :=
  match k with
  | .crown => { s with heat.crowns := tset s.heat.crowns i r {} }
  | .root => { s with heat.roots := tset s.heat.roots i r {} }
  | .stack => { s with heat.hbms := tset s.heat.hbms i r {} }
  | .lookout => { s with heat.lookout := r }

/-- Ledger die of a sensor (R775). -/
def sensorDie : SensorKind → Nat → Nat
  | .crown, i => crownDie i
  | .root, i => rootDie i
  | .stack, i => stackDie i
  | .lookout, _ => 4

/-- SENSOR_SUSPECT (R754, R755, R757 to R759): a sensor that met the condition on four consecutive ticks is suspect until the next start, and is
reported, with the flag of R759 where it is not substituted. -/
def execSensorSuspect (k : SensorKind) (i : Fin 256) (s : State) : Host.Outcome State Fault Refusal :=
  .next (
    let r := tget (sensorsOf s k) i {}
    if k == .lookout || r.suspect || r.count < 4 then s
    else
      let s := setSensor k i { r with suspect := true } s
      let s := raise errSensorSuspect uFirewatch 0 (sensorId k i) none32
        (detail [(signedField 2 (r.reading.getD 0), 2), (signedField 2 r.median, 2), (signedField 2 r.offset, 2), (signedField 2 r.spread, 2),
                 (if r.notSubst then 1 else 0, 1)]) s
      let s := updSummary (sensorDie k i) (fun d => { d with suspects := satInc none32 d.suspects }) s
      ledgerEvent (sensorDie k i) 3 (tget (sensorsOf s k) i {}).band 0 (newest s) s)

/-! ### Thermal trip (R767 to R771) -/

/-- Every lane goes dark (R769). -/
def darkLanes (s : State) : State :=
  { s with optics.lanes := (tmap s.optics.lanes fun _ r => { unlocked r with st := .disabled, retraining := false }).filter
             fun e => e.2 != {} }

/-- Crowns off and their contents lost (R89, R768). -/
def crownsOff (s : State) : State :=
  { s with heat.crownsOff := true, tiles := (tmap s.tiles fun _ r => crownLost r).filter fun e => e.2 != {} }

/-- The Firewatch's notch of a quadrant: at a calm count of 8 the raise is in force from the tick on (R763), and NOTCH_RAISE settles it. -/
def notchSet (n : Notch) : Nat := if n.calm = 8 then min 63 (n.notch + 1) else n.notch

/-- Asserts THERM_TRIP_N (R767 to R769): source 1 comparator, 2 root value, 3 stack value. -/
def tripNow (k : SensorKind) (i : Nat) (source : Nat) (v : Int) (s : State) : State :=
  if !s.pins.thermTripN || s.dev.st == .lookout then s
  else
    let det := detail ([(source, 1), (0, 1), (signedField 2 v, 2)] ++ ((List.range 4).map fun q => (notchSet (notch s q), 1)) ++ [(s.heat.power, 2)])
    let s := { s with pins.thermTripN := false, heat.tripSource := source, heat.trips := satInc 255 s.heat.trips, heat.coolTicks := 0 }
    let s := if isFA s then darkLanes s
      else
        let s := (List.range 4).foldl (fun s q => setNotch q { notch s q with notch := 0, calm := 0 } s) (crownsOff s)
        (List.range 16).foldl (fun s m => updHbm m (fun r => { r with admission := 25 }) s) s
    let s := raise errThermTrip uFirewatch 0 (sensorId k i) none32 det s
    let s := updSummary (sensorDie k i) (fun d => { d with trips := satInc none32 d.trips }) s
    let s := ledgerEvent (sensorDie k i) 5 (tget (sensorsOf s k) i {}).band 0 (newest s) s
    let s := stopA3 errThermTrip s
    if s.dev.st = .faulted then s else enter .faulted s

/-- THERM_TRIP_COMPARATOR (R746, R758): the comparator of a suspect sensor is masked. -/
def execThermTripComparator (t : Tile) (value : Int) (s : State) : Host.Outcome State Fault Refusal :=
  .next (
    if s.pins.v48On && !isSuspect (tget s.heat.roots t {}) && decide (436 ≤ value) then tripNow .root t 1 value s else s)

/-- Highest root value in use of a quadrant, in use for notches. -/
def hotRoot (s : State) (q : Nat) : Int := (quadTiles q).foldl (fun b t => max b ((tget s.heat.roots t {}).value.getD (-160))) (-160)

/-- Whether every value lies below the release limits of R770. -/
def allCool (s : State) : Bool :=
  s.heat.roots.all (fun e => decide (e.2.value.getD (-160) < 400)) && s.heat.hbms.all fun e => decide (e.2.value.getD (-160) < 380)

/-- The first root or stack value in use that trips at step 4. -/
def tripFound (s : State) : Option (SensorKind × Nat × Nat × Int) :=
  match s.heat.roots.find? fun e => decide (440 ≤ e.2.value.getD (-160)) with
  | some e => some (.root, e.1, 2, e.2.value.getD 0)
  | none =>
    match s.heat.hbms.find? fun e => decide (420 ≤ e.2.value.getD (-160)) with
    | some e => some (.stack, e.1, 3, e.2.value.getD 0)
    | none => none

/-- Step 4 (R767, R770): a value that trips, or one more cool tick. -/
def tripStep (s : State) : State :=
  if s.pins.thermTripN then
    match tripFound s with
    | some (k, i, source, v) => tripNow k i source v s
    | none => s
  else { s with heat.coolTicks := if allCool s then min 1000 (s.heat.coolTicks + 1) else 0 }

/-- Margins now of the two wavelengths of each lane of quadrant `q` (R431), by 2·lane + wavelength. -/
def marginsNow (s : State) (q : Nat) : Table Nat :=
  ((List.range 36).flatMap fun i => [(72 * q + 2 * i, (lane s (36 * q + i)).marginA), (72 * q + 2 * i + 1, (lane s (36 * q + i)).marginB)]).filter
    fun e => e.2 != 0

/-- Writes the summaries to the next of 128 blocks (R779); a root's summary takes its lanes' margins at this flush (Table 16-14). -/
def flushSummaries (s : State) : State :=
  let seq := match s.bark.blocks with | b :: _ => b.1 + 1 | [] => 1
  let keep := fun (d : Nat) (m : Summary) => { m with lastMargins := if 4 ≤ d ∧ d < 8 then marginsNow s (d - 4) else [] }
  let sums := tmap s.bark.summaries keep
  { s with bark.summaries := sums, bark.blocks := ((seq, sums) :: s.bark.blocks).take 128 }

/-- The moment of the last tick (R24). -/
def atTick (s : State) : Bool := s.heat.tickAt == some s.time

/-- THERM_TRIP_RELEASE (R24, R770, R771, R779): at a tick, after 1,000 cool ones; the device state stays. -/
def execThermTripRelease (s : State) : Host.Outcome State Fault Refusal :=
  .next (
    if s.pins.thermTripN || !atTick s || decide (s.heat.coolTicks < 1000) then s
    else
      let s := { s with pins.thermTripN := true, heat.coolTicks := 0, heat.tripSource := 0 }
      let s := if isFA s then s
        else (List.range 4).foldl (fun s q => setNotch q { notch s q with notch := min 32 (ceilingOf s (hotBand s q)), calm := 0 } s)
          { s with heat.crownsOff := false }
      flushSummaries s)

/-! ### Steps 5 and 6 -/

/-- Refresh rate and admission of a stack (Table 08-4, R768). -/
def refreshStep (s : State) : State :=
  s.heat.hbms.foldl (fun s e =>
    let b := e.2.band
    let v := e.2.value.getD (-160)
    let adm := if !s.pins.thermTripN then 25 else if b < 4 ∨ v < 400 then 100 else if v < 412 then 50 else 25
    updHbm e.1 (fun r => { r with refreshNext := if b ≤ 2 then 1 else if b = 3 then 2 else 4, admission := adm }) s) s

/-- Ring power limit (R734, R735) and the limit in force (R736). -/
def ringLimit (s : State) : Nat := if isFA s then 1600 else orDefault (powerCfg s).powerLimit 4200
def limitInForce (s : State) : Nat := if s.heat.runtime = 0 then ringLimit s else s.heat.runtime
/-- Target band of a quadrant, in 0.25 °C (Table 16-4). -/
def targetHi (s : State) : Int := 4 * (orDefault (powerCfg s).targetHi 92 : Nat)
def targetWidth (s : State) : Int := 4 * (orDefault (powerCfg s).targetWidth 5 : Nat)

/-- A stack of quadrant `q` is in B4 (R367). -/
def stackHot (s : State) (q : Nat) : Bool := s.heat.hbms.any fun e => stackQuad e.1 == q && e.2.band == 4

/-- over and under of notch_tick (R763). -/
def notchOver (s : State) (q : Nat) : Bool :=
  decide (targetHi s < hotRoot s q) || stackHot s q || decide (limitInForce s < s.heat.power) ||
    decide (ceilingOf s (hotBand s q) < (notch s q).notch)
def notchUnder (s : State) (q : Nat) : Bool :=
  decide (hotRoot s q < targetHi s - targetWidth s) && !stackHot s q && decide (100 * s.heat.power < 97 * limitInForce s) &&
    decide ((notch s q).notch < ceilingOf s (hotBand s q))

/-- A raise that is in force enters the notch. -/
def raiseNotch (n : Notch) : Notch := if n.calm = 8 then { n with notch := notchSet n, calm := 0 } else n

/-- notch_tick (R763) with the count of R766. -/
def notchTick (q : Nat) (s : State) : State :=
  let s := setNotch q (raiseNotch (notch s q)) s
  let n := notch s q
  if !s.pins.thermTripN then setNotch q { n with notch := 0, calm := 0, floorTicks := 0, floorWritten := false } s
  else if notchOver s q then
    let v := n.notch - 1
    setNotch q { n with notch := v, calm := 0, floorTicks := if v = 0 then min 1000 (n.floorTicks + 1) else 0
                        floorWritten := v == 0 && n.floorWritten } s
  else
    let n := { n with floorTicks := 0, floorWritten := false }
    if notchUnder s q then setNotch q { n with calm := min 8 (n.calm + 1) } s else setNotch q { n with calm := 0 } s

/-- NOTCH_RAISE (R763): eight consecutive ticks under; the trip wins. -/
def execNotchRaise (q : Quad) (s : State) : Host.Outcome State Fault Refusal :=
  .next (if s.pins.thermTripN && (notch s q).calm == 8 then setNotch q (raiseNotch (notch s q)) s else s)

/-- NOTCH_FLOOR (R766). -/
def execNotchFloor (q : Quad) (s : State) : Host.Outcome State Fault Refusal :=
  .next (
    let n := notch s q
    if n.floorTicks < 1000 || n.floorWritten then s
    else
      let cause := if targetHi s < hotRoot s q then 1 else if stackHot s q then 2 else 3
      raise errNotchFloor uFirewatch 0 q none32 (detail [(signedField 2 (hotRoot s q), 2), (s.heat.power, 2), (cause, 1)])
        (setNotch q { n with floorWritten := true } s))

/-! ### Step 7: phase and heater codes, the spare-wire monitor, lasers and lanes -/

/-- Band that selects a link's phase codes (R396). -/
def linkBand (s : State) (k : Nat) : Nat :=
  if k < 256 then rootBand s k else let (a, b) := bridgeTiles k; max (rootBand s a) (rootBand s b)

/-- A new band's codes apply (R397). -/
def phaseStep (s : State) : State :=
  (List.range 288).foldl (fun s k =>
    let l := dlink s k
    if hasLink s k then setDlink k { l with band := linkBand s k } s else s) s

/-- The data wire that a segment's monitor sweeps next, 32 · group + wire: the first in rotation whose group's spare is free (R398). -/
def nextWire (v : Seg) : Option Nat := ((List.range 512).map fun i => (v.sweep + i) % 512).find? fun n => !thas v.spares (n / 32)

/-- One sweep of the monitor (R398), over the wire whose turn it is: a code off by 4 or more is rewritten; the eye width is the segment's margin. -/
def sweepEye (e : EyeSample) (s : State) : State :=
  let l := dlink s e.link
  let r := dirOf l e.dir
  let v := seg r e.seg
  let code := phaseCode s e.link e.dir e.seg l.band
  let far := decide (code + 4 ≤ e.centre) || decide (e.centre + 4 ≤ code)
  if !hasLink s e.link || !(activeSegs l.width).contains e.seg.val || nextWire v != some (32 * e.group.val + e.wire.val) then s
  else
    let v := { v with margin := some e.width, sweep := (32 * e.group.val + e.wire.val + 1) % 512
                      codes := if far then tput v.codes l.band (e.centre % 64) else v.codes }
    updSummary (linkDie e.link) (fun d => { d with lowMargin := min d.lowMargin e.width }) (setDlink e.link (setDir l e.dir (setSeg r e.seg v)) s)

/-- A segment's monitor sweeps one wire in a tick (R398): the first sweep of each segment in what the meters latched. -/
def onePerSegment : List EyeSample → List EyeSample
  | [] => []
  | e :: es => e :: (onePerSegment es).filter fun x => x.link != e.link || x.dir != e.dir || x.seg != e.seg

/-- Segments of a die's links that have no free spare, and so report no margin (Chapter 09, Sampling phase). -/
def spareless (s : State) (die : Nat) : Nat :=
  ((s.stacking.links.filter fun e => linkDie e.1 == die).flatMap fun e => [e.2.toCrown, e.2.toRoot]).foldl (fun n r =>
    n + (r.segs.filter fun v => (List.range 17).all (thas v.2.spares ·)).length) 0

/-- The summaries of the dies that die links belong to take the count of such segments (Table 16-14). -/
def noteSpareless (s : State) : State :=
  (List.range 8).foldl (fun s i => updSummary (4 + i) (fun d => { d with noMargin := spareless s (4 + i) }) s) s

/-- Tiles that an engine's lanes attach to (R427). DESIGN CHOICE (log 102): the host engine's lanes, for which the spec names none, count for the corner tile
at which it stands. -/
def engineTiles (e : Nat) : List Nat := if e < 12 then (List.range 12).map fun i => laneTile (engineLane e + i) else [0]

/-- Highest thermal band of an engine's tiles (R427). -/
def engineBand (s : State) (e : Nat) : Nat := (engineTiles e).foldl (fun b t => max b (rootBand s t)) 0

/-- Heater offset of an engine in a band, of its calibration in the Bark (R427); with the calibration lost the default, 0 (R683; DESIGN CHOICE, log 102). -/
def heaterCal (s : State) (e band : Nat) : Nat := if regionLost s 10 then 0 else tget s.bark.heaters (5 * e + band) 0

/-- Heater offsets follow the bands (R427). -/
def heaterStep (s : State) : State :=
  (List.range 13).foldl (fun s e =>
    let b := engineBand s e
    { s with heat.heater := tset s.heat.heater e b 0, heat.heaterOffset := tset s.heat.heaterOffset e (heaterCal s e b) 0 }) s

/-- Ledger die of an engine: the root of its quadrant (Tables 00-5 and 16-13). -/
def engineDie (e : Nat) : Nat := 4 + engineQuad e

/-- Source unit of ERR_LASER_LOW. R865 has no unit kind for an engine: DESIGN CHOICE (log 66), the engine's first lane, and the device for the
host engine, which carries no fabric lane. -/
def engineUnit (e : Nat) : Nat × Nat := if e < 12 then (uLane, engineLane e) else (uDevice, 0)

/-- Laser supply of one engine (R425, R426): one record per excursion of a wavelength below 15 dBm; λA of LS12 is unused. -/
def laserStep (e : Nat) (pa pb : Int) (s : State) : State :=
  let s := { s with heat.supply := tput s.heat.supply e (pa, pb) }
  [(0, pa), (1, pb)].foldl (fun s w =>
    let key := 2 * e + w.1
    let low := decide (w.2 < 150) && !(e == 12 && w.1 == 0)
    let was := s.heat.laserLow.contains key
    if low && !was then
      let band := tget s.heat.heater e 0
      let s := raise errLaserLow (engineUnit e).1 (engineUnit e).2 e none32
        (detail [(signedField 2 pa, 2), (signedField 2 pb, 2), (band, 1)]) { s with heat.laserLow := sinsert s.heat.laserLow key }
      ledgerEvent (engineDie e) 1 band 0 (newest s) s
    else if !low && was then { s with heat.laserLow := s.heat.laserLow.filter (· != key) }
    else s) s

/-- Margins and powers of one lane (R431), which go into its die's summary; an UP lane with a power below −12 dBm retrains (R432). -/
def laneStep (x : LaneSample) (s : State) : State :=
  let l := x.lane.val
  let ma := 15 - x.corrA
  let mb := 15 - x.corrB
  let s := updLane l (fun r => { r with
    marginA := ma, marginB := mb, powA := x.powA, powB := x.powB
    fecA := (r.fecA + x.fecA) % 2 ^ 64, fecB := (r.fecB + x.fecB) % 2 ^ 64
    uncA := (r.uncA + x.uncA) % 2 ^ 32, uncB := (r.uncB + x.uncB) % 2 ^ 32 }) s
  let low := fun (m : Table Nat) (k v : Nat) => tput m k (min v (tget m k v))
  let s := updSummary (4 + laneQuad l) (fun d => { d with
    laneMargins := low (low d.laneMargins (2 * l) ma) (2 * l + 1) mb
    lanePowers := tput (tput d.lanePowers (2 * l) x.powA) (2 * l + 1) x.powB }) s
  if laneUp s l && retrainDue s l 4 then startRetrain l 4 s else s

/-! ### Step 8: telemetry -/

/-- Values in use of a kind by sensor number; 0x8000 where absent. -/
def valuesOf (n : Nat) (m : Table Sensor) : List Int := (List.range n).map fun i => (tget m i {}).value.getD (-32768)

def suspectCount (m : Table Sensor) : Nat := m.countP fun e => isSuspect e.2

/-- The notch in force: the lower of the exerciser's request and the Firewatch's (R765). -/
def notchInForce (s : State) (q : Nat) : Nat :=
  match (notch s q).requested with | some r => min r (notchSet (notch s q)) | none => notchSet (notch s q)

/-- The thermal and power record of this tick (Table 16-12). -/
def telRec (s : State) (amps : List Nat) : TelRec :=
  { tick := s.heat.tick, mtc := if s.mtc.everLocked then s.mtc.value else 0, power := s.heat.power, v48 := s.pins.v48
    notches := (List.range 4).map (notchInForce s), amps := (List.range 4).map fun q => nth amps q 0
    flags := (if s.pins.thermTripN then 0 else 1) ||| (if s.heat.runtime = 0 then 0 else 2) ||| (if s.pins.internalOsc then 4 else 0)
    suspects := [suspectCount s.heat.crowns, suspectCount s.heat.roots, suspectCount s.heat.hbms, 0]
    root := valuesOf 256 s.heat.roots, crown := valuesOf 256 s.heat.crowns, stack := valuesOf 16 s.heat.hbms
    bands := ((List.range 256).map fun i => (tget s.heat.roots i {}).band) ++ ((List.range 256).map fun i => (tget s.heat.crowns i {}).band) ++
      ((List.range 16).map fun i => (tget s.heat.hbms i {}).band) }

/-- Takes the record; the latest 4,096 are kept, newest first (R773). The port counters and the module-local tallies are sampled too; the lane margins
(R431) are the tick's own. -/
def telemetryStep (amps : List Nat) (s : State) : State :=
  { s with
    heat.telemetry := (telRec s amps :: s.heat.telemetry).take 4096, heat.telTick := s.heat.tick
    fabric.sampled := s.fabric.ctrs, fabric.sampledAt := if s.mtc.everLocked then s.mtc.value else 0, job.sampled := s.job.lastLocal }

/-! ### Step 9: the ledger -/

/-- Highest band of a die (Table 16-8). -/
def dieBand (s : State) (d : Nat) : Nat :=
  if d < 4 then (quadTiles d).foldl (fun b t => max b (tget s.heat.crowns t {}).band) 0
  else if d < 8 then hotBand s (d - 4)
  else if d < 12 then (List.range 8).foldl (fun b i => max b (linkBand s (256 + 8 * (d - 8) + i))) 0
  else stackBand s (d - 12)

/-- Dies of the variant: a relay has no crowns and no stacks. -/
def diesOf (s : State) : List Nat := if isFA s then (List.range 8).map (· + 4) else List.range 28

/-- The quadrant of a die; a bridge die lies in none. -/
def dieQuad (d : Nat) : Option Nat := if d < 4 then some d else if d < 8 then some (d - 4) else if d < 12 then none else some (stackQuad (d - 12))

/-- Sensors of a die with their offsets (R756). -/
def dieOffsets (s : State) (d : Nat) : Table Int :=
  if d < 4 then ((quadTiles d).map fun t => (t, (tget s.heat.crowns t {}).offset)).filter (·.2 != 0)
  else if d < 8 then ((quadTiles (d - 4)).map fun t => (t, (tget s.heat.roots t {}).offset)).filter (·.2 != 0)
  else if d < 12 then []
  else [(d - 12, (tget s.heat.hbms (d - 12) {}).offset)].filter (·.2 != 0)

/-- Adds one to entry `b` of a count list; counts saturate (R776). -/
def bump (xs : List Nat) (b : Nat) : List Nat := lset xs b (satInc (2 ^ 64 - 1) (nth xs b 0))

/-- Summaries accumulate (R776, R779). -/
def ledgerStep (s : State) : State :=
  (diesOf s).foldl (fun s d =>
    let b := dieBand s d
    let low := match dieQuad d with | some q => !isFA s && decide (notchInForce s q < 63) | none => false
    updSummary d (fun x => { x with ticks := satInc (2 ^ 64 - 1) x.ticks, bandTicks := bump x.bandTicks b
                                    notchTicks := if low then bump x.notchTicks b else x.notchTicks, offsets := dieOffsets s d }) s) s

/-! ### The tick -/

/-- V48 outside 40 to 60 V after step 6: one record per excursion (R739). -/
def v48Step (s : State) : State :=
  let v := s.pins.v48
  if !s.pins.v48On then s
  else if 4000 ≤ v ∧ v ≤ 6000 then { s with heat.v48Out := false }
  else if s.heat.v48Out then { s with heat.v48Low := min s.heat.v48Low v, heat.v48High := max s.heat.v48High v }
  else
    raise errV48Range uFirewatch 0 0 none32 (detail [(v, 2), (v, 2), (v, 2), (1, 1)])
      { s with heat.v48Out := true, heat.v48Low := v, heat.v48High := v }

/-- The records that are written once per tick (R466, R558, R877). -/
def perTickRecords (s : State) : State :=
  let s := if s.fabric.crcThisTick = 0 then s
    else raise errPacketCrc uTile s.fabric.lastCrcTile s.fabric.lastCrcSrc.toNat s.fabric.lastCrcTile
      (detail [(s.fabric.crcThisTick, 4), (s.fabric.lastCrcOp.toNat, 1), (s.fabric.lastCrcPlane.toNat, 1)]) { s with fabric.crcThisTick := 0 }
  let s := if s.fabric.tagThisTick = 0 then s
    else raise errJobTag uTile s.fabric.tagTile s.fabric.tagSrc.toNat s.fabric.tagTile
      (detail [(s.fabric.tagThisTick, 4), (s.fabric.tagJob.toNat, 2), (s.fabric.tagOp.toNat, 1)]) { s with fabric.tagThisTick := 0 }
  s.regs.refused.foldl (fun s f => notifyAll 5 0 (recBytes f.2) (writeRec f.2 s)) { s with regs.refused := [] }

/-- Steps 1 to 9 with V48 on (Table 16-9). -/
def firewatchTick (r : TickReadings) (s : State) : State :=
  let s := { s with
    heat.crowns := if isFA s then s.heat.crowns else latchSensors false 256 tileNeighbours r.crown s.heat.crowns
    heat.roots := latchSensors false 256 tileNeighbours r.root s.heat.roots
    heat.hbms := if isFA s then s.heat.hbms else latchSensors true 16 stackNeighbours r.stack s.heat.hbms }
  let s := refreshStep (tripStep s)
  let s := if isFA s then s
    else (List.range 4).foldl (fun s q => notchTick q (setNotch q { notch s q with amps := nth r.crownAmps q 0 } s)) s
  let s := heaterStep (phaseStep s)
  let s := noteSpareless ((onePerSegment r.eyes).foldl (fun s e => sweepEye e s) s)
  let s := r.laser.zipIdx.foldl (fun s e => if e.2 < 13 then laserStep e.2 e.1.1 e.1.2 s else s) s
  let s := r.lanes.foldl (fun s x => laneStep x s) s
  ledgerStep (telemetryStep r.crownAmps s)

/-- MANAGEMENT_TICK (R728, R750, Table 16-9): the count runs from VAUX on; outside LOOKOUT the Firewatch acts on what it latched. -/
def execManagementTick (r : TickReadings) (s : State) : Host.Outcome State Fault Refusal :=
  .next (
    if !lookoutUp s then s
    else
      let s := { s with
        heat.tick := (s.heat.tick + 1) % 2 ^ 64, heat.tickAt := some s.time
        heat.missedAcks := if r.wardenAck then 0 else s.heat.missedAcks + 1
        heat.oscTicks := if s.pins.internalOsc then satInc none32 s.heat.oscTicks else s.heat.oscTicks
        heat.lookout := settle { s.heat.lookout with reading := some r.lookout }
        heat.power := r.power, pins.v48 := r.v48, heat.runtime := s.heat.runtimeNext }
      if s.dev.st = .lookout then perTickRecords s
      else
        let s := v48Step s
        perTickRecords (if s.pins.v48On then firewatchTick r s else s))

/-- WARDEN_CORE_RESET (R725, R726): after 100 missed acknowledgements the core alone restarts, and its sessions end. -/
def execWardenCoreReset (pc : Word) (s : State) : Host.Outcome State Fault Refusal :=
  .next (
    if !lookoutUp s || decide (s.heat.missedAcks < 100) then s
    else
      raise errWardenReset uWarden 0 0 none32 (detail [(pc.toNat, 4), (s.heat.missedAcks, 4)])
        { s with heat.missedAcks := 0, hauler.sessions := [] })

/-- LEDGER_SUMMARY_FLUSH (R779): every 600,000 ticks. -/
def execLedgerSummaryFlush (s : State) : Host.Outcome State Fault Refusal :=
  .next (if lookoutUp s && s.heat.tick % 600000 == 0 && s.heat.tick != 0 then flushSummaries s else s)

/-- LEDGER_EVENT_WRITE (R777, R778): at most 64 entries; those beyond are counted in their die's summary. -/
def execLedgerEventWrite (s : State) : Host.Outcome State Fault Refusal :=
  .next (
    if lookoutUp s then
      let now := s.bark.queued.take 64
      let late := s.bark.queued.drop 64
      let s := { s with bark := { logEvents now s.bark with queued := [] } }
      late.foldl (fun s e => updSummary e.die (fun d => { d with notLogged := satInc none32 d.notLogged }) s) s
    else s)

/-- TELEMETRY_DATAGRAM (R774): the subscriber's period has passed; datagrams are numbered and never retransmitted. -/
def execTelemetryDatagram (sub : Nat) (s : State) : Host.Outcome State Fault Refusal :=
  .next (
    match s.heat.subs[sub]? with
    | some u =>
      if s.heat.telTick < u.sentAt + u.period then s
      else
        emit (.telemetry sub u.seq s.heat.telTick)
          { s with heat.subs := lset s.heat.subs sub { u with seq := (u.seq + 1) % 2 ^ 32, sentAt := s.heat.telTick } }
    | none => s)

/-! ### The idle-time exerciser (R673 to R675) -/

/-- The tests: bands B0 to B4, four array rates, 1, 16 and 64 busy tiles a quadrant (R673). -/
def exerciserTests : List (Nat × Nat × Nat) :=
  (List.range 5).flatMap fun b => (List.range 4).flatMap fun rate => [1, 16, 64].map fun n => (b, rate, n)

/-- Crown clock and notch of the test at hand, or the ring's clock when none is left (R731, R765). The crowns that the test drives run, the others are
gated (R88). -/
def setExerciser (s : State) : State :=
  let s := { s with tiles := gateTiles s.dev.st s.tiles }
  let s := if s.heat.crownsOff then s else (drivenTiles s).foldl (fun s t => updTile t (fun r => { r with crownGated := false }) s) s
  let base := match s.dev.ring with | some r => r.clock.crownK | none => []
  (List.range 4).foldl (fun s q =>
    match s.heat.exerciser with
    | (b, rate, n) :: _ =>
      let (k, c) := Config.exerciserSetting b rate n
      setNotch q { notch s q with crownK := k, requested := some c } s
    | [] => setNotch q { notch s q with crownK := nth base q 100, requested := none } s) s

/-- The exerciser ends (R675). -/
def endExerciser (s : State) : State := if s.heat.exerciser.isEmpty then s else setExerciser { s with heat.exerciser := [] }

end Sys2Proof.Machine
end

