-- ==== Sys2Proof/Machine/Image.lean ====
section
/-! DEFINITION. Tally images (Chapter 05): the container, the records and the checks at LOAD_PROGRAM in the order of Table 05-7. -/
namespace Sys2Proof.Machine

/-! ### Failures -/

/-- Where a check fails (R263): section type, record index, byte offset and check number. -/
structure Flaw where
  sect : Nat
  record : Nat
  offset : Nat
  check : Nat
  deriving DecidableEq, Repr

/-- Ascending section type, record index, byte offset and check number (R882). -/
def Flaw.before (a b : Flaw) : Bool :=
  decide (a.sect < b.sect ∨ (a.sect = b.sect ∧ (a.record < b.record ∨ (a.record = b.record ∧
    (a.offset < b.offset ∨ (a.offset = b.offset ∧ a.check < b.check))))))

/-- The failure that is reported of several (R882). -/
def firstFlaw : List Flaw → Option Flaw
  | [] => none
  | f :: fs =>
    match firstFlaw fs with
    | none => some f
    | some g => if Flaw.before g f then some g else some f

/-- A failure where the condition `bad` holds. -/
def flawIf (bad : Bool) (sec rec off chk : Nat) : List Flaw := if bad then [⟨sec, rec, off, chk⟩] else []

/-- A rejection: code, object, and the twelve detail bytes (R263). -/
structure Reject where
  code : Nat
  object : Nat
  det : List Byte
  deriving DecidableEq, Repr

def Flaw.reject (code : Nat) (f : Flaw) : Reject :=
  ⟨code, f.sect, detail [(f.record, 4), (f.offset, 4), (f.check, 4)]⟩

def rejectFirst (code : Nat) (fs : List Flaw) : Option Reject := (firstFlaw fs).map (Flaw.reject code)

/-! ### The container -/

/-- An entry of the section table (Table 05-3), with its place in the image. -/
structure SecEntry where
  place : Nat
  type : Nat
  flags : Nat
  reserved : Nat
  off : Nat
  len : Nat
  deriving DecidableEq, Repr

def secEntry (bs : List Byte) (i : Nat) : SecEntry :=
  let a := 64 + 24 * i
  ⟨a, field bs a 2, field bs (a + 2) 2, field bs (a + 4) 4, field bs (a + 8) 8, field bs (a + 16) 8⟩

def secTable (bs : List Byte) : List SecEntry := (List.range (field bs 24 4)).map (secEntry bs)

/-- The bytes of section `t`; none of an absent section. -/
def secBytes (bs : List Byte) (t : Nat) : List Byte :=
  match (secTable bs).find? fun e => e.type == t with
  | some e => slice bs e.off e.len
  | none => []
def hasSec (bs : List Byte) (t : Nat) : Bool := (secTable bs).any fun e => e.type == t

/-- Section types of Table 05-4 that the device knows, with their record sizes (0 for none). -/
def knownSecs : List (Nat × Nat) :=
  [(1, 0), (2, 16), (3, 16), (4, 64), (5, 64), (6, 0), (7, 0), (8, 16), (9, 0), (10, 0), (11, 16), (12, 16), (0xFF, 0)]
def requiredSecs : List Nat := [1, 2, 3, 4, 5, 6, 7, 8, 9]

def tallyMagic : List Byte := [0x54, 0x41, 0x4C, 0x4C, 0x59, 0x31, 0x00, 0x00]

/-- Header checks (Table 05-3, R887). -/
def headerFlaws (bs : List Byte) : List Flaw :=
  let count := field bs 24 4
  flawIf (decide (2 ≤ field bs 12 4)) 0 none32 12 887 ++
  flawIf (field bs 16 8 != bs.length) 0 none32 16 194 ++
  flawIf (field bs 28 4 != 0) 0 none32 28 887 ++
  flawIf (count == 0 || decide (bs.length < 64 + 24 * count)) 0 none32 24 194

/-- Checks of one section-table entry against those before it (R194, R195, R887). -/
def entryFlaws (bs : List Byte) (prior : List SecEntry) (e : SecEntry) : List Flaw :=
  flawIf (decide (2 ≤ e.flags)) 0 none32 (e.place + 2) 887 ++
  flawIf (e.reserved != 0) 0 none32 (e.place + 4) 887 ++
  (if e.off % 64 != 0 || decide (bs.length < e.off) then [⟨0, none32, e.place + 8, 194⟩]
   else flawIf (decide (bs.length < e.off + e.len)) 0 none32 (e.place + 16) 194) ++
  flawIf (decide (e.off < 64 + 24 * field bs 24 4)) 0 none32 (e.place + 8) 195 ++
  flawIf (prior.any fun p => p.type == e.type) 0 none32 e.place 195 ++
  flawIf (e.len != 0 && prior.any fun p => p.len != 0 && decide (p.off < e.off + e.len) && decide (e.off < p.off + p.len))
    0 none32 (e.place + 8) 195

def tableFlaws (bs : List Byte) : List SecEntry → List SecEntry → List Flaw
  | _, [] => []
  | prior, e :: es => entryFlaws bs prior e ++ tableFlaws bs (prior ++ [e]) es

/-- The SIGNATURE section is where R197 puts it. -/
def signatureFlaws (bs : List Byte) : List Flaw :=
  let es := secTable bs
  let signed := field bs 12 4 % 2 == 1
  flawIf (signed != hasSec bs 0xFF) 0 none32 12 197 ++
  match es.find? fun e => e.type == 0xFF with
  | some e => flawIf (signed && (e.len != 16616 || e.off + e.len != bs.length || es.any fun o => decide (e.off < o.off))) 0xFF none32 0 197
  | none => []

/-- Lengths that the records of a section fix (R243, R253, Table 05-4). -/
def sizeFlaws (bs : List Byte) : List Flaw :=
  (knownSecs.flatMap fun (t, n) => flawIf (n != 0 && (secBytes bs t).length % n != 0) t none32 0 195) ++
  (let b := secBytes bs 9
   flawIf (hasSec bs 9 && (decide (b.length < 16) || b.length != 16 + 8 * field b 2 2)) 9 none32 2 243) ++
  (let b := secBytes bs 10
   flawIf (hasSec bs 10 && (decide (b.length < 64) || b.length != 64 + 32 * field b 24 4 + 16 * field b 28 4)) 10 none32 24 253)

/-- Row 1 of Table 05-7. -/
def formatCheck (bs : List Byte) : Option Reject :=
  if bs.length < 64 ∨ bs.take 8 ≠ tallyMagic then some (Flaw.reject errImageFormat ⟨0, none32, 0, 194⟩)
  else
    let hs := headerFlaws bs
    if hs.any fun f => f.offset == 24 then rejectFirst errImageFormat hs
    else
      let missing := requiredSecs.flatMap fun t => flawIf (!hasSec bs t) t none32 0 195
      rejectFirst errImageFormat (hs ++ tableFlaws bs [] (secTable bs) ++ signatureFlaws bs ++ missing ++ sizeFlaws bs)

/-- Consecutive records of `n` bytes. -/
def records (n : Nat) (bs : List Byte) : List (List Byte) := chunksOf n (bs.length / n) bs
/-- Records with their indices. -/
def numbered {α : Type} (xs : List α) : List (Nat × α) := xs.zipIdx.map fun (x, i) => (i, x)

/-- Variants of each opcode (Table 05-8); 0 for an unknown opcode. -/
def variantsOf : Nat → Nat
  | 1 => 1 | 2 => 1 | 3 => 4 | 4 => 2 | 5 => 2 | 6 => 1 | 7 => 2 | 8 => 1 | 9 => 3 | 10 => 7 | 11 => 2 | 12 => 2 | _ => 0

/-- Row 2 of Table 05-7 (R196). Of the header's version only the major one is checked: a minor version other than the 0 that Table 05-3 gives is
accepted (DESIGN CHOICE, log 72). -/
def versionCheck (bs : List Byte) : Option Reject :=
  let unknown := (secTable bs).flatMap fun e =>
    flawIf (e.flags % 2 == 1 && !(knownSecs.any fun k => k.1 == e.type)) e.type none32 0 196
  let ops := (numbered (records 64 (secBytes bs 5))).flatMap fun (i, r) =>
    let v := variantsOf (field r 0 1)
    if v = 0 then [⟨5, i, 0, 202⟩] else flawIf (decide (v ≤ field r 1 1)) 5 i 1 202
  rejectFirst errImageVersion (flawIf (field bs 8 2 != 1) 0 none32 8 194 ++ unknown ++ ops)

/-- Where the SIGNATURE section starts, or the image's end. -/
def bodyEnd (bs : List Byte) : Nat :=
  match (secTable bs).find? fun e => e.type == 0xFF with
  | some e => e.off
  | none => bs.length

/-- Row 3 of Table 05-7. -/
def digestCheck (bs : List Byte) : Option Reject :=
  if sha256 (slice bs 64 (bodyEnd bs - 64)) = slice bs 32 32 then none else some (Flaw.reject errImageDigest ⟨0, none32, 32, 194⟩)

/-- Both signatures of the image verify under the key pair that the ring lists at the key index (R197, R198). -/
def signaturesOk (keys : List (Nat × List Byte × List Byte)) (bs : List Byte) : Bool :=
  let b := secBytes bs 0xFF
  match keys.find? fun k => k.1 == field b 0 4 with
  | some (_, rsa, slh) =>
    Config.rsaVerify rsa (bs.take 64) (slice b 8 384) && Config.slhVerify slh (bs.take 64) (slice b 392 16224)
  | none => false

/-- Row 4 of Table 05-7: policy value 2 permits unsigned images (R199, Table 15-8). -/
def signatureCheck (s : State) (bs : List Byte) : Option Reject :=
  if hasSec bs 0xFF then
    let keys := match s.dev.ring with | some r => r.keys | none => []
    if signaturesOk keys bs then none else some (Flaw.reject errImageSignature ⟨0xFF, none32, 0, 198⟩)
  else if (policy s).unsignedImages = 2 then none
  else some (Flaw.reject errImageSignature ⟨0xFF, none32, 0, 199⟩)

/-! ### Records -/

/-- The tensor IDs of an op's inputs or outputs: `n` of the four at `off`. -/
def idList (r : List Byte) (off n : Nat) : List Nat := (List.range (min n 4)).map fun i => field r (off + 4 * i) 4

/-- Words of the axis list at byte offset `off` of LISTS; none for 0xFFFF_FFFF or a list that does not lie inside (R880). -/
def axisList (lists : List Byte) (off : Nat) : Option (List Nat) :=
  if off = none32 then some []
  else if off % 4 != 0 || decide (lists.length < off + 4) then none
  else
    let n := field lists off 4
    if lists.length < off + 4 + 4 * n then none else some ((List.range n).map fun i => field lists (off + 4 + 4 * i) 4)

def parseTensor (r : List Byte) : TensorRec :=
  let rank := field r 8 1
  { name := field r 4 4, rank, fmt := field r 9 1, role := field r 10 1, blockPos := field r 11 1, replicated := field r 12 2,
    rule := field r 14 2, axes := (List.range (min rank 8)).map fun i => field r (16 + 4 * i) 4, depth := field r 48 1, flags := field r 49 1 }

/-- Size of an op's parameter block (Table 05-8a); `head` is what PARAMS holds from its offset on. Rank `xr` is X's. -/
def paramSize (opcode variant xr : Nat) (head : List Byte) : Nat :=
  match opcode with
  | 2 => 8 + 4 * field head 0 2 + 4 * field head 2 2
  | 4 => 24 | 5 => 8 | 6 => 8 | 7 => 8 | 9 => 8
  | 10 => if variant = 6 then 0 else 8
  | 11 => if variant = 0 then 40 * xr else 0
  | 12 => 16
  | _ => 0

/-- The class and variant take a parameter block (Table 05-8a). -/
def needsParams (opcode variant : Nat) : Bool :=
  opcode == 2 || opcode == 4 || opcode == 5 || opcode == 6 || opcode == 7 || opcode == 9 || opcode == 12 ||
  (opcode == 10 && variant != 6) || (opcode == 11 && variant == 0)

/-- The class names an axis list (R880). -/
def needsAxes (opcode : Nat) : Bool := opcode == 1 || opcode == 3 || opcode == 4 || opcode == 5

/-- An op record with its list and block. A backward ATTEND takes six inputs (Table 05-8) where the record has room for four (Table 05-6): the
two that the record cannot hold, dO and lse, come from the configuration. -/
def parseOp (imageId : DWord) (lists params : List Byte) (tensors : List TensorRec) (i : Nat) (r : List Byte) : OpRec :=
  let opcode := field r 0 1
  let variant := field r 1 1
  let more := if opcode = 4 ∧ variant = 1 ∧ field r 2 1 = 6 then [(Config.attendInputs imageId i).1, (Config.attendInputs imageId i).2] else []
  let ins := idList r 8 (field r 2 1) ++ more
  let xr := match ins with | x :: _ => ((tensors[x]?).map (·.rank)).getD 0 | [] => 0
  let off := field r 44 4
  let block := if needsParams opcode variant && off != none32 then slice params off (paramSize opcode variant xr (params.drop off)) else []
  { opcode, variant, flags := field r 4 2, phase := field r 6 2, ins, outs := idList r 24 (field r 3 1),
    axes := (axisList lists (field r 40 4)).getD [], params := block, machine := field r 48 2 }

def parseSafe (b : List Byte) : Safeguards :=
  { tau := if field b 0 4 = 0 then 0x3F000000 else BitVec.ofNat 32 (field b 0 4)
    limit := if field b 4 4 = 0 then 0x7F800000 else BitVec.ofNat 32 (field b 4 4)
    skipLimit := orDefault (field b 8 2) 16, mbInit := orDefault (field b 10 2) 1, mbMax := orDefault (field b 12 2) 65535
    examples := field b 16 4, normSource := field b 20 4 }

/-- A promotion rule; 0xFF in a format byte takes the default (R255, Table 04-3). -/
def parsePromo (r : List Byte) : PromoRule :=
  let f := fun (o d : Nat) => if field r o 1 = 0xFF then d else field r o 1
  { tensor := field r 0 4, sat := field r 4 4, uf := field r 8 4, minConv := field r 12 8, ceiling := f 20 1, mx6 := f 21 4, mx8 := f 22 2 }

def parseProg (r : List Byte) : ProgRule := ⟨field r 0 4, field r 4 1, field r 8 4, field r 12 4⟩

/-- Safeguard records: promotion rules, then program rules (R253). -/
def promoRecords (b : List Byte) : List (List Byte) := (List.range (field b 24 4)).map fun i => slice b (64 + 32 * i) 32
def progRecords (b : List Byte) : List (List Byte) := (List.range (field b 28 4)).map fun i => slice b (64 + 32 * field b 24 4 + 16 * i) 16

/-- The image that the bytes describe (Tables 05-3 to 05-6, R243, R250, R253 to R259). -/
def parseImage (bs : List Byte) : Image :=
  let id := BitVec.ofNat 64 (field bs 32 8)
  let tensors := (records 64 (secBytes bs 4)).map parseTensor
  let steps := secBytes bs 9
  let sg := secBytes bs 10
  { id, strings := secBytes bs 1
    machine := (records 16 (secBytes bs 2)).map fun r => (field r 4 4, field r 8 1)
    axes := (records 16 (secBytes bs 3)).map fun r => field r 8 8
    tensors
    ops := (numbered (records 64 (secBytes bs 5))).map fun (i, r) => parseOp id (secBytes bs 6) (secBytes bs 7) tensors i r
    phases := (records 16 (secBytes bs 8)).map fun r => ⟨field r 4 1, field r 8 4, field r 12 4⟩
    initPhase := if field steps 0 2 = 0xFFFF then none else some (field steps 0 2)
    lastStep := field steps 8 8
    items := (List.range (field steps 2 2)).map fun i => (field steps (16 + 8 * i) 1, field steps (20 + 8 * i) 4)
    conds := (records 16 (secBytes bs 12)).map fun r => ⟨field r 0 1, field r 1 1, field r 2 1, field r 4 4, field r 8 8⟩
    safe := if hasSec bs 10 then parseSafe sg else {}
    promos := if hasSec bs 10 then (promoRecords sg).map parsePromo else []
    progs := if hasSec bs 10 then (progRecords sg).map parseProg else []
    hints := (records 16 (secBytes bs 11)).map fun r => ⟨field r 0 1, field r 1 1, field r 4 4⟩ }

/-! ### Shapes -/

def tensorOf (im : Image) (t : Nat) : TensorRec := (im.tensors[t]?).getD ⟨0, 0, 0, 6, 0xFF, 0, 0xFFFF, [], 0, 0⟩
def axesOf (im : Image) (t : Nat) : List Nat := (tensorOf im t).axes
def axisLen (im : Image) (a : Nat) : Nat := nth im.axes a 0
def dimsOf (im : Image) (t : Nat) : List Nat := (axesOf im t).map (axisLen im)
def elemCount (im : Image) (t : Nat) : Nat := product (dimsOf im t)
def isInt (f : Nat) : Bool := f == 0x10 || f == 0x11
/-- Formats of Table 05-1. -/
def formatKnown (f : Nat) : Bool := f ≤ 0xC || f == 0x10 || f == 0x11 || f == 0x12
/-- Array formats (R42) and FP32. -/
def arrayOrFp32 (f : Nat) : Bool := f ≤ 0xC
def rankCount (im : Image) : Nat := product (im.machine.map (·.1))
/-- Group size over the machine axes of a mask (R231). -/
def groupSize (im : Image) (mask : Nat) : Nat := product ((bitList 16 mask).map fun a => (nth im.machine a (1, 4)).1)
def dataAxis (im : Image) : Option Nat := (numbered im.machine).findSome? fun (i, m) => if m.2 = 0 then some i else none

/-- Rungs of Table 04-2, lowest first; none for a format that is on no rung. -/
def rung : Nat → Option Nat
  | 0xC => some 0 | 0xB => some 0 | 0xA => some 1 | 9 => some 2 | 8 => some 3 | 6 => some 3 | 4 => some 4 | 5 => some 4
  | 2 => some 5 | 3 => some 5 | 7 => some 5 | 1 => some 6 | _ => none

/-! ### Rows 5 to 7 of Table 05-7 -/

/-- Row 5 (R262). -/
def limitCheck (bs : List Byte) (im : Image) : Option Reject :=
  let many := fun (n lim t : Nat) => flawIf (decide (lim < n)) t none32 0 262
  let code := (numbered im.ops).flatMap fun (i, o) =>
    flawIf (o.opcode == 2 && (decide (64 < field o.params 0 2) || decide (32 < field o.params 2 2))) 5 i 44 262
  rejectFirst errImageLimit
    (flawIf (decide (2 ^ 31 < bs.length)) 0 none32 16 262 ++ flawIf (decide (32 < field bs 24 4)) 0 none32 24 262 ++
     many im.machine.length 16 2 ++ flawIf (decide (1048576 < rankCount im)) 2 none32 4 262 ++ many im.axes.length 1048576 3 ++
     many im.tensors.length 1048576 4 ++ many im.ops.length 1048576 5 ++ many im.phases.length 4096 8 ++
     flawIf (decide (65535 < im.items.length)) 9 none32 2 262 ++ flawIf (decide (65536 < im.progs.length)) 10 none32 28 262 ++
     many im.hints.length 1048576 11 ++ many im.conds.length 65536 12 ++ code)

/-- Row 6 (R133). -/
def ruleCountCheck (im : Image) : Option Reject :=
  if 16384 < im.promos.length then some ⟨errSafeguardLimit, im.promos.length, detail []⟩ else none

/-- A tensor with a blocking axis is contracted along another one last, or along several of which the last is no multiple of 256 long (R97,
R879). A contraction over no axis has no last one: DESIGN CHOICE (log 90), it breaks nothing. -/
def blockAxisBad (im : Image) (axes : List Nat) (t : Nat) : Bool :=
  let r := tensorOf im t
  match axes.getLast? with
  | some last =>
    decide (r.blockPos < r.axes.length) &&
      (nth r.axes r.blockPos none32 != last || (decide (1 < axes.length) && axisLen im last % 256 != 0))
  | none => false

/-- Operands of an op on the array or the thin path, each with the axes over which it is contracted (R97). A contraction with an FP32 operand runs
in the vector unit (R114). An ATTEND forms its scores over the head axis, and, forward, P·V over the key axis; the other sums of the backward
variant run in the vector unit (DEDUCED, log 31). -/
def arrayOperands (im : Image) (o : OpRec) : List (Nat × List Nat) :=
  let fp32 := fun (t : Nat) => (tensorOf im t).fmt == 0
  let pair := fun (a b : Nat) (axes : List Nat) => if fp32 a || fp32 b then [] else [(a, axes), (b, axes)]
  let q := nth o.ins 0 none32
  let k := nth o.ins 1 none32
  let v := nth o.ins 2 none32
  if o.opcode = 1 then pair q k o.axes
  else if o.opcode = 4 ∧ o.axes.length = 4 then
    pair q k [nth o.axes 2 0] ++ (if o.variant = 0 && !fp32 v then [(v, [nth o.axes 1 0])] else [])
  else []

/-- Row 7 (R98): the object is the tensor ID (Table 04-6). -/
def blockAxisCheck (im : Image) : Option Reject :=
  (numbered im.ops).findSome? fun (i, o) =>
    ((arrayOperands im o).find? fun e => decide (e.1 < im.tensors.length) && blockAxisBad im e.2 e.1).map fun e =>
      ⟨errBlockAxis, e.1, detail [(i, 4), (40, 4), (97, 4)]⟩

/-! ### Row 8 of Table 05-7 -/

/-- A nonzero byte of a reserved field (R887). -/
def reservedBad (r : List Byte) (off n : Nat) : Bool := field r off n != 0

/-- A name offset names a string that ends inside STRINGS. Neither UTF-8 nor the empty name at offset 0 is checked (DESIGN CHOICE, log 73). -/
def nameBad (strings : List Byte) (off : Nat) : Bool := off != 0 && !((strings.drop off).any (· == 0))

def machineFlaws (im : Image) (i : Nat) (r : List Byte) : List Flaw :=
  flawIf (nameBad im.strings (field r 0 4)) 2 i 0 195 ++ flawIf (field r 4 4 == 0) 2 i 4 179 ++
  flawIf (decide (4 < field r 8 1)) 2 i 8 195 ++ flawIf (reservedBad r 9 7) 2 i 9 887 ++
  flawIf (field r 8 1 == 0 && (im.machine.take i).any fun m => m.2 == 0) 2 i 8 181

def axisFlaws (im : Image) (i : Nat) (r : List Byte) : List Flaw :=
  flawIf (nameBad im.strings (field r 0 4)) 3 i 0 195 ++ flawIf (reservedBad r 4 4) 3 i 4 887 ++
  flawIf (field r 8 8 == 0 || decide (2 ^ 40 < field r 8 8)) 3 i 8 186

/-- Requirements on a tensor record (R183 to R193, R201). A replicated mask with a bit for a machine axis that the image lacks is rejected: DESIGN
CHOICE (log 95). -/
def tensorFlaws (im : Image) (i : Nat) (r : List Byte) : List Flaw :=
  let t := parseTensor r
  let e := flawIf
  e (field r 0 4 != i) 4 i 0 201 ++ e (nameBad im.strings t.name) 4 i 4 195 ++ e (decide (8 < t.rank)) 4 i 8 185 ++
  e (!formatKnown t.fmt) 4 i 9 187 ++
  e (t.fmt == 0x12 && (decide (1 < t.rank) || decide (8 < elemCount im i))) 4 i 9 187 ++
  e (decide (6 < t.role)) 4 i 10 188 ++
  e (if isBlock t.fmt then decide (t.axes.length ≤ t.blockPos)
     else !(t.blockPos == 0xFF || (t.fmt == 1 && decide (t.blockPos < t.axes.length)))) 4 i 11 201 ++
  e (t.replicated / 2 ^ im.machine.length != 0) 4 i 12 184 ++
  e (t.rule != 0xFFFF && ((im.promos[t.rule]?).map fun p => p.tensor) != some i) 4 i 14 201 ++
  e (t.axes.any fun a => decide (im.axes.length ≤ a)) 4 i 16 185 ++ e (decide (t.axes.eraseDups.length ≠ t.axes.length)) 4 i 16 185 ++
  ((List.range (8 - t.axes.length)).flatMap fun k => e (field r (16 + 4 * (t.axes.length + k)) 4 != none32) 4 i (16 + 4 * (t.axes.length + k)) 201) ++
  e (if t.role == 4 || t.role == 5 then t.depth == 0 || decide (16 < t.depth) else t.depth != 0) 4 i 48
    (if t.role = 4 then 191 else if t.role = 5 then 192 else 201) ++
  e (decide (2 ≤ t.flags) || (t.flags == 1 && !(t.role == 2 || t.role == 3 || t.role == 6))) 4 i 49 201 ++
  e (reservedBad r 50 14) 4 i 50 887

/-- The phase that holds an op; none for an op that no phase or more than one phase holds (R242). -/
def phaseHolding (im : Image) (op : Nat) : Option Nat :=
  match (numbered im.phases).filter fun (_, p) => decide (p.first ≤ op) && decide (op < p.first + p.count) with
  | [(i, _)] => some i
  | _ => none

def phaseFlaws (im : Image) (i : Nat) (r : List Byte) : List Flaw :=
  flawIf (nameBad im.strings (field r 0 4)) 8 i 0 195 ++ flawIf (decide (4 < field r 4 1)) 8 i 4 242 ++ flawIf (reservedBad r 5 3) 8 i 5 887 ++
  flawIf (decide (im.ops.length < field r 8 4 + field r 12 4) ||
    (im.phases.take i).any fun p => decide (p.first < field r 8 4 + field r 12 4) && decide (field r 8 4 < p.first + p.count)) 8 i 8 242

/-- Items of the step program (R244, R245): the loops met, whether one is open, and the open IFs with whether they have an ELSE. -/
def itemFlaws (im : Image) : List (Nat × Nat × Nat) → Bool → Bool → List Bool → List Flaw
  | [], _, inLoop, ifs => flawIf (inLoop || !ifs.isEmpty) 9 none32 2 244
  | (i, code, arg) :: rest, looped, inLoop, ifs =>
    match code with
    | 1 =>
      flawIf (decide (im.phases.length ≤ arg)) 9 i 4 244 ++
      flawIf (inLoop && ((im.phases[arg]?).map (·.kind)) == some 2) 9 i 4 245 ++ itemFlaws im rest looped inLoop ifs
    | 2 => flawIf (looped || !ifs.isEmpty) 9 i 0 245 ++ itemFlaws im rest true true ifs
    | 3 => flawIf (!inLoop || !ifs.isEmpty) 9 i 0 244 ++ itemFlaws im rest looped false ifs
    | 4 =>
      flawIf (decide (im.conds.length ≤ arg)) 9 i 4 244 ++ flawIf (decide (8 ≤ ifs.length)) 9 i 0 245 ++
      itemFlaws im rest looped inLoop (false :: ifs)
    | 5 => flawIf (ifs.head? != some false) 9 i 0 244 ++ itemFlaws im rest looped inLoop (true :: ifs.drop 1)
    | 6 => flawIf ifs.isEmpty 9 i 0 244 ++ itemFlaws im rest looped inLoop (ifs.drop 1)
    | _ => ⟨9, i, 0, 244⟩ :: itemFlaws im rest looped inLoop ifs

def stepFlaws (im : Image) (b : List Byte) : List Flaw :=
  flawIf (match im.initPhase with | some p => decide (im.phases.length ≤ p) | none => false) 9 none32 0 243 ++
  flawIf (reservedBad b 4 4) 9 none32 4 887 ++
  ((List.range im.items.length).flatMap fun i => flawIf (reservedBad b (17 + 8 * i) 3) 9 i 1 887) ++
  itemFlaws im ((numbered im.items).map fun (i, c, a) => (i, c, a)) false false []

/-- Phases that a RUN inside the LOOP names (R206). -/
def loopPhases : List (Nat × Nat) → Bool → List Nat
  | [], _ => []
  | (code, arg) :: rest, inLoop =>
    if code = 2 then loopPhases rest true
    else if code = 3 then loopPhases rest false
    else if code = 1 ∧ inLoop then arg :: loopPhases rest inLoop
    else loopPhases rest inLoop

/-- Numbers of inputs and of outputs that a class and variant take (Table 05-8, R219). -/
def insAllowed (opcode variant : Nat) : List Nat :=
  match opcode with
  | 1 => [2] | 2 => [1, 2, 3, 4] | 3 => [1] | 4 => if variant = 0 then [3, 4] else [6]
  | 5 => if variant = 0 then [1, 2] else [1, 2, 3] | 6 => [2] | 7 => [2] | 8 => [1] | 9 => [0]
  | 10 => if variant = 6 then [0] else [1] | 11 => [1] | _ => [0]
def outsAllowed (opcode variant : Nat) : List Nat :=
  match opcode with
  | 4 => if variant = 0 then [1, 2] else [3]
  | 10 => if variant = 6 then [0] else [1]
  | 12 => [0]
  | _ => [1]

/-- Nothing twice in a list. -/
def distinct (xs : List Nat) : Bool := decide (xs.eraseDups.length = xs.length)
def subset (xs ys : List Nat) : Bool := xs.all fun x => ys.contains x

/-- The fields of a box COPY (R237): source, destination, extent, step and iteration coefficients of axis position `k`. -/
def boxField (params : List Byte) (k j : Nat) : Int := (BitVec.ofNat 64 (field params (40 * k + 8 * j) 8)).toInt

/-- Elements per unit of the format's scales: its tensor-scale group, or its block for MX formats (R234, R239). -/
def scaleUnit (f : Nat) : Nat := if isGrouped f then 4096 else blockSize f

/-- A failure of a class's requirement that reads the record's fields at the offsets `needs`: no requirement is judged on a field of the
record that is itself in `broken`. DESIGN CHOICE (log 30): a failure inside a parameter block or an axis list stands under section OPS, at the op's
record and its params (44) or axes (40) field. -/
def flawNeed (broken needs : List Nat) (bad : Bool) (i off chk : Nat) : List Flaw :=
  flawIf (bad && !needs.any broken.contains) 5 i off chk

def contractFlaws (br : List Nat) (im : Image) (i : Nat) (o : OpRec) : List Flaw :=
  let a := axesOf im (nth o.ins 0 0)
  let b := axesOf im (nth o.ins 1 0)
  let y := axesOf im (nth o.outs 0 0)
  flawNeed br [8] (o.ins.any fun t => !arrayOrFp32 (tensorOf im t).fmt) i 8 209 ++
  flawNeed br [8, 24] (!subset y (a ++ b)) i 24 207 ++
  flawNeed br [8, 24, 40] ((a ++ b).any fun x => !o.axes.contains x && !y.contains x) i 24 207 ++
  flawNeed br [8, 24, 40] (o.axes.any fun x => !a.contains x || !b.contains x || y.contains x) i 40 207

/-- Op values of Table 05-10. -/
def vecOpOf : Nat → Option VecOp
  | 0x10 => some .add | 0x11 => some .sub | 0x12 => some .mul | 0x13 => some .fma | 0x14 => some .min | 0x15 => some .max
  | 0x16 => some .neg | 0x17 => some .abs | 0x18 => some .rcp | 0x19 => some .rsq | 0x1A => some .exp | 0x1B => some .log
  | 0x1C => some .rbf | 0x1D => some .cps | 0x20 => some .clt | 0x21 => some .cle | 0x22 => some .ceq | 0x23 => some .sel
  | 0x30 => some .iadd | 0x31 => some .isub | 0x32 => some .imul | 0x33 => some .iand | 0x34 => some .ior | 0x35 => some .ixor
  | 0x36 => some .shl | 0x37 => some .shr | 0x38 => some .sra | 0x39 => some .ilt | 0x3A => some .i2f | 0x3B => some .u2f
  | 0x3C => some .f2i | _ => none

/-- Constants and instructions of a MAP block (R211). -/
def mapConsts (p : List Byte) : List Nat := (List.range (field p 2 2)).map fun i => field p (8 + 4 * i) 4
def mapWords (p : List Byte) : List Nat := (List.range (field p 0 2)).map fun i => field p (8 + 4 * field p 2 2 + 4 * i) 4

/-- An instruction word that R215 rejects. -/
def wordBad (nIn nConst rank w : Nat) : Bool :=
  let op := bits w 31 24
  let k := bits w 7 0
  if op = 1 then decide (nIn ≤ k)
  else if op = 2 then decide (nConst ≤ k)
  else if op = 3 then decide (rank ≤ k)
  else if op = 4 ∨ op = 5 then false
  else (vecOpOf op).isNone

def mapFlaws (br : List Nat) (im : Image) (i : Nat) (o : OpRec) : List Flaw :=
  let y := axesOf im (nth o.outs 0 0)
  flawNeed br [8, 24] (o.ins.any fun t => !subset (axesOf im t) y) i 8 210 ++
  flawNeed br [44] (field o.params 0 2 == 0) i 44 211 ++
  flawNeed br [2, 24, 44] ((mapWords o.params).any (wordBad o.ins.length (field o.params 2 2) y.length)) i 44 215

def reduceFlaws (br : List Nat) (im : Image) (i : Nat) (o : OpRec) : List Flaw :=
  let x := axesOf im (nth o.ins 0 0)
  flawNeed br [8, 24] (isInt (tensorOf im (nth o.ins 0 0)).fmt != isInt (tensorOf im (nth o.outs 0 0)).fmt) i 24 884 ++
  flawNeed br [8, 24, 40] (!subset o.axes x || axesOf im (nth o.outs 0 0) != x.filter fun a => !o.axes.contains a) i 40 216

/-- Fields of an ATTEND block (R221). -/
def attScale (p : List Byte) : Word := BitVec.ofNat 32 (field p 0 4)
def attMask (p : List Byte) : Nat := field p 4 1
def attFormat (p : List Byte) : Nat := field p 5 1
def attOffset (p : List Byte) : Int := (BitVec.ofNat 64 (field p 8 8)).toInt
def attWindow (p : List Byte) : Nat := field p 16 8

def attendFlaws (br : List Nat) (im : Image) (i : Nat) (o : OpRec) : List Flaw :=
  let br' := if o.axes.length = 4 then br else 40 :: br
  let qa := nth o.axes 0 0
  let ka := nth o.axes 1 0
  let hq := nth o.axes 2 0
  let hv := nth o.axes 3 0
  let fmt := fun (t : Nat) => (tensorOf im t).fmt
  let back := o.variant == 1
  let coreBad := fun (ts : List Nat) => ts.any fun t => !arrayOrFp32 (fmt t)
  let restBad := fun (ts : List Nat) => ts.any fun t => isInt (fmt t)
  let q := axesOf im (nth o.ins 0 0)
  let k := axesOf im (nth o.ins 1 0)
  let v := axesOf im (nth o.ins 2 0)
  let out := q.map fun a => if a = hq then hv else a
  let lse := q.filter (· != hq)
  let want := if back then [out, out, lse, q, k, v] else [out, lse].take o.outs.length
  let got := (if back then o.ins.drop 3 ++ o.outs else o.outs).map (axesOf im)
  let p := o.params
  flawNeed br [2, 8] (if back then coreBad (o.ins.take 5) || restBad (o.ins.drop 5) else coreBad (o.ins.take 3) || restBad (o.ins.drop 3)) i 8 889 ++
  flawNeed br [3, 24] (if back then coreBad o.outs else coreBad (o.outs.take 1) || restBad (o.outs.drop 1)) i 24 889 ++
  flawNeed br' [2, 8, 40] (!back && (o.ins.drop 3).any fun t => (axesOf im t).any fun a => (!q.contains a || a == hq) && a != ka) i 8 889 ++
  flawNeed br [2, 3, 8, 24] (back && o.outs.map (axesOf im) != [q, k, v]) i 24 220 ++
  flawNeed br' [2, 3, 8, 24, 40] (got != want) i 24 220 ++
  flawNeed br [40] (o.axes.length != 4) i 40 220 ++
  flawNeed br' [2, 8, 40] (!subset [qa, hq] q || !subset [ka, hq] k || !subset [ka, hv] v ||
    (k ++ v).any fun a => !o.axes.contains a && !q.contains a) i 40 220 ++
  flawNeed br [44] (decide (2 < attMask p) || !([1, 2, 8].contains (attFormat p)) || (attMask p == 0 && attOffset p != 0) ||
    (if attMask p = 2 then attWindow p == 0 || decide (2 ^ 40 < attWindow p) else attWindow p != 0)) i 44 221 ++
  flawNeed br [44] (reservedBad p 6 2) i 44 887

def normaliseFlaws (br : List Nat) (im : Image) (i : Nat) (o : OpRec) : List Flaw :=
  let x := axesOf im (nth o.ins 0 0)
  flawNeed br [8, 40] ((o.ins.drop 1).any fun t => !subset (axesOf im t) o.axes) i 8 219 ++
  flawNeed br [8, 24, 40] (!subset o.axes x || axesOf im (nth o.outs 0 0) != x) i 40 219 ++
  flawNeed br [44] (reservedBad o.params 4 4) i 44 887

/-- Axes other than the one at position `p`. -/
def without (xs : List Nat) (p : Nat) : List Nat := xs.take p ++ xs.drop (p + 1)

def gatherFlaws (br : List Nat) (im : Image) (i : Nat) (o : OpRec) : List Flaw :=
  let t := axesOf im (nth o.ins 0 0)
  let p := field o.params 0 1
  flawNeed br [8] (!isInt (tensorOf im (nth o.ins 1 0)).fmt) i 8 225 ++
  flawNeed br [8, 24] ((axesOf im (nth o.outs 0 0)).length + 1 != (axesOf im (nth o.ins 1 0)).length + t.length) i 24 225 ++
  flawNeed br [8, 24, 44] (axesOf im (nth o.outs 0 0) != axesOf im (nth o.ins 1 0) ++ without t p) i 24 225 ++
  flawNeed br [8, 44] (decide (t.length ≤ p)) i 44 881 ++ flawNeed br [44] (reservedBad o.params 1 7) i 44 887

def scatterFlaws (br : List Nat) (im : Image) (i : Nat) (o : OpRec) : List Flaw :=
  let y := axesOf im (nth o.outs 0 0)
  let p := field o.params 0 1
  flawNeed br [8] (!isInt (tensorOf im (nth o.ins 1 0)).fmt) i 8 226 ++
  flawNeed br [8, 24] ((axesOf im (nth o.ins 0 0)).length + 1 != (axesOf im (nth o.ins 1 0)).length + y.length) i 8 226 ++
  flawNeed br [8, 24, 44] (axesOf im (nth o.ins 0 0) != axesOf im (nth o.ins 1 0) ++ without y p) i 8 226 ++
  flawNeed br [24, 44] (decide (y.length ≤ p)) i 44 881 ++ flawNeed br [44] (reservedBad o.params 1 7) i 44 887

def collectiveFlaws (br : List Nat) (im : Image) (i : Nat) (o : OpRec) : List Flaw :=
  let v := o.variant
  if v = 6 then flawNeed br [] (o.flags / 4 % 2 == 1) i 4 236
  else
    let x := nth o.ins 0 0
    let y := nth o.outs 0 0
    let fx := (tensorOf im x).fmt
    let fy := (tensorOf im y).fmt
    let g := groupSize im o.machine
    let comb := field o.params 0 1
    let p := field o.params 1 1
    let root := field o.params 4 4
    let moves := v == 2 || v == 3 || v == 4
    let cuts := v == 1 || v == 2 || v == 3
    let kx := nth (dimsOf im x) p 0
    let ky := nth (dimsOf im y) p 0
    let lenOk := if v = 1 then kx == g * ky else if v = 2 then ky == g * kx else kx == ky && kx % g == 0
    flawNeed br [44] ((moves && comb != 0) || (!cuts && p != 0) || (v != 4 && root != 0)) i 44 881 ++
    flawNeed br [44] (decide (v ≤ 1) && decide (2 < comb)) i 44 233 ++
    flawNeed br [8] (v == 5 && (!(isInt fx || fx == 0 || fx == 0x12) || decide ((if fx = 0x12 then 8 else 16) < elemCount im x))) i 44 235 ++
    flawNeed br [8, 44] (v == 5 && decide ((if isInt fx then 4 else 0) < comb)) i 44 235 ++
    flawNeed br [] (o.flags / 4 % 2 == 1 && (decide (1 < v) || (dataAxis im).map (2 ^ ·) != some o.machine)) i 4 236 ++
    flawNeed br [44] (o.flags / 4 % 2 == 1 && comb != 0) i 4 236 ++
    flawNeed br [8, 24] (!cuts && axesOf im x != axesOf im y) i 24 232 ++
    flawNeed br [8, 24] (v == 0 && !isInt fx && isInt fy) i 24 232 ++
    flawNeed br [8, 44] (cuts && decide ((axesOf im x).length ≤ p)) i 44 881 ++
    flawNeed br [8, 24] (cuts && (axesOf im x).length != (axesOf im y).length) i 24 232 ++
    flawNeed br [8, 24, 44, 48] (cuts && (without (axesOf im x) p != without (axesOf im y) p || !lenOk)) i 24 232 ++
    flawNeed br [8, 24] (moves && fx != fy) i 24 234 ++
    flawNeed br [44, 48] (v == 4 && decide (g ≤ root)) i 44 881 ++
    flawNeed br [8, 44] ((v == 2 || v == 3) && isBlock fx && (tensorOf im x).blockPos == p &&
      (if v = 2 then kx else kx / g) % scaleUnit fx != 0) i 44 234 ++
    flawNeed br [44] (reservedBad o.params 2 2) i 44 887

def copyFlaws (br : List Nat) (im : Image) (i : Nat) (o : OpRec) : List Flaw :=
  let x := tensorOf im (nth o.ins 0 0)
  let y := tensorOf im (nth o.outs 0 0)
  if o.variant = 1 then
    flawNeed br [8, 24] (elemCount im (nth o.ins 0 0) != elemCount im (nth o.outs 0 0) || x.fmt != y.fmt || !([0, 1, 0x10, 0x11, 0x12].contains x.fmt)) i 24 240
  else
    let bp := x.blockPos
    let u : Int := scaleUnit x.fmt
    let f := boxField o.params bp
    let nx : Int := nth (dimsOf im (nth o.ins 0 0)) bp 0
    let ny : Int := nth (dimsOf im (nth o.outs 0 0)) bp 0
    flawNeed br [8, 24] (x.fmt != y.fmt || x.rank != y.rank) i 24 237 ++
    flawNeed br [8, 44] ((List.range x.axes.length).any fun k => decide (boxField o.params k 2 < 0) || decide (2 ^ 40 < boxField o.params k 2)) i 44 237 ++
    flawNeed br [8, 24] (isBlock x.fmt && x.blockPos != y.blockPos) i 24 239 ++
    flawNeed br [8, 24, 44] (isBlock x.fmt && (f 3 != 0 || f 4 != 0 || f 0 % u != 0 || f 1 % u != 0 ||
      (f 2 % u != 0 && !(f 0 + f 2 == nx && f 1 + f 2 == ny)))) i 44 239

def hostSignalFlaws (br : List Nat) (i : Nat) (o : OpRec) : List Flaw :=
  let n := field o.params 4 4
  let t := field o.params 8 4
  flawNeed br [44] (decide (15 < field o.params 0 1) || n == 0 || decide (2 ^ 31 ≤ n) || decide (1000000 < t) || (o.variant == 0 && t != 0)) i 44 881 ++
  flawNeed br [44] (reservedBad o.params 1 3 || reservedBad o.params 12 4) i 44 887

/-- What each class requires. -/
def classFlaws (br : List Nat) (im : Image) (i : Nat) (o : OpRec) : List Flaw :=
  match o.opcode with
  | 1 => contractFlaws br im i o
  | 2 => mapFlaws br im i o ++ flawNeed br [44] (reservedBad o.params 4 4) i 44 887
  | 3 => reduceFlaws br im i o
  | 4 => attendFlaws br im i o
  | 5 => normaliseFlaws br im i o
  | 6 => gatherFlaws br im i o
  | 7 => scatterFlaws br im i o
  | 8 => flawNeed br [8, 24] (axesOf im (nth o.ins 0 0) != axesOf im (nth o.outs 0 0)) i 24 228
  | 9 => flawNeed br [44] (o.variant != 2 && field o.params 4 4 != 0) i 44 881
  | 10 => collectiveFlaws br im i o
  | 11 => copyFlaws br im i o
  | _ => hostSignalFlaws br i o

/-- The op forms its result values in FP32, so that it may carry the loop-sum flag (R205, R206): a GATHER or a CAST of integers or from FP64 into FP64
does not, nor does a collective that combines integers. -/
def formsFp32 (im : Image) (o : OpRec) : Bool :=
  (o.opcode == 1 || o.opcode == 2 || o.opcode == 3 || o.opcode == 4 || o.opcode == 5 || o.opcode == 6 || o.opcode == 8 || o.opcode == 9 ||
    (o.opcode == 10 && ((decide (o.variant ≤ 1) && !isInt (tensorOf im (nth o.ins 0 0)).fmt) || (o.variant == 5 && (tensorOf im (nth o.ins 0 0)).fmt == 0)))) &&
    (o.outs.all fun t => !isInt (tensorOf im t).fmt) &&
    !((o.opcode == 6 || o.opcode == 8) && isInt (tensorOf im (nth o.ins 0 0)).fmt) &&
    !((o.opcode == 6 || o.opcode == 8) && (tensorOf im (nth o.ins 0 0)).fmt == 0x12 && o.outs.any fun t => (tensorOf im t).fmt == 0x12)

/-- Requirements on an op record (R202 to R206, R880). An axis list that names an axis twice or one that the image lacks, and a machine mask with a bit
for a machine axis that it lacks, are rejected by check 202: DESIGN CHOICE (log 95). -/
def opFlaws (im : Image) (lists params : List Byte) (i : Nat) (r : List Byte) : List Flaw :=
  let o := (im.ops[i]?).getD ⟨0, 0, 0, 0, [], [], [], [], 0⟩
  let loop := loopPhases im.items false
  let inLoop := loop.contains o.phase
  let nIn := field r 2 1
  let nOut := field r 3 1
  let nt := im.tensors.length
  let flags := o.flags
  let shared := o.outs.any fun t => o.ins.contains t
  let same := (o.opcode == 2 || o.opcode == 8) && o.ins.all fun t => axesOf im t == axesOf im (nth o.outs 0 0)
  let listed := if o.opcode = 4 then o.axes.take 3 else o.axes
  let off := field r 44 4
  let kept := if o.opcode = 4 ∧ o.variant = 1 then min nIn 4 else nIn
  let own :=
    flawIf (!(insAllowed o.opcode o.variant).contains nIn) 5 i 2 (if o.opcode = 5 ∧ o.variant = 0 ∧ nIn = 3 then 219 else 202) ++
    flawIf (!(outsAllowed o.opcode o.variant).contains nOut) 5 i 3 202 ++
    flawIf (decide (8 ≤ flags)) 5 i 4 202 ++
    flawIf (flags / 2 % 2 == 1 && (!inLoop || !formsFp32 im o)) 5 i 4 206 ++
    flawIf (flags / 4 % 2 == 1 && o.opcode != 10) 5 i 4 236 ++
    flawIf (phaseHolding im i != some o.phase) 5 i 6 242 ++
    flawIf (o.ins.any fun t => decide (nt ≤ t)) 5 i 8 202 ++
    ((List.range (4 - kept)).flatMap fun k => flawIf (field r (8 + 4 * (kept + k)) 4 != none32) 5 i (8 + 4 * (kept + k)) 202) ++
    flawIf (o.outs.any fun t => decide (nt ≤ t)) 5 i 24 202 ++
    flawIf (!distinct o.outs || (shared && !same)) 5 i 24 204 ++
    flawIf (flags / 2 % 2 == 1 && im.ops.any fun p => loop.contains p.phase && o.outs.any fun t => p.ins.contains t || (p.opcode == 7 && p.outs.contains t)) 5 i 24 206 ++
    ((List.range (4 - nOut)).flatMap fun k => flawIf (field r (24 + 4 * (nOut + k)) 4 != none32) 5 i (24 + 4 * (nOut + k)) 202) ++
    flawIf (needsAxes o.opcode == (field r 40 4 == none32) || (axisList lists (field r 40 4)).isNone) 5 i 40 880 ++
    flawIf (!distinct listed || o.axes.any fun a => decide (im.axes.length ≤ a)) 5 i 40 202 ++
    flawIf (needsParams o.opcode o.variant == (off == none32)) 5 i 44 880 ++
    flawIf (off != none32 && (off % 8 != 0 ||
      decide (params.length < off + paramSize o.opcode o.variant (axesOf im (nth o.ins 0 0)).length (params.drop off)))) 5 i 44 880 ++
    flawIf (o.machine / 2 ^ im.machine.length != 0) 5 i 48 202 ++ flawIf (reservedBad r 50 14) 5 i 50 887
  own ++ classFlaws ((own.filter fun f => f.check == 202 || f.check == 219 || f.check == 880).map (·.offset)) im i o

/-- The norm-source tensor is a scalar FP32 tensor that a REDUCE of variant sum of squares writes (R254). -/
def normSourceOk (im : Image) (t : Nat) : Bool :=
  decide (t < im.tensors.length) && (tensorOf im t).rank == 0 && (tensorOf im t).fmt == 0 &&
    im.ops.any fun o => o.opcode == 3 && o.variant == 1 && o.outs.contains t

def safeguardFlaws (im : Image) (b : List Byte) : List Flaw :=
  let g := im.safe
  let tau := (dec32 g.tau)
  let lim := (dec32 g.limit)
  flawIf (!(tau.isFinite && decide (1 / 2 ≤ tau.real) && decide (tau.real ≤ 16))) 10 none32 0 154 ++
  flawIf (!(lim == .inf false || (lim.isFinite && decide (pow2 (-126) ≤ lim.real)))) 10 none32 4 165 ++
  flawIf (decide (g.mbMax < g.mbInit)) 10 none32 10 253 ++ flawIf (reservedBad b 14 2) 10 none32 14 887 ++
  flawIf (g.examples == 0) 10 none32 16 253 ++
  flawIf (g.normSource != none32 && decide (im.tensors.length ≤ g.normSource)) 10 none32 20 253 ++
  flawIf (lim != .inf false && !normSourceOk im g.normSource) 10 none32 20 254 ++
  flawIf (reservedBad b 32 32) 10 none32 32 887

def promoFlaws (im : Image) (i : Nat) (r : List Byte) : List Flaw :=
  let p := parsePromo r
  let f := (tensorOf im p.tensor).fmt
  flawIf (decide (im.tensors.length ≤ p.tensor)) 10 i 0 255 ++ flawIf (decide (2 ^ 24 < p.sat)) 10 i 4 136 ++
  flawIf (decide (2 ^ 24 < p.uf)) 10 i 8 136 ++ flawIf (decide (2 ^ 40 < p.minConv)) 10 i 12 136 ++
  flawIf (match rung f, rung p.ceiling with | some a, some c => decide (c < a) | some _, none => true | none, some _ => true | none, none => true)
    10 i 20 136 ++
  flawIf (p.mx6 != 4 && p.mx6 != 5) 10 i 21 136 ++ flawIf (p.mx8 != 2 && p.mx8 != 3) 10 i 22 136 ++ flawIf (reservedBad r 23 9) 10 i 23 887

def progFlaws (im : Image) (i : Nat) (r : List Byte) : List Flaw :=
  let p := parseProg r
  flawIf (decide (im.conds.length ≤ p.cond)) 10 i 0 256 ++ flawIf (p.action != 1 && p.action != 2) 10 i 4 256 ++ flawIf (reservedBad r 5 3) 10 i 5 887 ++
  flawIf (p.action == 2 && decide (im.tensors.length ≤ p.tensor)) 10 i 8 256 ++
  flawIf (p.action == 2 && decide (p.tensor < im.tensors.length) && (tensorOf im p.tensor).blockPos == 0xFF) 10 i 8 879 ++
  flawIf (p.action == 1 && (p.value == 0 || decide (im.safe.mbMax < p.value))) 10 i 12 171 ++
  flawIf (p.action == 2 && !formatKnown p.value) 10 i 12 256

/-- The tensor that a condition of source 0 reads (R252). -/
def condTensorOk (im : Image) (t : Nat) : Bool :=
  let r := tensorOf im t
  let full := 2 ^ im.machine.length - 1
  (r.role == 2 || r.role == 3 || r.role == 6) && ([0, 0x10, 0x11, 0x12].contains r.fmt) &&
    im.ops.all fun o => !o.outs.contains t || (o.opcode == 10 && o.variant == 5 && o.machine == full)

def condFlaws (im : Image) (i : Nat) (r : List Byte) : List Flaw :=
  let src := field r 0 1
  let id := field r 4 4
  let ruled := decide (4 ≤ src) && decide (src ≤ 7)
  flawIf (decide (9 < src)) 12 i 0 250 ++ flawIf (decide (5 < field r 1 1)) 12 i 1 250 ++ flawIf (decide (2 < field r 2 1)) 12 i 2 251 ++
  flawIf (reservedBad r 3 1) 12 i 3 887 ++ flawIf ((src == 0 || ruled) && decide (im.tensors.length ≤ id)) 12 i 4 250 ++
  flawIf (src == 0 && decide (id < im.tensors.length) && !condTensorOk im id) 12 i 4 252 ++
  flawIf (ruled && decide (id < im.tensors.length) && (tensorOf im id).rule == 0xFFFF) 12 i 4 250

def hintFlaws (im : Image) (i : Nat) (r : List Byte) : List Flaw :=
  let kind := field r 0 1
  let value := field r 1 1
  let target := field r 4 4
  let top := if kind = 1 then 2 else if kind = 2 then 0 else 1
  let targetOk :=
    if kind = 3 then ((im.ops[target]?).map (·.opcode)) == some 1
    else if kind = 4 then decide (target < im.machine.length)
    else decide (target < im.tensors.length)
  flawIf (kind == 0 || decide (4 < kind)) 11 i 0 261 ++ flawIf (decide (top < value)) 11 i 1 261 ++ flawIf (reservedBad r 2 2) 11 i 2 887 ++
  flawIf (!targetOk) 11 i 4 261 ++ flawIf (reservedBad r 8 8) 11 i 8 887

/-- Row 8: every other requirement (R882). -/
def invalidCheck (bs : List Byte) (im : Image) : Option Reject :=
  let each := fun (t n : Nat) (f : Nat → List Byte → List Flaw) => (numbered (records n (secBytes bs t))).flatMap fun (i, r) => f i r
  let sg := secBytes bs 10
  let np := field sg 24 4
  let safe :=
    if hasSec bs 10 then
      safeguardFlaws im sg ++ ((numbered (promoRecords sg)).flatMap fun (i, r) => promoFlaws im i r) ++
      ((numbered (progRecords sg)).flatMap fun (i, r) => progFlaws im (np + i) r)
    else []
  rejectFirst errImageInvalid
    (each 2 16 (machineFlaws im) ++ each 3 16 (axisFlaws im) ++ each 4 64 (tensorFlaws im) ++
     each 5 64 (opFlaws im (secBytes bs 6) (secBytes bs 7)) ++ each 8 16 (phaseFlaws im) ++ stepFlaws im (secBytes bs 9) ++ safe ++
     each 11 16 (hintFlaws im) ++ each 12 16 (condFlaws im) ++
     flawIf (hasSec bs 0xFF && reservedBad (secBytes bs 0xFF) 4 4) 0xFF none32 4 887)

/-- The checks of LOAD_PROGRAM in the order of Table 05-7 (R200). -/
def checkImage (s : State) (bs : List Byte) : Option Reject :=
  let im := parseImage bs
  (formatCheck bs).orElse fun _ => (versionCheck bs).orElse fun _ => (digestCheck bs).orElse fun _ => (signatureCheck s bs).orElse fun _ =>
  (limitCheck bs im).orElse fun _ => (ruleCountCheck im).orElse fun _ => (blockAxisCheck im).orElse fun _ => invalidCheck bs im

end Sys2Proof.Machine
end

