-- ==== Sys2Proof/Machine/Tensors.lean ====
section
/-! DEFINITION. The logical grid, the tensors of the ranks that the module holds, their stored form, and the conversion of results into them
(Chapters 03 to 06). -/
namespace Sys2Proof.Machine

/-! ### Groups of ranks -/

/-- Ranks per module. -/
def positions (s : State) : Nat := match s.job.plan with | some p => p.r | none => 0

/-- Group index of a rank over the machine axes of `mask` (R231), and the row-major index over them (R229). -/
def groupIndex (im : Image) (mask rank : Nat) : Nat :=
  let axes := bitList im.machine.length mask
  let cs := unravel (machineSizes im) rank
  ravel (axes.map fun a => nth (machineSizes im) a 1) (axes.map fun a => nth cs a 0)

/-! ### Which copy of a tensor -/

/-- Step number in hand; the init phase runs under first − 1 (R247). -/
def stepNow (s : State) : Nat := (if s.job.inInit then s.job.firstStep - 1 else s.job.step).toNat

/-- Micro-batch iterations begun before the one in hand, u (R191, R247). -/
def uNow (s : State) : Nat := if s.job.inInit then 0 else s.job.iters

/-- Instance of a tensor in this iteration and step (R191, R192). -/
def instOf (s : State) (im : Image) (tid : Nat) : Nat :=
  let t := tensorOf im tid
  if t.role = 4 then uNow s % t.depth else if t.role = 5 then stepNow s % t.depth else 0

def tensKey (pos tid inst : Nat) : Nat := pos * 2 ^ 24 + tid * 16 + inst
def keyTid (k : Nat) : Nat := k / 16 % 2 ^ 20
def keyPos (k : Nat) : Nat := k / 2 ^ 24
def keyInst (k : Nat) : Nat := k % 16
def tens (s : State) (k : Nat) : Tens := tget s.job.tensors k {}
def setTens (k : Nat) (t : Tens) (s : State) : State := { s with job.tensors := tset s.job.tensors k t {} }
def keyOf (s : State) (im : Image) (pos tid : Nat) : Nat := tensKey pos tid (instOf s im tid)

/-- Format in force for a tensor (R139, R142). -/
def fmtNow (s : State) (im : Image) (tid : Nat) : Nat := tget s.job.formats tid (tensorOf im tid).fmt
/-- Format of a stored copy; a copy that nothing has written is in the format in force. -/
def copyFmt (s : State) (im : Image) (tid : Nat) (t : Tens) : Nat := if t.codes.isEmpty then fmtNow s im tid else t.fmt

/-! ### Blocks and groups (R95, R96) -/

/-- A tensor seen along its blocking axis: product of the axes before, its length, product of the axes after. -/
structure Geo where
  outer : Nat
  len : Nat
  inner : Nat
  deriving DecidableEq, Repr

/-- The blocking axis of a block format; another format is one run. -/
def geoOf (dims : List Nat) (bp f : Nat) : Geo :=
  if isBlock f then ⟨product (dims.take bp), nth dims bp 1, product (dims.drop (bp + 1))⟩ else ⟨1, product dims, 1⟩

/-- Units of `size` along the blocking axis. -/
def Geo.units (g : Geo) (size : Nat) : Nat := (g.len + size - 1) / size
/-- Number of the block or group of `size` elements that holds element `e` (R96). -/
def Geo.unitOf (g : Geo) (size e : Nat) : Nat := (e / g.inner / g.len * g.units size + e / g.inner % g.len / size) * g.inner + e % g.inner
/-- First element of block or group `b`. -/
def Geo.firstOf (g : Geo) (size b : Nat) : Nat :=
  (b / g.inner / g.units size * g.len + b / g.inner % g.units size * size) * g.inner + b % g.inner
/-- Number of blocks or groups. -/
def Geo.count (g : Geo) (size : Nat) : Nat := g.outer * g.units size * g.inner
/-- Element `i` of run (`o`, `r`), and the run of an element. -/
def Geo.elem (g : Geo) (o i r : Nat) : Nat := (o * g.len + i) * g.inner + r
def Geo.run (g : Geo) (e : Nat) : Nat := e / g.inner / g.len * g.inner + e % g.inner

def geoTens (im : Image) (tid f : Nat) : Geo := geoOf (dimsOf im tid) (tensorOf im tid).blockPos f

/-- Scales of a copy; an unwritten copy holds +0 (R189), as converting +0 gives it (R100). -/
def bscaleOf (f : Nat) (g : Geo) (t : Tens) (e : Nat) : Nat := nth t.bscales (g.unitOf (blockSize f) e) (if isGrouped f then scaleZero f else 127)
def tscaleOf (g : Geo) (t : Tens) (e : Nat) : Nat := nth t.tscales (g.unitOf 4096 e) 127

/-- Decoded value of element `e` of a copy (R93, R94). -/
def elemOf (f : Nat) (g : Geo) (t : Tens) (e : Nat) : Num := decodeElem f (nth t.codes e 0) (bscaleOf f g t e) (tscaleOf g t e)

/-- All decoded values of a copy. -/
def copyNums (f : Nat) (g : Geo) (t : Tens) : List Num := (List.range (g.outer * g.len * g.inner)).map (elemOf f g t)

/-! ### Values -/

/-- A value that an op forms or reads: a floating value, or an integer pattern's value (R190, R205). -/
inductive Val where
  | num (x : Num)
  | int (i : Int)
  deriving DecidableEq, Repr

/-- Decoded to FP32 (R190). -/
def to32 (x : Num) : Num := dec32 (enc32 .rne x)
def Val.word : Val → Word
  | .num x => enc32 .rne x
  | .int i => BitVec.ofInt 32 i
def Val.real : Val → Num
  | .num x => x
  | .int i => Num.ofRat false (i : Rat)

/-- Values of a stored copy: integers as integers, others exactly. -/
def copyVals (f : Nat) (g : Geo) (t : Tens) : List Val :=
  (copyNums f g t).map fun x => if isInt f then .int x.real.floor else .num x

/-- The copy of a tensor that position `pos` sees now, its format and its layout. -/
def seen (s : State) (im : Image) (pos tid : Nat) : Nat × Geo × Tens :=
  let t := tens s (keyOf s im pos tid)
  let f := copyFmt s im tid t
  (f, geoTens im tid f, t)

def numsOf (s : State) (im : Image) (pos tid : Nat) : List Num := let (f, g, t) := seen s im pos tid; copyNums f g t
def valsOf (s : State) (im : Image) (pos tid : Nat) : List Val := let (f, g, t) := seen s im pos tid; copyVals f g t

/-- Values as an op whose output is in format `yf` takes them: FP32 by R190, but for integers, and for an FP64 output, which takes the exact value. That
an FP64 source is rounded to FP32 before a conversion to an integer, BF16 or a block format is the model's choice: DESIGN CHOICE (log 76). -/
def srcFor (yf : Nat) (vs : List Val) : List Val :=
  vs.map fun v => match v with
    | .num x => .num (if yf = 0x12 then x else to32 x)
    | .int i => .int i

/-- FP32 patterns or integer patterns of a tensor (R190, R213). -/
def wordsOf (s : State) (im : Image) (pos tid : Nat) : List Word := (valsOf s im pos tid).map Val.word

/-! ### Conversion (R205) -/

/-- To INT32 or UINT32: nearest-even, saturating, NaN to 0 (R228); an integer keeps its pattern. -/
def toIntCode (f : Nat) : Val → Nat
  | .int i => (i % 2 ^ 32).toNat
  | .num .nan => 0
  | .num (.inf n) => if f = 0x10 then (if n then 0x80000000 else 0x7FFFFFFF) else (if n then 0 else 0xFFFFFFFF)
  | .num (.fin n m) =>
    let k := rndInt .rne (if n then -m else m)
    if f = 0x10 then (max (-2 ^ 31) (min (2 ^ 31 - 1) k) % 2 ^ 32).toNat else (max 0 (min (2 ^ 32 - 1) k)).toNat

/-- What converting a whole tensor gives: the copy's codes and scales, and the counts (R104). -/
structure Stored where
  fmt : Nat
  codes : List Nat
  bscales : List Nat
  tscales : List Nat
  sat : Nat
  under : Nat
  deriving DecidableEq, Repr

/-- Converts a tensor along its blocking axis (R95, R100, R105). -/
def encodeNums (f : Nat) (g : Geo) (xs : List (Num × Rnd)) : Stored :=
  let zero : Num × Rnd := (.fin false 0, .rne)
  let runs := (List.range (g.outer * g.inner)).map fun k =>
    quantiseRun f ((List.range g.len).map fun i => nth xs (g.elem (k / g.inner) i (k % g.inner)) zero)
  let none' : Quant × List Nat := ({}, [])
  let pick := fun (size e : Nat) => (nth runs (g.run e) none', e / g.inner % g.len / size)
  { fmt := f
    codes := (List.range (g.outer * g.len * g.inner)).map fun e => let (q, i) := pick 1 e; nth q.1.codes i 0
    bscales := if isBlock f then (List.range (g.count (blockSize f))).map fun b =>
      let (q, i) := pick (blockSize f) (g.firstOf (blockSize f) b); nth q.1.bscales i 0 else []
    tscales := if isGrouped f then (List.range (g.count 4096)).map fun b =>
      let (q, i) := pick 4096 (g.firstOf 4096 b); nth q.2 i 127 else []
    sat := sumNat (runs.map fun q => q.1.sat)
    under := sumNat (runs.map fun q => q.1.under) }

/-- Converts the values of a tensor into format `f`; `rnd` is the rounding of element `i`, and an integer source rounds to nearest (R228). -/
def encodeVals (f : Nat) (g : Geo) (rnd : Nat → Rnd) (vs : List Val) : Stored :=
  if isInt f then { fmt := f, codes := vs.map (toIntCode f), bscales := [], tscales := [], sat := 0, under := 0 }
  else encodeNums f g (vs.zipIdx.map fun (v, i) => match v with | .num x => (x, rnd i) | .int n => (Num.ofRat false (n : Rat), .rne))

/-- Largest input magnitude of a conversion as an FP32 pattern (Table 04-1). -/
def maxAbs (vs : List Val) : Nat :=
  vs.foldl (fun m v =>
    match v.real with
    | .nan => m
    | .inf _ => 0x7F800000
    | .fin _ q => max m (enc32 .rne (.fin false q)).toNat) 0

/-- A tallied tensor is one that a conversion into a block format or BF16 writes (R128). -/
def tallied (f : Nat) : Bool := isBlock f || f == 1

/-- Sum of tallies (R131). -/
def Tally.add (a b : Tally) : Tally :=
  ⟨a.converted + b.converted, a.saturated + b.saturated, a.underflowed + b.underflowed, max a.maxAbs b.maxAbs⟩
def noTally : Tally := ⟨0, 0, 0, 0⟩
def tallyOf (m : Table Tally) (tid : Nat) : Tally := tget m tid noTally

def addTally (tid : Nat) (t : Tally) (s : State) : State :=
  { s with job.tallies := tset s.job.tallies tid (Tally.add (tallyOf s.job.tallies tid) t) noTally }

/-- The rounding of the elements of a write: stochastic by R106 and R107 when the op's flags bit 0 is set. -/
def rounding (s : State) (tid w : Nat) (stochastic : Bool) (i : Nat) : Rnd :=
  if stochastic then .sr (srDraw s.job.roundSeed.toNat tid (stepNow s) w i) else .rne

/-- Puts a stored copy in place; the tensor's write count rises (R106). -/
def putStored (k : Nat) (c : Stored) (s : State) : State :=
  let t := tens s k
  setTens k { t with fmt := c.fmt, codes := c.codes, bscales := c.bscales, tscales := c.tscales, writes := t.writes + 1 } s

/-- Converts a result into its tensor and counts it (R128 to R130, R205). -/
def convertInto (im : Image) (pos tid : Nat) (stochastic : Bool) (vs : List Val) (s : State) : State :=
  let k := keyOf s im pos tid
  let f := fmtNow s im tid
  let c := encodeVals f (geoTens im tid f) (rounding s tid (tens s k).writes stochastic) vs
  let s := putStored k c s
  if tallied f then addTally tid ⟨vs.length, c.sat, c.under, maxAbs vs⟩ s else s

/-! ### Canonical stored form (R193, R96) -/

/-- Packs codes of `w` bits, least significant first, into whole bytes. -/
def packBits (w : Nat) (codes : List Nat) : List Byte :=
  leBytes ((codes.length * w + 7) / 8) (codes.foldr (fun c acc => c + acc * 2 ^ w) 0)

/-- Bytes of the scale array: U4 scales two to a byte (R96). -/
def packScales (f : Nat) (scales : List Nat) : List Byte := packBits (if f = 0xA then 4 else 8) scales

/-- Zeros up to the next multiple of 64. -/
def pad64 (bs : List Byte) : List Byte := bs ++ List.replicate ((64 - bs.length % 64) % 64) 0

/-- Length of a run of the last axis. -/
def rowLen (dims : List Nat) : Nat := (dims.getLast?).getD 1

/-- Codes and scales of a whole copy, with those of an unwritten copy filled in. -/
def fullCodes (g : Geo) (t : Tens) : List Nat := (List.range (g.outer * g.len * g.inner)).map fun e => nth t.codes e 0
def fullScales (f : Nat) (g : Geo) (t : Tens) : List Nat :=
  if isBlock f then (List.range (g.count (blockSize f))).map fun b => bscaleOf f g t (g.firstOf (blockSize f) b) else []
def fullTscales (f : Nat) (g : Geo) (t : Tens) : List Nat :=
  if isGrouped f then (List.range (g.count 4096)).map fun b => tscaleOf g t (g.firstOf 4096 b) else []

/-- Element array, block scales and tensor scales, each array packed by R96. -/
def storedArrays (dims : List Nat) (f : Nat) (g : Geo) (t : Tens) : List (List Byte) :=
  let rows := chunksOf (rowLen dims) (g.outer * g.len * g.inner) (fullCodes g t)
  [rows.flatMap (packBits (elemBits f)), packScales f (fullScales f g t), packScales 0 (fullTscales f g t)]

/-- The canonical stored form: each array after the first starts on a multiple of 64 B (R193). -/
def joinArrays : List (List Byte) → List Byte
  | [] => []
  | a :: as => as.foldl (fun acc b => if b.isEmpty then acc else pad64 acc ++ b) a

/-- The packed stream of R159 has no gaps between its arrays. -/
def storedForm (s : State) (im : Image) (k : Nat) : List Byte :=
  let t := tens s k
  let f := copyFmt s im (keyTid k) t
  joinArrays (storedArrays (dimsOf im (keyTid k)) f (geoTens im (keyTid k) f) t)
def packedStream (s : State) (im : Image) (k : Nat) : List Byte :=
  let t := tens s k
  let f := copyFmt s im (keyTid k) t
  (storedArrays (dimsOf im (keyTid k)) f (geoTens im (keyTid k) f) t).flatten

/-- Sizes of the three arrays and where each starts. -/
def arrayPlaces (dims : List Nat) (f : Nat) (g : Geo) : List (Nat × Nat) :=
  let up := fun (n : Nat) => (n + 63) / 64 * 64
  let rows := g.outer * g.len * g.inner / rowLen dims
  let a := rows * ((rowLen dims * elemBits f + 7) / 8)
  let b := if isBlock f then (g.count (blockSize f) * (if f = 0xA then 4 else 8) + 7) / 8 else 0
  let c := if isGrouped f then g.count 4096 else 0
  [(0, a), (up a, b), (up (up a + b), c)]

/-- Bytes of the canonical stored form. -/
def storedSize (dims : List Nat) (f : Nat) (g : Geo) : Nat :=
  (arrayPlaces dims f g).foldl (fun m e => if e.2 = 0 then m else e.1 + e.2) 0

/-- Codes of `w` bits packed in bytes. -/
def unpackBits (w n : Nat) (bs : List Byte) : List Nat := let v := leNat bs; (List.range n).map fun i => v / 2 ^ (w * i) % 2 ^ w

/-- The copy that a canonical stored form holds. -/
def parseStored (dims : List Nat) (f : Nat) (g : Geo) (bs : List Byte) : Stored :=
  let places := arrayPlaces dims f g
  let part := fun (i : Nat) => let (o, n) := nth places i (0, 0); slice bs o n
  let rl := rowLen dims
  let rb := (rl * elemBits f + 7) / 8
  let rows := chunksOf rb (g.outer * g.len * g.inner) (part 0)
  { fmt := f, codes := rows.flatMap (unpackBits (elemBits f) rl)
    bscales := if isBlock f then unpackBits (if f = 0xA then 4 else 8) (g.count (blockSize f)) (part 1) else []
    tscales := if isGrouped f then unpackBits 8 (g.count 4096) (part 2) else [], sat := 0, under := 0 }

/-- Consecutive megabytes of a stream, with their SHA-256 (R159, R637). -/
def chunkDigests (bs : List Byte) : List (List Byte) := (chunksOf 1048576 bs.length bs).map sha256

/-- The shard digest of a copy (R159). -/
def shardDigest (s : State) (im : Image) (k : Nat) : DWord := digest8 (chunkDigests (packedStream s im k)).flatten

/-- Re-converts a copy from its decoded values by nearest-even; it is not tallied and is no write (R130, R140). -/
def reconvert (im : Image) (tid newFmt : Nat) (oldFmt : Nat) (t : Tens) : Tens :=
  let vs := copyVals oldFmt (geoTens im tid oldFmt) t
  let c := encodeVals newFmt (geoTens im tid newFmt) (fun _ => .rne) vs
  { t with fmt := newFmt, codes := c.codes, bscales := c.bscales, tscales := c.tscales }

end Sys2Proof.Machine
end

