-- ==== Sys2Proof/Machine/Tile.lean ====
section
/-! DEFINITION. The tile's crown half (Chapter 02): array, thin path, vector unit, leaf reducer, node store and drain, the combine unit, clock
gating and wake, and the shadow checks (R149 to R158). -/
namespace Sys2Proof.Machine

/-! ### Formats and rates of the array -/

/-- Formats that the array and the thin path accept (R42). -/
def arrayFormat (f : Nat) : Bool := f == 1 || isBlock f

/-- Width class of an array format (Table 02-2). -/
def classOfFmt (f : Nat) : Nat :=
  if f = 1 then 16 else if f = 6 ∨ f = 8 ∨ f = 9 then 4 else if 0xA ≤ f ∧ f ≤ 0xC then 2 else 8

/-- Rate code of a pairing (Table 02-3): 3 for 2×, 2 for 1×, 1 for ½×, 0 for ¼×. -/
def rateOf (streamed stationary : Nat) : Nat :=
  let a := classOfFmt streamed
  let b := classOfFmt stationary
  if a = 16 ∨ b = 16 ∨ (a = 8 ∧ b = 8) then 0
  else if a = 8 ∨ b = 8 then 1
  else if a = 2 ∧ b = 2 then 3
  else 2

/-- Half crown cycles for which a streamed row of a pairing holds the stream port (Table 02-3). -/
def rowHalves (streamed stationary : Nat) : Nat := 2 ^ (3 - rateOf streamed stationary)

/-- Top level D of `n` children: 0 for one child (R54). -/
def topLevel : Nat → Nat → Nat
  | 0, _ => 0
  | f + 1, n => if n ≤ 1 then 0 else 1 + topLevel f ((n + 7) / 8)
def topOf (n : Nat) : Nat := topLevel 16 n

/-- The outputs of an accumulating operation that brings the children `leaf` to `leaf + k - 1` are ones that the node store can hold: the emit
level is at most D, and a range of children that is not the whole sum starts and ends on subtrees of that level (R54, R120). -/
def accFits (a : AccSpec) (k : Nat) : Bool :=
  decide (1 ≤ a.n) && decide (a.emit ≤ topOf a.n) && a.first % 8 ^ a.emit == 0 &&
    ((a.first + a.n) % 8 ^ a.emit == 0 || a.first + a.n == a.total) && decide (a.first + a.n ≤ a.total) &&
    decide (a.first ≤ a.leaf) && decide (a.leaf + k ≤ a.first + a.n)

/-- A level-0 child of output `x0 + i` of an accumulating operation (R54). -/
def mkChild (a : AccSpec) (i leaf unit rate : Nat) (v : Word) (bad : Bool) : Child :=
  { x := a.x0 + i, first := a.first, n := a.n, emit := a.emit, value := v, poisoned := bad, tensor := a.tensor, elem := a.elem0 + i, leaf,
    w := a.w, unit, rate }

/-! ### Sampling for shadow checks -/

/-- A unit of the tile is active while it is not clock-gated (R85). Table 04-4 does not define "active": DESIGN CHOICE (log 67). -/
def unitActive (r : TileRec) (u : Nat) : Bool := (r.gated &&& unitBit u) == 0

/-- Array of a tile in use, for busy_tiles: leaves of it are on their way to the node store, or a stream waits for its set. Table 04-4 does not say when
the array runs: DESIGN CHOICE (log 67). -/
def arrayRunning (r : TileRec) : Bool := !(tget r.children 0 []).isEmpty || r.stalled.isSome

/-- Load fingerprint of a leaf as its tile forms it (Table 04-4, R158). -/
def fingerprint (s : State) (t rate vlink : Nat) : Nat :=
  let q := quadOf t
  let r := tile s t
  let busy := (quadTiles q).countP fun i => arrayRunning (tile s i)
  let units := (if unitActive r 0 then 8 else 0) + (if unitActive r 1 then 4 else 0) + (if unitActive r 2 then 2 else 0) +
    (if (engineCopy s t).isSome then 1 else 0)
  notchInForce s q * 2 ^ 26 + (notch s q).crownK * 2 ^ 16 + rate * 2 ^ 14 + min 63 (busy - 1) * 2 ^ 8 + units * 2 ^ 4 + vlink

/-- The leaf is sampled for a shadow check (R149, R150): every leaf that the array or the thin path forms is subject to sampling. -/
def sampled (s : State) (c : Child) : Bool :=
  (c.unit == 1 || c.unit == 2) &&
    philox (s.job.roundSeed.toNat ^^^ 0x5A5A0401) c.tensor (c.elem % 2 ^ 32) (c.elem / 2 ^ 32 % 2 ^ 32) (stepNow s % 2 ^ 32)
      (c.w % 256 * 2 ^ 24 + c.leaf % 2 ^ 24) 0 % 1024 == 0

/-- A leaf that is sampled leaves its record with its load fingerprint (R149, R158). -/
def takeSample (t : Nat) (s : State) (c : Child) : State :=
  if sampled s c then
    let (k, s) := draw s
    let fp := fingerprint s t c.rate (Config.vlinkSixteenths t k).toNat
    updTile t (fun r => { r with samples := r.samples ++ [⟨c.tensor, c.elem, c.leaf, c.value, BitVec.ofNat 32 fp, false⟩] }) s
  else s

/-- Children of source `src` (0 array, 1 thin path, 2 leaf reducer, 3 root half) go to the node store's queue, those sampled with their records. -/
def formed (t src : Nat) (cs : List Child) (s : State) : State :=
  cs.foldl (takeSample t) (updTile t (fun r => { r with children := tset r.children src (tget r.children src [] ++ cs) [] }) s)

/-! ### What crosses the vertical link (Table 02-7) -/

/-- Codes, block scales and tensor scales as bytes (R96). -/
def elemBytes (f : Nat) (codes bscales tscales : List Nat) : List Byte := packBits (elemBits f) codes ++ packScales f bscales ++ tscales.flatMap (leBytes 1)
def runBytes (r : Run) : List Byte := elemBytes r.fmt r.codes r.bscales (if isGrouped r.fmt then [r.tscale] else [])

/-- Runs go down to the crown half for consumer `c`: 0 stream port, 1 stationary loader, 2 thin-path weights, 3 vector-unit operands and thin-path vectors. -/
def runsDown (t c : Nat) (rs : List Run) (s : State) : State := crossVertical t 0 c (rs.flatMap runBytes) s

/-! ### Array -/

def activeSet (r : TileRec) : List Run := if r.activeB then r.setB else r.setA

/-- The array goes over to the other set, which is loaded; the set that it leaves stays as it is (R41, R48). -/
def switchSet (r : TileRec) : TileRec := { r with activeB := !r.activeB, loaded := r.activeLoaded, activeLoaded := r.loaded }

/-- Leaves of streamed rows against a set (R51, R52, R110): one per row and used column. -/
def arrayLeaves (a : AccSpec) (set rows : List Run) : List Child :=
  rows.zipIdx.flatMap fun (row, m) =>
    let x := decodeRun row
    (set.take a.count).zipIdx.map fun (col, c) =>
      mkChild a (m * a.count + c) a.leaf 1 (rateOf row.fmt col.fmt) (leafProducts x (decodeRun col)) false

/-- Crown cycles for which rows stream against a set (Table 02-3). -/
def streamCycles (set rows : List Run) : Nat :=
  (sumNat (rows.map fun r => rowHalves r.fmt ((set.map (·.fmt)).headD r.fmt)) + 1) / 2

/-- A stream runs: against the other set when `sw` says that it switches at its first row, whose parity is then checked (R48, R82); a set that fails
computes nothing (R83). -/
def runStream (t : Nat) (st : Stream) (sw parityOk : Bool) (s : State) : State :=
  let s := retire 0 t st.slot (updTile t (fun r => { r with stalled := none }) s)
  if sw && !parityOk then crownUncorrectable t (updTile t (fun r => { r with loaded := false }) s)
  else
    let s := if sw then updTile t switchSet s else s
    let set := activeSet (tile s t)
    formed t 0 (arrayLeaves st.acc set st.rows) (updTile t (fun r => { r with arrayBusy := r.arrayBusy + streamCycles set st.rows }) s)

/-- ARRAY_STREAM (R41, R42, R44, R48, R52, R82 to R84): a stream for which the array changes sets stalls until the set's load completes. The spec names
no operand that says which stream changes sets: DESIGN CHOICE (log 20), the instruction says it. The array that has taken a stream is not gated (R85). -/
def execArrayStream (i : Issue) (acc : AccSpec) (rows : List Run) (newSet parityOk : Bool) (s : State) : Host.Outcome State Fault Refusal :=
  .next (issued i 0 ((tile s i.tile).stalled.isNone && accFits acc 1 && rows.all fun r => arrayFormat r.fmt) (fun s =>
    let st : Stream := ⟨i.slot, acc, rows⟩
    let s := runsDown i.tile 0 rows s
    if newSet && !(tile s i.tile).loaded then updTile i.tile (fun r => { turn 0 i.slot r with stalled := some st }) s
    else runStream i.tile st newSet parityOk s) s)

/-- STATIONARY_LOAD (R41, R46, R47): only the inactive set is written. -/
def execStationaryLoad (i : Issue) (cols : List Run) (s : State) : Host.Outcome State Fault Refusal :=
  .next (issued i 3 (!(tile s i.tile).loading && decide (cols.length ≤ 256) && cols.all fun c => arrayFormat c.fmt) (fun s =>
    updTile i.tile (fun r =>
      let r := { r with loading := true, loaded := false }
      if r.activeB then { r with setA := cols } else { r with setB := cols }) (retire 3 i.tile i.slot (runsDown i.tile 1 cols s))) s)

/-- STATIONARY_LOAD_COMPLETE (R46, R48, R82, R83): parity is checked at load completion; a set that fails it is not loaded. A stream that has
waited for the set runs. A gated crown keeps its contents (R86). -/
def execStationaryLoadComplete (t : Tile) (parityOk : Bool) (s : State) : Host.Outcome State Fault Refusal :=
  .next (
    if (tile s t).loading && !(tile s t).crownGated then
      let s := updTile t (fun r => { r with loading := false, loaded := parityOk }) s
      if !parityOk then crownUncorrectable t s
      else match (tile s t).stalled with
        | some st => runStream t st true true s
        | none => s
    else s)

/-! ### Thin path -/

/-- Bytes of the codes and of the block scales of a run in the tile's SRAM. -/
def refSizes (f : RunRef) : Nat × Nat :=
  ((f.count * elemBits f.fmt + 7) / 8,
    if isBlock f.fmt then (((f.count + blockSize f.fmt - 1) / blockSize f.fmt) * (if f.fmt = 0xA then 4 else 8) + 7) / 8 else 0)

/-- A run lies in the 12 MiB of the tile's SRAM. -/
def refFits (f : RunRef) : Bool :=
  let z := refSizes f
  arrayFormat f.fmt && decide (f.count ≤ 256) && decide (f.codes + z.1 ≤ 0xC00000) && decide (f.bscales + z.2 ≤ 0xC00000) && decide (f.tscale < 0xC00000)

/-- The run that the tile's SRAM holds, and whether a word of it is poisoned (R60, R339). -/
def readRun (s : State) (t : Nat) (f : RunRef) : Run × Bool :=
  let z := refSizes f
  let at' := fun (o n : Nat) => readBytes s.mem (sramAddr t o) n
  (⟨f.fmt, unpackBits (elemBits f.fmt) f.count (at' f.codes z.1),
      if isBlock f.fmt then unpackBits (if f.fmt = 0xA then 4 else 8) ((f.count + blockSize f.fmt - 1) / blockSize f.fmt) (at' f.bscales z.2) else [],
      if isGrouped f.fmt then field (at' f.tscale 1) 0 1 else 127⟩,
    poisoned s.mem (sramAddr t f.codes) z.1 || (isBlock f.fmt && poisoned s.mem (sramAddr t f.bscales) z.2) ||
      (isGrouped f.fmt && poisoned s.mem (sramAddr t f.tscale) 1))

/-- Leaves of one chunk of a weight row with every loaded vector (R60, R61, R63). -/
def thinLeaves (a : AccSpec) (vecs : List (List Run)) (weights : List (Run × Bool)) : List Child :=
  vecs.zipIdx.flatMap fun (v, i) =>
    (List.zip v weights).zipIdx.map fun (p, j) =>
      mkChild a i (a.leaf + j) 2 (rateOf p.1.fmt p.2.1.fmt) (leafProducts (decodeRun p.1) (decodeRun p.2.1)) p.2.2

/-- SRAM ranges of a run. -/
def refRanges (f : RunRef) : List (Nat × Nat) :=
  let z := refSizes f
  [(f.codes, z.1)] ++ (if isBlock f.fmt then [(f.bscales, z.2)] else []) ++ (if isGrouped f.fmt then [(f.tscale, 1)] else [])

/-- The chunk of the next weight row is in its place in the pass (R328): with the buffer as it is, another row of the chunk in it; with a reload, the first
chunk of a pass or the one after the chunk in the buffer, once as many rows are done with that as with the first. -/
def chunkInOrder (r : TileRec) (leaf first : Nat) (reload : Bool) : Bool :=
  let (at', done, all) := r.thinPass
  if reload then leaf == first || (leaf == at' + (r.vectors.headD []).length && (all == 0 || done == all))
  else !r.vectors.isEmpty && leaf == at' && (all == 0 || decide (done < all))

/-- The pass after one more weight row (R328). -/
def passNext (p : Nat × Nat × Nat) (leaf first : Nat) (reload : Bool) : Nat × Nat × Nat :=
  if reload then (leaf, 1, if leaf = first then 0 else if p.2.2 = 0 then p.2.1 else p.2.2) else (p.1, p.2.1 + 1, p.2.2)

/-- THIN_PATH_PASS (R59 to R63, R82, R83, R327, R328): one chunk of a weight row, read from tile SRAM, with every vector of the buffer. `vecs` reloads the
buffer at a chunk boundary, where its parity is checked when the load completes; every further weight row of the chunk uses it as it stands. -/
def execThinPathPass (i : Issue) (acc : AccSpec) (vecs : Option (List (List Run))) (weights : List RunRef) (parityOk : Bool) (ecc : List (Nat × Ecc))
    (s : State) : Host.Outcome State Fault Refusal :=
  .next (
    let vs := vecs.getD (tile s i.tile).vectors
    issued i 1 (decide (1 ≤ vs.length) && decide (vs.length ≤ 8) && decide (weights.length ≤ 4) && weights.all refFits &&
        accFits acc weights.length && (vs.all fun v => decide (v.length ≤ 4) && v.all fun r => arrayFormat r.fmt) &&
        chunkInOrder (tile s i.tile) acc.leaf acc.first vecs.isSome) (fun s =>
      let s := retire 1 i.tile i.slot s
      if vecs.isNone || parityOk then
        let s := readsFind i.tile 0 (weights.flatMap refRanges) ecc s
        let s := runsDown i.tile 2 (weights.map fun f => (readRun s i.tile f).1) (runsDown i.tile 3 ((vecs.getD []).flatten) s)
        formed i.tile 1 (thinLeaves acc vs (weights.map (readRun s i.tile)))
          (updTile i.tile (fun r => { r with vectors := vs, thinPass := passNext r.thinPass acc.leaf acc.first vecs.isSome }) s)
      else crownUncorrectable i.tile s) s)

/-! ### Vector unit and leaf reducer -/

/-- The 64 lanes of a vector register. -/
def vreg (r : TileRec) (i : Nat) : List Word := tget r.regs i (List.replicate 64 0)
def setVreg (i : Nat) (v : List Word) (r : TileRec) : TileRec := { r with regs := tset r.regs i v (List.replicate 64 0) }

/-- 64 lanes of an operation (R65, R125 to R127); in BF16 each 32-bit lane holds two. None where BF16 has no such operation. -/
def vecLanes (op : VecOp) (bf16 : Bool) (x y z : List Word) : Option (List Word) :=
  let out : List (Option Word) := (List.range 64).map fun i =>
    if bf16 then vecPair16 op (nth x i 0) (nth y i 0) (nth z i 0) else some (vecLane op (nth x i 0) (nth y i 0) (nth z i 0))
  if out.all (·.isSome) then some (out.filterMap id) else none

/-- The first completed entry of output `x`, oldest first where an output has several. -/
def entryOf (r : TileRec) (x : Nat) : Option Done := r.completed.find? fun d => d.x == x

/-- The values of an operand, in ascending lane: a register's 64, or those of completed entries (R67); none where an entry is not complete. -/
def argVals (r : TileRec) : VecArg → Option (List Word)
  | .reg i => some (vreg r i)
  | .entries x0 n =>
    let ds := (List.range n).map fun i => entryOf r (x0 + i)
    if n ≤ 64 ∧ ds.all (·.isSome) then some (ds.filterMap fun d => d.map (·.value)) else none

/-- An operand as 64 lanes. Lanes past the entries of an epilogue read as zero: DESIGN CHOICE (log 20). -/
def argLanes (r : TileRec) (a : VecArg) : Option (List Word) := (argVals r a).map fun vs => vs ++ List.replicate (64 - vs.length) 0

/-- Whether an entry that an operand names carries poison. -/
def argPoison (r : TileRec) : VecArg → Bool
  | .reg _ => false
  | .entries x0 n => (List.range n).any fun i => match entryOf r (x0 + i) with | some d => d.poisoned | none => false

/-- The operand is read from the node store. -/
def readsStore : VecArg → Bool
  | .reg _ => false
  | .entries _ _ => true

/-- Puts lane `i` of a result into the first completed entry of output `x0 + i`. -/
def putEntries (x0 : Nat) (vs : List Word) (bad : Bool) (r : TileRec) : TileRec :=
  { r with completed := vs.zipIdx.foldl (fun ds e =>
      let j := ds.findIdx fun y => y.x == x0 + e.2
      match ds[j]? with
      | some d => lset ds j { d with value := e.1, poisoned := d.poisoned || bad }
      | none => ds) r.completed }

/-- Writes a result of 64 lanes to a register, or to completed entries in place of their values (R67). -/
def putLanes (bad : Bool) (vs : List Word) : VecArg → TileRec → TileRec
  | .reg i, r => setVreg i vs r
  | .entries x0 n, r => putEntries x0 (vs.take n) bad r

/-- Rounding of element `i` of a conversion in the vector unit (R106, R108). -/
def convRnd (s : State) (cv : Convert) (i : Nat) : Rnd :=
  match cv.draw with
  | some (tensor, elem0, w) => .sr (srDraw s.job.roundSeed.toNat tensor (stepNow s) w (elem0 + i))
  | none => .rne

/-- Codes and block scales of a conversion (R100, R103, R105). A format with tensor scales takes the group's tensor scale from the
instruction, since its 4,096 elements do not lie in one register: DESIGN CHOICE (log 20). -/
def convertRun (cv : Convert) (xs : List (Num × Rnd)) : Quant :=
  if isGrouped cv.fmt then quantiseAt cv.fmt cv.tscale xs else (quantiseRun cv.fmt xs).1

/-- Elements of an operand of a conversion: one FP32 value a lane, or two BF16 values, the lower half first (Table 02-6). -/
def convElems (bf16 : Bool) (vs : List Word) : List Num :=
  if bf16 then vs.flatMap fun (w : Word) => [dec32 (w <<< 16), dec32 (w &&& 0xFFFF0000)] else vs.map dec32

/-- Codes or scales in the 64 lanes of a register: one a lane, or two a lane, the lower half first. -/
def convLanes (pairs : Bool) (xs : List Nat) : List Word :=
  (List.range 64).map fun i =>
    if pairs then BitVec.ofNat 32 (nth xs (2 * i) 0 % 65536 + 65536 * (nth xs (2 * i + 1) 0 % 65536)) else BitVec.ofNat 32 (nth xs i 0)

/-- The formats to which the vector unit converts (Table 03-1, Table 02-6). -/
def convertible (f : Nat) : Bool := f == 0 || arrayFormat f

/-- What a conversion leaves in its two registers: the codes and the block scales. The 128 codes of BF16 elements lie two a lane, or, where they are FP32,
in both registers: DESIGN CHOICE (log 20). -/
def convRegs (cv : Convert) (q : Quant) : List Word × List Word :=
  if cv.bf16 ∧ cv.fmt = 0 then (convLanes false q.codes, convLanes false (q.codes.drop 64)) else (convLanes cv.bf16 q.codes, convLanes false q.bscales)

/-- What a vector-unit operation leaves in the tile, or none where the instruction has no such form. -/
def vecEffect (s : State) (t : Nat) (op : VecInstr) : Option (TileRec → TileRec) :=
  let r := tile s t
  match op with
  | .lanes op bf16 d a b c =>
    match argLanes r a, argLanes r b, argLanes r c, argVals r d with
    | some x, some y, some z, some _ => (vecLanes op bf16 x y z).map fun v => putLanes (argPoison r a || argPoison r b || argPoison r c) v d
    | _, _, _, _ => none
  | .convert cv d c a =>
    match argVals r a with
    | some vs =>
      if convertible cv.fmt then
        let out := convRegs cv (convertRun cv ((convElems cv.bf16 vs).zipIdx.map fun e => (e.1, convRnd s cv e.2)))
        some fun r => setVreg d out.1 (setVreg c out.2 r)
      else none
    | none => none

/-- The node store is read by the instruction. -/
def vecReadsStore : VecInstr → Bool
  | .lanes _ _ _ a b c => readsStore a || readsStore b || readsStore c
  | .convert _ _ _ a => readsStore a

/-- VECTOR_OP (R64, R65, R67, R82, R83): an operation lane by lane on registers and, in an epilogue, completed entries, or a conversion. Parity is
checked at every read of the register file, and the code of an entry at every read of the node store; a read that fails writes nothing. -/
def execVectorOp (i : Issue) (op : VecInstr) (parityOk : Bool) (ecc : Ecc) (s : State) : Host.Outcome State Fault Refusal :=
  .next (issued i 2 (vecEffect s i.tile op).isSome (fun s =>
    let f := (vecEffect s i.tile op).getD id
    let ecc := if vecReadsStore op then ecc else .ok
    let s := retire 2 i.tile i.slot s
    if !parityOk || ecc == .uncorrectable then crownUncorrectable i.tile s
    else updTile i.tile f (if ecc = .corrected then crownCorrected i.tile s else s)) s)

/-- Value of a leaf of the leaf reducer over FP32 values (R66, R110, R218). -/
def reduceLeaf (kind : ReduceKind) (xs : List Word) : Word :=
  match kind with
  | .sum => leafOf (xs.map dec32)
  | .max => match xs with | [] => 0 | x :: r => r.foldl fmax (fmax x x)
  | .min => match xs with | [] => 0 | x :: r => r.foldl fmin (fmin x x)

/-- Value of a leaf of the leaf reducer: up to 256 values, or exact products of two operands (R66, R114), which only a sum takes. -/
def reducerLeaf (kind : ReduceKind) : ReduceIn → Option Word
  | .values xs => if 1 ≤ xs.length ∧ xs.length ≤ 256 then some (reduceLeaf kind xs) else none
  | .products a b =>
    if kind = .sum ∧ (convertible a.fmt && convertible b.fmt) ∧ 1 ≤ a.codes.length then some (leafProducts (decodeRun a) (decodeRun b)) else none

/-- Bytes of the leaf reducer's inputs. -/
def reduceBytes : ReduceIn → List Byte
  | .values xs => xs.flatMap fun (x : Word) => leBytes 4 x.toNat
  | .products a b => runBytes a ++ runBytes b

/-- LEAF_REDUCE (R66, R114): up to 256 inputs form one leaf for the node store. -/
def execLeafReduce (i : Issue) (kind : ReduceKind) (acc : AccSpec) (inputs : ReduceIn) (s : State) : Host.Outcome State Fault Refusal :=
  .next (issued i 2 (accFits acc 1 && (reducerLeaf kind inputs).isSome) (fun s =>
    formed i.tile 2 [{ mkChild acc 0 acc.leaf 0 0 ((reducerLeaf kind inputs).getD 0) false with kind }]
      (retire 2 i.tile i.slot (crossVertical i.tile 0 3 (reduceBytes inputs) s))) s)

/-! ### Node store -/

/-- Key of an entry: output and level. -/
def entryKey (x lvl : Nat) : Nat := x * 32 + lvl

/-- Entries taken: one for each level from 1 to D of every open output (R54), and the completed ones of closed outputs (R57). -/
def openEntries (r : TileRec) : Nat :=
  sumNat (r.outs.map fun e => topOf e.2.n) + r.completed.countP fun c => decide (1 ≤ c.lvl) && !thas r.outs c.x

/-- Level of the entry in which the addition of a child at level `lvl` comes to rest: an entry that it fills passes to the level above (R55). -/
def reached (r : TileRec) (c : Child) (last : Bool) : Nat → Nat → Nat
  | 0, lvl => lvl
  | fuel + 1, lvl =>
    if lvl < c.emit ∧ ((tget r.entries (entryKey c.x lvl) (0, 0)).2 + 1 = 8 ∨ last) then reached r c last fuel (lvl + 1) else lvl

/-- Children of level 0 that are in once this child is. -/
def childrenIn (r : TileRec) (c : Child) : Nat := (tget r.outs c.x {}).next + 8 ^ c.lvl

/-- The child needs an entry that a completed value of its output still holds (R57). -/
def entryHeld (r : TileRec) (c : Child) : Bool :=
  r.completed.any fun d => d.x == c.x && decide (c.lvl < d.lvl) && decide (d.lvl ≤ reached r c (decide (c.n ≤ childrenIn r c)) 16 (c.lvl + 1))

/-- The node store can take the child (R54, R55, R57): it is the next of its output in ascending index, its entry is free, and a new output finds
room in the 262,144 entries. -/
def canTake (r : TileRec) (c : Child) : Bool :=
  c.leaf == c.first + (tget r.outs c.x {}).next && !entryHeld r c &&
    (thas r.outs c.x || decide (openEntries r + topOf c.n ≤ 262144))

/-- drain: the value of output `c.x` is complete at level `lvl`. -/
def complete1 (c : Child) (lvl : Nat) (v : Word) (bad : Bool) (r : TileRec) : TileRec :=
  { r with completed := r.completed ++ [⟨c.x, lvl, v, bad, c.tensor, c.elem, c.w⟩] }

/-- The operation of a node: an addition rounded to FP32, or the maximum or minimum of a leaf of that kind (R55, R118). -/
def nodeOp : ReduceKind → Word → Word → Word
  | .sum, a, b => fadd a b
  | .max, a, b => fmax a b
  | .min, a, b => fmin a b

/-- add_child (R55) from level `lvl` on; `fuel` bounds the levels. -/
def addChild : Nat → Child → Nat → Word → Bool → Bool → TileRec → TileRec
  | 0, _, _, _, _, _, r => r
  | fuel + 1, c, lvl, v, last, bad, r =>
    let key := entryKey c.x lvl
    let (e, cnt) := tget r.entries key (0, 0)
    let e := if cnt = 0 then v else nodeOp c.kind (BitVec.ofNat 32 e) v
    if cnt + 1 = 8 ∨ last then
      let r := { r with entries := tdel r.entries key }
      if lvl = c.emit then complete1 c lvl e bad r else addChild fuel c (lvl + 1) e last bad r
    else { r with entries := tput r.entries key (e.toNat, cnt + 1) }

/-- leaf_arrives (R55): the child is the output's next; the last one closes the output. A child of level e, the node of a part, enters at level
e + 1 (R121). With emit level 0 every child leaves as it is (R121; DEDUCED, log 22). -/
def takeChild (c : Child) (v : Word) (bad : Bool) (r : TileRec) : TileRec :=
  let o := tget r.outs c.x {}
  let o : OutCfg := { first := c.first, n := c.n, emit := c.emit, next := childrenIn r c, poisoned := o.poisoned || bad || c.poisoned }
  let last := decide (c.n ≤ o.next)
  let r := { r with outs := if last then tdel r.outs c.x else tput r.outs c.x o }
  if topOf c.n = 0 ∨ c.emit ≤ c.lvl then complete1 c c.lvl v o.poisoned r else addChild 16 c (c.lvl + 1) v last o.poisoned r

def sourceKey : LeafSource → Nat
  | .array => 0 | .thin => 1 | .reducer => 2 | .rootHalf => 3

/-- The crown half of a tile works: it is powered and awake (R86, R89). -/
def crownWorks (s : State) (t : Nat) : Bool := !isFA s && tileUsable s t && !s.heat.crownsOff && !(tile s t).crownGated

/-- LEAF_ARRIVE (R53 to R57, R82, R83): the next child of a source reaches the node store, or its source stalls. -/
def execLeafArrive (t : Tile) (src : LeafSource) (ecc : Ecc) (s : State) : Host.Outcome State Fault Refusal :=
  .next (
    let r := tile s t
    match tget r.children (sourceKey src) [] with
    | [] => s
    | c :: rest =>
      if crownWorks s t && canTake r c then
        let s := setTile t { r with children := tset r.children (sourceKey src) rest [] } s
        match ecc with
        | .ok => updTile t (takeChild c c.value false) s
        | .corrected => updTile t (takeChild c c.value false) (crownCorrected t s)
        | .uncorrectable =>
          let (k, s) := draw s
          crownUncorrectable t (updTile t (takeChild c (Config.crownGarbage t c.x k) true) s)
      else s)

/-- Rounding of a drained value in its epilogue cast (R67, R108): stochastic where the cast declares it. -/
def drainRnd (s : State) (stochastic : Bool) (c : Done) : Rnd :=
  if stochastic then .sr (srDraw s.job.roundSeed.toNat c.tensor (stepNow s) c.w c.elem) else .rne

/-- Elements that one scale selection covers in a format: a block, or a group where it has tensor scales (R95). -/
def scaleSpan (f : Nat) : Nat := if isGrouped f then 4096 else blockSize f

/-- The completed values that lie in the block or group of `d` in its tensor, in ascending element (R95). -/
def blockMates (g : Geo) (f : Nat) (d : Done) (all : List Done) : List Done :=
  sortBy (fun a b => decide (a.elem ≤ b.elem))
    (all.filter fun c => c.tensor == d.tensor && c.w == d.w && g.unitOf (scaleSpan f) c.elem == g.unitOf (scaleSpan f) d.elem)

/-- Elements of the tensor in the block or group of element `e`. -/
def blockElems (g : Geo) (f e : Nat) : Nat :=
  let first := g.firstOf (scaleSpan f) (g.unitOf (scaleSpan f) e)
  min (scaleSpan f) (g.len - first / g.inner % g.len)

/-- What one drain takes (R56, R67, R73): up to 256 completed entries; into a block format one whole block or group of a tensor along its blocking
axis, once all its values are complete, so that no scale depends on the order in which slots were served. -/
def drainBatch (s : State) (f : Nat) (r : TileRec) : List Done :=
  if isBlock f then
    match s.job.image with
    | none => []
    | some im => (r.completed.findSome? fun d =>
        let g := geoTens im d.tensor f
        let ms := blockMates g f d r.completed
        if (ms.map (·.elem)).dedup.length = blockElems g f d.elem ∧ ms.length = blockElems g f d.elem then some ms else none).getD []
  else r.completed.take 256

/-- NODE_STORE_DRAIN (R56, R57, R67, R82, R83, R86): completed entries leave, cast to a format on their way, and are free. -/
def execNodeStoreDrain (t : Tile) (toFmt : Nat) (stochastic : Bool) (ecc : Ecc) (s : State) : Host.Outcome State Fault Refusal :=
  .next (
    let now := drainBatch s toFmt (tile s t)
    if now.isEmpty || !crownWorks s t || (dlink s t).paused || !convertible toFmt then s
    else
      let (k, s) := if ecc = .uncorrectable then draw s else (0, s)
      let read := if ecc = .uncorrectable then now.map fun c => { c with value := Config.crownGarbage t c.x k, poisoned := true } else now
      let (q, ts) := quantiseRun toFmt (read.map fun c => (dec32 c.value, drainRnd s stochastic c))
      let s := updTile t (fun r => { r with
        completed := now.foldl (fun l c => l.erase c) r.completed
        drained := r.drained ++ [⟨toFmt, now.map (·.x), q.codes, q.bscales, ts, (read.filter (·.poisoned)).map (·.x)⟩] }) s
      let s := crossVertical t 1 0 (elemBytes toFmt q.codes q.bscales ts) s
      match ecc with
      | .ok => s
      | .corrected => crownCorrected t s
      | .uncorrectable => crownUncorrectable t s)

/-! ### Combine unit -/

/-- A child as the combine unit takes it: a BF16 child widens exactly to FP32 (R116), an integer to its width. -/
def combineChild (kind : CombineKind) (v : DWord) : DWord :=
  match kind with
  | .fp32 => BitVec.ofNat 64 (v.toNat % 2 ^ 32)
  | .bf16 => BitVec.ofNat 64 (v.toNat % 2 ^ 16 * 65536)
  | .int32 => BitVec.ofNat 64 (v.toNat % 2 ^ 32)
  | .int64 => v

/-- One addition of the combine unit (R116, R119). -/
def combineAdd (kind : CombineKind) (a v : DWord) : DWord :=
  let fp := (fadd (BitVec.ofNat 32 a.toNat) (BitVec.ofNat 32 v.toNat)).setWidth 64
  match kind with
  | .fp32 => fp
  | .bf16 => fp
  | .int32 => BitVec.ofNat 64 ((a.toNat + v.toNat) % 2 ^ 32)
  | .int64 => a + v

/-- The children held whose turn has come, in ascending index (R80). -/
def takeTurns : Nat → CombineNode → CombineNode × List (Nat × DWord)
  | 0, m => (m, [])
  | k + 1, m =>
    if thas m.held m.next then
      let r := takeTurns k { m with next := m.next + 1, held := tdel m.held m.next }
      (r.1, (m.next, tget m.held m.next 0) :: r.2)
    else (m, [])

/-- Adds children to the running value, left to right (R80, R115). -/
def addTurns (kind : CombineKind) (acc : DWord) (cs : List (Nat × DWord)) : DWord :=
  cs.foldl (fun a e => if e.1 = 0 then e.2 else combineAdd kind a e.2) acc

/-- A node that the combine unit hands to the node store: the `i`-th of level `lvl` from the child `a.leaf` on (R55, R121). -/
def nodeChild (a : AccSpec) (lvl i : Nat) (v : DWord) (bad : Bool) : Child :=
  { mkChild a 0 (a.leaf + 8 ^ lvl * i) 0 0 (v.setWidth 32) bad with lvl }

/-- The `n` nodes of level `lvl` that the root half brings are nodes of the tree, and the output is one that the node store can hold (R54, R120, R121). -/
def nodesFit (a : AccSpec) (lvl n : Nat) : Bool :=
  accFits a 1 && decide (lvl < a.emit) && a.leaf % 8 ^ lvl == 0 && decide (a.leaf + 8 ^ lvl * (n - 1) < a.first + a.n)

/-- The combine unit can take the child: it is one of the node's, and not in yet. -/
def canCombine (s : State) (t : Nat) (dest : CombineTo) (node n idx : Nat) : Bool :=
  let m := tget (tile s t).nodes node {}
  decide (idx < n) && decide (m.next ≤ idx) && !thas m.held idx && s.pins.v48On && !s.dev.qLost.getLsbD (quadOf t) &&
    (match dest with | .add => true | .store a lvl => nodesFit a lvl n)

/-- A child reaches the combine unit (R80): it waits in tile SRAM until every child of a lower index has been taken, and is then added, or goes to
the node store's queue. -/
def combineOne (t : Nat) (kind : CombineKind) (dest : CombineTo) (node n idx : Nat) (value : DWord) (bad : Bool) (s : State) : State :=
  let m := tget (tile s t).nodes node {}
  let (m, cs) := takeTurns (n + 1) { m with held := tput m.held idx (combineChild kind value), poison := m.poison || bad }
  match dest with
  | .add => updTile t (fun r => { r with nodes := tput r.nodes node { m with acc := addTurns kind m.acc cs } }) s
  | .store a lvl => formed t 3 (cs.map fun e => nodeChild a lvl e.1 e.2 m.poison) (updTile t (fun r => { r with nodes := tput r.nodes node m }) s)

/-- combineOne after the unit's reads of held children in tile SRAM: `ecc` names the offsets at which they find errors, and one that the code cannot correct
poisons the node (R80, R337, R338, R340). -/
def combineReads (t : Nat) (kind : CombineKind) (dest : CombineTo) (node n idx : Nat) (value : DWord) (bad : Bool) (ecc : List (Nat × Ecc)) (s : State) :
    State :=
  combineOne t kind dest node n idx value (bad || ecc.any fun e => e.2 == .uncorrectable) (readsFind t 3 [(0, 0xC00000)] ecc s)

/-- COMBINE (R71, R80, R81, R116, R119): by a slot of the tile, or, for none, by a packet from the fabric or a relay's combiner tables. -/
def execCombine (t : Tile) (issue : Option Issue) (kind : CombineKind) (dest : CombineTo) (node n idx : Nat) (value : DWord) (bad : Bool)
    (ecc : List (Nat × Ecc)) (s : State) : Host.Outcome State Fault Refusal :=
  .next (
    let ok := canCombine s t dest node n idx
    match issue with
    | some i => issued i 5 (ok && i.tile == t) (fun s => combineReads t kind dest node n idx value bad ecc (retire 5 i.tile i.slot s)) s
    | none => if ok then combineReads t kind dest node n idx value bad ecc s else s)

/-! ### Clock gating and wake -/

def unitOfCrown : CrownUnit → Nat
  | .array => 0 | .thin => 1 | .vector => 2

/-- A unit that holds work is not idle: the array with a stream that waits for its set, or leaves of a unit that wait for the node store (R85). -/
def unitIdle (r : TileRec) (u : Nat) : Bool := !(u == 0 && r.stalled.isSome) && (tget r.children u []).isEmpty

/-- UNIT_CLOCK_GATE (R85): a unit idle for 256 crown cycles. -/
def execUnitClockGate (t : Tile) (u : CrownUnit) (s : State) : Host.Outcome State Fault Refusal :=
  .next (if unitIdle (tile s t) (unitOfCrown u) then updTile t (fun r => { r with gated := r.gated ||| unitBit (unitOfCrown u) }) s else s)

/-- All eight slots IDLE or WAITING (R86). -/
def slotsQuiet (r : TileRec) : Bool := (List.range 8).all fun k => (settled r k).st == .idle || (settled r k).st == .waiting

/-- CROWN_CLOCK_GATE (R86): every crown memory and register keeps its contents. -/
def execCrownClockGate (t : Tile) (s : State) : Host.Outcome State Fault Refusal :=
  .next (if slotsQuiet (tile s t) then updTile t (fun r => { r with crownGated := true }) s else s)

/-- The crown of tile `t` stays gated: in READY, LOADING and RELAYING, but for those that the exerciser drives (R88). -/
def crownHeld (s : State) (t : Nat) : Bool :=
  (s.dev.st == .ready || s.dev.st == .loading || s.dev.st == .relaying) && !(drivenTiles s).contains t

/-- A slot of the tile is running, or its wait has been satisfied (R87). -/
def slotReleased (r : TileRec) : Bool := r.slots.any fun e => e.2.st == .running

/-- CROWN_WAKE (R87, R88): a satisfied wait or the loader's write wakes a gated crown, and the slots released go on. -/
def execCrownWake (t : Tile) (why : WakeCause) (s : State) : Host.Outcome State Fault Refusal :=
  .next (
    let cause := match why with | .signal => slotReleased (tile s t) | .loader => true
    if !isFA s && tileUsable s t && !s.heat.crownsOff && !crownHeld s t && s.pins.v48On && cause then
      (List.range 8).foldl (fun s k => resume t k s) (updTile t (fun r => { r with crownGated := false }) s)
    else s)

/-! ### Shadow checks -/

/-- A slice converted to MXFP8 E4M3 in blocks of 32 from the leaf start, and decoded again (R152). -/
def shadowValues (xs : List Num) : List Num :=
  let q := (quantiseRun 2 (xs.map fun x => (x, Rnd.rne))).1
  q.codes.zipIdx.map fun (c, i) => decodeElem 2 c (nth q.bscales (i / 32) 0) 0

def absRat (q : Rat) : Rat := if q < 0 then -q else q

/-- τ of the image (R154). -/
def tau (s : State) : Rat := match s.job.image with | some im => (dec32 im.safe.tau).real | none => 1 / 2

/-- A drift between a leaf and its shadow (R154), evaluated exactly on finite values. -/
def drifts (s : State) (xs ys : List Num) (leaf : Word) : Bool :=
  let ls := ratSum (List.zipWith (fun a b => a.real * b.real) (shadowValues xs) (shadowValues ys))
  let p := ratSum (List.zipWith (fun a b => absRat (a.real * b.real)) xs ys)
  let amax := ratMax (xs.map fun x => absRat x.real)
  let bmax := ratMax (ys.map fun y => absRat y.real)
  decide (tau s * p + amax * bmax / 256 < absRat ((dec32 leaf).real - ls))

/-- SHADOW_COMPARE (R152 to R154): the oldest sampled leaf of computing tile `t` is compared with its shadow. -/
def execShadowCompare (t : Tile) (a b : Run) (s : State) : Host.Outcome State Fault Refusal :=
  .next (
    let r := tile s t
    match r.samples.find? fun x => !x.drift with
    | none => s
    | some x =>
      let xs := decodeRun a
      let ys := decodeRun b
      let finite := (List.zipWith Num.mul xs ys).all Num.isFinite && (dec32 x.value).isFinite
      if !finite then setTile t { r with samples := r.samples.erase x, skippedSamples := r.skippedSamples + 1 } s
      else if drifts s xs ys x.value then
        setTile t { r with samples := r.samples.map fun y => if y == x then { y with drift := true } else y } s
      else setTile t { r with samples := r.samples.erase x } s)

/-- The shadow tile that placement assigns to a tile's leaves (R151). -/
def shadowOf (s : State) (t : Nat) : Nat := match s.job.plan with | some p => nth p.shadow t t | none => t

/-- The third tile (R155): the spec does not say which. DESIGN CHOICE (log 68): the first usable tile u, in ascending (u − t) mod 256, that is
neither the computing nor the shadow tile; on a module of two tiles, the shadow tile. -/
def thirdTile (s : State) (t : Nat) : Nat :=
  (((List.range 255).map fun i => (t + 1 + i) % 256).find? fun u => tileUsable s u && u != shadowOf s t).getD (shadowOf s t)

/-- Silent corruption of this module has been detected (R156, F9): A3 on itself with quarantine (R648, R652). -/
def stopCorrupt (code : Nat) (s : State) : State :=
  if inJob s then
    let s := sendNotice (mkNotice s 3 code (ownSlot s) true) s
    if s.dev.st = .running then enter .quarantined s else enter .faulted s
  else s

/-- THIRD_TILE_RECOMPUTE (R155, R156, R158): the third tile forms the leaf from its two slices in their stored formats. A leaf that equals the computing
tile's names the shadow tile, else the computing tile. -/
def execThirdTileRecompute (t : Tile) (a b : Run) (s : State) : Host.Outcome State Fault Refusal :=
  .next (
    let r := tile s t
    match r.samples.find? fun x => x.drift with
    | none => s
    | some x =>
      let sh := shadowOf s t
      let leaf := leafProducts (decodeRun a) (decodeRun b)
      let (suspect, other) := if leaf = x.value then (sh, t.val) else (t.val, sh)
      let s := setTile t { r with samples := r.samples.erase x } s
      let s := updTile (thirdTile s t) (fun u => { u with arrayBusy := u.arrayBusy + streamCycles [b] [a] }) s
      let s := raise errShadowDrift uTile suspect suspect other
        (detail [(x.tensor, 4), (x.leaf % 2 ^ 32, 4), (x.fingerprint.toNat, 4)]) s
      let s := updSummary (crownDie suspect) (fun d => { d with shadow := satInc none32 d.shadow }) s
      let s := ledgerEvent (crownDie suspect) 1 (rootBand s t) x.fingerprint.toNat (newest s) s
      stopCorrupt errShadowDrift s)

end Sys2Proof.Machine
end

