-- ==== Sys2Proof/Machine/Flume.lean ====
section
/-! DEFINITION. The Flume path and the bulk reductions (Chapter 13): descriptors, fold_fringe, a relay's combine slots and chunk buffers, and this
module's own operations. -/
namespace Sys2Proof.Machine

/-! ### Values (Table 13-1) -/

def dmin (a b : DWord) : DWord :=
  if dec64 a = .nan ∨ dec64 b = .nan then 0x7FF8000000000000 else if Num.lt true (dec64 b) (dec64 a) then b else a
def dmax (a b : DWord) : DWord :=
  if dec64 a = .nan ∨ dec64 b = .nan then 0x7FF8000000000000 else if Num.lt true (dec64 a) (dec64 b) then b else a

/-- A 32-bit operation on values held in 64 bits. -/
def on32 (f : Word → Word → Word) (a b : DWord) : DWord := (f (a.setWidth 32) (b.setWidth 32)).setWidth 64

/-- Add, min or max by signed or unsigned comparison of `n` bits. -/
def intFold {n : Nat} (op : Nat) (signed : Bool) (a b : BitVec n) : BitVec n :=
  let lt := fun (x y : BitVec n) => if signed then x.slt y else x.ult y
  if op = 0 then a + b else if op = 1 then (if lt b a then b else a) else if op = 2 then (if lt a b then b else a)
  else if op = 3 then a &&& b else a ||| b

/-- One combination of two values by an operation and type of Table 13-1. -/
def combineTwo (op type : Nat) (a b : DWord) : DWord :=
  match type with
  | 0 => on32 (intFold op true) a b
  | 1 => on32 (intFold op false) a b
  | 2 => intFold op true a b
  | 3 => intFold op false a b
  | 4 => on32 (if op = 0 then fadd else if op = 1 then fmin else fmax) a b
  | _ => (if op = 0 then dadd else if op = 1 then dmin else dmax) a b

/-- Bytes of an element of a type. -/
def typeBytes (type : Nat) : Nat := if type = 0 ∨ type = 1 ∨ type = 4 then 4 else 8

/-! ### The descriptor (Table 13-2) -/

/-- Descriptor fields. -/
structure Desc where
  op : Nat
  type : Nat
  count : Nat
  flags : Nat
  group : Word
  seq : Word
  kids : Nat
  top : Nat
  digest : DWord
  lowest : Nat
  mismatch : Nat
  deriving DecidableEq, Repr

/-- Bytes 0 to 15 with a value of flags. -/
def Desc.head (d : Desc) (flags : Nat) : List Byte :=
  leBytes 1 d.op ++ leBytes 1 d.type ++ leBytes 1 d.count ++ leBytes 1 flags ++ leBytes 4 d.group.toNat ++ leBytes 4 d.seq.toNat ++
    leBytes 3 d.kids ++ leBytes 1 d.top

/-- The digest over bytes 0 to 15 with flags taken as 0. -/
def Desc.formDigest (d : Desc) : DWord := digest8 (d.head 0)

def Desc.bytes (d : Desc) : List Byte := d.head d.flags ++ leBytes 8 d.digest.toNat ++ leBytes 4 d.lowest ++ leBytes 4 d.mismatch

/-- The descriptor of a packet. -/
def descOf (p : Packet) : Desc :=
  let b := p.payload
  ⟨field b 0 1, field b 1 1, field b 2 1, field b 3 1, BitVec.ofNat 32 (field b 4 4), BitVec.ofNat 32 (field b 8 4), field b 12 3, field b 15 1,
   BitVec.ofNat 64 (field b 16 8), field b 24 4, field b 28 4⟩

def Desc.fringe (d : Desc) : Bool := d.flags % 2 == 1
def Desc.fail (d : Desc) : Bool := d.flags / 4 % 2 == 1
def Desc.source (d : Desc) : Bool := d.flags / 8 % 2 == 1
/-- Contributions expected at level 1, 2 or 3. -/
def Desc.kidsAt (d : Desc) (level : Nat) : Nat := d.kids / 256 ^ (level - 1) % 256

/-- Elements of a packet that is no fringe, from flit 1 on. -/
def packetValues (d : Desc) (p : Packet) : List DWord :=
  (List.range d.count).map fun i => BitVec.ofNat 64 (field p.payload (32 + typeBytes d.type * i) (typeBytes d.type))

/-- Nodes of a fringe part, 16 bytes each; level 0xFF fills the last flit. -/
def fringeNodes (p : Packet) : List FNode :=
  ((List.range ((p.payload.length - 32) / 16)).map fun i =>
    let o := 32 + 16 * i
    FNode.mk (field p.payload (o + 1) 1) (field p.payload o 1) (field p.payload (o + 4) 4) (BitVec.ofNat 64 (field p.payload (o + 8) 8))).filter
      fun n => n.level != 0xFF

/-- Nodes that a contribution brings. -/
def packetNodes (job : BitVec 16) (d : Desc) (p : Packet) : List FNode :=
  if d.fringe then fringeNodes p
  else
    let e := Config.nodeLevel job d.group d.lowest
    (packetValues d p).zipIdx.map fun (v, i) => ⟨i, e, d.lowest / 8 ^ e, v⟩

def nodeBytes (n : FNode) : List Byte :=
  leBytes 1 n.level ++ leBytes 1 n.elem ++ leBytes 2 0 ++ leBytes 4 n.index ++ leBytes 8 n.value.toNat

/-! ### fold_fringe (R594) -/

/-- Level-0 index that a node covers first. -/
def FNode.first (n : FNode) : Nat := n.index * 8 ^ n.level

def insertNode (n : FNode) : List FNode → List FNode
  | [] => [n]
  | m :: ms => if n.first ≤ m.first then n :: m :: ms else m :: insertNode n ms
/-- Nodes ordered by the first level-0 index that each covers. -/
def orderNodes (ns : List FNode) : List FNode := ns.foldr insertNode []

/-- Members of the node (e + 1, g) when the group has `n` members: the level-e indices 8g to min(8g + 7, ⌈n / 8^e⌉ − 1). -/
def runLength (n e g : Nat) : Nat := min 8 ((n + 8 ^ e - 1) / 8 ^ e - 8 * g)

/-- The node formed by a run, its values added left to right. -/
def foldRun (f : DWord → DWord → DWord) (run : List FNode) : Option FNode :=
  match run with
  | [] => none
  | x :: xs => some ⟨x.elem, x.level + 1, x.index / 8, xs.foldl (fun a y => f a y.value) x.value⟩

/-- Some run starts at the head of the list: the whole run of level-e members of one node. -/
def runAt (n : Nat) (ns : List FNode) : Option (List FNode) :=
  match ns with
  | [] => none
  | x :: _ =>
    let k := runLength n x.level (x.index / 8)
    let run := ns.take k
    if x.index % 8 = 0 ∧ run.length = k ∧ 1 < (n + 8 ^ x.level - 1) / 8 ^ x.level ∧
        run.zipIdx.all (fun (y, i) => y.level == x.level && y.index == x.index + i) then some run
    else none

/-- One round: the leftmost run is replaced by its node. -/
def foldOnce (f : DWord → DWord → DWord) (n : Nat) : List FNode → Option (List FNode)
  | [] => none
  | x :: xs =>
    match (runAt n (x :: xs)).bind (fun r => (foldRun f r).map fun y => y :: (x :: xs).drop r.length) with
    | some ys => some ys
    | none => (foldOnce f n xs).map (x :: ·)

/-- fold_fringe on the nodes of one element; `fuel` bounds the rounds. -/
def foldFringe (f : DWord → DWord → DWord) (n : Nat) : Nat → List FNode → List FNode
  | 0, ns => ns
  | k + 1, ns =>
    match foldOnce f n ns with
    | some ms => foldFringe f n k ms
    | none => ns

/-- fold_fringe on every element. -/
def foldNodes (op type n count : Nat) (ns : List FNode) : List FNode :=
  (List.range count).flatMap fun i =>
    let mine := orderNodes (ns.filter fun x => x.elem == i)
    foldFringe (combineTwo op type) n (8 * (mine.length + 8)) mine

/-! ### Packets -/

/-- A Flume or bulk packet from a descriptor and the bytes after it. -/
def flumePacket (opcode : Nat) (dst : BitVec 16) (job : BitVec 16) (aux : Nat) (d : Desc) (rest : List Byte) : Packet :=
  let payload := d.bytes ++ padFlits rest
  { emptyPacket with dst, job, opcode := BitVec.ofNat 8 opcode, flags := 0x20, aux := BitVec.ofNat 32 aux, payload,
                     len := BitVec.ofNat 8 (payload.length / 32) }

/-- FLUME_UP packets of a contribution: one with a single value per element, or the parts of a fringe of 12 nodes each (R593, R594). -/
def upPackets (dst : BitVec 16) (job : BitVec 16) (pair : Nat) (d : Desc) (vals : Option (List DWord)) (ns : List FNode) : List Packet :=
  match vals with
  | some vs => [flumePacket 0x80 dst job pair d (vs.flatMap fun v => leBytes (typeBytes d.type) v.toNat)]
  | none =>
    let parts := chunksOf 12 (ns.length + 1) ns
    let pad := fun (xs : List FNode) => if xs.length % 2 = 1 then xs ++ [⟨0, 0xFF, 0, 0⟩] else xs
    parts.zipIdx.map fun (xs, i) =>
      flumePacket 0x80 dst job (pair + i * 2 ^ 8 + parts.length * 2 ^ 16) { d with flags := d.flags ||| 1 } ((pad xs).flatMap nodeBytes)

/-- Single values, when every element has come down to one node. -/
def singleValues (count : Nat) (ns : List FNode) : Option (List DWord) :=
  if ns.length = count ∧ (List.range count).all (fun i => ns.any fun x => x.elem == i) then
    some ((List.range count).map fun i => ((ns.find? fun x => x.elem == i).map (·.value)).getD 0)
  else none

/-! ### A relay's combine slots -/

/-- Level of this relay in the tree: 1 leaf, 2 spine, 3 core. -/
def relayLevel (s : State) : Nat :=
  match s.dev.role with | some .leaf => 1 | some .spine => 2 | some .core => 3 | _ => 0

/-- This module is a relay at work. -/
def relaying (s : State) : Bool := isFA s && s.dev.st == .relaying

/-- Combine slots of a relay (Table 13-6). -/
def slotRoom (s : State) : Nat := if relayLevel s = 1 then 1024 else 4096

def slotIs (job : BitVec 16) (group seq : Word) (x : FSlot) : Bool := x.job == job && x.group == group && x.seq == seq

/-- The lane by which a relay sends upward to one parent: the lowest that carries traffic, or else one that retrains, for which packets wait (R499, R590). -/
def lowestUp (s : State) (ls : List Nat) : Option Nat :=
  let ups := (ls.map (72 + ·)).filter (isUpLane s)
  match ups.find? (carries s) with
  | some l => some l
  | none => ups.find? fun l => (lane s l).retraining

/-- The lane toward the parent of an operation (R590): spine (group + sequence) mod 72, core 4s + ((group + sequence) div 72) mod 4 over the
lowest UP lane of its 18. -/
def parentLane (s : State) (group seq : Word) : Option Nat :=
  let k := group.toNat + seq.toNat
  lowestUp s (if relayLevel s = 1 then [k % 72] else (List.range 18).map (18 * (k / 72 % 4) + ·))

/-- A contribution with a part of its fringe added. -/
def addPart (l : Nat) (d : Desc) (p : Packet) (cs : List Contrib) : List Contrib :=
  let part := p.aux.toNat / 2 ^ 8 % 256
  let parts := max 1 (p.aux.toNat / 2 ^ 16 % 256)
  if cs.any fun c => c.lane == l then
    cs.map fun c => if c.lane = l then { c with got := sinsert c.got part } else c
  else cs ++ [⟨l, d.lowest, d.digest, d.mismatch, parts, [part]⟩]

/-- The part has come before from this lane. -/
def hasPart (l : Nat) (p : Packet) (cs : List Contrib) : Bool :=
  cs.any fun c => c.lane == l && c.got.contains (p.aux.toNat / 2 ^ 8 % 256)

/-- Contribution with the lowest group index, whose digest is the reference (R596). -/
def leftmost : List Contrib → Option Contrib
  | [] => none
  | c :: cs => match leftmost cs with
    | none => some c
    | some d => if c.lowest ≤ d.lowest then some c else some d

/-- The slot's mismatch field (R596). -/
def slotMismatch (cs : List Contrib) : Nat :=
  match leftmost cs with
  | none => none32
  | some r => cs.foldl (fun m c => min m (if c.digest = r.digest then c.mismatch else min c.mismatch c.lowest)) none32

def slotDesc (x : FSlot) (flags : Nat) : Desc :=
  { op := x.op, type := x.type, count := x.count, flags, group := x.group, seq := x.seq, kids := x.kids, top := x.top
    digest := ((leftmost x.contribs).map (·.digest)).getD 0, lowest := ((leftmost x.contribs).map (·.lowest)).getD 0
    mismatch := slotMismatch x.contribs }

/-- Every expected contribution is whole (R590, R597). -/
def slotFull (level : Nat) (x : FSlot) : Bool :=
  decide ((slotDesc x 0).kidsAt level ≤ x.contribs.length) && x.contribs.all fun c => decide (c.parts ≤ c.got.length)

/-- Flags of a packet that a relay sends by lane `l`: the epoch bit, and a relay address unless the lane leads down to a module (Table 11-1). -/
def relayFlags (s : State) (l : Nat) : BitVec 8 :=
  (if s.fabric.epoch then 1 else 0) ||| (if relayLevel s = 1 ∧ l < 72 then 0 else 0x20)

/-- Sends packets by one lane. -/
def sendAll (l : Nat) (ps : List Packet) (s : State) : State :=
  ps.foldl (fun s p => sendByLink l (sealPacket { p with src := ownEndpoint s, flags := relayFlags s l }) s) s

/-- Values of a slot's elements at the top of its tree. -/
def slotResult (x : FSlot) : List DWord :=
  if x.op = 6 then x.source.getD []
  else
    let ns := foldNodes x.op x.type (Config.flumeSize x.job x.group) x.count x.nodes
    (List.range x.count).map fun i => ((ns.find? fun y => y.elem == i).map (·.value)).getD 0

/-- FLUME_DOWN on every lane that contributed (R591, R597). -/
def sendDown (x : FSlot) (flags : Nat) (data : List Byte) (s : State) : State :=
  x.contribs.foldl (fun s c =>
    sendAll c.lane [flumePacket 0x81 (partnerOf s c.lane) x.job x.aux (slotDesc x flags) data] s) s

def dropSlot (x : FSlot) (s : State) : State :=
  { s with flume.slots := s.flume.slots.filter fun y => !slotIs x.job x.group x.seq y }
def putSlot (x : FSlot) (s : State) : State :=
  { s with flume.slots := (s.flume.slots.filter fun y => !slotIs x.job x.group x.seq y) ++ [x] }

/-- A full slot sends its result, its failure or its fold (R590, R591, R597). -/
def finishSlot (x : FSlot) (s : State) : State :=
  if x.top ≤ relayLevel s then
    let bad := slotMismatch x.contribs != none32
    let data := if bad then [] else (slotResult x).flatMap fun v => leBytes (typeBytes x.type) v.toNat
    dropSlot x (sendDown x (if bad then 6 else 2) data s)
  else
    let ns := foldNodes x.op x.type (Config.flumeSize x.job x.group) x.count x.nodes
    let vals := if x.op = 6 then some (x.source.getD []) else singleValues x.count ns
    let flags := if x.op = 6 ∧ x.source.isSome then 8 else 0
    let d := slotDesc x flags
    match parentLane s x.group x.seq with
    | some l =>
      let ps := upPackets (partnerOf s l) x.job x.aux (if x.op = 6 ∧ x.source.isNone then { d with count := 0 } else d) vals ns
      putSlot { x with sent := ps } (sendAll l ps s)
    | none => putSlot x s

/-- The packet CRC fails at its destination (R466). -/
def crcBad (p : Packet) : Bool := p.crc != packetCrc p

/-- Counts a packet whose CRC fails at a lane's router (R466). -/
def countCrc (l : Nat) (p : Packet) (s : State) : State := dropCrc (laneTile l) p s

/-- BUSY_RELAY to the sender of a refused packet (R592, R609): its header and descriptor, by the lane that it came from. -/
def refusePacket (l : Nat) (p : Packet) (s : State) : State :=
  sendByLink l (sealPacket { p with opcode := 0x82, dst := p.src, src := ownEndpoint s, payload := p.payload.take 32, len := 1 }) s

/-- FLUME_UP (R590 to R597): a relay takes a contribution into its slot. -/
def execFlumeUp (l : Lane) (p : Packet) (s : State) : Host.Outcome State Fault Refusal :=
  .next (
    if !relaying s then s
    else if crcBad p then countCrc l p s
    else
      let d := descOf p
      match s.flume.slots.find? (slotIs p.job d.group d.seq) with
      | none =>
        if slotRoom s ≤ s.flume.slots.length then refusePacket l p s
        else
          let x : FSlot := { job := p.job, aux := p.aux.toNat / 2 ^ 24 * 2 ^ 24 + p.aux.toNat % 256, group := d.group, seq := d.seq, op := d.op, type := d.type, count := d.count, kids := d.kids, top := d.top
                             contribs := addPart l d p [], nodes := if d.op = 6 then [] else packetNodes p.job d p
                             source := if d.op = 6 ∧ d.source then some (packetValues d p) else none }
          if slotFull (relayLevel s) x then finishSlot x s else putSlot x s
      | some x =>
        if hasPart l p x.contribs then s
        else
          let y := { x with
            contribs := addPart l d p x.contribs
            nodes := if d.op = 6 then x.nodes else x.nodes ++ packetNodes p.job d p
            source := if d.op = 6 ∧ d.source then some (packetValues d p) else x.source }
          if slotFull (relayLevel s) y then finishSlot y s else putSlot y s)

/-- FLUME_SLOT_DISCARD (R600): an operation whose result has not come down is incomplete in the slot (DEDUCED, log 48). -/
def execFlumeSlotDiscard (job : BitVec 16) (group seq : Word) (s : State) : Host.Outcome State Fault Refusal :=
  .next { s with flume.slots := s.flume.slots.filter fun y => !slotIs job group seq y }

/-! ### Latency (R601, R602) -/

/-- Fibre delay in ns, one way, from a member to the top relay by the reference lengths of Table 13-3, at 5 ns/m. -/
def fibreNs (level : Nat) : Nat := 5 * [0, 15, 70, 150].getD level 150

/-- Time in ns of a Flume operation whose tree reaches a level (R601): ports of 50 ns, relays of 40 ns, combining of 20 ns. -/
def flumeNs (level : Nat) : Nat := 2 * (50 + level * 40 + fibreNs level) + level * 20

/-! ### Node-aligned groups (R605) -/

/-- Children `lo` to `lo + n - 1` of `g` form one complete canonical node: 8 ^ e of them from a multiple of 8 ^ e, or the last ones from there. -/
def oneNode (g lo n : Nat) : Bool :=
  (List.range 17).any fun e => lo % 8 ^ e == 0 && (n == 8 ^ e || (lo + n == g && decide (n ≤ 8 ^ e) && decide (1 ≤ n)))

/-- Group indices that are adjacent and form one complete canonical node. -/
def nodeIndices (g : Nat) (xs : List Nat) : Bool :=
  let lo := xs.foldl min none32
  !xs.isEmpty && xs.all (fun x => decide (x < lo + xs.length)) && decide xs.Nodup && oneNode g lo xs.length

/-- The group is node-aligned (R605): the indices under each of `parts`, the modules and relays of its tree, form one complete canonical node. The
children of a relay then cover adjacent nodes, since its own indices are adjacent. Integer, max and min reductions count as aligned in any group
(R119). -/
def nodeAligned (g : Nat) (exact : Bool) (parts : List (List Nat)) : Bool := exact || parts.all (nodeIndices g)

/-! ### Groups of this job (R584, R886) -/

/-- Distinct machine masks of the image's collectives in order of first use (R584). -/
def masksOf (im : Image) : List Nat :=
  im.ops.foldl (fun ms o => if o.opcode = 10 ∧ !ms.contains o.machine then ms ++ [o.machine] else ms) []

/-- Group word of a rank's group over a mask: class and instance (R584). -/
def groupWord (im : Image) (mask rank : Nat) : Word :=
  let axes := (List.range im.machine.length).filter fun a => !mask.testBit a
  let cs := unravel (machineSizes im) rank
  let inst := ravel (axes.map fun a => nth (machineSizes im) a 1) (axes.map fun a => nth cs a 0)
  BitVec.ofNat 32 (((masksOf im).findIdx (· == mask) + 1) * 2 ^ 20 + inst)

/-- Rank at a group index of the group that holds `rank`. -/
def groupMember (im : Image) (mask rank idx : Nat) : Nat :=
  let axes := bitList im.machine.length mask
  let ds := unravel (axes.map fun a => nth (machineSizes im) a 1) idx
  ravel (machineSizes im) ((axes.zip ds).foldl (fun cs (a, d) => lset cs a d) (unravel (machineSizes im) rank))

/-- Own positions in the same instance of a group as position `pos`. -/
def groupPositions (s : State) (im : Image) (mask pos : Nat) : List Nat :=
  (List.range (positions s)).filter fun q => groupWord im mask (rankOf s im q) == groupWord im mask (rankOf s im pos)

/-- Module slots that hold members of the group. -/
def groupSlots (im : Image) (p : Plan) (mask rank : Nat) : List Nat :=
  (List.range p.n).filter fun m => (List.range p.r).any fun pos => groupWord im mask (rankAt im p m pos) == groupWord im mask rank

/-- Top of the group's tree and the contributions expected at levels 1 to 3 on this module's path (Table 13-2). -/
def groupTree (s : State) (slots : List Nat) : Nat × Nat :=
  let places := slots.map fun m => match s.dev.ring with
    | some r => match r.machine.find? fun e => e.endpoint == nth s.job.rankMap m 0xFFFF with | some e => (e.pod, e.rack) | none => (0, 0)
    | none => (0, 0)
  let own := match s.dev.ring with | some r => (r.pod, r.rack) | none => (0, 0)
  let racks := places.eraseDups
  let pods := (places.map (·.1)).eraseDups
  let k1 := places.countP (· == own)
  let k2 := if ringLevels s = 3 then racks.countP (fun x => x.1 == own.1) else racks.length
  let top := if slots.length ≤ 1 then 0 else if racks.length ≤ 1 then 1 else if ringLevels s = 3 ∧ 1 < pods.length then 3 else 2
  (top, k1 + k2 * 256 + pods.length * 65536)

/-- Group indices under each module and each relay of a group's tree (R605). -/
def groupParts (s : State) (im : Image) (p : Plan) (mask rank : Nat) : List (List Nat) :=
  let under := fun (m : Nat) => ((List.range p.r).map (rankAt im p m)).filterMap fun k =>
    if groupWord im mask k == groupWord im mask rank then some (groupIndex im mask k) else none
  let place := fun (m : Nat) => match s.dev.ring with
    | some r => match r.machine.find? fun (e : EndpointPos) => e.endpoint == nth s.job.rankMap m 0xFFFF with | some e => (e.pod, e.rack) | none => (0, 0)
    | none => (0, 0)
  let slots := groupSlots im p mask rank
  let racks := (slots.map place).eraseDups
  slots.map under ++ racks.map (fun k => (slots.filter fun m => place m == k).flatMap under) ++
    (racks.map (·.1)).eraseDups.map fun pod => (slots.filter fun m => (place m).1 == pod).flatMap under

/-- The pair of planes (R589). -/
def pairPlanes (s : State) : List Nat := let p := (s.job.tag.toNat + s.job.pairIndex) % 64; [p, p + 64]

/-- A group's fault: only the reporting member sends it to the host (R588). -/
def raiseGroup (reporting : Bool) (code obj peer : Nat) (det : List Byte) (s : State) : State :=
  if reporting then raise code uCruise 0 obj peer det s else writeRec (mkRec s code uCruise 0 obj peer det) s

/-- Lowest rank of this module in an operation's group, or its module slot for class 0 (R886). -/
def opRank (s : State) (group : Word) : Nat :=
  match s.job.image with
  | some im =>
    if group.toNat < 2 ^ 20 then ownSlot s
    else
      match (masksOf im)[group.toNat / 2 ^ 20 - 1]? with
      | some mask => ((List.range (positions s)).map (rankOf s im)).find? (fun r => groupWord im mask r == group) |>.getD none32
      | none => none32
  | none => ownSlot s

/-- This module's member at group index 0 reports (R588). -/
def reports (s : State) (group : Word) : Bool :=
  match s.job.image with
  | some im =>
    if group.toNat < 2 ^ 20 then ownSlot s == 0
    else
      match (masksOf im)[group.toNat / 2 ^ 20 - 1]? with
      | some mask => (List.range (positions s)).any fun q => groupWord im mask (rankOf s im q) == group && groupIndex im mask (rankOf s im q) == 0
      | none => false
  | none => false

/-- ERR_FLUME_TIMEOUT stops the job on this module (R599, Table 13-8). -/
def raiseTimeout (group seq : Word) (planes : Nat) (s : State) : State :=
  stopA3 errFlumeTimeout (raiseGroup (reports s group) errFlumeTimeout (group.toNat / 2 ^ 20) (opRank s group)
    (detail [(group.toNat % 2 ^ 20, 4), (seq.toNat, 4), (planes, 1), (s.job.pairIndex, 1)]) s)

/-- Sends a FLUME_UP on one plane of the pair whose lane carries. -/
def sendPlane (kind : Nat) (d : Desc) (vals : Option (List DWord)) (ns : List FNode) (x : List Packet × Nat × State) (e : Nat × Nat) : List Packet × Nat × State :=
  let (ps, planes, s) := x
  match laneOfPlane s e.1 with
  | none => x
  | some l =>
    let out := upPackets (partnerOf s l) s.job.tag (kind * 2 ^ 24 + s.job.pairIndex % 256) d vals ns
    let (sent, s) := out.foldl (fun (y : List Packet × State) p =>
      let (q, s) := injectPacket p false (some e.1) y.2
      (y.1 ++ q.toList, s)) ([], s)
    (ps ++ sent, planes + 2 ^ e.2, s)

/-- Sends one module's folded contribution to a Flume operation (R585, R589): on each plane of the pair whose lane is UP; with neither, the operation
times out at once (R599). `kind` stands in header aux bits 31–24 (R607). -/
def sendFlume (op part kind : Nat) (slots : List Nat) (d : Desc) (ns : List FNode) (s : State) : State :=
  let d := { d with seq := BitVec.ofNat 32 (tget s.flume.seqs d.group.toNat 0), top := (groupTree s slots).1, kids := (groupTree s slots).2, flags := 0,
                    mismatch := none32 }
  let d := { d with digest := d.formDigest }
  let s := { s with flume.seqs := tset s.flume.seqs d.group.toNat (d.seq.toNat + 1) 0 }
  if d.top = 0 then
    let r := (List.range d.count).map fun i => ((ns.find? fun x => x.elem == i).map (·.value)).getD 0
    { s with flume.ops := s.flume.ops ++ [⟨d.group, d.seq, op, part, d.digest, 0, [], some r, []⟩] }
  else
    let (ps, planes, s) := (pairPlanes s).zipIdx.foldl (sendPlane kind d (singleValues d.count ns) ns) ([], 0, s)
    if planes = 0 then raiseTimeout d.group d.seq 0 s
    else { s with flume.ops := s.flume.ops ++ [⟨d.group, d.seq, op, part, d.digest, planes, ps, none, []⟩] }

/-- A Flume operation of this module's members in a group of an op (R589): their level-0 values fold into one contribution. -/
def beginFlume (im : Image) (mask pos op part kind fop type count : Nat) (values : Nat → List DWord) (s : State) : State :=
  match s.job.plan with
  | none => s
  | some p =>
    let rank := rankOf s im pos
    let mine := groupPositions s im mask pos
    let idx := fun (q : Nat) => groupIndex im mask (rankOf s im q)
    let ns := foldNodes fop type (groupSize im mask) count
      (mine.flatMap fun q => (values q).zipIdx.map fun (v, i) => ⟨i, 0, idx q, v⟩)
    sendFlume op part kind (groupSlots im p mask rank)
      ⟨fop, type, count, 0, groupWord im mask rank, 0, 0, 0, 0, (mine.map idx).foldl min none32, none32⟩ ns s

/-- Modules of the job's device set: module slots 0 to N − 1 (R584, R886). -/
def deviceSlots (s : State) : List Nat := List.range s.job.rankMap.length

/-- Some operation of the device-set group: each member is a module, its group index its module slot (R584, R886). The module's contribution goes upward;
what the round decides stands in the command that runs the round, which brings the other modules' contributions as FLUME_DOWN would, so the round
itself does not stay in flight (log 70). -/
def deviceNodes (fop type count : Nat) (ns : List FNode) (s : State) : State :=
  if s.job.rankMap.length ≤ 1 then s
  else
    let s' := sendFlume none32 0 0 (deviceSlots s) ⟨fop, type, count, 0, 0, 0, 0, 0, 0, ownSlot s, none32⟩ ns s
    { s' with flume.ops := s'.flume.ops.filter fun x => x.op != none32 }

/-- Such an operation of one value per element, at the module's group index. -/
def deviceFlume (fop type : Nat) (values : List DWord) (s : State) : State :=
  deviceNodes fop type values.length (values.zipIdx.map fun (v, i) => ⟨i, 0, ownSlot s, v⟩) s

/-- A value of any length as Flume operations of `n` words each (R132, R267). -/
def deviceFlumes (n fop type : Nat) (values : List DWord) (s : State) : State :=
  (chunksOf n values.length values).foldl (fun s vs => deviceFlume fop type vs s) s

/-- The operation in flight of a part of an op for a position's group. -/
def opInFlight (s : State) (group : Word) (op part : Nat) : Option FOp := s.flume.ops.find? fun x => x.group == group && x.op == op && x.part == part

/-- A member may begin an operation of a group: fewer than 64 are in flight (R585). -/
def flumeRoom (s : State) (group : Word) : Bool := decide (s.flume.ops.countP (fun x => x.group == group && x.result.isNone) < 64)

/-- A position has taken the result; once every position of the group has, the operation is over. -/
def takeResult (n pos : Nat) (x : FOp) (s : State) : State :=
  let y := { x with taken := sinsert x.taken pos }
  let rest := s.flume.ops.filter fun z => !(z.group == x.group && z.seq == x.seq)
  { s with flume.ops := if n ≤ y.taken.length then rest else rest ++ [y] }

/-- ERR_COLL_MISMATCH (R598): no result is applied and the job stops on every member. -/
def raiseMismatch (x : FOp) (idx : Nat) (s : State) : State :=
  let named := if x.group.toNat < 2 ^ 20 then idx else match s.job.image with
    | some im => match (masksOf im)[x.group.toNat / 2 ^ 20 - 1]? with
      | some mask => groupMember im mask (opRank s x.group) idx
      | none => idx
    | none => idx
  let s := { s with flume.ops := s.flume.ops.filter fun z => !(z.group == x.group && z.seq == x.seq) }
  stopA4 errCollMismatch (raiseGroup (reports s x.group) errCollMismatch named (opRank s x.group)
    (detail [(x.group.toNat, 4), (x.seq.toNat, 4), (x.digest.toNat % 2 ^ 32, 4)]) s)

/-- A device-set operation may be in flight: the rounds of PLANNING and of a step boundary (R584, R795). -/
def deviceRound (s : State) : Bool := s.dev.st == .planning || (s.dev.st == .running && s.job.phase == none)

/-- FLUME_TIMEOUT (R599): an operation in flight has no FLUME_DOWN after T_flume. -/
def execFlumeTimeout (group seq : Word) (s : State) : Host.Outcome State Fault Refusal :=
  .next (
    match s.flume.ops.find? fun x => x.group == group && x.seq == seq with
    | some x => if x.result.isSome then s else raiseTimeout group seq x.planes s
    | none =>
      if group = 0 ∧ deviceRound s then
        let planes := ((pairPlanes s).zipIdx.filter fun e => (laneOfPlane s e.1).isSome).foldl (fun m e => m + 2 ^ e.2) 0
        raiseTimeout group seq planes s
      else s)

/-! ### Bulk reductions at a relay (R609 to R611). A packet carries one piece of a chunk: the descriptor's sequence field is the chunk number, its
mismatch field the group index of the chunk's owner in a reduce-scatter, the header's addr the piece's byte offset, aux bits 31–24 the attempt. -/

def chunkIs (job : BitVec 16) (group : Word) (chunk off : Nat) (x : Chunk) : Bool :=
  x.job == job && x.group == group && x.chunk == chunk && x.offset == off

/-- Chunks held in a relay's buffers. -/
def chunksHeld (s : State) : Nat := ((s.flume.chunks.map fun x => (x.job, x.group, x.chunk)).eraseDups).length
/-- Buffers of a relay (Table 13-6). -/
def chunkRoom : Nat := 40960

/-- Words of a piece. -/
def pieceWords (d : Desc) (p : Packet) : List DWord :=
  let n := typeBytes d.type
  (List.range ((p.payload.length - 32) / n)).map fun i => BitVec.ofNat 64 (field p.payload (32 + n * i) n)

def insertChild (c : Nat × Nat × List DWord) : List (Nat × Nat × List DWord) → List (Nat × Nat × List DWord)
  | [] => [c]
  | x :: xs => if c.1 < x.1 then c :: x :: xs else if c.1 = x.1 then c :: xs else x :: insertChild c xs

/-- The node of level `k` over values given with the first index that each covers, in ascending order: those under one node of level k − 1 come together
first. A value that is alone under a node is the node's (R115, R118). -/
def treeFold (f : DWord → DWord → DWord) : Nat → List (Nat × DWord) → Option DWord
  | 0, xs => xs.head?.map (·.2)
  | k + 1, xs =>
    match ((xs.map fun x => x.1 / 8 ^ k).eraseDups).filterMap fun j => treeFold f k (xs.filter fun x => x.1 / 8 ^ k == j) with
    | [] => none
    | v :: vs => some (vs.foldl f v)

/-- The children of a piece, by the group indices that they cover, folded along the canonical tree over the group (R80, R118, R610). -/
def foldPiece (op type : Nat) (cs : List (Nat × Nat × List DWord)) : List DWord :=
  let n := (cs.map fun c => c.2.2.length).foldl max 0
  (List.range n).map fun i => (treeFold (combineTwo op type) 16 (cs.map fun c => (c.1, nth c.2.2 i 0))).getD 0

/-- Combining spine and core of a chunk (R608), with q = c div m. -/
def bulkParent (s : State) (q : Nat) : Option Nat :=
  lowestUp s (if relayLevel s = 1 then [q % 72] else (List.range 18).map (18 * (q / 72 % 4) + ·))

def dropChunk (x : Chunk) (s : State) : State :=
  { s with flume.chunks := s.flume.chunks.filter fun y => !chunkIs x.job x.group x.chunk x.offset y }
def putChunk (x : Chunk) (s : State) : State := let t := dropChunk x s; { t with flume.chunks := t.flume.chunks ++ [x] }

def bulkPacket (opcode : Nat) (dst : BitVec 16) (job : BitVec 16) (off attempt : Nat) (d : Desc) (ws : List DWord) : Packet :=
  { flumePacket opcode dst job (attempt * 2 ^ 24) d (ws.flatMap fun v => leBytes (typeBytes d.type) v.toNat) with addr := BitVec.ofNat 48 off }

/-- BULK_DONE, a header alone (R611): addr holds the group and, above bit 32, the piece's offset; aux holds the chunk number and, from bit 24 on, the attempt
(DESIGN CHOICE, log 47: the chapter gives its header no fields). -/
def donePacket (dst job : BitVec 16) (off attempt : Nat) (group : Word) (chunk : Nat) : Packet :=
  { emptyPacket with dst, job, opcode := 0x86, flags := 0x20, addr := BitVec.ofNat 48 (group.toNat + off * 2 ^ 32)
                     aux := BitVec.ofNat 32 (attempt * 2 ^ 24 + chunk % 2 ^ 24) }

def doneGroup (p : Packet) : Word := BitVec.ofNat 32 p.addr.toNat
def doneOffset (p : Packet) : Nat := p.addr.toNat / 2 ^ 32
def doneChunk (p : Packet) : Nat := p.aux.toNat % 2 ^ 24

/-- Child that covers group index `i`: the last whose lowest index is not above it. -/
def childOf (cs : List (Nat × Nat × List DWord)) (i : Nat) : Option Nat := ((cs.filter fun c => decide (c.1 ≤ i)).getLast?).map (·.2.1)

/-- BULK_DOWN to every child of a reduce; in a reduce-scatter to the child that covers the owner, with BULK_DONE to the others (R611). -/
def bulkReturn (x : Chunk) (d : Desc) (ws : List DWord) (s : State) : State :=
  let owner := childOf x.children d.mismatch
  dropChunk x (x.children.foldl (fun s c =>
    let all := d.mismatch == none32 || owner == some c.2.1
    let p := if all then bulkPacket 0x85 (partnerOf s c.2.1) x.job x.offset x.attempt d ws
      else donePacket (partnerOf s c.2.1) x.job x.offset x.attempt x.group x.chunk
    sendAll c.2.1 [p] s) s)

/-- BULK_UP (R609, R610, R611, R614): a relay folds a chunk's children and forwards or returns the result. -/
def execBulkUp (l : Lane) (p : Packet) (s : State) : Host.Outcome State Fault Refusal :=
  .next (
    let d := descOf p
    let attempt := p.aux.toNat / 2 ^ 24
    let off := p.addr.toNat
    if !relaying s then s
    else if crcBad p then countCrc l p s
    else
      let s := { s with flume.chunks := s.flume.chunks.filter fun y => !(y.job == p.job && y.group == d.group && y.chunk == d.seq.toNat && decide (y.attempt < attempt)) }
      let held := s.flume.chunks.find? (chunkIs p.job d.group d.seq.toNat off)
      if held = none ∧ chunkRoom ≤ chunksHeld s then refusePacket l p s
      else
        let x : Chunk := held.getD { job := p.job, group := d.group, chunk := d.seq.toNat, offset := off, attempt }
        let x := { x with children := insertChild (d.lowest, l, pieceWords d p) x.children }
        if x.children.length < d.kidsAt (relayLevel s) then putChunk x s
        else
          let ws := foldPiece d.op d.type x.children
          let d := { d with lowest := (x.children.headD (d.lowest, 0, [])).1 }
          if d.top ≤ relayLevel s then bulkReturn x d ws s
          else
            match bulkParent s (p.aux.toNat % 2 ^ 24) with
            | some u =>
              let q := { bulkPacket 0x84 (partnerOf s u) x.job off attempt d ws with aux := p.aux }
              putChunk { x with sent := [q] } (sendAll u [q] s)
            | none => putChunk x s)

/-- BULK_BUFFER_DISCARD (R614). -/
def execBulkBufferDiscard (job : BitVec 16) (group : Word) (chunk : Nat) (s : State) : Host.Outcome State Fault Refusal :=
  .next { s with flume.chunks := s.flume.chunks.filter fun y => !(y.job == job && y.group == group && y.chunk == chunk) }

/-! ### Bulk reductions at a member (R606 to R612) -/

/-- Elements of a chunk: 64 KiB (R606). -/
def chunkElems (type : Nat) : Nat := 65536 / typeBytes type

/-- Chunks of slices of X elements, cut separately within each slice, with the slice's owner (R606). -/
def cutChunks (type : Nat) (slices : List (Nat × List Nat)) : List (Nat × List Nat) :=
  slices.flatMap fun (o, xs) => (chunksOf (chunkElems type) xs.length xs).map fun c => (o, c)

/-- This module's plane mask (R607): planes whose own tree lane carries and that no other member has lost. -/
def bulkMask (s : State) (peers : List (BitVec 16)) : List Nat :=
  (List.range 128).filter fun p => (laneOfPlane s p).isSome && peers.all fun x => !planeLost s x p

/-- A set of planes as four words, and back (R607, R612). -/
def maskWords (planes : List Nat) : List DWord :=
  (List.range 4).map fun k => BitVec.ofNat 64 (sumNat ((planes.filter fun p => p / 32 == k).map fun p => 2 ^ (p % 32)))
def wordPlanes (ws : List DWord) : List Nat := (List.range 128).filter fun p => (nth ws (p / 32) 0).getLsbD (p % 32)

/-- The full bulk descriptor's digest (R607). Its layout is the model's: DESIGN CHOICE (log 71): kind, op and type codes, one byte each, then the
element count. -/
def bulkDigest (b : Bulk) : DWord := digest8 (leBytes 1 b.kind ++ leBytes 1 b.fop ++ leBytes 1 b.type ++ leBytes 8 b.words.length)

/-- Pieces of a chunk: 224 B of data in a packet. -/
def pieceSize (type : Nat) : Nat := 224 / typeBytes type

/-- The packets of one chunk, sent on its plane. -/
def sendChunk (b : Bulk) (tree : Nat × Nat) (c : BChunk) (s : State) : State :=
  match laneOfPlane s c.plane with
  | none => s
  | some l =>
    let ws := c.elems.map fun e => nth b.words e 0
    let pieces := chunksOf (pieceSize b.type) (ws.length + 1) ws
    let d : Desc := { op := b.fop, type := b.type, count := 0, flags := 0, group := b.group, seq := BitVec.ofNat 32 c.chunk, kids := tree.2, top := tree.1
                      digest := 0, lowest := b.lowest, mismatch := c.owner }
    let q := c.chunk / max 1 b.planes.length
    pieces.zipIdx.foldl (fun s (w, i) =>
      let p := bulkPacket 0x84 (partnerOf s l) s.job.tag (224 * i) b.attempt d w
      (injectPacket { p with aux := BitVec.ofNat 32 (b.attempt * 2 ^ 24 + q) } false (some c.plane) s).2) s

/-- Sends waiting chunks while each plane has fewer than 8 out (R610). -/
def pumpChunks (tree : Nat × Nat) : List BChunk → List BChunk → Bulk → State → List BChunk × State
  | [], done, _, s => (done, s)
  | c :: cs, done, b, s =>
    let out := (done ++ cs).countP fun x => x.plane == c.plane && x.st == 1
    if c.st = 0 ∧ out < 8 then pumpChunks tree cs (done ++ [{ c with st := 1 }]) b (sendChunk b tree c s)
    else pumpChunks tree cs (done ++ [c]) b s

def putBulk (b : Bulk) (s : State) : State := { s with flume.bulks := (s.flume.bulks.filter fun x => x.group != b.group) ++ [b] }

/-- Tree of a bulk reduction's group. -/
def bulkTree (s : State) (group : Word) : Nat × Nat :=
  match s.job.image, s.job.plan with
  | some im, some p =>
    match (masksOf im)[group.toNat / 2 ^ 20 - 1]? with
    | some mask => groupTree s (groupSlots im p mask (opRank s group))
    | none => (0, 0)
  | none, _ => (0, 0)
  | some _, none => (0, 0)

/-- ERR_REDUCE_FAILED (R612). -/
def reduceFailed (b : Bulk) (missing : Nat) (s : State) : State :=
  let s := { s with flume.bulks := s.flume.bulks.filter fun x => x.group != b.group }
  stopA2 errReduceFailed (raiseGroup (reports s b.group) errReduceFailed (b.group.toNat / 2 ^ 20) (opRank s b.group)
    (detail [(b.group.toNat % 2 ^ 20, 4), (b.seq.toNat, 4), (missing, 1)]) s)

/-- A Flume operation of a bulk reduction's group. -/
def bulkFlume (b : Bulk) (part kind fop type : Nat) (values : List DWord) (s : State) : State :=
  match s.job.image with
  | some im =>
    match (masksOf im)[b.group.toNat / 2 ^ 20 - 1]? with
    | some mask => beginFlume im mask b.pos b.op part kind fop type values.length (fun _ => values) s
    | none => s
  | none => s

/-- Planes on which this module missed a chunk (R612). -/
def missedPlanes (b : Bulk) : List Nat := ((b.chunks.filter fun c => c.st == 3).map (·.plane)).eraseDups

/-- Sends what may go; once every chunk has arrived or is missing, the members compare the planes on which they missed one (R610, R612). -/
def advanceBulk (b : Bulk) (s : State) : State :=
  let (cs, s) := pumpChunks (bulkTree s b.group) b.chunks [] b s
  let b := { b with chunks := cs }
  if cs.all fun c => decide (2 ≤ c.st) then bulkFlume b 3 0 4 1 (maskWords (missedPlanes b)) (putBulk { b with stage := 3 } s)
  else putBulk b s

/-- The chunks of a bulk reduction, over its agreed planes (R606, R608). -/
def planChunks (b : Bulk) : List BChunk :=
  (cutChunks b.type b.slices).zipIdx.map fun ((o, es), c) =>
    { chunk := c, plane := nth b.planes (c % max 1 b.planes.length) 0xFF, elems := es, owner := o }

/-- Every chunk of the missing planes goes again, on the planes that are left; those that have arrived are kept (R612). -/
def repeatChunks (gone : List Nat) (b : Bulk) : Bulk :=
  let planes := b.planes.filter fun p => !gone.contains p
  let again := fun (c : BChunk) =>
    if gone.contains c.plane then
      { c with plane := nth planes (c.chunk % max 1 planes.length) 0xFF, st := if c.st = 2 then 2 else 0, pieces := if c.st = 2 then c.pieces else [] }
    else c
  { b with planes, attempt := b.attempt + 1, stage := if planes.isEmpty then 4 else 2, chunks := b.chunks.map again }

/-- What a bulk reduction does with the result of its Flume operation (R607, R608, R612): from the agreed mask to the comparison of descriptors, to
its chunks, and from the missing planes to the end, another attempt or ERR_REDUCE_FAILED. An empty mask leaves it to the copy engines. -/
def bulkResultIn (b : Bulk) (x : FOp) (ws : List DWord) (s : State) : State :=
  if b.stage = 0 then
    let b := { b with planes := wordPlanes ws, stage := 1 }
    bulkFlume b 2 0 1 3 [bulkDigest b, ~~~ bulkDigest b] (putBulk b s)
  else if b.stage = 1 then
    if nth ws 0 0 ≠ ~~~ nth ws 1 0 then raiseMismatch x none32 { s with flume.bulks := s.flume.bulks.filter fun y => y.group != b.group }
    else if b.planes.isEmpty then putBulk { b with stage := 4 } s
    else advanceBulk { b with stage := 2, chunks := planChunks b } s
  else
    let gone := wordPlanes ws
    if gone.isEmpty then putBulk { b with stage := 5 } s
    else if 3 ≤ b.attempt then reduceFailed b gone.length s
    else
      let b := repeatChunks gone b
      if b.stage = 2 then advanceBulk b s else putBulk b s

/-- The part of a bulk reduction's Flume operations that its stage waits for. -/
def stagePart (stage : Nat) : Nat := if stage = 0 then 1 else if stage = 1 then 2 else 3

/-- A bulk reduction goes on when the Flume operation that it waits for has its result. -/
def pollBulk (group : Word) (s : State) : State :=
  match s.flume.bulks.find? fun b => b.group == group with
  | some b =>
    match opInFlight s group b.op (stagePart b.stage) with
    | some x =>
      match x.result with
      | some ws => bulkResultIn b x ws { s with flume.ops := s.flume.ops.filter fun z => !(z.group == x.group && z.seq == x.seq) }
      | none => s
    | none => s
  | none => s

/-- FLUME_DOWN (R591, R593, R598, R607, R612): a relay below the top passes it on and frees its slot; a member takes the first result of its operation,
and a bulk reduction that waited for it goes on. -/
def execFlumeDown (l : Lane) (p : Packet) (s : State) : Host.Outcome State Fault Refusal :=
  .next (
    let d := descOf p
    if crcBad p then countCrc l p s
    else if isFA s then
      match s.flume.slots.find? (slotIs p.job d.group d.seq) with
      | some x =>
        let on := fun (s : State) (c : Contrib) => sendAll c.lane [{ p with dst := partnerOf s c.lane }] s
        dropSlot x (x.contribs.foldl on s)
      | none => s
    else
      match s.flume.ops.find? fun x => x.group == d.group && x.seq == d.seq with
      | some x =>
        if p.job ≠ s.job.tag ∨ x.result.isSome then s
        else if d.fail then raiseMismatch x d.mismatch s
        else
          let s := { s with flume.ops := s.flume.ops.map fun y => if y = x then { y with result := some (packetValues d p) } else y }
          if x.part = 0 then s else pollBulk d.group s
      | none => s)

/-- A bulk reduction of this module's members begins with the comparison of plane masks (R606, R607). -/
def beginBulk (im : Image) (mask pos op kind fop type : Nat) (slices : List (Nat × List Nat)) (words : Nat → List DWord) (s : State) : State :=
  match s.job.plan with
  | none => s
  | some p =>
    let rank := rankOf s im pos
    let mine := groupPositions s im mask pos
    let own := mine.zipIdx.map fun (q, i) => (i, 0, words q)
    let peers := (groupSlots im p mask rank).map fun m => nth s.job.rankMap m 0xFFFF
    let b : Bulk := { group := groupWord im mask rank, seq := BitVec.ofNat 32 (tget s.flume.seqs (groupWord im mask rank).toNat 0), op, pos, kind, fop, type
                      lowest := (mine.map fun q => groupIndex im mask (rankOf s im q)).foldl min none32
                      words := foldPiece fop type own, slices, planes := bulkMask s (peers.filter (· != ownEndpoint s)), chunks := [] }
    bulkFlume b 1 kind 3 1 (maskWords b.planes) (putBulk b s)

/-- Every piece of a chunk is there. -/
def chunkWhole (type : Nat) (c : BChunk) : Bool :=
  decide ((c.elems.length + pieceSize type - 1) / pieceSize type ≤ c.pieces.length)

/-- A chunk of a bulk reduction in flight changes. -/
def onChunk (job : BitVec 16) (group : Word) (n : Nat) (f : Bulk → BChunk → BChunk) (s : State) : State :=
  match s.flume.bulks.find? fun b => b.group == group with
  | some b =>
    if b.stage = 2 ∧ job = s.job.tag ∧ b.chunks.any (fun c => c.chunk == n && c.st == 1) then
      advanceBulk { b with chunks := b.chunks.map fun c => if c.chunk = n ∧ c.st = 1 then f b c else c } s
    else s
  | none => s

/-- BULK_DOWN (R611, R612): a relay passes it on; a member receives a reduced chunk, which has arrived with its last piece. -/
def execBulkDown (p : Packet) (s : State) : Host.Outcome State Fault Refusal :=
  .next (
    let d := descOf p
    if crcBad p then countCrc 0 p s
    else if isFA s then
      match s.flume.chunks.find? (chunkIs p.job d.group d.seq.toNat p.addr.toNat) with
      | some x => bulkReturn x d (pieceWords d p) s
      | none => s
    else onChunk p.job d.group d.seq.toNat (fun b c =>
      let c := { c with pieces := tput c.pieces (p.addr.toNat / 224) (p.payload.drop 32) }
      if chunkWhole b.type c then { c with st := 2 } else c) s)

/-- BULK_DONE (R611): a relay passes it on to every child; the chunk is complete for a member that does not own it. -/
def execBulkDone (p : Packet) (s : State) : Host.Outcome State Fault Refusal :=
  .next (
    if crcBad p then countCrc 0 p s
    else if isFA s then
      match s.flume.chunks.find? (chunkIs p.job (doneGroup p) (doneChunk p) (doneOffset p)) with
      | some x => dropChunk x (x.children.foldl (fun s c => sendAll c.2.1 [{ p with dst := partnerOf s c.2.1 }] s) s)
      | none => s
    else onChunk p.job (doneGroup p) (doneChunk p) (fun _ c => { c with st := 2 }) s)

/-- CHUNK_TIMEOUT (R612). -/
def execChunkTimeout (group : Word) (chunk : Nat) (s : State) : Host.Outcome State Fault Refusal :=
  .next (
    match s.flume.bulks.find? fun b => b.group == group with
    | some b =>
      if b.stage = 2 ∧ b.chunks.any fun c => c.chunk == chunk && c.st == 1 then
        advanceBulk { b with chunks := b.chunks.map fun c => if c.chunk = chunk ∧ c.st = 1 then { c with st := 3 } else c } s
      else s
    | none => s)

/-- The reduced words by X element, once every member has every chunk; elements of chunks that another member owns stay 0. -/
def bulkResult (b : Bulk) (n : Nat) : Option (List DWord) :=
  if b.stage = 5 then
    let t := typeBytes b.type
    some (b.chunks.foldl (fun ws c =>
      let bs := c.pieces.flatMap fun e => e.2.take (pieceSize b.type * t)
      c.elems.zipIdx.foldl (fun ws (e, i) => lset ws e (BitVec.ofNat 64 (field bs (t * i) t))) ws) (List.replicate n 0))
  else none

/-- A position has taken the reduction; once every position of the group has, it is over. -/
def takeBulk (n pos : Nat) (b : Bulk) (s : State) : State :=
  let y := { b with taken := sinsert b.taken pos }
  if n ≤ y.taken.length then { s with flume.bulks := s.flume.bulks.filter fun x => x.group != b.group } else putBulk y s

/-! ### Refused packets go again (R592, R609) -/

/-- Packets that this module or relay has sent and that a relay may refuse. -/
def refusable (s : State) : List Packet :=
  s.flume.ops.flatMap (·.packets) ++ s.flume.slots.flatMap (·.sent) ++ s.flume.chunks.flatMap (·.sent)

/-- A BUSY_RELAY answers this packet: the same descriptor and sequence number. -/
def answersTo (p q : Packet) : Bool := q.seq == p.seq && q.payload.take 32 == p.payload.take 32

/-- BUSY_RELAY (R592, R609): the refused packet is to go again; a BULK_UP piece is found by its chunk. -/
def execBusyRelay (p : Packet) (s : State) : Host.Outcome State Fault Refusal :=
  .next (
    match (refusable s).find? (answersTo p) with
    | some q => { s with flume.resend := s.flume.resend ++ [q] }
    | none =>
      let d := descOf p
      match s.flume.bulks.find? fun b => b.group == d.group with
      | some b =>
        match b.chunks.find? fun c => c.chunk == d.seq.toNat && c.st == 1 with
        | some c =>
          let ws := slice (c.elems.map fun e => nth b.words e 0) (p.addr.toNat / typeBytes b.type) (pieceSize b.type)
          let q := bulkPacket 0x84 p.src p.job p.addr.toNat b.attempt d ws
          { s with flume.resend := s.flume.resend ++ [sealPacket { q with seq := p.seq, plane := p.plane, src := ownEndpoint s, aux := p.aux }] }
        | none => s
      | none => s)

/-- RELAY_RESEND (R592, R609): 1 µs later the packet goes again, on its plane or by the relay's upward lane. -/
def execRelayResend (seq : Word) (s : State) : Host.Outcome State Fault Refusal :=
  .next (
    match s.flume.resend.find? fun p => p.seq == seq with
    | none => s
    | some p =>
      let s := { s with flume.resend := s.flume.resend.erase p }
      if isFA s then
        match (List.range 144).find? fun l => isUpLane s l && partnerOf s l == p.dst && carries s l with
        | some l => sendByLink l (sealPacket p) s
        | none => s
      else emit (.packet p) s)

end Sys2Proof.Machine
end

