-- ==== Sys2Proof/Machine/Cost.lean ====
section
/-! DEFINITION. Placement's cost model (Chapter 06): resource charges in picoseconds at a crown clock of 1.6 GHz and peak rates (R289, Table 06-4),
the contraction candidates of Table 06-2, and the cost of the other op classes. -/
namespace Sys2Proof.Machine

/-! ### Charges (Table 06-4) -/

def divUp (a b : Nat) : Nat := (a + b - 1) / b

/-- Charges in ps, rounded up (the spec gives no rounding: DESIGN CHOICE, log 79): crown cycles at 1.6 GHz, bytes over the vertical link, a tile's SRAM
(4.096 TB/s), the module's HBM (40.96 TB/s), a mesh link (1.024 TB/s), the tree (6.4 TB/s), a tray port (200 GB/s), a copy engine's digest (16 GB/s). -/
def psCycles (c : Nat) : Nat := 625 * c
def psVlink (bytes : Nat) : Nat := psCycles (divUp bytes 640)
def psSram (bytes : Nat) : Nat := divUp (bytes * 1000) 4096
def psHbm (bytes : Nat) : Nat := divUp (bytes * 100) 4096
def psMesh (bytes : Nat) : Nat := divUp (bytes * 1000) 1024
def psTree (bytes : Nat) : Nat := divUp (bytes * 10) 64
def psTray (bytes : Nat) : Nat := 5 * bytes
/-- Bytes that one seam carries of what local HBM delivers: the pages are spread evenly over the four quadrants, so each of the
eight seam directions carries an eighth of what goes to one tile (Chapter 08), and three eighths of what is multicast to tiles of every quadrant (DESIGN
CHOICE, log 79). -/
def psSeam (bytes : Nat) : Nat := divUp (bytes * 1000) 8192
def seamShared (bytes : Nat) : Nat := divUp (3 * bytes) 8
def seamOwn (bytes : Nat) : Nat := divUp bytes 8
def psDigest (bytes : Nat) : Nat := divUp (bytes * 125) 2
/-- The cost model's Flume latency, by reference lengths and never by measured delays (R602). -/
def psFlume (level : Nat) : Nat := 1000 * flumeNs level

/-- A segment costs the largest of its resource times (R290). -/
def largest (ts : List Nat) : Nat := ts.foldl max 0

/-- Cycles of a stationary set's load (R46). -/
def loadCycles (f : Nat) : Nat := match classOfFmt f with | 2 => 64 | 4 => 128 | 8 => 256 | _ => 512

/-- Crown cycles of `rows` streamed rows of a pairing (Table 02-3). -/
def rowCycles (streamed stationary rows : Nat) : Nat := divUp (rows * rowHalves streamed stationary) 2

/-- The array's time on one tile (R50): sets of `m` rows, each holding the array for max(M/ρ, L) cycles, the last set's `last` rows, and 288 cycles
for its last leaf. -/
def arrayCycles (streamed stationary sets m last : Nat) : Nat :=
  let l := loadCycles stationary
  if sets = 0 then 0 else l + (sets - 1) * max (rowCycles streamed stationary m) l + rowCycles streamed stationary last + 288

/-! ### What an op works on -/

/-- First and second input and first output of an op. -/
def in0 (o : OpRec) : Nat := nth o.ins 0 0
def in1 (o : OpRec) : Nat := nth o.ins 1 0
def out0 (o : OpRec) : Nat := nth o.outs 0 0

/-- Bytes of a tensor's stored form in a format (R96, R193). -/
def bytesIn (im : Image) (formats : Table Nat) (t : Nat) : Nat :=
  let f := tget formats t (tensorOf im t).fmt
  storedSize (dimsOf im t) f (geoTens im t f)

def fmtIn (im : Image) (formats : Table Nat) (t : Nat) : Nat := tget formats t (tensorOf im t).fmt

/-- Extents of a contraction with input `st` stationary: contracted length, columns, streamed rows, batches (R207, R208). -/
structure Extents where
  k : Nat
  cols : Nat
  rows : Nat
  batch : Nat
  deriving DecidableEq, Repr

def extents (im : Image) (o : OpRec) (st : Nat) : Extents :=
  let a := axesOf im (nth o.ins st 0)
  let b := axesOf im (nth o.ins (1 - st) 0)
  let size := fun (xs : List Nat) => product (xs.map (axisLen im))
  ⟨size o.axes, size (a.filter fun x => !o.axes.contains x && !b.contains x), size (b.filter fun x => !o.axes.contains x && !a.contains x),
    size (a.filter fun x => !o.axes.contains x && b.contains x)⟩

/-- The module as placement sees it: virtual tiles, ranks, tiles per rank (R277), and how many ranks share a tile (R278). -/
structure Grid where
  n : Nat
  r : Nat
  deriving DecidableEq, Repr
def Grid.t (g : Grid) : Nat := max 1 (g.n / g.r)
def Grid.share (g : Grid) : Nat := if g.n < g.r then divUp g.r (max 1 g.n) else 1

/-- Virtual tiles of the rank at position p (R277, R278). -/
def Grid.tilesOf (g : Grid) (p : Nat) : List Nat := if g.r ≤ g.n then (List.range g.t).map (p * g.t + ·) else [p % max 1 g.n]
/-- Helper tiles, which carry shadow and combine work only (R277). -/
def Grid.helpers (g : Grid) : List Nat := if g.r ≤ g.n then (List.range (g.n - g.r * g.t)).map (g.r * g.t + ·) else []

/-! ### Contractions (Table 06-2, R279 to R282) -/

/-- Entries of the node store that an output of `leaves` children holds (R54). -/
def openLevels (leaves : Nat) : Nat := topOf leaves

/-- Largest M (R280): of the 262,144 entries the op takes half, as the chapter's example does so that the next op overlaps, or all when half holds no set
of 128 rows (DEDUCED, log 80). -/
def mostRows (leaves : Nat) : Nat :=
  let per := 256 * openLevels leaves
  if per = 0 then 1024 else
    let half := 131072 / per / 128 * 128
    if 128 ≤ half then half else 262144 / per / 128 * 128

/-- Candidates for M per set in order: the largest multiple of 128, its halvings down to 128, then the whole extent when that is below 128. -/
def halvings : Nat → Nat → List Nat
  | 0, _ => []
  | fuel + 1, m => if m < 128 then [] else m :: halvings fuel (m / 2)
def rowChoices (leaves extent : Nat) : List Nat := halvings 12 (mostRows leaves) ++ if extent < 128 then [extent] else []

/-- Leaves of a part that takes `q` nodes of level e (R120): whole subtrees from the first, as the candidates share the nodes out. -/
def partLeaves (leaves e q : Nat) : Nat := min leaves (q * 8 ^ e)

/-- One candidate's cost (R50, R58, R290). The tiles that hold the same streamed rows, which a multicast group takes together, are those of one batch and
one part of the contracted range. -/
def contractPlace (im : Image) (formats : Table Nat) (g : Grid) (op : Nat) (o : OpRec) (st e c m : Nat) : OpPlace :=
  let x := extents im o st
  let fs := fmtIn im formats (nth o.ins (1 - st) 0)
  let ft := fmtIn im formats (nth o.ins st 0)
  let leaves := max 1 (divUp x.k 256)
  let nodes := divUp leaves (8 ^ e)
  let q := divUp nodes c
  let part := partLeaves leaves e q
  let blocks := x.batch * divUp x.cols 256
  let tasks := divUp (blocks * c) g.t
  let chunks := max 1 (divUp x.rows m)
  let last := x.rows - (chunks - 1) * m
  let cycles := arrayCycles fs ft (tasks * chunks * part) m last
  let width := if nodes = 1 then divUp (elemBits (fmtIn im formats (out0 o))) 8 else 4
  let drained := tasks * x.rows * 256 * q * width
  let rowBytes := divUp (256 * elemBits fs) 8 + divUp 256 (max 1 (blockSize fs))
  let streamed := tasks * part * x.rows * rowBytes
  let loads := tasks * chunks * part * (256 * divUp (256 * elemBits ft) 8)
  let used := min g.t (blocks * c)
  let group := max 1 (min (divUp x.cols 256) (used / c))
  let streamRead := bytesIn im formats (nth o.ins (1 - st) 0) * divUp (divUp x.cols 256) group
  let rankRead := streamRead + bytesIn im formats (nth o.ins st 0)
  { op, unit := 0, stationary := st, emit := e, split := c, rows := m, group, tiles := used
    cost := g.share * largest [psCycles cycles, psVlink drained, psVlink (streamed + loads), psSram (streamed + loads + drained),
      psMesh streamed, psSeam (seamShared (g.r * streamRead)) / g.share, psHbm (g.r * (rankRead + bytesIn im formats (out0 o))) / g.share]
    streamed := streamed * used, hbmRead := streamRead }

/-- Candidates with a stationary operand, in the order of Table 06-2: emit level from D down to 0, tiles per output block, M. -/
def operandChoices (im : Image) (formats : Table Nat) (g : Grid) (op : Nat) (o : OpRec) (st : Nat) : List OpPlace :=
  let x := extents im o st
  let leaves := max 1 (divUp x.k 256)
  let d := topOf leaves
  (List.range (d + 1)).reverse.flatMap fun e =>
    let m := divUp leaves (8 ^ e)
    ((List.range (min g.t m)).map (· + 1)).flatMap fun c =>
      (rowChoices (partLeaves leaves e (divUp m c)) x.rows).map fun rows => contractPlace im formats g op o st e c rows

/-- The first candidate of least cost (R281, R291). -/
def cheapest : List OpPlace → Option OpPlace
  | [] => none
  | x :: xs => match cheapest xs with
    | none => some x
    | some y => if y.cost < x.cost then some y else some x

/-- The kind-3 hints of an op: their indices and operands (R259, R282). -/
def operandHints (im : Image) (op : Nat) : List (Nat × Nat) :=
  (numbered im.hints).filterMap fun (i, h) => if h.kind = 3 ∧ h.target = op then some (i, h.value % 2) else none

/-- Thin-path placement with input `st` as the weights (R60, R62, R327): passes of 8 vectors over the weights, shared out over the tiles. -/
def thinPlace (im : Image) (formats : Table Nat) (g : Grid) (op : Nat) (o : OpRec) (st : Nat) : OpPlace :=
  let x := extents im o st
  let f := fmtIn im formats (nth o.ins st 0)
  let rate := match classOfFmt f with | 16 => 256 | 8 => 512 | _ => 1024
  let weights := x.k * x.cols * x.batch
  let passes := divUp x.rows 8
  let bytes := bytesIn im formats (nth o.ins st 0)
  { op, unit := 1, stationary := st, tiles := g.t
    cost := g.share * largest [psCycles (passes * divUp weights (rate * g.t)), psVlink (passes * divUp bytes g.t), psSram (passes * divUp bytes g.t),
      psMesh (divUp (passes * bytes) g.t), psSeam (seamOwn (g.r * passes * bytes)) / g.share,
      psHbm (g.r * (bytes + bytesIn im formats (nth o.ins (1 - st) 0))) / g.share]
    streamed := passes * bytes, hbmRead := bytes }

/-- Contractions with an FP32 operand run in the vector unit, 16 products per cycle (R114). -/
def vectorPlace (im : Image) (formats : Table Nat) (g : Grid) (op : Nat) (o : OpRec) : OpPlace :=
  let x := extents im o 1
  let bytes := sumNat ((o.ins ++ o.outs).map (bytesIn im formats))
  { op, unit := 2, tiles := g.t
    cost := g.share * largest [psCycles (divUp (x.k * x.cols * x.rows * x.batch) (16 * g.t)), psVlink (divUp bytes g.t), psSram (divUp bytes g.t),
      psMesh (divUp bytes g.t), psSeam (seamOwn (g.r * bytes)) / g.share, psHbm (g.r * bytes) / g.share] }

/-- The placement of a contraction (R281, R282): a hinted operand is kept unless it costs more than 9/8 of the best. The candidates of Table 06-2 are the
array's; the thin path is taken where it costs less (DESIGN CHOICE, log 81: the table does not list it). -/
def chooseContract (im : Image) (formats : Table Nat) (g : Grid) (op : Nat) (o : OpRec) : OpPlace :=
  let hint := ((operandHints im op).head?).map (·.2)
  let first := hint.getD 1
  let mine := operandChoices im formats g op o first
  let all := mine ++ operandChoices im formats g op o (1 - first)
  let thin := [thinPlace im formats g op o first, thinPlace im formats g op o (1 - first)].filter fun p => decide ((extents im o p.stationary).rows ≤ 64)
  match cheapest (all ++ thin) with
  | none => { op, unit := 5 }
  | some best =>
    match hint, cheapest mine with
    | some _, some h => if 8 * h.cost ≤ 9 * best.cost then h else best
    | none, _ => best
    | some _, none => best

/-- Placement of a contraction with the kind-3 hints that it does not follow, by reason 3 (R260, R282): those that name another operand than the stationary
one, and all of a contraction that has none, since it runs in the vector unit (R114). -/
def placeContract (im : Image) (formats : Table Nat) (g : Grid) (op : Nat) (o : OpRec) : OpPlace × List (Nat × Nat) :=
  let onArray := arrayFormat (fmtIn im formats (nth o.ins 0 0)) && arrayFormat (fmtIn im formats (nth o.ins 1 0))
  let p := if onArray then chooseContract im formats g op o else vectorPlace im formats g op o
  (p, (operandHints im op).filterMap fun (i, v) => if onArray && v == p.stationary then none else some (i, 3))

/-! ### The other op classes -/

/-- Vector-unit cycles of one MAP word for an element, in 64ths (Table 02-6). -/
def wordCost (w : Nat) : Nat :=
  match vecOpOf (bits w 31 24) with
  | some .rcp => 2 | some .rsq => 2 | some .exp => 4 | some .log => 4 | _ => 1

/-- An op that works on `elems` elements of its busiest tile, `work` 64ths of a cycle each, and moves its operands' bytes once. -/
def spreadPlace (im : Image) (formats : Table Nat) (g : Grid) (op : Nat) (o : OpRec) (tiles elems work : Nat) : OpPlace :=
  let bytes := sumNat ((o.ins ++ o.outs).map (bytesIn im formats))
  let share := divUp bytes (max 1 tiles)
  { op, unit := 2, tiles, cost := g.share * largest [psCycles (divUp (elems * work) 64), psVlink share, psSram share, psMesh share,
      psSeam (seamOwn (g.r * bytes)) / g.share, psHbm (g.r * bytes) / g.share] }

/-- An op cut along the output's outermost axis into equal runs of elements, one run per tile (R282's list of classes). -/
def runPlace (im : Image) (formats : Table Nat) (g : Grid) (op : Nat) (o : OpRec) (elems work : Nat) : OpPlace :=
  spreadPlace im formats g op o (min g.t (max 1 elems)) (divUp elems g.t) work

/-- NORMALISE and REDUCE (R279, R282): each range of `len` elements stays on one tile where there are as many ranges as tiles; else a range is split over
`g.t / ranges` tiles in whole subtrees of 8^e leaves, e the highest level with a node for each of them. -/
def rangePlace (im : Image) (formats : Table Nat) (g : Grid) (op : Nat) (o : OpRec) (elems len work : Nat) : OpPlace :=
  let ranges := max 1 (elems / max 1 len)
  if g.t ≤ ranges then spreadPlace im formats g op o g.t (divUp ranges g.t * len) work
  else
    let leaves := max 1 (divUp len 256)
    let c := min leaves (g.t / ranges)
    let e := (((List.range (topOf leaves + 1)).reverse.find? fun e => decide (c ≤ divUp leaves (8 ^ e)))).getD 0
    let q := divUp (divUp leaves (8 ^ e)) c
    { spreadPlace im formats g op o (ranges * c) (min len (q * 8 ^ e * 256)) work with emit := e, split := c }

/-- Partial states that a tile of an ATTEND holds for each query row (R320): those of two incomplete groups at each level in a rotation, of one in
order, and the one being formed. -/
def stateCount (leaves : Nat) (rotates : Bool) : Nat := (if rotates then 14 else 7) * topOf leaves + 1

/-- Nodes of a tree over `leaves` leaves, the leaves among them: each is written and read once as a partial state. -/
def treeNodes (leaves : Nat) : Nat := sumNat ((List.range (topOf leaves + 1)).map fun l => divUp leaves (8 ^ l))

/-- Key leaves that a tile with the last `block` of `nq` queries forms (R322, R323): those in which some key is unmasked for one of them. The mask is the
op's own, so every member of a ring forms as many, and the slowest tile is that of the last block. -/
def workLeaves (p : List Byte) (nq nk block : Nat) : Nat :=
  let mask := attMask p
  let off := attOffset p
  let last : Int := if mask = 0 then (nk : Int) - 1 else min ((nk : Int) - 1) ((nq : Int) - 1 + off)
  let first : Int := if mask = 2 then max 0 ((nq : Int) - block + off - attWindow p + 1) else 0
  if last < first then 0 else (last.toNat / 256 + 1) - first.toNat / 256

/-- ATTEND (R222, R282, R321, R323): each tile holds a block of queries, keys and values are multicast to the rank's tiles; scores and P·V run on the
array. Its partial states stand in tile SRAM when they fit `sram` bytes of a tile, else in local HBM, and their reads and writes are charged there. -/
def attendPlace (im : Image) (formats : Table Nat) (g : Grid) (op : Nat) (o : OpRec) (rotates : Bool) (sram : Nat) : OpPlace :=
  let len := fun (i : Nat) => axisLen im (nth o.axes i 0)
  let q := elemCount im (nth o.ins 0 0) / max 1 (len 2)
  let rows := divUp q g.t
  let leaves := workLeaves o.params (len 0) (len 1) (min rows (len 0))
  let fq := fmtIn im formats (nth o.ins 0 0)
  let fk := fmtIn im formats (nth o.ins 1 0)
  let perRow := leaves * (divUp (len 2) 256 * 256 + len 3)
  let cycles := divUp (rows * perRow * rowHalves fq fk) (2 * 256) + divUp (rows * leaves * 256) 16
  let held := rows * stateCount (divUp (len 1) 256) rotates * 4 * (len 3 + 2)
  let tier := if held ≤ sram then 0 else 1
  let moved := 2 * rows * treeNodes leaves * 4 * (len 3 + 2)
  let bytes := sumNat ((o.ins ++ o.outs).map (bytesIn im formats))
  let tiles := min g.t (max 1 q)
  let kv := bytesIn im formats (nth o.ins 1 0) + bytesIn im formats (nth o.ins 2 0)
  let own := divUp (bytes - kv) tiles
  { op, unit := 0, tiles, stateTier := tier, rotates, held
    cost := g.share * largest [psCycles cycles, psVlink (kv + own), psSram (kv + own + if tier = 0 then moved else 0), psMesh (kv + own),
      psSeam (seamShared (g.r * kv)) / g.share, psHbm (g.r * (bytes + if tier = 1 then moved * tiles else 0)) / g.share]
    streamed := kv * tiles, hbmRead := if rotates then 0 else kv }

/-- A move of whole tensors by the copy engines. -/
def movePlace (im : Image) (formats : Table Nat) (g : Grid) (op : Nat) (o : OpRec) : OpPlace :=
  let bytes := sumNat ((o.ins ++ o.outs).map (bytesIn im formats))
  { op, unit := 3, tiles := g.t, cost := g.share * largest [psHbm (g.r * bytes) / g.share, psMesh (divUp bytes g.t), psSeam (seamOwn (g.r * bytes)) / g.share] }

/-- A collective over a group of `size` members whose tree reaches `level` (R601, R604, R613): scalar-reduce and barrier are a Flume operation; a reduction
runs in the tree when the group is node-aligned and the tree costs no more than collecting and returning every slice by copies. -/
def collectivePlace (im : Image) (formats : Table Nat) (g : Grid) (op : Nat) (o : OpRec) (size level : Nat) (aligned : Bool) : OpPlace :=
  let bytes := bytesIn im formats (nth o.ins 0 0)
  let away := g.r * bytes * (size - 1) / max 1 size
  let copies := psTree (if o.variant = 0 then 2 * away else away)
  let tree := psTree (g.r * bytes) + 3 * psFlume level
  let local' := psMesh (divUp (bytes * size) g.t)
  if 5 ≤ o.variant then { op, unit := 4, cost := psFlume level }
  else if level = 0 then { op, unit := 4, tiles := g.t, cost := local' }
  else if o.variant ≤ 1 ∧ aligned ∧ tree ≤ copies then { op, unit := 4, tiles := g.t, inTree := true, cost := tree }
  else { op, unit := 4, tiles := g.t, cost := copies }

end Sys2Proof.Machine
end

