-- ==== Sys2Proof/Machine/Place.lean ====
section
/-! DEFINITION. Module plans (Chapter 06): the phases of a step and what they read and write, memory tiers, place_saved with offload and
recomputation, hints, transfer lists, and the cost of each phase. -/
namespace Sys2Proof.Machine

/-! ### Positions of modules (R272) -/

/-- Order of endpoints by (pod, rack, tray, slot) (R272). -/
def posKey (s : State) (e : BitVec 16) : Nat :=
  match endpointPos s e with
  | some x => ((x.pod * 65536 + x.rack) * 256 + x.tray) * 256 + x.slot
  | none => 2 ^ 64

/-- The device set in module-slot order (R272). -/
def slotOrder (s : State) (es : List (BitVec 16)) : List (BitVec 16) := sortBy (fun a b => decide (posKey s a ≤ posKey s b)) es

/-- Tray of an endpoint, as one number. -/
def trayKey (s : State) (e : BitVec 16) : Nat := posKey s e / 256

/-! ### The phases of a step -/

/-- Phases in the order in which a step runs them, each with whether it stands in the LOOP (R244, R246). -/
def stepPhases (im : Image) : List (Nat × Bool) :=
  (im.items.foldl (fun (x : Bool × List (Nat × Bool)) i =>
    if i.1 = 2 then (true, x.2) else if i.1 = 3 then (false, x.2) else if i.1 = 1 then (x.1, x.2 ++ [(i.2, x.1)]) else x) (false, [])).2

/-- The phases that a plan covers: those of the step, and the init phase after them (R243). -/
def planPhases (im : Image) : List (Nat × Bool) := stepPhases im ++ match im.initPhase with | some p => [(p, false)] | none => []

def phaseOps (im : Image) (ph : Nat) : List (Nat × OpRec) :=
  let p := (im.phases[ph]?).getD ⟨0, 0, 0⟩
  (numbered im.ops).filter fun (i, _) => decide (p.first ≤ i) && decide (i < p.first + p.count)

/-- Tensors that an op reads and writes: SCATTER reads its Y too (R204). -/
def opReads (o : OpRec) : List Nat := if o.opcode = 7 then o.ins ++ o.outs else o.ins
def phaseReads (im : Image) (ph t : Nat) : Bool := (phaseOps im ph).any fun e => (opReads e.2).contains t
def phaseWrites (im : Image) (ph t : Nat) : Bool := (phaseOps im ph).any fun e => e.2.outs.contains t
def phaseTouches (im : Image) (ph t : Nat) : Bool := phaseReads im ph t || phaseWrites im ph t

/-- Tensors that live beyond a step: parameters, optimizer state, inputs, outputs, and what carries over (Table 05-2). -/
def persists (r : TensorRec) : Bool := decide (r.role ≤ 1) || r.role == 4 || r.role == 5 || r.flags == 1

/-- Places of the step's phase order at which a phase has a property. -/
def placesOf (im : Image) (f : Nat → Bool) : List Nat := ((stepPhases im).zipIdx.filter fun e => f e.1.1).map (·.2)

/-- A tensor of S: written in one phase and read in a later one (R285), with its first and last place. -/
def savedSpan (im : Image) (t : Nat) : Option (Nat × Nat) :=
  if persists (tensorOf im t) then none
  else
    let ws := placesOf im fun p => phaseWrites im p t
    let rs := placesOf im fun p => phaseReads im p t
    match ws.head?, rs.getLast? with
    | some a, some b => if a < b then some (a, b) else none
    | none, _ => none
    | some _, none => none

/-- Instances of a tensor (R191, R192). -/
def instances (r : TensorRec) : Nat := if r.role = 4 ∨ r.role = 5 then max 1 r.depth else 1

/-- Key and value inputs of an ATTEND that carry over: the caches of generation, kept as pages of 256 positions of the key axis (R329). -/
def isCache (im : Image) (t : Nat) : Bool :=
  (tensorOf im t).flags == 1 && (tensorOf im t).role == 3 && im.ops.any fun o => o.opcode == 4 && (nth o.ins 1 none32 == t || nth o.ins 2 none32 == t)

/-- Key axis of a cache: the second axis of the ATTEND that reads it (R220). -/
def cacheAxis (im : Image) (t : Nat) : Nat :=
  ((im.ops.find? fun o => o.opcode == 4 && (nth o.ins 1 none32 == t || nth o.ins 2 none32 == t)).map fun o => nth o.axes 1 0).getD 0

/-- A cache's dimensions with its key axis filled up to whole pages. -/
def pageDims (im : Image) (t : Nat) : List Nat :=
  (axesOf im t).map fun a => if a = cacheAxis im t then divUp (axisLen im a) 256 * 256 else axisLen im a

/-- Bytes of a cache in whole pages, with all its scales (R96, R329). -/
def cacheBytes (im : Image) (formats : Table Nat) (t : Nat) : Nat :=
  let f := fmtIn im formats t
  storedSize (pageDims im t) f (geoOf (pageDims im t) (tensorOf im t).blockPos f)

/-- Pages of a cache, each 256 positions of the key axis for one index of each other axis, and the bytes of one with its scales, rounded up where groups of
tensor scales straddle pages. -/
def cachePages (im : Image) (formats : Table Nat) (t : Nat) : Nat × Nat :=
  let n := product (pageDims im t) / 256
  (n, divUp (cacheBytes im formats t) (max 1 n))

/-- Bytes of a tensor on one rank, with all its instances; a cache takes whole pages (R329). -/
def rankBytes (im : Image) (formats : Table Nat) (t : Nat) : Nat :=
  if isCache im t then let (n, z) := cachePages im formats t; n * z
  else instances (tensorOf im t) * bytesIn im formats t

/-! ### Tiers (Table 06-3, R283, R284) -/

/-- Budgets of the three tiers in bytes for a module: SRAM of the ranks' own tiles, local HBM, the offload allowance. -/
structure Budgets where
  sram : Nat
  hbm : Nat
  keep : Nat
  deriving DecidableEq, Repr

def budgetsOf (s : State) (g : Grid) : Budgets :=
  ⟨11 * 1048576 * (if g.r ≤ g.n then g.r * g.t else g.n), jobEnd s, match s.dev.ring with | some r => r.keeper.offload | none => 0⟩

/-- The role allows the tier (Table 06-3, R284, R329): inputs, outputs and caches live in local HBM, parameters never in the keeper, and the keeper
takes optimizer state and saved activations and gradients. -/
def tierAllowed (im : Image) (t tier : Nat) : Bool :=
  let r := tensorOf im t
  if isCache im t ∨ r.role = 4 ∨ r.role = 5 then tier == 1
  else if tier = 2 then r.role == 1 || ((r.role == 2 || r.role == 3) && (savedSpan im t).isSome)
  else decide (tier ≤ 1)

/-- A kind-1 hint's tier for a tensor, with its index, and a forbid-recompute hint's index (R259, R287). -/
def tierHint (im : Image) (t : Nat) : Option (Nat × Nat) :=
  (numbered im.hints).findSome? fun (i, h) => if h.kind = 1 ∧ h.target = t then some (i, h.value) else none
def keepHint (im : Image) (t : Nat) : Option Nat :=
  (numbered im.hints).findSome? fun (i, h) => if h.kind = 2 ∧ h.target = t then some i else none

/-- Bytes in use by tier, one list over the places of the step each. -/
structure Usage where
  sram : List Nat
  hbm : List Nat
  keep : List Nat
  deriving DecidableEq, Repr

def Usage.tier (u : Usage) (k : Nat) : List Nat := if k = 0 then u.sram else if k = 1 then u.hbm else u.keep
def Budgets.tier (b : Budgets) (k : Nat) : Nat := if k = 0 then b.sram else if k = 1 then b.hbm else b.keep

/-- `bytes` more at the places `ps` of a tier. -/
def Usage.add (u : Usage) (k bytes : Nat) (ps : List Nat) : Usage :=
  let up := fun (xs : List Nat) => xs.zipIdx.map fun (x, i) => if ps.contains i then x + bytes else x
  if k = 0 then { u with sram := up u.sram } else if k = 1 then { u with hbm := up u.hbm } else { u with keep := up u.keep }

/-- `bytes` fewer at the places `ps` of a tier. -/
def Usage.drop (u : Usage) (k bytes : Nat) (ps : List Nat) : Usage :=
  let cut := fun (xs : List Nat) => xs.zipIdx.map fun (x, i) => if ps.contains i then x - bytes else x
  if k = 0 then { u with sram := cut u.sram } else if k = 1 then { u with hbm := cut u.hbm } else { u with keep := cut u.keep }

/-- `bytes` more fit a tier at every one of the places. -/
def fitsAt (b : Budgets) (u : Usage) (k bytes : Nat) (ps : List Nat) : Bool :=
  ps.all fun i => decide (nth (u.tier k) i 0 + bytes ≤ b.tier k)

/-! ### Forming a tensor again (R285, R286) -/

/-- Classes of op that a recomputation does not run again: those that move data between ranks or act on the host, and SCATTER and a box COPY, which need
the Y that they have overwritten. -/
def repeatable (o : OpRec) : Bool :=
  o.opcode != 7 && o.opcode != 10 && !(o.opcode == 11 && o.variant == 0) && o.opcode != 12 && o.flags / 2 % 2 == 0

/-- The ops that form tensor `t` of place `a` again from tensors that `avail` says are there, in a chain where need be; none when they cannot. A tensor
that several ops write is not formed again, since its contents between them are gone. -/
def reform (im : Image) (avail : Nat → Bool) : Nat → Nat → Nat → Option (List Nat)
  | 0, _, _ => none
  | fuel + 1, t, a =>
    match (placesOf im fun p => phaseWrites im p t).reverse.find? (· ≤ a) with
    | none => none
    | some w =>
      match ((phaseOps im (nth (stepPhases im) w (0, false)).1).reverse.find? fun e => e.2.outs.contains t) with
      | none => none
      | some (i, o) =>
        if repeatable o ∧ im.ops.countP (fun q => q.outs.contains t) = 1 then
          (o.ins.filter fun y => !avail y).foldl (fun acc y =>
            match acc, reform im avail fuel y w with
            | some xs, some ys => some (ys ++ xs)
            | none, _ => none
            | some _, none => none) (some [i])
        else none

/-- A tensor's contents at a place are still there at every place up to `b`: nothing writes it between. -/
def unchanged (im : Image) (t a b : Nat) : Bool := !(placesOf im fun p => phaseWrites im p t).any fun i => decide (a ≤ i) && decide (i ≤ b)

/-- Sorted, without repeats. -/
def opSet (xs : List Nat) : List Nat := xs.foldl sinsert []

/-- The ops that a recomputation of `t` runs, from persisting tensors and the stored ones. -/
def redoOps (im : Image) (stored : List Nat) (t : Nat) : Option (List Nat) :=
  match savedSpan im t with
  | none => none
  | some (a, b) =>
    let sp := stepPhases im
    let avail := fun (y : Nat) => (persists (tensorOf im y) && unchanged im y a b) || (stored.contains y && im.ops.countP (fun q => q.outs.contains y) == 1)
    match reform im avail 64 t a with
    | some xs => if (List.range (b + 1 - a)).all (fun i => (nth sp (a + i) (0, false)).2 == (nth sp a (0, false)).2) then some (opSet xs) else none
    | none => none

/-! ### place_saved -/

/-- Where place_saved puts a tensor of S: a tier, or 3 for recomputation. -/
structure Placed where
  tensor : Nat
  place : Nat
  deriving DecidableEq, Repr

/-- A tensor of S in the sort: its span, bytes on the module, and time to form it again. -/
structure SavedT where
  tensor : Nat
  first : Nat
  last : Nat
  bytes : Nat
  redo : Nat
  forbid : Bool
  deriving DecidableEq, Repr

/-- Order of place_saved: the forbid-recompute hint first, then recompute cost per byte descending, then tensor ID. -/
def savedLe (x y : SavedT) : Bool :=
  if x.forbid != y.forbid then x.forbid
  else if x.redo * y.bytes ≠ y.redo * x.bytes then decide (y.redo * x.bytes < x.redo * y.bytes)
  else decide (x.tensor ≤ y.tensor)

def costOf (ops : List OpPlace) (i : Nat) : Nat := ((ops.find? fun p => p.op == i).map (·.cost)).getD 0

/-- Time to form a tensor of S again when the tensors `stored` of S are there (R285); 2^64 − 1 where no op can. -/
def redoTime (im : Image) (ops : List OpPlace) (stored : List Nat) (t : Nat) : Nat :=
  match redoOps im stored t with | some xs => sumNat (xs.map (costOf ops)) | none => 2 ^ 64 - 1

/-- The tensors of S (R285). -/
def savedTensors (im : Image) : List Nat := (List.range im.tensors.length).filter fun t => (savedSpan im t).isSome

/-- The set S, sorted. The sort comes before any decision, so its recompute costs take the other tensors of S as stored: DESIGN CHOICE (log 98). -/
def savedSet (im : Image) (formats : Table Nat) (g : Grid) (ops : List OpPlace) : List SavedT :=
  sortBy savedLe ((savedTensors im).map fun t =>
    let (a, b) := (savedSpan im t).getD (0, 0)
    ⟨t, a, b, g.r * rankBytes im formats t, redoTime im ops ((savedTensors im).filter (· != t)) t, (keepHint im t).isSome⟩)

/-- Places of a saved tensor's lifetime, and those at which a phase works on it. -/
def SavedT.span (x : SavedT) : List Nat := (List.range (x.last + 1 - x.first)).map (x.first + ·)
def workPlaces (im : Image) (t : Nat) : List Nat := placesOf im fun p => phaseTouches im p t

/-- A saved tensor of tier `home` while phases work on it comes to stand in tier `k` over its lifetime: tile SRAM and local HBM hold it throughout; in
the keeper it stands besides its working copy. -/
def moveHome (im : Image) (x : SavedT) (home k : Nat) (u : Usage) : Usage :=
  if k = 2 ∨ k = home then u else u.drop home x.bytes ((workPlaces im x.tensor).filter x.span.contains)
def restPlaces (im : Image) (x : SavedT) (home k : Nat) : List Nat :=
  if k = home then x.span.filter fun i => !(workPlaces im x.tensor).contains i else x.span

/-- It fits tier `k` at every point of its lifetime (R283, R285, R287). -/
def savedFits (im : Image) (b : Budgets) (u : Usage) (x : SavedT) (home k : Nat) : Bool :=
  fitsAt b (moveHome im x home k u) k x.bytes (restPlaces im x home k)
def saveIn (im : Image) (u : Usage) (x : SavedT) (home k : Nat) : Usage :=
  (moveHome im x home k u).add k x.bytes (restPlaces im x home k)

/-- What place_saved has come to: the places chosen, the usage, the tensors marked for recomputation, and the first tensor that neither fits a tier nor can
be formed again, with the bytes needed and the place. -/
structure Saving where
  placed : List Placed := []
  usage : Usage
  redone : List Nat := []
  bad : Option (Nat × Nat × Nat) := none
  deriving DecidableEq, Repr

/-- One tensor of place_saved's loop (R285, R287): the tier that a kept plan gives it (R302), that of a kind-1 hint where it is allowed and fits, else local
HBM, the keeper where the transfers there and back take less time than forming the tensor again, or recomputation. A tensor that no op can form again goes to
tile SRAM where the others are full, and does not fit otherwise: DESIGN CHOICE (log 98). -/
def saveOne (im : Image) (b : Budgets) (ops : List OpPlace) (homes pins : Table Nat) (st : Saving) (x : SavedT) : Saving :=
  let home := tget homes x.tensor 1
  let fits := fun (k : Nat) => tierAllowed im x.tensor k && savedFits im b st.usage x home k
  let redo := redoTime im ops ((savedTensors im).filter fun t => t != x.tensor && !st.redone.contains t) x.tensor
  let hinted := match tierHint im x.tensor with
    | some (_, k) => if fits k then some k else none
    | none => none
  let free := if fits 1 then some 1 else if fits 2 ∧ 2 * psTree x.bytes < redo then some 2
    else if redo < 2 ^ 64 - 1 then some 3 else if fits 0 then some 0 else none
  let pinned := if thas pins x.tensor then some (tget pins x.tensor 1) else none
  match (pinned.or hinted).or free with
  | some k =>
    { st with placed := st.placed ++ [⟨x.tensor, k⟩], usage := if k = 3 then st.usage else saveIn im st.usage x home k
              redone := if k = 3 then st.redone ++ [x.tensor] else st.redone }
  | none =>
    let worst := (x.span.find? fun i => decide (b.tier 1 < nth st.usage.hbm i 0 + x.bytes)).getD x.first
    { st with placed := st.placed ++ [⟨x.tensor, 1⟩], bad := st.bad.or (some (1, nth st.usage.hbm worst 0 + x.bytes, worst)) }

/-- place_saved's loop over the sorted set. -/
def placeSaved (im : Image) (b : Budgets) (ops : List OpPlace) (homes pins : Table Nat) (xs : List SavedT) (u : Usage) : Saving :=
  xs.foldl (saveOne im b ops homes pins) { usage := u }

/-- Time of a stored tensor's write and one read in a tier. -/
def storedTime (g : Grid) (k bytes : Nat) : Nat :=
  2 * if k = 0 then psSram (divUp bytes (g.r * g.t)) else if k = 1 then psHbm bytes else psTree bytes

/-- Each stored tensor whose cost falls when it moves goes from local HBM or the keeper to tile SRAM, in the same order, while SRAM fits (R285). One that
a hint or a kept plan holds in its tier stays. -/
def moveToSram (im : Image) (b : Budgets) (g : Grid) (homes pins : Table Nat) : List SavedT → List Placed → Usage → List Placed × Usage
  | [], ds, u => (ds, u)
  | x :: xs, ds, u =>
    let k := ((ds.find? fun d => d.tensor == x.tensor).map (·.place)).getD 3
    let home := tget homes x.tensor 1
    let gone := if k = 2 then (u.drop home x.bytes ((workPlaces im x.tensor).filter x.span.contains)).drop 2 x.bytes x.span else u.drop 1 x.bytes x.span
    let heldThere := thas pins x.tensor || (tierHint im x.tensor).map (·.2) == some k
    if (k = 1 ∨ k = 2) ∧ !heldThere ∧ tierAllowed im x.tensor 0 ∧ storedTime g 0 x.bytes < storedTime g k x.bytes ∧ fitsAt b gone 0 x.bytes x.span then
      moveToSram im b g homes pins xs (ds.map fun d => if d.tensor = x.tensor then ⟨x.tensor, 0⟩ else d) (gone.add 0 x.bytes x.span)
    else moveToSram im b g homes pins xs ds u

/-! ### The fixed set (R284, R285, R287, R288) -/

/-- Tiers in the order in which a tensor of the fixed set is tried: that of a kept plan alone (R302), else a hint's first. The spec states which tiers each
role allows and not which comes first: DESIGN CHOICE (log 82), local HBM, then for optimizer state the keeper, then tile SRAM. The working copy of a
tensor stands in the module. -/
def tierOrder (im : Image) (pins : Table Nat) (t : Nat) : List Nat :=
  let allowed := fun (k : Nat) => tierAllowed im t k && (k != 2 || (tensorOf im t).role == 1)
  let base := [1, 2, 0].filter allowed
  if thas pins t ∧ allowed (tget pins t 3) then [tget pins t 3]
  else match tierHint im t with
    | some (_, k) => if allowed k then k :: base.filter (· != k) else base
    | none => base

/-- Places at which a tensor belongs to the fixed set: all, for one that persists, else those of the phases that work on it. -/
def fixedPlaces (im : Image) (t : Nat) : List Nat :=
  if persists (tensorOf im t) then List.range (planPhases im).length
  else ((planPhases im).zipIdx.filter fun e => phaseTouches im e.1.1 t).map (·.2)

/-- A tensor of the fixed set: its bytes on the module, its places and the tiers it is tried in. -/
structure FixedT where
  tensor : Nat
  bytes : Nat
  places : List Nat
  tiers : List Nat
  deriving DecidableEq, Repr

def fixedSet (im : Image) (formats : Table Nat) (g : Grid) (pins : Table Nat) (ts : List Nat) : List FixedT :=
  ts.map fun t => ⟨t, g.r * rankBytes im formats t, fixedPlaces im t, tierOrder im pins t⟩

/-- Homes of the whole fixed set, the first that fits in the order of the tensors and their tiers; none where no choice of homes fits (R288). -/
def packFixed (b : Budgets) : List FixedT → Usage → Option (Table Nat × Usage)
  | [], u => some ([], u)
  | x :: xs, u => x.tiers.findSome? fun k =>
      if fitsAt b u k x.bytes x.places then (packFixed b xs (u.add k x.bytes x.places)).map fun r => (tput r.1 x.tensor k, r.2) else none

/-- Homes of a fixed set that does not fit, each tensor in the first tier with room, and the first without: the tier it is tried in first, the bytes needed
there and the place. -/
def overfull (b : Budgets) : List FixedT → Table Nat → Usage → Option (Nat × Nat × Nat) → Table Nat × Usage × Option (Nat × Nat × Nat)
  | [], m, u, bad => (m, u, bad)
  | x :: xs, m, u, bad =>
    match x.tiers.find? fun k => fitsAt b u k x.bytes x.places with
    | some k => overfull b xs (tput m x.tensor k) (u.add k x.bytes x.places) bad
    | none =>
      let k := x.tiers.headD 1
      let worst := (x.places.find? fun i => decide (b.tier k < nth (u.tier k) i 0 + x.bytes)).getD 0
      overfull b xs (tput m x.tensor k) (u.add k x.bytes x.places) (bad.or (some (k, nth (u.tier k) worst 0 + x.bytes, worst)))

/-- Homes of the fixed set, with the first misfit: tier, bytes needed and place. -/
def placeFixed (b : Budgets) (xs : List FixedT) (u : Usage) : Table Nat × Usage × Option (Nat × Nat × Nat) :=
  match packFixed b xs u with
  | some (m, u) => (m, u, none)
  | none => overfull b xs [] u none

/-- Bytes that the partial states of a phase's ATTENDs take in a tier on the module, for the op that needs most (R321). -/
def stateBytes (im : Image) (ops : List OpPlace) (g : Grid) (tier ph : Nat) : Nat :=
  ((phaseOps im ph).map fun e => match ops.find? fun x => x.op == e.1 with
    | some x => if x.stateTier = tier then g.r * x.tiles * x.held else 0
    | none => 0).foldl max 0

/-- Hints of kinds 1 and 2 that the plan does not follow, with their reasons (R260, R285, R287, Table 06-7). -/
def ignoredTiers (im : Image) (homes : Table Nat) (ds : List Placed) : List (Nat × Nat) :=
  (numbered im.hints).filterMap fun (i, h) =>
    let home := match ds.find? fun d => d.tensor == h.target with | some d => d.place | none => tget homes h.target 1
    if h.kind = 1 ∧ home ≠ h.value then some (i, if tierAllowed im h.target h.value then 2 else 1)
    else if h.kind = 2 ∧ home = 3 then some (i, 2)
    else none

/-! ### Transfer lists (R292 to R295) -/

/-- Tiles of the rank that hold a tensor's runs in a phase: those of the first op of the phase that works on it. -/
def holders (im : Image) (ops : List OpPlace) (ph t : Nat) : Nat :=
  match (phaseOps im ph).find? fun e => (opReads e.2 ++ e.2.outs).contains t with
  | some (i, _) => max 1 (((ops.find? fun p => p.op == i).map (·.tiles)).getD 1)
  | none => 1

/-- Run `i` of a stored form of `len` bytes cut into `k` equal runs: its start and length. -/
def runOf (len k i : Nat) : Nat × Nat := let z := divUp len (max 1 k); (min len (i * z), min len ((i + 1) * z) - min len (i * z))

/-- The arrival counter that a boundary's transfers to a tile signal: DESIGN CHOICE (log 83), counter 255 of each destination tile. -/
def arrivalCounter : Nat := 255

/-- Records that bring one rank's tensor from `src` runs in tile SRAM to `dst` runs there (another set of owner tiles); what stays in its tile moves where its
run begins elsewhere. -/
def sramMoves (g : Grid) (pos t len src dst : Nat) : List Transfer :=
  (List.range dst).flatMap fun j => (List.range src).filterMap fun i =>
    let a := runOf len src i
    let b := runOf len dst j
    let lo := max a.1 b.1
    let hi := min (a.1 + a.2) (b.1 + b.2)
    if (i ≠ j ∨ a.1 ≠ b.1) ∧ lo < hi then
      some ⟨t, pos, nth (g.tilesOf pos) i 0, nth (g.tilesOf pos) j 0, 0, 0, false, false, arrivalCounter, lo - a.1, lo - b.1, hi - lo⟩
    else none

/-- Records that move one rank's tensor between local HBM and the keeper, at most 4 GiB each. -/
def tierMoves (pos t len srcTier dstTier : Nat) : List Transfer :=
  (List.range (divUp len (4 * gib))).map fun k =>
    ⟨t, pos, 0xFFFF, 0xFFFF, srcTier, dstTier, false, false, arrivalCounter, k * 4 * gib, k * 4 * gib, min (4 * gib) (len - k * 4 * gib)⟩

/-- Order of a transfer list: rank position, destination tile, tensor ID, destination offset (R292). -/
def transferLe (a b : Transfer) : Bool :=
  decide (a.rankPos < b.rankPos) || (a.rankPos == b.rankPos && (decide (a.dstTile < b.dstTile) || (a.dstTile == b.dstTile &&
    (decide (a.tensor < b.tensor) || (a.tensor == b.tensor && decide (a.dstOffset ≤ b.dstOffset))))))

/-- Sets flag bit 1 on the last record for each destination tile (Table 06-5). -/
def markLast : List Transfer → List Transfer
  | [] => []
  | x :: xs => { x with last := !xs.any fun y => y.rankPos == x.rankPos && y.dstTile == x.dstTile } :: markLast xs

/-- The place before `i` at which a phase works on the tensor, from the step before where it persists: there the tensor's last layout comes from. -/
def priorWork (im : Image) (t i : Nat) : Option Nat :=
  match ((workPlaces im t).filter (· < i)).getLast? with
  | some k => some k
  | none => if persists (tensorOf im t) then (workPlaces im t).getLast? else none

/-- Transfers of one rank's tensor at the boundary before place `i` of the step (R292): one in tile SRAM whose owner tiles or runs change, one that goes to
the keeper when the phase that worked on it has ended, and one that comes back for the phase that works on it. -/
def tensorMoves (im : Image) (formats : Table Nat) (g : Grid) (ops : List OpPlace) (pos t home i : Nat) : List Transfer :=
  let sp := stepPhases im
  let phaseAt := fun (k : Nat) => (nth sp k (0, false)).1
  let here := phaseTouches im (phaseAt i) t
  let before := phaseTouches im (phaseAt (if i = 0 then sp.length - 1 else i - 1)) t
  let len := rankBytes im formats t
  match priorWork im t i with
  | none => []
  | some k =>
    if home = 0 ∧ here then sramMoves g pos t len (holders im ops (phaseAt k) t) (holders im ops (phaseAt i) t)
    else if home = 2 ∧ before ∧ !here then tierMoves pos t len 1 2
    else if home = 2 ∧ !before ∧ here then tierMoves pos t len 2 1
    else []

/-- The transfer list of the boundary before place `i` (R292): of the saved tensors in their lifetimes, and of the fixed set's that persist. -/
def boundaryList (im : Image) (formats : Table Nat) (g : Grid) (ops : List OpPlace) (homes : Table Nat) (ds : List Placed) (i : Nat) : List Transfer :=
  let moved := ds.filterMap fun d => match savedSpan im d.tensor with
    | some (a, b) => if a < i ∧ i ≤ b then some (d.tensor, d.place) else none
    | none => none
  let kept := ((List.range im.tensors.length).filter fun t => persists (tensorOf im t)).map fun t => (t, tget homes t 1)
  markLast (sortBy transferLe ((List.range g.r).flatMap fun pos => (moved ++ kept).flatMap fun e => tensorMoves im formats g ops pos e.1 e.2 i))

/-- The 40 bytes of a record (Table 06-5). -/
def Transfer.bytes (x : Transfer) : List Byte :=
  leBytes 4 x.tensor ++ leBytes 3 x.rankPos ++ leBytes 1 0 ++ leBytes 2 x.srcTile ++ leBytes 2 x.dstTile ++ leBytes 1 x.srcTier ++ leBytes 1 x.dstTier ++
    leBytes 1 ((if x.sha then 1 else 0) + if x.last then 2 else 0) ++ leBytes 1 x.counter ++ leBytes 8 x.srcOffset ++ leBytes 8 x.dstOffset ++
    leBytes 8 x.length

/-! ### A module plan -/

/-- The gather of a ring pattern that forms tensor `y` of a phase: over one sequence axis, with no reader of Y but ATTENDs of the same phase that take it
as K or V, and a slice of whole key leaves (R308, R310). -/
def ringGatherOf (im : Image) (phase y : Nat) : Option (Nat × OpRec) :=
  (numbered im.ops).find? fun (_, g) =>
    out0 g == y && g.opcode == 10 && g.variant == 2 && g.phase == phase && (im.machine.zipIdx.any fun (m, a) => m.2 == 2 && g.machine == 2 ^ a) &&
      nth (dimsOf im (in0 g)) (field g.params 1 1) 1 % 256 == 0 &&
      im.ops.all fun r => !(opReads r).contains y || (r.opcode == 4 && r.phase == phase && (nth r.ins 1 none32 == y || nth r.ins 2 none32 == y) &&
        (r.ins.take 1 ++ r.ins.drop 3).all fun t => t != y)

/-- The ring patterns of an ATTEND: the gathers of its K and of its V, each where it is one; two of them go over one axis with blocks of one length, or
neither is taken (R308, R310). -/
def ringsOf (im : Image) (o : OpRec) : List (Nat × OpRec) :=
  match ringGatherOf im o.phase (nth o.ins 1 none32), ringGatherOf im o.phase (nth o.ins 2 none32) with
  | some a, some b =>
    if a.1 = b.1 then [a]
    else if a.2.machine = b.2.machine ∧ nth (dimsOf im (in0 a.2)) (field a.2.params 1 1) 1 = nth (dimsOf im (in0 b.2)) (field b.2.params 1 1) 1 then [a, b]
    else []
  | some a, none => [a]
  | none, some b => [b]
  | none, none => []

/-- The ATTENDs of a phase that read a Y of the gathers: one choice between rotation and gather holds for them all, since Y is stored whole or not at all
(R309). -/
def ringMates (im : Image) (gs : List (Nat × OpRec)) : List (Nat × OpRec) :=
  (numbered im.ops).filter fun e => e.2.opcode == 4 && gs.any fun g => e.2.ins.contains (out0 g.2)

/-- The gathers' patterns may run as rotations: every ATTEND that reads them has the same patterns, so that one choice holds for them all (R309; log 84). -/
def mayRotate (im : Image) (gs : List (Nat × OpRec)) : Bool := !gs.isEmpty && (ringMates im gs).all fun e => ringsOf im e.2 == gs

/-- An op of a group's tree: the size of its group, the level its tree reaches, and whether it is node-aligned, for the group of rank 0 (every group of an
axis-aligned mask has one shape). -/
def groupShape (s : State) (im : Image) (p : Plan) (formats : Table Nat) (o : OpRec) : Nat × Nat × Bool :=
  (groupSize im o.machine, (groupTree s (groupSlots im p o.machine 0)).1,
    nodeAligned (groupSize im o.machine) (isInt (fmtIn im formats (in0 o)) || field o.params 0 1 != 0) (groupParts s im p o.machine 0))

/-- Time of one hop of `bytes` between members of the gathers' ring (Table 07-1). -/
def hopTime (s : State) (im : Image) (p : Plan) (formats : Table Nat) (gs : List (Nat × OpRec)) (bytes : Nat) : Nat :=
  let (size, level, _) := match gs with | g :: _ => groupShape s im p formats g.2 | [] => (1, 0, true)
  if level = 0 then psMesh bytes else if level = 1 ∧ size ≤ 8 then psTray bytes else psTree bytes

/-- Members of the gathers' ring, and the bytes of one block of them all. -/
def ringSize (im : Image) (gs : List (Nat × OpRec)) : Nat := match gs with | e :: _ => groupSize im e.2.machine | [] => 1
def ringBytes (im : Image) (formats : Table Nat) (gs : List (Nat × OpRec)) : Nat := sumNat (gs.map fun g => bytesIn im formats (in0 g.2))

/-- An ATTEND as a rotation: a hop of a block in each step. A backward one sends its dK and dV for each block to the block's owner besides, which holds up to
P − 1 of them in tile SRAM or local HBM as R321 states (R324). -/
def turnedPlace (s : State) (im : Image) (p : Plan) (formats : Table Nat) (g : Grid) (i : Nat) (o : OpRec) (gs : List (Nat × OpRec)) : OpPlace :=
  let size := ringSize im gs
  let grads := if o.variant = 1 then divUp (bytesIn im formats (nth o.outs 1 0) + bytesIn im formats (nth o.outs 2 0)) size else 0
  let x := attendPlace im formats g i o true (11 * 1048576)
  let held := x.held + divUp ((size - 1) * grads) (max 1 x.tiles)
  let tier := if held ≤ 11 * 1048576 then x.stateTier else 1
  let kept := 2 * (size - 1) * grads
  { x with
    held, stateTier := tier
    cost := largest [x.cost, size * hopTime s im p formats gs (ringBytes im formats gs) + (size - 1) * hopTime s im p formats gs grads,
      if tier = 0 then psSram (divUp kept (max 1 x.tiles)) else psHbm (g.r * kept)] }

/-- ATTEND's placement (R309, R310): its ring patterns run as a rotation when that costs no more, over all the ATTENDs that read them, than the gather and
the attention over the stored Y. -/
def attendChoice (s : State) (im : Image) (p : Plan) (formats : Table Nat) (g : Grid) (i : Nat) (o : OpRec) : OpPlace :=
  let gs := ringsOf im o
  let stored := fun (e : Nat × OpRec) => attendPlace im formats g e.1 e.2 false (11 * 1048576)
  let turned := fun (e : Nat × OpRec) => turnedPlace s im p formats g e.1 e.2 gs
  let mates := ringMates im gs
  let gather := sumNat (gs.map fun e => psHbm (g.r * bytesIn im formats (out0 e.2))) +
    ringSize im gs * hopTime s im p formats gs (ringBytes im formats gs)
  if mayRotate im gs ∧ sumNat (mates.map fun e => (turned e).cost) ≤ gather + sumNat (mates.map fun e => (stored e).cost) then turned (i, o) else stored (i, o)

/-- Placement of one op and the hints that it ignores (R281, R282, R309, R321, R604). -/
def placeOp (s : State) (im : Image) (p : Plan) (formats : Table Nat) (g : Grid) (i : Nat) (o : OpRec) : OpPlace × List (Nat × Nat) :=
  let elems := elemCount im (out0 o)
  let range := product (o.axes.map (axisLen im))
  let one := fun (x : OpPlace) => (x, ([] : List (Nat × Nat)))
  match o.opcode with
  | 1 => placeContract im formats g i o
  | 2 => one (runPlace im formats g i o elems (sumNat ((mapWords o.params).map wordCost)))
  | 3 => one (rangePlace im formats g i o (elemCount im (in0 o)) range 1)
  | 4 => one (attendChoice s im p formats g i o)
  | 5 => one (rangePlace im formats g i o elems range 6)
  | 6 => one (movePlace im formats g i o)
  | 7 => one (movePlace im formats g i o)
  | 8 => one (runPlace im formats g i o elems 1)
  | 9 => one (runPlace im formats g i o elems 1)
  | 10 => let (size, level, aligned) := groupShape s im p formats o; one (collectivePlace im formats g i o size level aligned)
  | 11 => one (movePlace im formats g i o)
  | _ => one { op := i, unit := 5 }

/-- Time of a boundary's transfers (Table 06-4): local HBM, the tree to the keeper, a mesh link, and the digests that records ask of the copy engines of
the rank's tiles. -/
def transferCost (g : Grid) (ts : List Transfer) : Nat :=
  let bytes := fun (f : Transfer → Bool) => sumNat ((ts.filter f).map (·.length))
  largest [psHbm (bytes fun x => x.srcTier == 1 || x.dstTier == 1), psTree (bytes fun x => x.srcTier == 2), psTree (bytes fun x => x.dstTier == 2),
    psMesh (divUp (bytes fun x => x.dstTier == 0) (g.r * g.t)), psDigest (divUp (bytes (·.sha)) (g.r * g.t))]

/-- A phase's cost (R290): the transfers before it and each op are a segment; the segments' costs include the Flume latencies of their collectives, and
what the phase forms again is its ops'. -/
def phaseCost (im : Image) (g : Grid) (ops : List OpPlace) (ts : List Transfer) (redo : List (Nat × List Nat)) (ph : Nat) : Nat :=
  transferCost g ts + sumNat ((phaseOps im ph).map fun e => costOf ops e.1) + sumNat (redo.flatMap fun e => e.2.map (costOf ops))

/-- The tensors that phase `here` forms again, each with the ops that do it: those marked for recomputation that the phase reads and does not itself write
first (R285, R286). -/
def redoList (im : Image) (ds : List Placed) (here : Nat) : List (Nat × List Nat) :=
  let stored := (ds.filter fun d => d.place != 3).map (·.tensor)
  (ds.filter fun d => d.place == 3 && phaseReads im here d.tensor && !phaseWrites im here d.tensor).filterMap fun d =>
    (redoOps im stored d.tensor).map fun xs => (d.tensor, xs)

/-- The module plan for a count of virtual tiles (R268, R277 to R295). `pins` gives the tiers that a kept part of the plan has already given tensors, 3 for
one that is formed again (R302). -/
def modulePlan (s : State) (im : Image) (p : Plan) (formats : Table Nat) (pins : Table Nat) (n : Nat) : ModPlan :=
  let g : Grid := ⟨n, max 1 p.r⟩
  let b := budgetsOf s g
  let placed := (numbered im.ops).map fun (i, o) => placeOp s im p formats g i o
  let ops := placed.map (·.1)
  let sp := stepPhases im
  let pp := planPhases im
  let states := fun (tier : Nat) => pp.map fun e => stateBytes im ops g tier e.1
  let fixed := (List.range im.tensors.length).filter fun t => persists (tensorOf im t)
  let working := (List.range im.tensors.length).filter fun t => !persists (tensorOf im t)
  let (homes, u, bad) := placeFixed b (fixedSet im formats g pins (fixed ++ working)) ⟨states 0, states 1, pp.map fun _ => 0⟩
  let saved := savedSet im formats g ops
  let sv := placeSaved im b ops homes pins saved u
  let (ds, u) := moveToSram im b g homes pins saved sv.placed sv.usage
  let homes := ds.foldl (fun m d => if d.place < 3 then tput m d.tensor d.place else m) homes
  let redo := (List.range im.phases.length).foldl (fun m ph => tset m ph (redoList im ds ph) []) []
  let transfers := sp.zipIdx.foldl (fun m (ph, i) => tset m ph.1 (boundaryList im formats g ops homes ds i) []) []
  let costs := (List.range im.phases.length).map fun ph => phaseCost im g ops (tget transfers ph []) (tget redo ph []) ph
  let place := fun (t : Nat) => match savedSpan im t with | some (a, _) => some a | none => (workPlaces im t).getLast?
  let inSram := (List.range im.tensors.length).filter fun t => tget homes t 1 == 0
  { n, ops, lens := (List.range im.tensors.length).map (rankBytes im formats)
    holders := inSram.foldl (fun m t => match place t with | some a => tput m t (holders im ops (nth sp a (0, false)).1 t) | none => m) []
    layouts := inSram.foldl (fun m t => tput m t ((workPlaces im t).map fun i => holders im ops (nth sp i (0, false)).1 t)) []
    homes
    offloaded := (ds.filter fun d => d.place == 2).map (·.tensor) ++ fixed.filter fun t => tget homes t 1 == 2
    redo, transfers, costs, peaks := [u.sram, u.hbm, u.keep]
    caches := (fixed.filter (isCache im)).map fun t => let (k, z) := cachePages im formats t; (t, p.r * k, z)
    ignored := placed.flatMap (·.2) ++ ignoredTiers im homes ds
    misfit := (bad.or sv.bad).map fun (tier, need, i) => (tier, need, (nth pp i (0, false)).1) }

/-! ### The plan in force -/

/-- What placement has chosen for an op. -/
def placeOf' (s : State) (op : Nat) : Option OpPlace := (ownPlan s).bind fun m => m.ops.find? fun x => x.op == op

/-- Placement runs the reduction of an op in the tree (R604). -/
def inTree (s : State) (op : Nat) : Bool := match placeOf' s op with | some x => x.inTree | none => false

/-- Placement runs an ATTEND's ring pattern as a rotation (R309). -/
def rotates (s : State) (op : Nat) : Bool := match placeOf' s op with | some x => x.rotates | none => false

/-- The gather is one of a ring pattern that placement runs as a rotation, so that its Y is never stored whole (R309). -/
def turnedGather (s : State) (im : Image) (op : Nat) : Bool :=
  (numbered im.ops).any fun (i, o) => o.opcode == 4 && rotates s i && (ringsOf im o).any fun g => g.1 == op

/-- The ring of a gather at a position, with its number among the plan's rings. -/
def ringAt (s : State) (pos op : Nat) : Option (Nat × RingRec) :=
  match s.job.plan with
  | some p => (numbered p.rings).find? fun e => e.2.pos == pos && e.2.op == op
  | none => none

end Sys2Proof.Machine
end

