-- ==== Sys2Proof/Machine/TallyOps.lean ====
section
/-! DEFINITION. The ops of a Tally program (Chapter 05): one command executes one op of the phase in hand for one rank position. An op runs when it
is the next of its position (R203); the phase ends when every position has run its last op. -/
namespace Sys2Proof.Machine

/-! ### Running an op -/

/-- Own positions in the same instance of a collective's group (R231) have reached it. -/
def matesThere (s : State) (im : Image) (o : OpRec) (pos op : Nat) : Bool :=
  (groupPositions s im o.machine pos).all fun q => decide (op ≤ nth s.job.opNext q 0)

/-- Every own position that an earlier collective of the phase joins to this one has run that collective, so that its X is still what the collective
read (R203, R232). -/
def matesPast (s : State) (im : Image) (first op pos : Nat) : Bool :=
  (List.range (op - first)).all fun i =>
    match im.ops[first + i]? with
    | some o => o.opcode != 10 || matesThere s im o pos (first + i + 1)
    | none => true

/-- With more ranks than tiles, the rank at position p runs on virtual tile p mod n, and the ranks that share a tile run each op one after another, in
ascending position (R278). -/
def tileTurn (s : State) (pos op : Nat) : Bool :=
  match s.job.plan with
  | some p => decide (p.r ≤ p.tiles.length) || (List.range pos).all fun q => q % p.tiles.length != pos % p.tiles.length || decide (op < nth s.job.opNext q 0)
  | none => true

/-- The job runs and no recovery halts it (R649). -/
def jobRunning (s : State) : Bool := s.dev.st == .running && !s.recov.window && !s.recov.held && s.recov.rollbackTo == none

/-- Tiles that run a position's ops. -/
def tilesAt (s : State) (pos : Nat) : List Nat := match s.job.plan with | some p => (rankTiles p pos).map (physTile p) | none => []

/-- The transfers of the phase's boundary to the position's tiles have arrived (R294). -/
def rankArrived (s : State) (pos : Nat) : Bool := (tilesAt s pos).all (arrived s)

/-- The position's first op of the phase takes its tiles' arrivals from their counters (R294, R564). -/
def takeRank (pos : Nat) (s : State) : State := (tilesAt s pos).foldl (fun s t => takeArrivals t s) s

/-- The op that a command names, if it is the next of the position and of the command's class and variant. -/
def nextOp (s : State) (pos op opcode variant : Nat) : Option (Image × OpRec) :=
  match s.job.image, s.job.phase with
  | some im, some p =>
    match im.phases[p]?, im.ops[op]? with
    | some ph, some o =>
      if jobRunning s && decide (pos < positions s) && nth s.job.opNext pos none32 == op && decide (op < ph.first + ph.count) &&
          o.opcode == opcode && o.variant == variant && tileTurn s pos op && matesPast s im ph.first op pos && rankArrived s pos then some (im, o)
      else none
    | none, _ => none
    | some _, none => none
  | none, _ => none
  | some _, none => none

/-- Every input tensor that the op reads is marked written for this iteration (R191). -/
def inputsReady (s : State) (im : Image) (ins : List Nat) : Bool :=
  ins.all fun t => (tensorOf im t).role != 4 || (tens s (keyOf s im 0 t)).marked == some (uNow s)

/-- The input instances that the op reads (Table 14-1). -/
def noteReads (im : Image) (pos : Nat) (ins : List Nat) (s : State) : State :=
  let ks := (ins.filter fun t => (tensorOf im t).role == 4).map fun t => keyOf s im pos t
  { s with job.readIn := ks.foldl sinsert s.job.readIn }

/-- The init phase ends: its write counts, tallies and sums of squares do not carry into the first step, whose conversions and executions they do not
cover (R129, R169), and what it wrote takes generation first − 1 (R247, R802). -/
def endInit (s : State) : State :=
  let gen := s.job.firstStep - 1
  let mark := fun (_ : Nat) (t : Tens) => if t.writes = 0 then t else { t with writes := 0, generation := gen }
  { s with job.tensors := tmap s.job.tensors mark, job.opRuns := [], job.inInit := false, job.phase := none, job.opened := none, job.readIn := [],
           job.tallies := [], job.noise := [] }

/-- The phase in hand ends when every position is past its last op (R244). -/
def endPhase (im : Image) (s : State) : State :=
  match s.job.phase with
  | some p =>
    let ph := (im.phases[p]?).getD ⟨0, 0, 0⟩
    if s.job.opNext.all fun n => decide (ph.first + ph.count ≤ n) then
      if s.job.inInit then endInit s else { s with job.phase := none, job.opened := none, job.item := s.job.item + 1 }
    else s
  | none => s

/-- Key of an op's execution count on a position (R229). -/
def runKey (pos op : Nat) : Nat := pos * 2 ^ 24 + op

/-- The op retires on its position (R71, R203), whose tiles' arrivals it has waited for (R294). -/
def retireOp (im : Image) (pos op : Nat) (s : State) : State :=
  endPhase im { takeRank pos s with
    job.opNext := lset s.job.opNext pos (op + 1), job.waitingInput := s.job.waitingInput.filter (· != pos), job.progressAt := s.time
    job.opRuns := tset s.job.opRuns (runKey pos op) (tget s.job.opRuns (runKey pos op) 0 + 1) 0 }

/-- The position waits for an input instance (R191). -/
def waitInput (pos : Nat) (s : State) : State := { s with job.waitingInput := sinsert s.job.waitingInput pos }

/-- Runs an op: it waits while an input instance that it reads is not marked (R191). -/
def runOp (pos op opcode variant : Nat) (f : Image → OpRec → State → State) (s : State) : State :=
  match nextOp s pos op opcode variant with
  | some (im, o) =>
    if inputsReady s im o.ins then retireOp im pos op (noteReads im pos o.ins (f im o s))
    else waitInput pos s
  | none => s

/-- The step program stands inside its LOOP. -/
def inLoopNow (s : State) (im : Image) : Bool :=
  let before := im.items.take s.job.item
  !s.job.inInit && before.any (fun i => i.1 == 2) && !(before.any fun i => i.1 == 3)

/-- An op's result goes to its output: converted at once, or kept for the canonical sum over iterations (R205, R206). -/
def writeOut (im : Image) (o : OpRec) (pos tid : Nat) (vs : List Val) (s : State) : State :=
  if o.flags / 2 % 2 = 1 && inLoopNow s im then
    let k := keyOf s im pos tid
    { s with job.loopSums := tput s.job.loopSums k (tget s.job.loopSums k [] ++ [vs.map Val.word]) }
  else convertInto im pos tid (o.flags % 2 == 1) vs s


/-! ### Indexing by axes -/

/-- Every assignment of the axes, in row-major order. -/
def assigns (im : Image) (axes : List Nat) : List (List (Nat × Nat)) :=
  let lens := axes.map (axisLen im)
  (List.range (product lens)).map fun i => axes.zip (unravel lens i)

/-- Element index of tensor `t` under an assignment; axes that the tensor lacks do not matter (broadcast). -/
def offsetOf (im : Image) (t : Nat) (env : List (Nat × Nat)) : Nat :=
  ravel (dimsOf im t) ((axesOf im t).map fun a => ((env.find? fun e => e.1 == a).map (·.2)).getD 0)

/-- Leaves of 256 terms (R109). -/
def leavesOf {α : Type} (xs : List α) : List (List α) := chunksOf 256 xs.length xs

/-- Canonical sum of exact terms: leaves, then the tree (R110, R115). -/
def canonicalTerms (ts : List Num) : Word := canonicalSum ((leavesOf ts).map leafOf)
/-- Canonical dot product. -/
def canonicalDot (xs ys : List Num) : Word := canonicalTerms (List.zipWith Num.mul xs ys)

def numAt (xs : List Num) (i : Nat) : Num := nth xs i (.fin false 0)
def numW (w : Word) : Num := dec32 w

/-! ### CONTRACT -/

/-- Y at each index: the canonical sum over the contracted range (R208). -/
def contractVals (s : State) (im : Image) (o : OpRec) (pos : Nat) : List Val :=
  let a := numsOf s im pos (in0 o)
  let b := numsOf s im pos (in1 o)
  let cs := assigns im o.axes
  (assigns im (axesOf im (out0 o))).map fun y =>
    .num (numW (canonicalDot (cs.map fun c => numAt a (offsetOf im (in0 o) (y ++ c))) (cs.map fun c => numAt b (offsetOf im (in1 o) (y ++ c)))))

/-- CONTRACT (R207 to R209). -/
def execContract (pos op : Nat) (s : State) : Host.Outcome State Fault Refusal :=
  .next (runOp pos op 1 0 (fun im o s => writeOut im o pos (out0 o) (contractVals s im o pos) s) s)

/-! ### MAP -/

/-- What a MAP instruction reads besides registers: input words, constants, Y's index, step and iteration (Table 05-10). -/
structure MapEnv where
  inputs : List Word
  consts : List Nat
  index : List Nat
  step : Nat
  iter : Nat
  deriving DecidableEq, Repr

/-- One instruction word (Table 05-9). -/
def mapInstr (e : MapEnv) (regs : List Word) (w : Nat) : List Word :=
  let op := bits w 31 24
  let d := bits w 23 20
  let a := nth regs (bits w 19 16) 0
  let b := nth regs (bits w 15 12) 0
  let c := nth regs (bits w 11 8) 0
  let k := bits w 7 0
  if op = 1 then lset regs d (nth e.inputs k 0)
  else if op = 2 then lset regs d (BitVec.ofNat 32 (nth e.consts k 0))
  else if op = 3 then lset regs d (BitVec.ofNat 32 (nth e.index k 0))
  else if op = 4 then lset regs d (BitVec.ofNat 32 e.step)
  else if op = 5 then lset regs d (BitVec.ofNat 32 e.iter)
  else match vecOpOf op with
    | some v => lset regs d (vecLane v a b c)
    | none => regs

/-- x0 after the last instruction (R210, R213). -/
def mapRun (e : MapEnv) (words : List Nat) : Word := nth (words.foldl (mapInstr e) (List.replicate 16 0)) 0 0

def mapVals (s : State) (im : Image) (o : OpRec) (pos : Nat) : List Val :=
  let srcs := o.ins.map fun t => (t, wordsOf s im pos t)
  let yInt := isInt (fmtNow s im (out0 o))
  (assigns im (axesOf im (out0 o))).map fun y =>
    let x0 := mapRun ⟨srcs.map fun (t, ws) => nth ws (offsetOf im t y) 0, mapConsts o.params, y.map (·.2), stepNow s, s.job.loopIter⟩ (mapWords o.params)
    if yInt then .int x0.toNat else .num (numW x0)

/-- MAP (R210 to R215). -/
def execMap (pos op : Nat) (s : State) : Host.Outcome State Fault Refusal :=
  .next (runOp pos op 2 0 (fun im o s => writeOut im o pos (out0 o) (mapVals s im o pos) s) s)

/-! ### REDUCE -/

/-- The reduced ranges of X, one for each index of Y, in axis-list order (R216, R217). -/
def reduceRanges (im : Image) (o : OpRec) (x : Nat) : List (List Nat) :=
  let rest := (axesOf im x).filter fun a => !o.axes.contains a
  let red := assigns im o.axes
  (assigns im rest).map fun y => red.map fun r => offsetOf im x (y ++ r)

/-- Integer reductions: addition wraps, max and min compare by the format's sign (R119, R884). -/
def intReduce (variant : Nat) (xs : List Int) : Int :=
  let sum := fun (ys : List Int) => (ys.foldl (· + ·) 0) % 2 ^ 32
  if variant = 0 then sum xs
  else if variant = 1 then sum (xs.map fun x => x * x % 2 ^ 32)
  else match xs with
    | [] => 0
    | y :: ys => ys.foldl (if variant = 2 then max else min) y

/-- Floating reductions (R217, R218). -/
def floatReduce (variant : Nat) (xs : List Num) : Word :=
  if variant = 0 then canonicalTerms xs
  else if variant = 1 then canonicalTerms (xs.map fun x => Num.mul x x)
  else
    let ws := xs.map fun x => enc32 .rne x
    (canonicalTree (if variant = 2 then fmax else fmin) ws).getD 0

def reduceVals (s : State) (im : Image) (o : OpRec) (pos : Nat) : List Val :=
  let vs := valsOf s im pos (in0 o)
  let ints := isInt (seen s im pos (in0 o)).1
  (reduceRanges im o (in0 o)).map fun r =>
    let xs := r.map fun i => nth vs i (.num (.fin false 0))
    if ints then .int (intReduce o.variant (xs.map fun v => v.real.real.floor))
    else .num (numW (floatReduce o.variant (xs.map Val.real)))

def reduceOp (variant pos op : Nat) (s : State) : State :=
  runOp pos op 3 variant (fun im o s => writeOut im o pos (out0 o) (reduceVals s im o pos) s) s

/-- REDUCE_SUM (R216, R217, R884). -/
def execReduceSum (pos op : Nat) (s : State) : Host.Outcome State Fault Refusal := .next (reduceOp 0 pos op s)
/-- REDUCE_SUM_OF_SQUARES (R216, R217, R884). -/
def execReduceSumOfSquares (pos op : Nat) (s : State) : Host.Outcome State Fault Refusal := .next (reduceOp 1 pos op s)
/-- REDUCE_MAX (R216, R218, R884). -/
def execReduceMax (pos op : Nat) (s : State) : Host.Outcome State Fault Refusal := .next (reduceOp 2 pos op s)
/-- REDUCE_MIN (R216, R218, R884). -/
def execReduceMin (pos op : Nat) (s : State) : Host.Outcome State Fault Refusal := .next (reduceOp 3 pos op s)

/-! ### ATTEND -/

abbrev negInf : Word := 0xFF800000

/-- Key `k` is masked for query `q` (R221). -/
def attMasked (p : List Byte) (q k : Nat) : Bool :=
  let m := attMask p
  m != 0 && (decide ((q : Int) + attOffset p < k) || (m == 2 && decide ((k : Int) ≤ q + attOffset p - attWindow p)))

/-- The p_k of a leaf converted to p_format and decoded again (R222 step 5). -/
def pHat (f : Nat) (ps : List Word) : List Num :=
  let xs := ps.map fun w => (numW w, Rnd.rne)
  let g : Geo := ⟨1, ps.length, 1⟩
  let c := encodeNums f g xs
  copyNums f g { fmt := f, codes := c.codes, bscales := c.bscales, tscales := c.tscales }

/-- The partial state of one key leaf of 256 scores and value rows (R222). -/
def attLeaf (f d : Nat) (ss : List Word) (vrows : List (List Num)) : AttState :=
  let m := (ss.foldl fmax negInf)
  if m = negInf then ⟨negInf, 0, List.replicate d 0⟩
  else
    let ph := pHat f (ss.map fun x => fexp (fsub x m))
    ⟨m, leafOf ph, (List.range d).map fun j => leafOf (List.zipWith Num.mul ph (vrows.map fun r => numAt r j))⟩

/-- Axes of an ATTEND: query, key, head of Q and K, head of V. -/
def attAxes (o : OpRec) : Nat × Nat × Nat × Nat := (nth o.axes 0 0, nth o.axes 1 0, nth o.axes 2 0, nth o.axes 3 0)

/-- Row of a tensor along axis `h` under an assignment. -/
def rowAlong (im : Image) (t h : Nat) (xs : List Num) (env : List (Nat × Nat)) : List Num :=
  (List.range (axisLen im h)).map fun i => numAt xs (offsetOf im t ((h, i) :: env))

/-- The score of query row `q` and key `k` (R222 step 1). -/
def score (p : List Byte) (qrow krow : List Num) (bias : Option Word) : Word :=
  let x := fmul (canonicalDot qrow krow) (attScale p)
  match bias with | some b => fadd x b | none => x

/-- Scores of the leaf that starts at key `k0`, padded with −∞ past the end of the key axis (R222 step 2). -/
def leafScores (p : List Byte) (nk k0 q : Nat) (sc : Nat → Word) : List Word :=
  (List.range 256).map fun i =>
    let k := k0 + i
    if nk ≤ k ∨ attMasked p q k then negInf else sc k

/-! ### Rotations of a ring (R308 to R320) -/

/-- The state held at a level and index. -/
def RingAcc.at (r : RingAcc) (lvl idx : Nat) : Option AttState := (r.held.find? fun e => e.1 == (lvl, idx)).map (·.2)

/-- First and last index of the group of 8 that holds index `idx` of a level of `m` nodes. -/
def ringGroup (m idx : Nat) : List Nat := (List.range 8).map (8 * (idx / 8) + ·) |>.filter fun i => decide (i < m)

/-- insert of R319 at `up` levels below the top of a tree over `n` leaves, with the combination `comb` of two states. -/
def ringInsert (comb : AttState → AttState → AttState) (n : Nat) : Nat → Nat → Nat → AttState → RingAcc → RingAcc
  | 0, _, _, x, r => { r with root := some x }
  | up + 1, lvl, idx, x, r =>
    let r := { r with held := r.held ++ [((lvl, idx), x)] }
    let g := ringGroup ((n + 8 ^ lvl - 1) / 8 ^ lvl) idx
    match g.mapM (r.at lvl) with
    | some (y :: ys) =>
      ringInsert comb n up (lvl + 1) (idx / 8) (ys.foldl comb y) { r with held := r.held.filter fun e => !(e.1.1 == lvl && g.contains e.1.2) }
    | some [] => r
    | none => r

/-- ring_fold's insertion of the leaves `js`, in order (R319). -/
def ringTakeBy (comb : AttState → AttState → AttState) (n : Nat) (leaf : Nat → AttState) (js : List Nat) (r : RingAcc) : RingAcc :=
  js.foldl (fun r j => ringInsert comb n (topOf n) 0 j (leaf j) r) r
def ringTake (n : Nat) (leaf : Nat → AttState) (js : List Nat) (r : RingAcc) : RingAcc := ringTakeBy attentionCombine n leaf js r

/-- Where an ATTEND reads the rows of K or V: a tensor's decoded values, its key axis, and the index of the first key that it holds. -/
structure KeyRows where
  tid : Nat
  axis : Nat
  first : Nat
  nums : List Num
  deriving DecidableEq, Repr

/-- Row of key `k` along axis `h`. -/
def KeyRows.row (im : Image) (x : KeyRows) (h k : Nat) (env : List (Nat × Nat)) : List Num := rowAlong im x.tid h x.nums ((x.axis, k - x.first) :: env)

/-- Query rows of an ATTEND, as assignments of Q's axes but the head axis. -/
def queryRows (im : Image) (o : OpRec) : List (List (Nat × Nat)) :=
  assigns im ((axesOf im (nth o.ins 0 0)).filter (· != (attAxes o).2.2.1))

/-- State of key leaf `c` for a query row (R222, R322): a leaf whose every key is masked has the state that combines to the other operand. -/
def leafState (s : State) (im : Image) (o : OpRec) (pos : Nat) (q : List Num) (k v : KeyRows) (env : List (Nat × Nat)) (c : Nat) : AttState :=
  let (qa, ka, hq, hv) := attAxes o
  let bias := (o.ins[3]?).map fun t => (t, wordsOf s im pos t)
  let nk := axisLen im ka
  let d := axisLen im hv
  let qi := ((env.find? fun e => e.1 == qa).map (·.2)).getD 0
  let qrow := rowAlong im (nth o.ins 0 0) hq q env
  let sc := fun (j : Nat) => score o.params qrow (k.row im hq j env) (bias.map fun (t, ws) => nth ws (offsetOf im t ((ka, j) :: env)) 0)
  let vrow := fun (j : Nat) => if nk ≤ j then List.replicate d (.fin false 0) else v.row im hv j env
  attLeaf (attFormat o.params) d (leafScores o.params nk (256 * c) qi sc) ((List.range 256).map fun i => vrow (256 * c + i))

/-- A query row's O and lse from the root of its tree (R222, R223). -/
def rowOut (d : Nat) (root : Option AttState) : List Word × Word :=
  match root with
  | some st => if st.m = negInf then (List.replicate d 0, negInf) else (st.o.map fun x => fmul x (frcp st.l), fadd st.m (flog st.l))
  | none => (List.replicate d 0, negInf)

/-- Key leaves of an ATTEND. -/
def keyLeaves (im : Image) (o : OpRec) : Nat := (axisLen im (attAxes o).2.1 + 255) / 256

/-- O and lse of each query row over the stored K and V (R222, R223). -/
def attendRows (s : State) (im : Image) (o : OpRec) (pos : Nat) : List (List Word × Word) :=
  let ka := (attAxes o).2.1
  let q := numsOf s im pos (nth o.ins 0 0)
  let k : KeyRows := ⟨nth o.ins 1 0, ka, 0, numsOf s im pos (nth o.ins 1 0)⟩
  let v : KeyRows := ⟨nth o.ins 2 0, ka, 0, numsOf s im pos (nth o.ins 2 0)⟩
  (queryRows im o).map fun env =>
    rowOut (axisLen im (attAxes o).2.2.2) (canonicalTree attentionCombine ((List.range (keyLeaves im o)).map (leafState s im o pos q k v env)))

/-- A result given by rows of all axes but `h`, laid out in the declared axes of tensor `t`. -/
def scatterRows (im : Image) (t h : Nat) (rowAxes : List Nat) (rows : List (List Word)) : List Val :=
  (assigns im (axesOf im t)).map fun y =>
    let row := ravel (rowAxes.map (axisLen im)) (rowAxes.map fun a => ((y.find? fun e => e.1 == a).map (·.2)).getD 0)
    .num (numW (nth (nth rows row []) (((y.find? fun e => e.1 == h).map (·.2)).getD 0) 0))

/-- O and, where the op has one, lse go to their tensors. -/
def writeRows (im : Image) (o : OpRec) (pos : Nat) (rs : List (List Word × Word)) (s : State) : State :=
  let (_, _, hq, hv) := attAxes o
  let s1 := writeOut im o pos (out0 o) (scatterRows im (out0 o) hv ((axesOf im (in0 o)).filter (· != hq)) (rs.map (·.1))) s
  match o.outs[1]? with
  | some l => writeOut im o pos l (rs.map fun r => .num (numW r.2)) s1
  | none => s1

/-! ### Backward attention (R224) -/

/-- What the backward variant forms for one query row and key leaf `c`: p̂ and ds for every key of the leaf (R224). -/
def backwardLeaf (p : List Byte) (nk qi : Nat) (sc : Nat → Word) (lse : Word) (dotDV : Nat → Word) (dq : Word) (c : Nat) : List (Num × Word) :=
  let keys := (List.range 256).map fun i => 256 * c + i
  let ps := keys.map fun k => if nk ≤ k ∨ attMasked p qi k then 0 else fexp (fsub (sc k) lse)
  ((keys.zip (pHat (attFormat p) ps)).map fun (k, ph) =>
    (ph, if nk ≤ k then 0 else fmul (enc32 .rne ph) (fsub (dotDV k) dq))).take (nk - 256 * c)

/-- p̂ and ds of each query row for the keys of the leaves `js`, over rows of K and V. Inputs in the order of Table 05-8. -/
def backwardRows (s : State) (im : Image) (o : OpRec) (pos : Nat) (k v : KeyRows) (js : List Nat) : List (List (Num × Word)) :=
  let (qa, ka, hq, hv) := attAxes o
  let t := fun (i : Nat) => nth o.ins i 0
  let q := numsOf s im pos (t 0)
  let out := numsOf s im pos (t 3)
  let dout := numsOf s im pos (t 4)
  let lse := wordsOf s im pos (t 5)
  (queryRows im o).map fun env =>
    let qi := ((env.find? fun e => e.1 == qa).map (·.2)).getD 0
    let qrow := rowAlong im (t 0) hq q env
    let dorow := rowAlong im (t 4) hv dout env
    js.flatMap (backwardLeaf o.params (axisLen im ka) qi (fun j => score o.params qrow (k.row im hq j env) none)
      (nth lse (offsetOf im (t 5) env) 0) (fun j => canonicalDot dorow (v.row im hv j env)) (canonicalDot dorow (rowAlong im (t 3) hv out env)))

def coordOf (env : List (Nat × Nat)) (a : Nat) : Nat := ((env.find? fun e => e.1 == a).map (·.2)).getD 0

/-- Number of the query row that an assignment names. -/
def rowNumber (im : Image) (o : OpRec) (env : List (Nat × Nat)) : Nat :=
  let rowAxes := (axesOf im (nth o.ins 0 0)).filter (· != (attAxes o).2.2.1)
  ravel (rowAxes.map (axisLen im)) (rowAxes.map (coordOf env))

/-- p̂ and ds of a query row and key, in rows that begin at key `first`. -/
def backwardAt (im : Image) (o : OpRec) (rows : List (List (Num × Word))) (first : Nat) (env : List (Nat × Nat)) (j : Nat) : Num × Word :=
  nth (nth rows (rowNumber im o env) []) (j - first) (.fin false 0, 0)

/-- The queries that an element of dK or dV sums over (R224): the axes of Q that K has not. An axis of Q that V alone has is summed over its whole length,
and dV takes coordinate 0 of one that K alone has: DESIGN CHOICE (log 96). -/
def queryRange (im : Image) (o : OpRec) : List (List (Nat × Nat)) :=
  assigns im ((axesOf im (nth o.ins 0 0)).filter fun a => a != (attAxes o).2.2.1 && !(axesOf im (nth o.ins 1 0)).contains a)

/-- An element of dK and of dV (R224). -/
def dkWord (im : Image) (o : OpRec) (q : List Num) (rows : List (List (Num × Word))) (first : Nat) (y : List (Nat × Nat)) : Word :=
  let qs := queryRange im o
  fmul (attScale o.params) (canonicalDot (qs.map fun e => numW (backwardAt im o rows first (y ++ e) (coordOf y (attAxes o).2.1)).2)
    (qs.map fun e => numAt q (offsetOf im (nth o.ins 0 0) (y ++ e))))
def dvWord (im : Image) (o : OpRec) (dout : List Num) (rows : List (List (Num × Word))) (first : Nat) (y : List (Nat × Nat)) : Word :=
  let qs := queryRange im o
  canonicalDot (qs.map fun e => (backwardAt im o rows first (e ++ y) (coordOf y (attAxes o).2.1)).1)
    (qs.map fun e => numAt dout (offsetOf im (nth o.ins 4 0) (e ++ y)))

/-- dQ, dK and dV of the backward variant over the stored K and V (R224). -/
def attendGrads (s : State) (im : Image) (o : OpRec) (pos : Nat) : List Val × List Val × List Val :=
  let ka := (attAxes o).2.1
  let q := numsOf s im pos (nth o.ins 0 0)
  let k := numsOf s im pos (nth o.ins 1 0)
  let dout := numsOf s im pos (nth o.ins 4 0)
  let nk := axisLen im ka
  let rows := backwardRows s im o pos ⟨nth o.ins 1 0, ka, 0, k⟩ ⟨nth o.ins 2 0, ka, 0, numsOf s im pos (nth o.ins 2 0)⟩ (List.range (keyLeaves im o))
  let all := fun (i : Nat) => assigns im (axesOf im (nth o.outs i 0))
  ((all 0).map fun y => Val.num (numW (fmul (attScale o.params) (canonicalDot ((List.range nk).map fun j => numW (backwardAt im o rows 0 y j).2)
      ((List.range nk).map fun j => numAt k (offsetOf im (nth o.ins 1 0) ((ka, j) :: y)))))),
    (all 1).map fun y => Val.num (numW (dkWord im o q rows 0 y)), (all 2).map fun y => Val.num (numW (dvWord im o dout rows 0 y)))

/-- dQ, dK and dV go to their tensors. -/
def writeGrads (im : Image) (o : OpRec) (pos : Nat) (s : State) : State :=
  let (dq, dk, dv) := attendGrads s im o pos
  writeOut im o pos (nth o.outs 2 0) dv (writeOut im o pos (nth o.outs 1 0) dk (writeOut im o pos (nth o.outs 0 0) dq s))

/-! ### Rotations (R308 to R324) -/

/-- The block of X that the member uses at a rotation step: its own copy in place at step 0, else what has landed in receive slot (step − 1) mod R
(R315). -/
def blockNums (s : State) (im : Image) (r : RingRec) (pos x step : Nat) : List Num :=
  if step = 0 then numsOf s im pos x
  else
    let f := fmtNow s im x
    let g := geoTens im x f
    let c := parseStored (dimsOf im x) f g (readBytes s.mem (blockPlace r step) r.bytes)
    copyNums f g { fmt := f, codes := c.codes, bscales := c.bscales, tscales := c.tscales }

/-- Rows of the block of a gather's X, whose first key in Y is k times the block's number (R311). -/
def blockRows (s : State) (im : Image) (g : OpRec) (r : RingRec) (pos step : Nat) : KeyRows :=
  let x := in0 g
  let p := field g.params 1 1
  let k := nth (dimsOf im x) p 1
  ⟨x, nth (axesOf im x) p 0, (r.index + step) % r.members.length * k, blockNums s im r pos x step⟩

/-- The member signals its upstream neighbour's release counter for the receive slot whose block every tile has read (R317). -/
def releaseBlock (r : RingRec) (step : Nat) (s : State) : State :=
  if step = 0 then s
  else
    let up := nth r.members ((r.index + 1) % r.members.length) 0
    let key := tileCtr r.upTile (nth r.release ((step - 1) % r.slots) 0)
    if nth s.job.rankMap up 0xFFFF = ownEndpoint s then signalCtr key 1 (ownEndpoint s).toNat r.tile 5 s
    else if h : r.tile < 256 then issue ⟨r.tile, h⟩ none (reqPacket (nth s.job.rankMap up 0xFFFF) 5 (ctrAddr key) 1 [] false) 0 none r.oneTray s
    else s

/-- Signals that one landed block brings to its arrival counter: one for each 64 KiB and one at the end (R316). -/
def blockSignals (r : RingRec) : Nat := r.bytes / 65536 + 1

/-- Counters and thresholds that a rotation step waits for (R318): none for the own block. -/
def stepWaits (rs : List RingRec) (step : Nat) : List (Nat × Nat) :=
  if step = 0 then [] else rs.map fun r => (tileCtr r.tile (nth r.arrival ((step - 1) % r.slots) 0), blockSignals r)

/-- The ring patterns of an ATTEND that placement rotates, each with the ring as the position sees it. -/
def ringsAt (s : State) (im : Image) (o : OpRec) (pos : Nat) : Option (List (OpRec × RingRec)) :=
  (ringsOf im o).mapM fun g => (ringAt s pos g.1).map fun e => (g.2, e.2)

/-- Rows of K (`i` = 1) or V (`i` = 2) at a rotation step: a block of the ring that carries it, or the stored tensor where none does. -/
def sideRows (s : State) (im : Image) (o : OpRec) (pos i : Nat) (gs : List (OpRec × RingRec)) (step : Nat) : KeyRows :=
  match gs.find? fun g => out0 g.1 == nth o.ins i none32 with
  | some g => blockRows s im g.1 g.2 pos step
  | none => ⟨nth o.ins i 0, (attAxes o).2.1, 0, numsOf s im pos (nth o.ins i 0)⟩

/-- Key leaves of the block that a rotation step uses (R310, R311). -/
def blockLeaves (im : Image) (g : OpRec × RingRec) (step : Nat) : List Nat :=
  let per := nth (dimsOf im (in0 g.1)) (field g.1.params 1 1) 1 / 256
  (List.range per).map ((g.2.index + step) % g.2.members.length * per + ·)

/-- One rotation step (R311, R317 to R319): the leaves of the step's block enter ring_fold for every query row. -/
def rotateRows (s : State) (im : Image) (o : OpRec) (pos : Nat) (g : OpRec × RingRec) (gs : List (OpRec × RingRec)) (run : RingRun) : List RingAcc :=
  let q := numsOf s im pos (nth o.ins 0 0)
  let js := blockLeaves im g run.step
  (queryRows im o).zipIdx.map fun (env, i) =>
    ringTake (keyLeaves im o) (leafState s im o pos q (sideRows s im o pos 1 gs run.step) (sideRows s im o pos 2 gs run.step) env) js (nth run.rows i {})

def putRun (x : RingRun) (s : State) : State :=
  { s with job.rotations := (s.job.rotations.filter fun y => !(y.pos == x.pos && y.op == x.op)) ++ [x] }
def dropRun (pos op : Nat) (s : State) : State :=
  { s with job.rotations := s.job.rotations.filter fun y => !(y.pos == pos && y.op == op) }

/-- The rotation in hand of an ATTEND at a position, which begins at step 0. -/
def runOf' (s : State) (pos op : Nat) : RingRun := (s.job.rotations.find? fun y => y.pos == pos && y.op == op).getD { pos, op }

/-- One arrival wait of a rotation step (R74, R318), asked once: satisfied at once, or a waiter of the member's arrival counter. -/
def askBlock (tile pos op : Nat) (s : State) (w : Nat × Nat) : State :=
  let run := runOf' s pos op
  if run.asked.contains w.1 then s
  else
    let (now, s) := doWait w.1 (3, tile, pos, w.2, s.job.waitTimeout) s
    putRun { run with asked := run.asked ++ [w.1], got := if now then run.got ++ [w.1] else run.got } s

/-- A rotation step is done (R317): its blocks are released, and the next step comes, or after the last one what ends the op. -/
def nextTurn (pos op : Nat) (g : OpRec × RingRec) (gs : List (OpRec × RingRec)) (run : RingRun) (last : State → State) (s : State) : State :=
  let s := gs.foldl (fun s e => releaseBlock e.2 run.step s) s
  if g.2.members.length ≤ run.step + 1 then dropRun pos op (last s)
  else putRun { run with step := run.step + 1, asked := [], got := [] } { s with job.progressAt := s.time }

/-- An ATTEND of variant `v`: over the stored K and V, or as a rotation, whose step `turn` runs once its blocks have landed and the inputs that do not
rotate are there (R309, R318). -/
def turnedOr (v pos op : Nat) (turn : Nat → Nat → Image → OpRec → OpRec × RingRec → List (OpRec × RingRec) → RingRun → State → State)
    (stored : State → State) (s : State) : State :=
  match nextOp s pos op 4 v with
  | some (im, o) =>
    if rotates s op then
      match ringsAt s im o pos with
      | some (g :: gs) =>
        let waits := stepWaits ((g :: gs).map (·.2)) (runOf' s pos op).step
        if !inputsReady s im (o.ins.filter fun t => !(g :: gs).any fun e => out0 e.1 == t) then waitInput pos s
        else
          let s := waits.foldl (askBlock g.2.tile pos op) s
          let run := runOf' s pos op
          if waits.all fun w => run.got.contains w.1 then turn pos op im o g (g :: gs) run s else s
      | some [] => s
      | none => s
    else stored s
  | none => s

/-- A forward rotation's next step; after the last, O and lse come from the roots and the op retires. -/
def rotateOp (pos op : Nat) (im : Image) (o : OpRec) (g : OpRec × RingRec) (gs : List (OpRec × RingRec)) (run : RingRun) (s : State) : State :=
  let rows := rotateRows s im o pos g gs run
  nextTurn pos op g gs { run with rows }
    (fun s => runOp pos op 4 0 (fun im o s => writeRows im o pos (rows.map fun r => rowOut (axisLen im (attAxes o).2.2.2) r.root) s) s) s

/-- ATTEND_FORWARD (R220 to R223, R311, R317 to R319, R889). An ATTEND whose ring pattern placement runs as a rotation takes one command for each rotation
step. -/
def execAttendForward (pos op : Nat) (s : State) : Host.Outcome State Fault Refusal :=
  .next (turnedOr 0 pos op rotateOp (fun s => runOp pos op 4 0 (fun im o s => writeRows im o pos (attendRows s im o pos) s) s) s)

/-- Partial sums of dQ, combined element by element (R118, R224). -/
def sumStates (a b : AttState) : AttState := { a with o := List.zipWith fadd a.o b.o }

/-- A key leaf's part of a query row's dQ, before the scale (R224). -/
def queryGrad (im : Image) (o : OpRec) (k : KeyRows) (rows : List (List (Num × Word))) (first : Nat) (env : List (Nat × Nat)) (c : Nat) : AttState :=
  let (_, ka, hq, _) := attAxes o
  let keys := ((List.range 256).map (256 * c + ·)).filter fun j => decide (j < axisLen im ka)
  let krows := keys.map fun j => k.row im hq j env
  let ds := keys.map fun j => numW (backwardAt im o rows first env j).2
  ⟨0, 0, (List.range (axisLen im hq)).map fun h => leafOf (List.zipWith Num.mul ds (krows.map fun r => numAt r h))⟩

/-- The member sends its dK and dV for a block to the block's owner, whose combine unit adds the contributions in ascending member index (R80, R118, R324):
that sum is the reduction over the ring's members that reads dK and dV. An owner on this module has them where it reads them. -/
def sendGrads (r : RingRec) (op step : Nat) (dk dv : List Word) (s : State) : State :=
  let j := (r.index + step) % r.members.length
  let owner := nth s.job.rankMap (nth r.members j 0) 0xFFFF
  if owner = ownEndpoint s then s else emit (.gradBlock op r.index j owner dk dv) s

/-- dQ, dK and dV of a finished backward rotation go to their tensors. -/
def turnedGrads (im : Image) (o : OpRec) (pos : Nat) (run : RingRun) (s : State) : State :=
  let hq := (attAxes o).2.2.1
  let dq := (assigns im (axesOf im (nth o.outs 0 0))).map fun y =>
    let root := ((nth run.rows (rowNumber im o y) {}).root.map (·.o)).getD []
    Val.num (numW (fmul (attScale o.params) (nth root (coordOf y hq) 0)))
  let held := fun (i : Nat) (m : Table Word) => (List.range (elemCount im (nth o.outs i 0))).map fun e => Val.num (numW (tget m e 0))
  writeOut im o pos (nth o.outs 2 0) (held 2 run.dv) (writeOut im o pos (nth o.outs 1 0) (held 1 run.dk) (writeOut im o pos (nth o.outs 0 0) dq s))

/-- A backward rotation's next step (R311, R324): the block's leaves enter the fold of dQ, the block's dK and dV are formed and go to its owner; after the
last step dQ comes from the roots, and the op retires. -/
def rotateGrads (pos op : Nat) (im : Image) (o : OpRec) (g : OpRec × RingRec) (gs : List (OpRec × RingRec)) (run : RingRun) (s : State) : State :=
  let js := blockLeaves im g run.step
  let k := sideRows s im o pos 1 gs run.step
  let rows := backwardRows s im o pos k (sideRows s im o pos 2 gs run.step) js
  let first := 256 * js.headD 0
  let inBlock := fun (y : List (Nat × Nat)) => js.contains (coordOf y (attAxes o).2.1 / 256)
  let part := fun (i : Nat) (f : List (Nat × Nat) → Word) =>
    (assigns im (axesOf im (nth o.outs i 0))).zipIdx.filterMap fun e => if inBlock e.1 then some (e.2, f e.1) else none
  let dk := part 1 (dkWord im o (numsOf s im pos (nth o.ins 0 0)) rows first)
  let dv := part 2 (dvWord im o (numsOf s im pos (nth o.ins 4 0)) rows first)
  let folded := (queryRows im o).zipIdx.map fun (env, i) => ringTakeBy sumStates (keyLeaves im o) (queryGrad im o k rows first env) js (nth run.rows i {})
  let run := { run with
    rows := folded, dk := dk.foldl (fun m e => tput m e.1 e.2) run.dk, dv := dv.foldl (fun m e => tput m e.1 e.2) run.dv }
  let s := sendGrads g.2 op run.step (dk.map (·.2)) (dv.map (·.2)) s
  nextTurn pos op g gs run (fun s => runOp pos op 4 1 (fun im o s => turnedGrads im o pos run s) s) s

/-- ATTEND_BACKWARD (R224, R311, R317, R318, R324): dQ, dK and dV. One whose ring pattern placement runs as a rotation takes one command for each rotation
step. -/
def execAttendBackward (pos op : Nat) (s : State) : Host.Outcome State Fault Refusal :=
  .next (turnedOr 1 pos op rotateGrads (fun s => runOp pos op 4 1 (fun im o s => writeGrads im o pos s) s) s)

/-! ### NORMALISE -/

/-- One normalised range (R219): X to FP32 and exact, gamma and beta. The spec does not say what an integer X, gamma or beta is here: DESIGN CHOICE
(log 74), X enters with its integer value, gamma and beta with their patterns taken as FP32. -/
def normaliseRange (layer : Bool) (eps : Word) (xs : List Num) (gamma beta : List Word) : List Word :=
  let n : Num := .fin false (xs.length : Rat)
  let c := frcp (enc32 .rne n)
  let x32 := xs.map fun x => enc32 .rne x
  if layer then
    let mu := fmul (canonicalTerms xs) c
    let d := x32.map fun x => fsub x mu
    let v := fmul (canonicalTerms (d.map fun w => Num.mul (numW w) (numW w))) c
    let r := frsqrt (fadd v eps)
    (d.zip (gamma.zip beta)).map fun (dv, g, b) => fadd (fmul (fmul dv r) g) b
  else
    let r := frsqrt (fadd (fmul (canonicalTerms (xs.map fun x => Num.mul x x)) c) eps)
    (x32.zip gamma).map fun (x, g) => fmul (fmul x r) g

def normaliseVals (s : State) (im : Image) (o : OpRec) (pos : Nat) : List Val :=
  let x := in0 o
  let xs := numsOf s im pos x
  let outer := (axesOf im x).filter fun a => !o.axes.contains a
  let red := assigns im o.axes
  let side := fun (t : Option Nat) (d : Word) => match t with
    | some t => let ws := wordsOf s im pos t; red.map fun r => nth ws (offsetOf im t r) 0
    | none => red.map fun _ => d
  let gamma := side (o.ins[1]?) 0x3F800000
  let beta := side (o.ins[2]?) 0
  let eps := BitVec.ofNat 32 (field o.params 0 4)
  let parts := (assigns im outer).flatMap fun e =>
    let at' := red.map fun r => offsetOf im x (e ++ r)
    at'.zip (normaliseRange (o.variant == 1) eps (at'.map fun i => numAt xs i) gamma beta)
  (List.range xs.length).map fun i => .num (numW (((parts.find? fun p => p.1 == i).map (·.2)).getD 0))

def normaliseOp (variant pos op : Nat) (s : State) : State :=
  runOp pos op 5 variant (fun im o s => writeOut im o pos (out0 o) (normaliseVals s im o pos) s) s

/-- NORMALISE_RMS (R219). -/
def execNormaliseRms (pos op : Nat) (s : State) : Host.Outcome State Fault Refusal := .next (normaliseOp 0 pos op s)
/-- NORMALISE_LAYER (R219). -/
def execNormaliseLayer (pos op : Nat) (s : State) : Host.Outcome State Fault Refusal := .next (normaliseOp 1 pos op s)

/-! ### GATHER and SCATTER -/

/-- Element offsets of the row of a tensor at position `i` along axis position `p`, the other axes in order. -/
def rowAt (dims : List Nat) (p i : Nat) : List Nat :=
  let rest := without dims p
  (List.range (product rest)).map fun j =>
    let cs := unravel rest j
    ravel dims (cs.take p ++ [i] ++ cs.drop p)

/-- Indices of I as integers. -/
def indexList (s : State) (im : Image) (pos t : Nat) : List Int := (valsOf s im pos t).map fun v => v.real.real.floor

/-- The index lies on an axis of length `n`. -/
def onAxis (n : Nat) (i : Int) : Bool := decide (0 ≤ i) && decide (i < n)

def countDrops (n : Nat) (s : State) : State := { s with job.rangeDrops := s.job.rangeDrops + n }

def zeroVal : Val := .num (.fin false 0)

/-- Rows that GATHER reads: an index outside the axis gives a row of +0 (R225). -/
def gatherVals (s : State) (im : Image) (o : OpRec) (pos : Nat) : List Val :=
  let t := in0 o
  let p := field o.params 0 1
  let dims := dimsOf im t
  let tv := srcFor (fmtNow s im (out0 o)) (valsOf s im pos t)
  (indexList s im pos (in1 o)).flatMap fun i =>
    (rowAt dims p i.toNat).map fun k => if onAxis (nth dims p 0) i then nth tv k zeroVal else zeroVal

/-- Indices outside the axis of tensor `t` (R225, R226). -/
def offAxis (s : State) (im : Image) (o : OpRec) (pos t : Nat) : Nat :=
  (indexList s im pos (in1 o)).countP fun i => !onAxis (nth (dimsOf im t) (field o.params 0 1) 0) i

/-- GATHER (R225): an index outside the axis is counted. -/
def execGather (pos op : Nat) (s : State) : Host.Outcome State Fault Refusal :=
  .next (runOp pos op 6 0 (fun im o s => countDrops (offAxis s im o pos (in0 o)) (writeOut im o pos (out0 o) (gatherVals s im o pos) s)) s)

/-- Updates of each element of Y, in ascending flattened index of I (R226, R227). -/
def scatterUpdates (s : State) (im : Image) (o : OpRec) (pos : Nat) (yf : Nat) : List (Nat × Val) :=
  let p := field o.params 0 1
  let dims := dimsOf im (out0 o)
  let row := product (without dims p)
  let uv := srcFor yf (valsOf s im pos (in0 o))
  (indexList s im pos (in1 o)).zipIdx.flatMap fun (i, n) =>
    if onAxis (nth dims p 0) i then (rowAt dims p i.toNat).zipIdx.map fun (k, j) => (k, nth uv (n * row + j) zeroVal) else []

/-- A target element after the add variant: the canonical sum of its current value and its updates (R227, R119). The spec is silent on a U and a Y of
which one floats and the other is an integer: DESIGN CHOICE (log 75), an integer Y adds the floor of U's values, a floating Y takes U's integer patterns
as FP32. -/
def addUpdates (yInt : Bool) (cur : Val) (us : List Val) : Val :=
  if yInt then .int (((cur :: us).foldl (fun a v => a + v.real.real.floor) (0 : Int)) % 2 ^ 32)
  else if us.isEmpty then cur else .num (numW (canonicalSum ((cur :: us).map Val.word)))

/-- Y after a scatter: the add variant sums, the replace variant keeps the last update (R226, R227). -/
def scatterVals (variant : Nat) (s : State) (im : Image) (o : OpRec) (pos : Nat) : List Val :=
  let y := out0 o
  let yf := fmtNow s im y
  let ups := scatterUpdates s im o pos yf
  (srcFor yf (valsOf s im pos y)).zipIdx.map fun (c, e) =>
    let us := (ups.filter fun u => u.1 == e).map (·.2)
    if variant = 0 then addUpdates (isInt yf) c us else (us.getLast?).getD c

def scatterOp (variant pos op : Nat) (s : State) : State :=
  runOp pos op 7 variant (fun im o s =>
    countDrops (offAxis s im o pos (out0 o)) (writeOut im o pos (out0 o) (scatterVals variant s im o pos) s)) s

/-- SCATTER_ADD (R226, R227). -/
def execScatterAdd (pos op : Nat) (s : State) : Host.Outcome State Fault Refusal := .next (scatterOp 0 pos op s)
/-- SCATTER_REPLACE (R226, R227). -/
def execScatterReplace (pos op : Nat) (s : State) : Host.Outcome State Fault Refusal := .next (scatterOp 1 pos op s)

/-! ### CAST and DRAW -/

/-- What CAST converts: X's values as its output's format takes them (R228). -/
def castVals (s : State) (im : Image) (o : OpRec) (pos : Nat) : List Val := srcFor (fmtNow s im (out0 o)) (valsOf s im pos (in0 o))

/-- CAST (R228). -/
def execCast (pos op : Nat) (s : State) : Host.Outcome State Fault Refusal :=
  .next (runOp pos op 8 0 (fun im o s => writeOut im o pos (out0 o) (castVals s im o pos) s) s)

/-- The Philox words of a DRAW (R229). -/
def drawWords (s : State) (im : Image) (o : OpRec) (pos op : Nat) : List Nat :=
  let n := elemCount im (out0 o)
  let w := tget s.job.opRuns (runKey pos op) 0
  let g := groupIndex im o.machine (rankOf s im pos)
  (List.range n).map fun e =>
    philox s.job.drawSeed.toNat (field o.params 0 4) (e / 4 % 2 ^ 32) (e / 4 / 2 ^ 32) (stepNow s % 2 ^ 32) (w % 256 + 256 * g) (e % 4)

/-- The Bernoulli threshold floor(2^32 · p), exact and not clamped: none for a NaN (R230). -/
def bernoulli (p : Num) (w : Nat) : Bool :=
  match p with
  | .nan => false
  | .inf n => !n
  | .fin n m => decide ((w : Int) < (((2 ^ 32 : Nat) : Rat) * (if n then -m else m)).floor)

def drawVal (variant : Nat) (yInt : Bool) (p : Num) (w : Nat) : Val :=
  if variant = 0 then (if yInt then .int w else .num (numW (u2f (BitVec.ofNat 32 w))))
  else if variant = 1 then .num (.fin false ((w / 256 : Nat) * pow2 (-24)))
  else .num (.fin false (if bernoulli p w then 1 else 0))

def drawVals (variant : Nat) (s : State) (im : Image) (o : OpRec) (pos op : Nat) : List Val :=
  (drawWords s im o pos op).map (drawVal variant (isInt (fmtNow s im (out0 o))) (dec32 (BitVec.ofNat 32 (field o.params 4 4))))

def drawOp (variant pos op : Nat) (s : State) : State :=
  runOp pos op 9 variant (fun im o s => writeOut im o pos (out0 o) (drawVals variant s im o pos op) s) s

/-- DRAW_BITS (R229, R230). -/
def execDrawBits (pos op : Nat) (s : State) : Host.Outcome State Fault Refusal := .next (drawOp 0 pos op s)
/-- DRAW_UNIFORM (R229, R230). -/
def execDrawUniform (pos op : Nat) (s : State) : Host.Outcome State Fault Refusal := .next (drawOp 1 pos op s)
/-- DRAW_BERNOULLI (R229, R230). -/
def execDrawBernoulli (pos op : Nat) (s : State) : Host.Outcome State Fault Refusal := .next (drawOp 2 pos op s)

/-! ### Encoded moves -/

/-- A source of an element: the copy, its format's layout, and the element's index. -/
structure Src where
  copy : Tens
  geo : Geo
  elem : Nat
  deriving DecidableEq, Repr

/-- Y from one source per element, codes and scales unchanged (R234, R238). A block of Y has one scale; where its elements come from several blocks (a
box COPY that copies part of a block, R238, or an X whose blocks lie otherwise than Y's, R885) the spec does not say which: DESIGN CHOICE (log 77), the
scale of its first element's source. -/
def assemble (f : Nat) (g : Geo) (src : List Src) : Stored :=
  let d : Src := ⟨{}, ⟨0, 1, 1⟩, 0⟩
  { fmt := f
    codes := src.map fun x => nth x.copy.codes x.elem 0
    bscales := if isBlock f then (List.range (g.count (blockSize f))).map fun b =>
      let x := nth src (g.firstOf (blockSize f) b) d; bscaleOf f x.geo x.copy x.elem else []
    tscales := if isGrouped f then (List.range (g.count 4096)).map fun b =>
      let x := nth src (g.firstOf 4096 b) d; tscaleOf x.geo x.copy x.elem else []
    sat := 0, under := 0 }

/-- Decoded values of sources. -/
def movedVals (src : List Src) : List Val :=
  src.map fun x => let n := elemOf x.copy.fmt x.geo x.copy x.elem; if isInt x.copy.fmt then Val.int n.real.floor else .num n

/-- Moves encoded bytes while X and Y are in the same format, else the decoded values converted into Y (R234, R238, R885). -/
def moveInto (im : Image) (o : OpRec) (pos : Nat) (xf : Nat) (src : List Src) (s : State) : State :=
  let y := out0 o
  let yf := fmtNow s im y
  if xf = yf then putStored (keyOf s im pos y) (assemble yf (geoTens im y yf) src) s
  else writeOut im o pos y (movedVals src) s

/-- A copy with its format written out, so that a source carries it. -/
def fullCopy (s : State) (im : Image) (pos tid : Nat) : Tens × Geo :=
  let (f, g, t) := seen s im pos tid
  ({ t with fmt := f, codes := fullCodes g t, bscales := fullScales f g t, tscales := fullTscales f g t }, g)

/-! ### Collectives -/

/-- Every member's X in ascending group index: that of each own position of the group from its copy, and those that ranks of other modules brought; none
until every member is there (R231, R232). -/
def memberCopies (s : State) (im : Image) (o : OpRec) (pos op : Nat) (members : List MemberX) : Option (List (Tens × Geo)) :=
  let mine := (groupPositions s im o.machine pos).map fun q => (groupIndex im o.machine (rankOf s im q), q)
  let f := fmtNow s im (in0 o)
  let geo := geoTens im (in0 o) f
  if matesThere s im o pos op then
    (List.range (groupSize im o.machine)).mapM fun i =>
      match mine.find? fun e => e.1 == i with
      | some (_, q) => some (fullCopy s im q (in0 o))
      | none => (members.find? fun m => m.index == i).map fun m => ({ fmt := f, codes := m.codes, bscales := m.bscales, tscales := m.tscales }, geo)
  else none

/-- Runs a collective once every member's data is there; until then the rank waits, and `wait` is what it does meanwhile. -/
def collectiveOp (variant pos op : Nat) (members : List MemberX) (f : Image → OpRec → List (Tens × Geo) → State → State)
    (wait : Image → OpRec → State → State) (s : State) : State :=
  match nextOp s pos op 10 variant with
  | some (im, o) =>
    if !inputsReady s im o.ins then waitInput pos s
    else match memberCopies s im o pos op members with
    | some cs => runOp pos op 10 variant (fun im o s => f im o cs s) s
    | none => wait im o s
  | none => s

/-- Every own position of the group stands at the op with its inputs there, so that the module's contribution can be formed (R589). -/
def groupReady (s : State) (im : Image) (o : OpRec) (pos op : Nat) : Bool :=
  inputsReady s im o.ins && (groupPositions s im o.machine pos).all fun q => nth s.job.opNext q none32 == op

/-- Flume type code of a format (R580). -/
def flumeType (f : Nat) : Nat := if f = 0x10 then 0 else if f = 0x11 then 1 else if f = 0x12 then 5 else 4

/-- A value as a Flume element. -/
def flumeWord (f : Nat) (v : Val) : DWord := if f = 0x12 then enc64 v.real else v.word.setWidth 64
def flumeVal (f : Nat) (w : DWord) : Val :=
  if f = 0x12 then .num (dec64 w)
  else if f = 0x10 then .int (w.setWidth 32).toInt
  else if f = 0x11 then .int (w.setWidth 32).toNat
  else .num (dec32 (w.setWidth 32))

/-- X of a position as Flume elements. -/
def flumeX (s : State) (im : Image) (o : OpRec) (q : Nat) : List DWord :=
  (valsOf s im q (in0 o)).map (flumeWord (fmtNow s im (in0 o)))

/-- Type, words and values of a reduction of X in the tree: a floating X as FP32, by R190, with FP32 accumulation (R116, R233). -/
def bulkType (f : Nat) : Nat := if isInt f then flumeType f else 4
def bulkX (s : State) (im : Image) (o : OpRec) (q : Nat) : List DWord := (valsOf s im q (in0 o)).map fun v => v.word.setWidth 64
def bulkVal (f : Nat) (w : DWord) : Val := if isInt f then flumeVal f w else .num (dec32 (w.setWidth 32))

def groupOf (s : State) (im : Image) (o : OpRec) (pos : Nat) : Word := groupWord im o.machine (rankOf s im pos)

/-- A Flume collective whose members' data does not stand in the command: sent upward, awaited, then taken from its result (R589, R593). -/
def flumeWait (variant pos op fop : Nat) (count : OpRec → Image → Nat) (use : Image → OpRec → List DWord → State → State)
    (im : Image) (o : OpRec) (s : State) : State :=
  match opInFlight s (groupOf s im o pos) op 0 with
  | none =>
    if groupReady s im o pos op ∧ flumeRoom s (groupOf s im o pos) then
      beginFlume im o.machine pos op 0 0 fop (flumeType (fmtNow s im (in0 o))) (count o im) (fun q => if variant = 6 then [] else flumeX s im o q) s
    else s
  | some x =>
    match x.result with
    | some ws =>
      let n := (groupPositions s im o.machine pos).length
      runOp pos op 10 variant (fun im o s => use im o ws (takeResult n pos x s)) s
    | none => s

/-- The group is node-aligned, as a reduction in the tree requires (R604, R605). -/
def treeAligned (s : State) (im : Image) (o : OpRec) (pos : Nat) : Bool :=
  match s.job.plan with
  | some p => nodeAligned (groupSize im o.machine) (isInt (fmtNow s im (in0 o)) || field o.params 0 1 != 0) (groupParts s im p o.machine (rankOf s im pos))
  | none => false

/-- A tree reduction whose members' data does not stand in the command (R604 to R612), where the group is node-aligned and the plan runs it there. -/
def bulkWait (variant pos op fop kind : Nat) (slices : Image → OpRec → List (Nat × List Nat)) (use : Image → OpRec → List DWord → State → State)
    (im : Image) (o : OpRec) (s : State) : State :=
  match s.flume.bulks.find? fun b => b.group == groupOf s im o pos && b.op == op with
  | none =>
    if groupReady s im o pos op ∧ flumeRoom s (groupOf s im o pos) ∧ treeAligned s im o pos ∧ inTree s op then
      beginBulk im o.machine pos op kind fop (bulkType (fmtNow s im (in0 o))) (slices im o) (bulkX s im o) s
    else s
  | some b =>
    match bulkResult b (elemCount im (in0 o)) with
    | some ws =>
      let n := (groupPositions s im o.machine pos).length
      runOp pos op 10 variant (fun im o s => use im o ws (takeBulk n pos b s)) s
    | none => s

/-- Integer combinations (Table 13-1, R119, R581). -/
def intCombine (f comb : Nat) (xs : List Int) : Int :=
  let nat := fun (i : Int) => (i % 2 ^ 32).toNat
  let value := fun (n : Nat) => if f = 0x10 then (BitVec.ofNat 32 n).toInt else (n : Int)
  match xs with
  | [] => 0
  | y :: ys =>
    if comb = 0 then value (nat ((y :: ys).foldl (· + ·) 0))
    else if comb = 1 then ys.foldl min y
    else if comb = 2 then ys.foldl max y
    else if comb = 3 then value (ys.foldl (fun a b => a &&& nat b) (nat y))
    else value (ys.foldl (fun a b => a ||| nat b) (nat y))

/-- The combination of one element over the members (R118, R233, R235). -/
def combineVals (f comb : Nat) (flume : Bool) (xs : List Val) : Val :=
  if isInt f then .int (intCombine f comb (xs.map fun v => v.real.real.floor))
  else if flume ∧ f = 0x12 then .num (dec64 ((canonicalTree dadd (xs.map fun v => enc64 v.real)).getD 0))
  else .num (numW ((canonicalTree (if comb = 0 then fadd else if comb = 1 then fmin else fmax) (xs.map Val.word)).getD 0))

/-- The rank's own sum of squares of X joins its pre-reduction sum when the op carries the noise-statistics flag (R169). DESIGN CHOICE (log 94): integers
enter with their exact squares, and the contributions are added in the order in which the ops run. -/
def noteNoise (im : Image) (o : OpRec) (pos : Nat) (s : State) : State :=
  if o.flags / 4 % 2 = 1 then
    let xs := numsOf s im pos (in0 o)
    let w := enc64 (numW (canonicalTerms (xs.map fun x => Num.mul x x)))
    let v := if thas s.job.noise pos then dadd (tget s.job.noise pos 0) w else w
    { s with job.noise := tput s.job.noise pos v }
  else s

/-- Values of every member's X. -/
def memberVals (cs : List (Tens × Geo)) : List (List Val) := cs.map fun (t, g) => copyVals t.fmt g t

/-- Element-wise combination over the members at X offsets `idx`. -/
def combineAt (f comb : Nat) (flume : Bool) (vss : List (List Val)) (idx : List Nat) : List Val :=
  idx.map fun i => combineVals f comb flume (vss.map fun vs => nth vs i zeroVal)

def combOf (o : OpRec) : Nat := field o.params 0 1
def axisPosOf (o : OpRec) : Nat := field o.params 1 1

/-- COLLECTIVE_REDUCE (R231 to R233, R236, R604 to R612). -/
def execCollectiveReduce (pos op : Nat) (members : List MemberX) (s : State) : Host.Outcome State Fault Refusal :=
  let put := fun (im : Image) (o : OpRec) (vs : List Val) (s : State) => writeOut im o pos (out0 o) vs (noteNoise im o pos s)
  .next (collectiveOp 0 pos op members
    (fun im o cs s => put im o (combineAt (fmtNow s im (in0 o)) (combOf o) false (memberVals cs) (List.range (elemCount im (in0 o)))) s)
    (fun im o s => bulkWait 0 pos op (combOf o) 0x10 (fun im o => [(none32, List.range (elemCount im (in0 o)))])
      (fun im o ws s => put im o (ws.map (bulkVal (fmtNow s im (in0 o)))) s) im o s) s)

/-- X offsets for each element of Y, the index along position `p` replaced by `g`. -/
def shiftAxis (xdims ydims : List Nat) (p : Nat) (g : Nat → Nat) : List Nat :=
  (List.range (product ydims)).map fun e => let cs := unravel ydims e; ravel xdims (lset cs p (g (nth cs p 0)))

/-- X offsets of slice `r` of a reduce-scatter. -/
def sliceOf (im : Image) (o : OpRec) (r : Nat) : List Nat :=
  let k := nth (dimsOf im (out0 o)) (axisPosOf o) 0
  shiftAxis (dimsOf im (in0 o)) (dimsOf im (out0 o)) (axisPosOf o) fun j => r * k + j

/-- COLLECTIVE_REDUCE_SCATTER (R232, R233, R604 to R612): slice r of the combination. -/
def execCollectiveReduceScatter (pos op : Nat) (members : List MemberX) (s : State) : Host.Outcome State Fault Refusal :=
  let put := fun (im : Image) (o : OpRec) (vs : List Val) (s : State) => writeOut im o pos (out0 o) vs (noteNoise im o pos s)
  .next (collectiveOp 1 pos op members
    (fun im o cs s => put im o (combineAt (fmtNow s im (in0 o)) (combOf o) false (memberVals cs)
      (sliceOf im o (groupIndex im o.machine (rankOf s im pos)))) s)
    (fun im o s => bulkWait 1 pos op (combOf o) 0x11 (fun im o => (List.range (groupSize im o.machine)).map fun i => (i, sliceOf im o i))
      (fun im o ws s => put im o ((sliceOf im o (groupIndex im o.machine (rankOf s im pos))).map fun e => bulkVal (fmtNow s im (in0 o)) (nth ws e 0)) s)
      im o s) s)

/-- Sources of Y's elements: for each, the member and the X offset. -/
def srcOf (cs : List (Tens × Geo)) (places : List (Nat × Nat)) : List Src :=
  places.map fun (m, e) => let (t, g) := nth cs m ({}, ⟨0, 1, 1⟩); ⟨t, g, e⟩

/-- The version of a rank's shard of a parameter or optimizer-state tensor goes to the other modules of its group in a 16-byte STORE (R669): the step of
the update phase that last wrote it, and bytes 0 to 7 of the copy's SHA-256. That the step is the module's last update step, whichever tensors it wrote,
is DEDUCED (log 88). -/
def sendVersions (im : Image) (o : OpRec) (pos : Nat) (s : State) : State :=
  match s.job.plan with
  | none => s
  | some p =>
    let tid := in0 o
    let t := leadTile p pos
    if h : t < 256 then
      if 1 < (tensorOf im tid).role then s
      else
        let body := leBytes 8 s.job.lastUpdate.toNat ++ leBytes 8 (digest8 (storedForm s im (keyOf s im pos tid))).toNat
        let addr := Config.versionSlot p.digest tid (groupIndex im o.machine (rankOf s im pos))
        ((groupSlots im p o.machine (rankOf s im pos)).filter (· != p.slot)).foldl (fun s m =>
          issue ⟨t, h⟩ none (reqPacket (nth s.job.rankMap m 0xFFFF) 2 addr 16 body false) 0 none false s) s
    else s

/-- A gather that placement runs as a rotation moves nothing by itself: its blocks go round with the ATTEND that reads them (R309). -/
def gatherOp (pos op : Nat) (members : List MemberX) (f : Image → OpRec → List (Tens × Geo) → State → State) (wait : Image → OpRec → State → State)
    (s : State) : State :=
  match nextOp s pos op 10 2 with
  | some (im, _) => if turnedGather s im op then runOp pos op 10 2 (fun im o s => sendVersions im o pos s) s else collectiveOp 2 pos op members f wait s
  | none => s

/-- COLLECTIVE_GATHER (R232, R234, R309, R669): member i's X at slice i. -/
def execCollectiveGather (pos op : Nat) (members : List MemberX) (s : State) : Host.Outcome State Fault Refusal :=
  .next (gatherOp pos op members (fun im o cs s =>
    let p := axisPosOf o
    let xd := dimsOf im (in0 o)
    let yd := dimsOf im (out0 o)
    let k := nth xd p 1
    let idx := (List.range (product yd)).map fun e => nth (unravel yd e) p 0 / k
    moveInto im o pos (fmtNow s im (in0 o)) (srcOf cs (idx.zip (shiftAxis xd yd p fun j => j % k))) (sendVersions im o pos s)) (fun _ _ s => s) s)

/-- COLLECTIVE_ALL_TO_ALL (R232, R234): slice i of Y is slice r of member i's X. -/
def execCollectiveAllToAll (pos op : Nat) (members : List MemberX) (s : State) : Host.Outcome State Fault Refusal :=
  .next (collectiveOp 3 pos op members (fun im o cs s =>
    let p := axisPosOf o
    let xd := dimsOf im (in0 o)
    let yd := dimsOf im (out0 o)
    let k := nth yd p 1 / cs.length
    let r := groupIndex im o.machine (rankOf s im pos)
    let idx := (List.range (product yd)).map fun e => nth (unravel yd e) p 0 / k
    moveInto im o pos (fmtNow s im (in0 o)) (srcOf cs (idx.zip (shiftAxis xd yd p fun j => r * k + j % k))) s) (fun _ _ s => s) s)

/-- COLLECTIVE_BROADCAST (R232, R234): the root's X. -/
def execCollectiveBroadcast (pos op : Nat) (members : List MemberX) (s : State) : Host.Outcome State Fault Refusal :=
  .next (collectiveOp 4 pos op members (fun im o cs s =>
    let root := field o.params 4 4
    let n := elemCount im (out0 o)
    moveInto im o pos (fmtNow s im (in0 o)) (srcOf cs ((List.range n).map fun e => (root, e))) s) (fun _ _ s => s) s)

/-- COLLECTIVE_SCALAR_REDUCE (R232, R235, R582, R589 to R593). -/
def execCollectiveScalarReduce (pos op : Nat) (members : List MemberX) (s : State) : Host.Outcome State Fault Refusal :=
  .next (collectiveOp 5 pos op members
    (fun im o cs s => writeOut im o pos (out0 o)
      (combineAt (fmtNow s im (in0 o)) (combOf o) true (memberVals cs) (List.range (elemCount im (in0 o)))) s)
    (fun im o s => flumeWait 5 pos op (combOf o) (fun o im => elemCount im (in0 o))
      (fun im o ws s => writeOut im o pos (out0 o) (ws.map (flumeVal (fmtNow s im (in0 o)))) s) im o s) s)

/-- COLLECTIVE_BARRIER (R232, R603): `members` are the group indices of ranks of other modules that have reached it. -/
def execCollectiveBarrier (pos op : Nat) (members : List Nat) (s : State) : Host.Outcome State Fault Refusal :=
  .next (
    match nextOp s pos op 10 6 with
    | some (im, o) =>
      let mine := (groupPositions s im o.machine pos).map fun q => groupIndex im o.machine (rankOf s im q)
      if !matesThere s im o pos op then s
      else if (List.range (groupSize im o.machine)).all fun i => mine.contains i || members.contains i then runOp pos op 10 6 (fun _ _ s => s) s
      else flumeWait 6 pos op 5 (fun _ _ => 0) (fun _ _ _ s => s) im o s
    | none => s)

/-! ### COPY -/

/-- Where each element of Y comes from in a box COPY (R237, R238): the X element that moves to it, if any. -/
def boxSource (s : State) (im : Image) (o : OpRec) (e : Nat) : Option Nat :=
  let xd := dimsOf im (in0 o)
  let yd := dimsOf im (out0 o)
  let cs := unravel yd e
  let src := (List.range yd.length).mapM fun k =>
    let f := boxField o.params k
    let dst := f 1 + f 3 * stepNow s + f 4 * s.job.loopIter
    let i := (nth cs k 0 : Int) - dst
    let x := f 0 + i
    if 0 ≤ i ∧ i < f 2 ∧ 0 ≤ x ∧ x < nth xd k 0 then some x.toNat else none
  src.map (ravel xd)

/-- Elements of the box whose source or destination lies outside its tensor (R238). -/
def boxDrops (s : State) (im : Image) (o : OpRec) : Nat :=
  let total := product ((List.range (dimsOf im (in0 o)).length).map fun k => (boxField o.params k 2).toNat)
  total - (List.range (elemCount im (out0 o))).countP fun e => (boxSource s im o e).isSome

/-- The box of X moves into Y, whose other elements stay. -/
def moveBox (im : Image) (o : OpRec) (pos : Nat) (s : State) : State :=
  let x := fullCopy s im pos (in0 o)
  let y := fullCopy s im pos (out0 o)
  let src := (List.range (elemCount im (out0 o))).map fun e =>
    match boxSource s im o e with
    | some i => Src.mk x.1 x.2 i
    | none => Src.mk y.1 y.2 e
  moveInto im o pos (fmtNow s im (in0 o)) src s

/-- COPY_BOX (R237 to R239, R885). -/
def execCopyBox (pos op : Nat) (s : State) : Host.Outcome State Fault Refusal :=
  .next (runOp pos op 11 0 (fun im o s => countDrops (boxDrops s im o) (moveBox im o pos s)) s)

/-- X's elements in row-major order become Y's. -/
def moveReshape (im : Image) (o : OpRec) (pos : Nat) (s : State) : State :=
  let x := fullCopy s im pos (in0 o)
  moveInto im o pos (fmtNow s im (in0 o)) ((List.range (elemCount im (out0 o))).map fun e => Src.mk x.1 x.2 e) s

/-- COPY_RESHAPE (R240, R885). -/
def execCopyReshape (pos op : Nat) (s : State) : Host.Outcome State Fault Refusal :=
  .next (runOp pos op 11 1 (fun im o s => moveReshape im o pos s) s)

/-! ### HOST_SIGNAL. The op acts once per execution on the module: position 0 acts. -/

def hostH (o : OpRec) : Nat := field o.params 0 1
def hostN (o : OpRec) : Nat := field o.params 4 4
def hostTimeout (o : OpRec) : Nat := if field o.params 8 4 = 0 then 100000 else field o.params 8 4

/-- HOST_SIGNAL_NOTIFY (R241, R575). -/
def execHostSignalNotify (pos op : Nat) (s : State) : Host.Outcome State Fault Refusal :=
  .next (runOp pos op 12 0 (fun _ o s =>
    if pos = 0 then signalCtr (hostCtr (hostH o)) (hostN o) (ownEndpoint s).toNat 0 5 s else s) s)

/-- The position already waits on the counter. -/
def awaits (s : State) (k pos : Nat) : Bool := (ctr s k).waiters.any fun w => w.1 == 2 && w.2.2.1 == pos

/-- HOST_SIGNAL_AWAIT (R241, R567): the op passes when its wait is released; a wait in progress changes nothing. Position 0 waits and takes the count
for the module, and no other position passes before it. -/
def execHostSignalAwait (pos op : Nat) (s : State) : Host.Outcome State Fault Refusal :=
  .next (
    match nextOp s pos op 12 1 with
    | some (im, o) =>
      let k := hostCtr (hostH o)
      if pos ≠ 0 then (if op < nth s.job.opNext 0 0 then runOp pos op 12 1 (fun _ _ s => s) s else s)
      else if s.job.awaitDone.contains pos then
        runOp pos op 12 1 (fun _ _ s => { s with job.awaitDone := s.job.awaitDone.filter (· != pos) }) s
      else if awaits s k pos then s
      else
        let (now, s) := doWait k (2, rankOf s im pos, pos, hostN o, hostTimeout o) s
        if now then runOp pos op 12 1 (fun _ _ s => s) s else s
    | none => s)

end Sys2Proof.Machine
end

