-- ==== Sys2Proof/Machine/Boundary.lean ====
section
/-! DEFINITION. What happens between phases: plan copies and the loader (R69, R70), the kinds of the counters, the transfer list of a boundary (R292 to
R295), and the tensors that a phase forms again (R286). -/
namespace Sys2Proof.Machine

/-! ### Numbers of a plan, for its serialisation and its programs -/

/-- The job plan as numbers: the cut and the trays of the device set's module slots, which a substitution by the tray's spare leaves (R268, R296, R303). -/
def jobNums (s : State) (im : Image) (p : Plan) : List Nat :=
  [im.id.toNat, p.n, p.r, p.w] ++ p.fModule ++ p.fTray ++ p.fTree ++ s.job.rankMap.map (trayKey s) ++
    [jobEnd s, match s.dev.ring with | some r => r.keeper.offload | none => 0]

def OpPlace.nums (x : OpPlace) : List Nat :=
  [x.op, x.unit, x.stationary, x.emit, x.split, x.rows, x.group, x.tiles, x.stateTier, if x.rotates then 1 else 0, if x.inTree then 1 else 0, x.cost]

/-- A module plan restricted to a phase, as numbers (R296): its ops, the homes and formats of the tensors that it touches, what it forms again, and the
transfers before it. -/
def ModPlan.nums (im : Image) (formats : Table Nat) (phase : Nat) (m : ModPlan) : List Nat :=
  let ops := (phaseOps im phase).map (·.1)
  let ts := (List.range im.tensors.length).filter (phaseTouches im phase)
  [m.n, phase, nth m.costs phase 0] ++ (m.ops.filter fun x => ops.contains x.op).flatMap OpPlace.nums ++
    (ts.flatMap fun t => [t, fmtIn im formats t, nth m.lens t 0, tget m.homes t 1, tget m.holders t 0]) ++
    ((tget m.redo phase []).flatMap fun e => e.1 :: e.2) ++ ((tget m.transfers phase []).flatMap fun x => x.bytes.map (·.toNat)) ++
    ((m.caches.filter fun c => ts.contains c.1).flatMap fun c => [c.1, c.2.1, c.2.2])

/-! ### Programs (R68 to R70) -/

/-- Units of the instructions that a helper tile carries (R277): the copy engine, the combine unit, the sync counters and the sequencer itself. Its
shadow work comes with the samples (R157). -/
def helperUnits : List Nat := [4, 5, 6, 7]

/-- The programs of virtual tile `v` in a phase: what the Cruise ROM writes for the plan's numbers (`Config.tileCode`), for 8 slots; a helper tile carries
combine work only (R277). -/
def programsOf (s : State) (im : Image) (p : Plan) (m : ModPlan) (phase v : Nat) : List (List TInstr) :=
  let code := Config.tileCode (jobNums s im p ++ m.nums im s.job.formats phase) v
  let helps := (Grid.mk m.n (max 1 p.r)).helpers.contains v
  (List.range 8).map fun k => ((nth code k []).filter fun e => !helps || helperUnits.contains e.1).map fun e => ⟨e.1, e.2⟩

/-- The plan copies, one for each phase and virtual tile. -/
def planCopies (s : State) (im : Image) (p : Plan) (m : ModPlan) : List (List Byte) :=
  (List.range im.phases.length).flatMap fun ph => (List.range m.n).map fun v => codeTile (programsOf s im p m ph v)

/-- The phase that the step runs first: the init phase, or that of the first RUN item (R243, R247). -/
def firstPhase (inInit : Bool) (im : Image) : Nat :=
  if inInit then im.initPhase.getD 0 else ((im.items.find? fun i => i.1 == 1).map (·.2)).getD 0

/-- The tiles of a plan with their virtual numbers (R269). -/
def boundPairs (p : Plan) : List (Nat × Nat) := p.tiles.zipIdx.map fun e => (e.2, e.1)

/-- The loader writes the instruction memories, from the plan copies (R69, R70). -/
def loadMemories (p : Plan) (phases phase : Nat) (s : State) : State :=
  (boundPairs p).foldl (fun s e => updTile e.2 (fun r => { r with imem := memoryFor s p phases phase e.1 }) s) s

/-- Step 4 of Table 06-6: the plan copies go to HBM, the instruction memories are loaded. -/
def installPlan (im : Image) (p : Plan) (m : ModPlan) (first : Nat) (s : State) : State :=
  let cs := planCopies s im p m
  let p := { p with copyLens := cs.map (·.length) }
  let s := { s with job.plan := some p, mem := writeMem s.mem planArea cs.flatten }
  loadMemories p im.phases.length first s

/-! ### A phase's start on the tiles -/

/-- Sets every counter's kind by the plan, at PLANNING and at phase boundaries (R563): the counters keep their values. -/
def setKinds (flags : List Nat) (s : State) : State :=
  let all := s.remote.ctrs.map fun e => (e.1, { e.2 with isFlag := flags.contains e.1 })
  let s := { s with remote.ctrs := all.filter fun e => e.2 != {} }
  flags.foldl (fun s k => setCtr k { ctr s k with isFlag := true } s) s

/-- The tile whose first operation waits for a transfer (R294). A transfer from the keeper has no destination tile: the rank's first tile, whose counter it
signals, waits for it (log 83). -/
def awaitTile (p : Plan) (x : Transfer) : Option Nat :=
  if x.dstTier = 0 then some (physTile p x.dstTile) else if x.srcTier = 2 then some (leadTile p x.rankPos) else none

/-- A tile's arrival counters with the counts of the boundary's records for it (R294). -/
def awaitsOf (p : Plan) (ts : List Transfer) (t : Nat) : List (Nat × Nat) :=
  let mine := ts.filter fun x => awaitTile p x == some t
  ((mine.map (·.counter)).eraseDups).map fun c => (c, mine.countP fun x => x.counter == c)

/-- The tiles start the programs of a phase, each waiting for its transfers; node stores and combine nodes are empty, and no stream of before waits for
a set (R68, R83, R294). -/
def startTiles (p : Plan) (ts : List Transfer) (phase : Nat) (s : State) : State :=
  (boundPairs p).foldl (fun s e => updTile e.2 (fun r =>
    let r := { r with
      phase, awaits := awaitsOf p ts e.2, outs := [], entries := [], children := [], completed := [], drained := [], nodes := [], stalled := none }
    { r with slots := startSlots r }) s) s

/-- Slots whose programs have no instruction for a unit run to their end (R68, R75). -/
def finishTiles (p : Plan) (s : State) : State :=
  p.tiles.foldl (fun s t => (List.range 8).foldl (fun s k => finish t k [] s) s) s

/-- The loader brings in the programs of a phase where the instruction memories do not hold them, and counts them
(R70): DESIGN CHOICE (log 89), one replacement is one tile's memory rewritten. -/
def replacePrograms (p : Plan) (phases phase : Nat) (s : State) : State :=
  (boundPairs p).foldl (fun s e =>
    if thas (tile s e.2).imem phase then s
    else updTile e.2 (fun r => { r with imem := memoryFor s p phases phase e.1 }) { s with job.replacements := s.job.replacements + 1 }) s

/-! ### Transfers (R292 to R295) -/

/-- Local address of a run of a rank's tensor: in the SRAM of a virtual tile, in local HBM, or in the offload area of the keeper region. -/
def runAddr (p : Plan) (x : Transfer) (tier v off : Nat) : Nat :=
  if tier = 0 then sramAddr (physTile p v) (Config.tensorBase p.digest p.tiles.length 0 v x.rankPos x.tensor + off)
  else Config.tensorBase p.digest p.tiles.length tier 0 x.rankPos x.tensor + off

/-- A copy-engine copy within the module, or to the keeper (R293): of the source's tile, or of the rank's first tile where the source is no tile. Table 06-5
names no tile for a copy to the keeper: DESIGN CHOICE (log 83), it signals counter 254 of the keeper's tile 0, which nothing waits for. -/
def transferCopy (s : State) (p : Plan) (x : Transfer) : CopyJob :=
  let away := x.dstTier == 2
  let dst := if away then keeperNow s else ownEndpoint s
  { tile := if x.srcTier = 0 then physTile p x.srcTile else leadTile p x.rankPos, sent := 0, waitOn := none
    req := { src := runAddr p x x.srcTier x.srcTile x.srcOffset, dst := .endpoint dst, dstAddr := runAddr p x x.dstTier x.dstTile x.dstOffset
             length := x.length, counter := if away then tileCtr 0 254 else tileCtr ((awaitTile p x).getD 0) x.counter, progress := false
             digest := x.sha, digestAddr := Config.digestSlot x.tensor, tray := false, keeper := away } }

/-- A transfer from the keeper is a COPY_PULL of the rank's first tile (R293, R546). -/
def transferPull (p : Plan) (x : Transfer) (s : State) : State :=
  let t := leadTile p x.rankPos
  let body := leBytes 6 (runAddr p x x.dstTier x.dstTile x.dstOffset) ++ leBytes 8 x.length ++ leBytes 1 x.counter ++ leBytes 1 (if x.sha then 2 else 0) ++
    List.replicate 16 0
  if h : t < 256 then issue ⟨t, h⟩ none { reqPacket (keeperNow s) 6 (runAddr p x 2 0 x.srcOffset) x.tensor body false with job := 0xFFFF } 0 none false s else s

/-- Starts the transfers of a boundary; they carry no order among themselves (R295). -/
def startTransfers (p : Plan) (ts : List Transfer) (s : State) : State :=
  pumpCopies (ts.foldl (fun s x =>
    if x.srcTier = 2 then transferPull p x s else { s with remote.copies := s.remote.copies ++ [transferCopy s p x] }) s)

/-! ### Recomputation (R286) -/

/-- An op's effect on a position, for the classes that a recomputation runs. -/
def opEffect (im : Image) (o : OpRec) (pos op : Nat) (s : State) : State :=
  let put := fun (vs : List Val) => writeOut im o pos (out0 o) vs s
  match o.opcode with
  | 1 => put (contractVals s im o pos)
  | 2 => put (mapVals s im o pos)
  | 3 => put (reduceVals s im o pos)
  | 4 => if o.variant = 0 then writeRows im o pos (attendRows s im o pos) s else writeGrads im o pos s
  | 5 => put (normaliseVals s im o pos)
  | 6 => put (gatherVals s im o pos)
  | 8 => put (castVals s im o pos)
  | 9 => put (drawVals o.variant s im o pos op)
  | 11 => moveReshape im o pos s
  | _ => s

/-- Op `op` runs again with the write index and the execution count of its last run (R286); an op that has not run in the step is left out. -/
def redoOp (im : Image) (pos : Nat) (s : State) (op : Nat) : State :=
  match im.ops[op]? with
  | none => s
  | some o =>
    let n := tget s.job.opRuns (runKey pos op) 0
    if n = 0 then s
    else
      let again := o.outs.foldl (fun s t => let k := keyOf s im pos t; setTens k { tens s k with writes := (tens s k).writes - 1 } s)
        { s with job.opRuns := tset s.job.opRuns (runKey pos op) (n - 1) 0 }
      opEffect im o pos op again

/-- A tensor is formed again by the ops that its plan names: nothing but the tensor changes, so that the recomputation is neither tallied nor an
execution of its ops (R130, R169). -/
def redoTensor (im : Image) (pos : Nat) (s : State) (e : Nat × List Nat) : State :=
  let s' := e.2.foldl (redoOp im pos) s
  setTens (keyOf s im pos e.1) (tens s' (keyOf s im pos e.1)) s

/-- What a phase forms again, at its start, on every position (R285, R286). -/
def recompute (im : Image) (phase : Nat) (s : State) : State :=
  match ownPlan s with
  | some m => (List.range (positions s)).foldl (fun s pos => (tget m.redo phase []).foldl (redoTensor im pos) s) s
  | none => s

/-! ### PHASE_BOUNDARY -/

/-- The phase that runs next: the init phase, or that of the item in hand. -/
def comingPhase (s : State) (im : Image) : Option Nat :=
  if s.job.inInit then im.initPhase else match im.items[s.job.item]? with | some (1, ph) => some ph | _ => none

/-- Multicast groups of a phase: masks of virtual tiles bound to the module's own (R269, R490). -/
def bindGroups (p : Plan) (phase : Nat) : Table (BitVec 256) :=
  ((Config.groups p.digest p.tiles.length phase).take 256).foldl (fun m g =>
    tset m g.1 (BitVec.ofNat 256 (maskOf (((List.range 256).filter fun v => g.2.getLsbD v && decide (v < p.tiles.length)).map (physTile p)))) 0) []

/-- The counters that the module plan makes flags in a phase, bound to the module's tiles (R269, R563). -/
def flagKeys (p : Plan) (phase : Nat) : List Nat :=
  ((Config.flagCounters p.digest p.tiles.length phase).filter fun e => decide (e.1 < p.tiles.length)).map fun e => tileCtr (physTile p e.1) e.2

/-- The module's side of a phase boundary: programs, kinds, groups, transfers. -/
def startPhase (p : Plan) (m : ModPlan) (phases phase : Nat) (s : State) : State :=
  let ts := tget m.transfers phase []
  let s := setKinds (flagKeys p phase) (startTiles p ts phase (replacePrograms p phases phase s))
  startTransfers p ts (finishTiles p { s with fabric.groups := bindGroups p phase, job.opened := some phase })

/-- Transfers of one tensor that persists, before the first phase that runs on it after the tensors were last put in place: at a job's start, at a replay and
at a step's new attempt they stand at their homes; after the init phase, where that phase has left them (R292, R293). -/
def freshMoves (im : Image) (p : Plan) (m : ModPlan) (prior : Option Nat) (phase pos t : Nat) : List Transfer :=
  let g : Grid := ⟨m.n, max 1 p.r⟩
  let len := nth m.lens t 0
  let worked : Bool := match prior with | some k => phaseTouches im k t | none => false
  let here := phaseTouches im phase t
  let was := match prior with | some k => if worked then holders im m.ops k t else tget m.holders t 1 | none => tget m.holders t 1
  if tget m.homes t 1 = 0 ∧ here then sramMoves g pos t len was (holders im m.ops phase t)
  else if tget m.homes t 1 = 2 ∧ worked ∧ !here then tierMoves pos t len 1 2
  else if tget m.homes t 1 = 2 ∧ !worked ∧ here then tierMoves pos t len 2 1
  else []

/-- The transfers before `phase` when it is the first to run after the tensors were put in place, or comes after the init phase `prior`: DESIGN CHOICE
(log 83), sorted and marked as a boundary's list. -/
def freshList (im : Image) (p : Plan) (m : ModPlan) (prior : Option Nat) (phase : Nat) : List Transfer :=
  markLast (sortBy transferLe ((List.range (max 1 p.r)).flatMap fun pos =>
    ((List.range im.tensors.length).filter fun t => persists (tensorOf im t)).flatMap (freshMoves im p m prior phase pos)))

/-- The tiles start a step's first phase afresh, with its transfers from where the tensors were put: slots that a fault has halted run again, and node stores are empty (R76, R83, R84, R655). -/
def startStep (s : State) : State :=
  match s.job.image, s.job.plan, ownPlan s with
  | some im, some p, some m =>
    let ph := firstPhase s.job.inInit im
    startPhase p { m with transfers := tset m.transfers ph (freshList im p m none ph) [] } im.phases.length ph s
  | none, _, _ => s
  | some _, none, _ => s
  | some _, some _, none => s

/-- The plan with the transfers of the coming boundary: those of its list, but for the step's first phase behind the init phase. -/
def boundaryPlan (s : State) (im : Image) (p : Plan) (m : ModPlan) (phase : Nat) : ModPlan :=
  if im.initPhase.isSome ∧ !s.job.restore ∧ s.job.replayTo = none ∧ s.job.step = s.job.firstStep ∧ !s.job.inInit ∧ s.job.loopIter = 0 ∧
      firstPhase false im = phase then
    { m with transfers := tset m.transfers phase (freshList im p m im.initPhase phase) [] }
  else m

/-- PHASE_BOUNDARY (R69, R70, R292 to R295, R490, R563): the loader brings in the programs of the phase that comes, and its transfers start. -/
def execPhaseBoundary (phase : Nat) (s : State) : Host.Outcome State Fault Refusal :=
  .next (
    match s.job.image, s.job.plan, ownPlan s with
    | some im, some p, some m =>
      if jobRunning s ∧ s.job.phase = none ∧ comingPhase s im = some phase ∧ s.job.opened ≠ some phase then
        startPhase p (boundaryPlan s im p m phase) im.phases.length phase s
      else s
    | none, _, _ => s
    | some _, none, _ => s
    | some _, some _, none => s)

end Sys2Proof.Machine
end

