-- ==== Sys2Proof/Machine/Plan.lean ====
section
/-! DEFINITION. Placement as far as the spec fixes it (Chapter 06): the cut of the logical grid, the binding, the plan digests and PLANNING. -/
namespace Sys2Proof.Machine

/-! ### Rounds of Table 04-5 -/

/-- A disagreement of digests by rank or module slot (Table 04-5, R162, R163): the lowest minority member, none without a majority, and the minority
count; none when all agree. -/
def disagreement (xs : List (Nat × DWord)) : Option (Option Nat × Nat) :=
  match xs with
  | [] => none
  | x :: rest =>
    let lo := rest.foldl (fun m e => min m e.2.toNat) x.2.toNat
    let hi := rest.foldl (fun m e => max m e.2.toNat) x.2.toNat
    if lo = hi then none
    else
      let n := xs.length
      let cLo := xs.countP fun e => e.2.toNat == lo
      let cHi := xs.countP fun e => e.2.toNat == hi
      let count := n - max cLo cHi
      if cLo + cHi = n ∧ cLo ≠ cHi then
        let d := if cLo < cHi then lo else hi
        let members := (xs.filter fun e => e.2.toNat == d).map (·.1)
        some (members.foldl (fun m k => match m with | none => some k | some j => some (min j k)) none, count)
      else some (none, count)

/-- What the member at slot or rank `k` contributes to the rounds of Table 04-5 over the device set: (d, NOT d) to a 64-bit min, its places in the counts
to a 64-bit add, and its number, where it holds the minority digest, to a 32-bit min. -/
def sendRounds (k : Nat) (d : DWord) (xs : List (Nat × DWord)) (s : State) : State :=
  let s := deviceFlume 1 3 [d, ~~~ d] s
  let all := (k, d) :: xs
  match disagreement all with
  | none => s
  | some (low, _) =>
    let lo := all.foldl (fun m e => min m e.2.toNat) d.toNat
    let hi := all.foldl (fun m e => max m e.2.toNat) d.toNat
    let s := deviceFlume 0 3 [if d.toNat = lo then 1 else 0, if d.toNat = hi then 1 else 0] s
    match low with
    | none => s
    | some r => deviceFlume 1 1 [if ((all.find? fun e => e.1 == r).map (·.2)) = some d then BitVec.ofNat 64 k else 0xFFFFFFFF] s

/-! ### The cut (R272 to R276) -/

/-- Working modules that each tray gives the device set, when every tray gives as many (R273). -/
def trayWidth (s : State) (es : List (BitVec 16)) : Option Nat :=
  let ts := es.map (trayKey s)
  match ts with
  | [] => none
  | t :: _ =>
    let w := ts.countP (· == t)
    if 1 ≤ w ∧ w ≤ 8 ∧ ts.all (fun u => ts.countP (· == u) == w) then some w else none

/-- Machine axes with a kind-4 hint of the given value. -/
def hintedAxes (im : Image) (value : Nat) : List Nat := (im.hints.filter fun h => h.kind == 4 && h.value == value).map (·.target)

/-- Axes of the image in the order of machine kinds. -/
def axesByKind (im : Image) (kinds : List Nat) : List Nat :=
  kinds.flatMap fun k => (List.range im.machine.length).filter fun a => (nth im.machine a (1, 4)).2 == k

def moduleOrder (im : Image) : List Nat := axesByKind im [1, 2, 3, 4, 0]
def trayOrder (im : Image) (useHints : Bool) : List Nat :=
  let front := if useHints then (List.range im.machine.length).filter (hintedAxes im 0).contains else []
  front ++ (axesByKind im [2, 1, 3, 4, 0]).filter fun a => !front.contains a

/-- One level of cut_axes: factors, remaining sizes, capacity left. -/
def cutLevel : List Nat → List Nat → List Nat → Nat → List Nat × List Nat × Nat
  | [], f, rem, cap => (f, rem, cap)
  | a :: as, f, rem, cap =>
    let g := Nat.gcd (nth rem a 1) cap
    cutLevel as (lset f a (nth f a 1 * g)) (lset rem a (nth rem a 1 / g)) (cap / g)

/-- A cut, or the level that fails, the first axis left above 1 (0xFFFF for none) and the unfilled capacity (R274). -/
inductive Cut where
  | ok (fModule fTray fTree : List Nat) | fail (axis level cap : Nat)
  deriving DecidableEq, Repr

def firstLeft (rem : List Nat) : Nat :=
  let i := rem.findIdx fun n => decide (1 < n)
  if i < rem.length then i else 0xFFFF

/-- cut_axes (R274, R275). -/
def cutAxes (im : Image) (r w t : Nat) (useHints : Bool) : Cut :=
  let ones := im.machine.map fun _ => 1
  let skip := fun (as : List Nat) => if useHints then as.filter fun a => !(hintedAxes im 1).contains a else as
  let (fm, rem, cap) := cutLevel (skip (moduleOrder im)) ones (machineSizes im) r
  if cap ≠ 1 then .fail (firstLeft rem) 0 cap
  else
    let (fy, rem, cap) := cutLevel (skip (trayOrder im useHints)) ones rem w
    if cap ≠ 1 then .fail (firstLeft rem) 1 cap
    else
      let (ft, rem, cap) := cutLevel (List.range im.machine.length) ones rem t
      if cap ≠ 1 then .fail (firstLeft rem) 2 cap else .ok fm fy ft

/-- The cut with hints, or without them when only that succeeds; then the hints are reported as ignored (R275). -/
def cutWithHints (im : Image) (r w t : Nat) : Cut × Bool :=
  match cutAxes im r w t true with
  | .ok a b c => (.ok a b c, false)
  | .fail x l c =>
    match cutAxes im r w t false with
    | .ok a b c => (.ok a b c, true)
    | .fail _ _ _ => (.fail x l c, false)

/-! ### Binding (R269, R270) -/

/-- Enabled, unfenced tiles in ascending order. -/
def boundTiles (s : State) : List Nat := (List.range 256).filter (tileMapped s)

/-- Shadow tile of tile `t` (R270). -/
def shadowTile (tiles : List Nat) (t : Nat) : Nat :=
  let after := (List.range 255).map fun d => (t + d + 1) % 256
  let found := match after.find? fun u => tiles.contains u && quadOf u != quadOf t with
    | some u => some u
    | none => after.find? fun u => tiles.contains u
  found.getD t

/-- Shadow tiles by tile number. -/
def shadowTable (tiles : List Nat) : List Nat := (List.range 256).map (shadowTile tiles)

/-! ### Digests (R296, R297) -/

/-- Enabled-tile counts of the count mask, ascending. -/
def maskCounts (mask : BitVec 256) : List Nat := ((List.range 256).filter fun i => mask.getLsbD i).map (· + 1)

/-- The phase digest (R296): SHA-256 over the serialisation of the job plan and of every count's module plan, in ascending count, restricted to the
phase. -/
def phaseDigest (s : State) (im : Image) (p : Plan) (phase : Nat) : DWord :=
  digest8 (Config.planSerial (jobNums s im p ++ p.mods.flatMap (ModPlan.nums im s.job.formats phase)))

/-- The plan digest over its parts (R297). -/
def planDigestOf (s : State) (im : Image) (mask : BitVec 256) (phases : List DWord) : DWord :=
  let machine := match s.dev.ring with | some r => r.machineBytes | none => []
  digest8 (leBytes 4 Config.cruiseRom.toNat ++ leBytes 8 im.id.toNat ++ (sha256 machine).take 8 ++ leBytes 32 mask.toNat ++
    phases.flatMap fun d => leBytes 8 d.toNat)

/-! ### Rings (R308 to R317) -/

/-- Module slot and position of a rank. -/
def placeOfRank (im : Image) (p : Plan) (rank : Nat) : Nat × Nat :=
  (((List.range p.n).flatMap fun m => (List.range p.r).map fun pos => (m, pos)).find? fun e => rankAt im p e.1 e.2 == rank).getD (0xFFFF, 0)

/-- Receive slots of a ring (R315): placement sets 2 to 4. DESIGN CHOICE (log 85): 2. -/
def ringSlots : Nat := 2

/-- SRAM addresses of a member's receive slots in a landing tile. -/
def ringPlaces (p : Plan) (tile pos op : Nat) : List Nat :=
  (List.range ringSlots).map fun k => sramAddr tile (Config.ringBase p.digest p.tiles.length pos op k)

/-- The ring of gather `op` as the member at own position `pos` sees it, the `j`-th of the position's rings. The landing tile is the first tile of the
member's rank, and the ring takes eight of its counters. How a member knows the landing places of another module's member is not stated: DESIGN CHOICE
(log 85), they are those that this module's binding gives the position. -/
def formRing (s : State) (im : Image) (p : Plan) (m : ModPlan) (pos op j : Nat) (g : OpRec) : RingRec :=
  let rank := rankOf s im pos
  let size := groupSize im g.machine
  let places := (List.range size).map fun i => placeOfRank im p (groupMember im g.machine rank i)
  let index := groupIndex im g.machine rank
  let trays := (places.map fun e => trayKey s (nth s.job.rankMap e.1 0xFFFF)).eraseDups
  let prev := nth places ((index + size - 1) % size) (0, 0)
  let next := nth places ((index + 1) % size) (0, 0)
  let first := 8 * (j % 31)
  { op, pos, index, members := places.map (·.1), oneTray := decide (trays.length = 1), slots := ringSlots
    bytes := bytesIn im s.job.formats (in0 g), own := ((tensorRanges p m pos (in0 g)).head?.map (·.1)).getD 0
    places := ringPlaces p (leadTile p pos) pos op, tile := leadTile p pos
    arrival := (List.range ringSlots).map (first + ·), release := (List.range ringSlots).map (first + 4 + ·)
    nextTile := leadTile p prev.2, nextPlaces := ringPlaces p (leadTile p prev.2) prev.2 op, upTile := leadTile p next.2 }

/-- The gathers that a module plan runs as rotations (R309). -/
def turnedOps (im : Image) (m : ModPlan) : List (Nat × OpRec) :=
  ((numbered im.ops).flatMap fun (i, o) =>
    if m.ops.any fun x => x.op == i && x.rotates then
      ringsOf im o
    else []).eraseDups

/-- The rings of the own positions (R308 to R317). -/
def formRings (s : State) (im : Image) (p : Plan) (m : ModPlan) : List RingRec :=
  (List.range p.r).flatMap fun pos => (turnedOps im m).zipIdx.map fun (e, j) => formRing s im p m pos e.1 j e.2

/-! ### Planning again (R302) -/

/-- The phases that touch one of the tensors (R302). -/
def touches (im : Image) (ph : PhaseRec) (tids : List Nat) : Bool :=
  (slice im.ops ph.first ph.count).any fun o => (o.ins ++ o.outs).any fun t => tids.contains t

/-- The tiers that a tensor keeps because a phase that is not planned again works on it (R302); 3 where it is formed again. -/
def keptTiers (im : Image) (hit : Nat → Bool) (m : ModPlan) : Table Nat :=
  let kept := (planPhases im).filter fun e => !hit e.1
  (List.range im.tensors.length).foldl (fun pins t =>
    if kept.any fun e => phaseTouches im e.1 t then
      tput pins t (if m.redo.any fun e => e.2.any fun x => x.1 == t then 3 else tget m.homes t 1)
    else pins) []

/-- A module plan made anew, but for the phases that `hit` does not name, which keep theirs (R302). -/
def mergePlan (im : Image) (hit : Nat → Bool) (old new : ModPlan) : ModPlan :=
  let phase := fun (op : Nat) => ((im.ops[op]?).map (·.phase)).getD 0
  let pick := fun {α : Type} (m k : Table α) => (k.filter fun e => !hit e.1) ++ m.filter fun e => hit e.1
  { new with
    ops := (old.ops.zip new.ops).map fun (x, y) => if hit (phase x.op) then y else x
    redo := pick new.redo old.redo, transfers := pick new.transfers old.transfers
    layouts := new.layouts
    holders := new.holders.map fun e => if (planPhases im).any fun ph => !hit ph.1 && phaseTouches im ph.1 e.1 then (e.1, tget old.holders e.1 e.2) else e
    costs := (old.costs.zip new.costs).zipIdx.map fun ((x, y), i) => if hit i then y else x }

/-- The ignored hints of the plan report in ascending index: those of the cut and those of the own module plan (R260, R275). -/
def ignoredBy (cut : List (Nat × Nat)) (m : ModPlan) : List (Nat × Nat) := sortBy (fun a b => decide (a.1 ≤ b.1)) (cut ++ m.ignored)

/-- The plan with the module plans of every count made anew for the phases that touch the changed tensors, and the digests formed again (R144, R302); the
count mask is kept. -/
def replanPhases (s : State) (im : Image) (changed : List Nat) (p : Plan) : Plan :=
  let hit := fun (i : Nat) => match im.phases[i]? with | some ph => touches im ph changed | none => false
  let p := { p with mods := p.mods.map fun m => mergePlan im hit m (modulePlan s im p s.job.formats (keptTiers im hit m) m.n) }
  let ds := (List.range im.phases.length).map fun i => if hit i then phaseDigest s im p i else nth p.phaseDigests i 0
  let p := { p with phaseDigests := ds, digest := planDigestOf s im p.countMask ds }
  match p.mods.find? fun m => m.n == p.tiles.length with
  | some m => { p with rings := formRings s im p m, ignoredHints := ignoredBy (p.ignoredHints.filter fun e => e.2 == 4) m }
  | none => p

/-! ### Journal records read back (Table 14-1) -/

/-- Fields of a journal record. -/
def jStep (r : List Byte) : Nat := field r 8 8
def jDataPos (r : List Byte) : Nat := field r 48 8
def jIterBase (r : List Byte) : Nat := field r 56 8
def jMbNow (r : List Byte) : Nat := field r 68 2
def jKind (r : List Byte) : Nat := field r 4 1

/-- The first test of R633 that a record fails, with the expected and found values (R634); `prior` is the record of step − 1, if present. -/
def journalSkew (s : State) (im : Image) (r : List Byte) (prior : Option (List Byte)) : Option (Nat × Nat × Nat) :=
  let e := im.safe.examples
  let m := fun (n : Nat) => n % 2 ^ 32
  if field r 40 4 ≠ s.job.roundSeed.toNat then some (1, s.job.roundSeed.toNat, field r 40 4)
  else if field r 44 4 ≠ s.job.drawSeed.toNat then some (1, s.job.drawSeed.toNat, field r 44 4)
  else if field r 64 4 ≠ m (jStep r + 1) then some (2, m (jStep r + 1), field r 64 4)
  else if jDataPos r ≠ jIterBase r * e then some (3, m (jIterBase r * e), m (jDataPos r))
  else match prior with
    | some q => if jIterBase r = jIterBase q + jMbNow r then none else some (4, m (jIterBase q + jMbNow r), m (jIterBase r))
    | none => none

/-- ERR_JOURNAL_SKEW (Table 14-8): the restore is refused and the job ends. -/
def raiseSkew (c : Nat × Nat × Nat) (s : State) : State :=
  stopA4 errJournalSkew (raise errJournalSkew uCruise 0 (ownSlot s) none32 (detail [(c.1, 1), (0, 1), (c.2.1, 4), (c.2.2, 4)]) s)

/-- Restored counter state (R634, R659, R888): u, the step, the micro-batch count and the values of the last completed step. -/
def restoreCounters (im : Image) (r : List Byte) (s : State) : State :=
  let e := im.safe.examples
  { s with
    job.iters := if e = 0 then 0 else jDataPos r / e
    job.step := BitVec.ofNat 64 (jStep r + 1)
    job.firstStep := BitVec.ofNat 64 (jStep r + 1)
    job.mb := field r 70 2, job.skip := field r 72 1 == 1, job.skipsRun := field r 74 2
    job.lastUpdate := BitVec.ofNat 64 (jStep r), job.n2 := BitVec.ofNat 64 (field r 88 8), job.bNoise := BitVec.ofNat 64 (field r 104 8) }

/-! ### PLANNING (Table 06-6) -/

/-- A fault of PLANNING: the job ends on every module (Table 14-5). -/
def failPlanning (code obj peer : Nat) (det : List Byte) (s : State) : State := stopA4 code (raise code uCruise 0 obj peer det s)

/-- Digests of the whole device set: this module's and the others'. -/
def withOwn (s : State) (own : DWord) (others : List (Nat × DWord)) : List (Nat × DWord) := (ownSlot s, own) :: others

/-- The device set's digests disagree (R795, R299). -/
def digestFault (code : Nat) (own : DWord) (others : List (Nat × DWord)) (s : State) : Option State :=
  (disagreement (withOwn s own others)).map fun (low, count) =>
    failPlanning code (low.getD 0xFFFF) (ownSlot s) (detail [(own.toNat, 8), (count, 4)]) s

/-- Cruise ROM versions differ (R266). -/
def romFault (roms : List Word) (s : State) : Option State :=
  let all := Config.cruiseRom.toNat :: roms.map (·.toNat)
  let lo := all.foldl min Config.cruiseRom.toNat
  let hi := all.foldl max Config.cruiseRom.toNat
  if lo = hi then none
  else some (failPlanning errPlanRom (ownSlot s) none32 (detail [(lo, 4), (hi, 4), (Config.cruiseRom.toNat, 4)]) s)

/-- The carried record of a host restart fails R633 (R634). -/
def carriedFault (im : Image) (s : State) : Option State :=
  if s.job.restore then (journalSkew s im s.job.record none).map fun c => raiseSkew c s else none

/-- The grid's shape (R273, R274): ranks per module, modules per tray and the factors. -/
def shapePlan (s : State) (im : Image) : Except (Nat × Nat × Nat) (Plan × Bool) :=
  let n := s.job.rankMap.length
  let total := rankCount im
  match trayWidth s s.job.rankMap with
  | some w =>
    if n = 0 ∨ total % n ≠ 0 then .error (0xFFFF, 0, 0)
    else
      let r := total / n
      match cutWithHints im r w (n / w) with
      | (.ok fm fy ft, ignored) => .ok ({ n, r, w, slot := ownSlot s, fModule := fm, fTray := fy, fTree := ft }, ignored)
      | (.fail a l c, _) => .error (a, l, c)
  | none => .error (0xFFFF, if n = 0 ∨ total % n ≠ 0 then 0 else 1, 0)

/-- The ruled tensors in ascending ID (R132), each with its rule. Where two rules name one tensor, or the tensor's own rule field names another, the spec does
not say which applies: DESIGN CHOICE (log 78), the first record that names the tensor. -/
def ruled (im : Image) : List PromoRule := (im.promos.foldl (fun (ks : List Nat) r => sinsert ks r.tensor) []).filterMap fun t =>
  im.promos.find? fun r => r.tensor == t

/-- Bytes of a module's snapshot stream (R636), and with its digest list (R637). -/
def streamOnly (im : Image) (p : Plan) (formats : Table Nat) : Nat :=
  let one := (numbered im.tensors).map fun (i, t) =>
    if t.role ≤ 1 then let f := tget formats i t.fmt; storedSize (dimsOf im i) f (geoTens im i f) else 0
  p.r * sumNat one + 1024 + 28 * (ruled im).length
def streamBytes (im : Image) (p : Plan) (formats : Table Nat) : Nat :=
  let n := streamOnly im p formats
  n + 32 * ((n + 1048575) / 1048576)

/-- The plan's own module plan (R269). -/
def Plan.own (p : Plan) : Option ModPlan := p.mods.find? fun m => m.n == p.tiles.length

/-- What does not fit (R288, R330, R374, R642): the snapshot stream in its keeper slot, the fixed set of any count of the mask, the plan copies in their
area. An image without phases has no programs to copy. -/
def fitFault (im : Image) (p : Plan) (s : State) : Option State :=
  let slot := match s.dev.ring with | some r => r.keeper.slotSize | none => 0
  let need := streamBytes im p s.job.formats
  let copies := match p.own with | some m => sumNat ((planCopies s im p m).map (·.length)) | none => 0
  if slot < need then some (failPlanning errPlanFit 2 none32 (detail [(need, 8), (0, 4)]) s)
  else
    match p.mods.findSome? (·.misfit) with
    | some (tier, need, phase) => some (failPlanning errPlanFit tier none32 (detail [(need, 8), (phase, 4)]) s)
    | none => if 0x80000000 < copies then some (failPlanning errPlanFit 1 none32 (detail [(copies, 8), (0, 4)]) s) else none

/-- Racks of the machine. -/
def machineRacks (s : State) : Nat :=
  match s.dev.ring with | some r => ((r.machine.map fun e => e.pod * 65536 + e.rack).eraseDups).length | none => 0

/-- Groups of a class: one for each setting of the coordinates outside its mask (R584). -/
def classInstances (im : Image) (mask : Nat) : Nat :=
  product (((List.range im.machine.length).filter fun a => !mask.testBit a).map fun a => nth (machineSizes im) a 1)

/-- More groups in flight than R586 permits. An operation of a class runs in all its groups at once, so the class with most groups needs most
(DEDUCED, log 48). In a machine of several racks every group of R584 is the sub-block that its mask and instance name. -/
def groupsFault (im : Image) (s : State) : Option State :=
  let sizes := (masksOf im).map (classInstances im)
  let need := sizes.foldl max 0
  if machineRacks s = 1 ∧ 256 < need then
    some (failPlanning errFlumeGroups (sizes.findIdx (· == need) + 1) (ownSlot s) (detail [(need, 4), (need, 4), (machineRacks s, 4)]) s)
  else none

/-- The count mask (R267). -/
def countMaskOf (counts : List Nat) : BitVec 256 := BitVec.ofNat 256 (maskOf ((counts.filter fun n => decide (0 < n)).map (· - 1)))

/-- The eight words that a module contributes to the 32-bit OR of R267. -/
def countWords (mask : BitVec 256) : List DWord := (List.range 8).map fun i => BitVec.ofNat 64 (mask.toNat / 2 ^ (32 * i) % 2 ^ 32)

/-- The module plans of every count in the mask (R268), with this module's binding (R269, R270, R277), digests, rings and ignored hints. -/
def bindPlan (s : State) (im : Image) (mask : BitVec 256) (ignored : Bool) (p : Plan) : Plan :=
  let tiles := boundTiles s
  let p := { p with
    countMask := mask, tiles, tilesPerRank := tiles.length / p.r, helpers := tiles.length - p.r * (tiles.length / p.r), shadow := shadowTable tiles
    mods := (maskCounts mask).map (modulePlan s im p s.job.formats []) }
  let ds := (List.range im.phases.length).map (phaseDigest s im p)
  let cut := if ignored then ((numbered im.hints).filter fun (_, h) => h.kind == 4).map fun (i, _) => (i, 4) else []
  let p := { p with phaseDigests := ds, digest := planDigestOf s im mask ds }
  match p.own with
  | some m => { p with rings := formRings s im p m, ignoredHints := ignoredBy cut m }
  | none => { p with ignoredHints := cut }

/-- The module's side of step 4 of Table 06-6, for a plan with its own module plan. -/
def installOwn (im : Image) (p : Plan) (first : Nat) (s : State) : State :=
  match p.own with
  | some m => installPlan im p m first s
  | none => { s with job.plan := some p }

/-- RUNNING begins (R301, R563, R585): the tiles' slots start, the kinds of the counters are the plan's, Flume sequence numbers start at 0. -/
def beginRunning (s : State) : State := enter .running (startStep { s with flume.seqs := [] })

/-- Initial state of the job's step program (R247, R253, R659). -/
def beginJob (im : Image) (s : State) : State :=
  let s := { s with job.mb := im.safe.mbInit, job.step := s.job.firstStep, job.lastUpdate := s.job.firstStep - 1, job.inInit := im.initPhase.isSome && !s.job.restore }
  if s.job.restore then restoreCounters im s.job.record s else s

/-- The shards that this module digests: replicated parameters by rank position and tensor ID (R160, R161, Table 14-1). -/
def shardKeys (s : State) (im : Image) : List Nat :=
  (List.range (positions s)).flatMap fun pos => (numbered im.tensors).filterMap fun (i, t) =>
    if t.role = 0 ∧ t.replicated ≠ 0 then some (tensKey pos i 0) else none

/-- Digest over the shard digests, and their number (Table 14-1). -/
def formShards (im : Image) (s : State) : State :=
  let ks := shardKeys s im
  let bs := ks.flatMap fun k => leBytes 8 (shardDigest s im k).toNat
  { s with job.shardDigest := digest8 bs, job.shardCount := ks.length }

/-- Planning goes on, unless a round's timeout has stopped the job (R599). -/
def unlessFaulted (s : State) : Option State × State := (if s.dev.st = .faulted then some s else none, s)

/-- Step 5 of Table 06-6: the plan digests are compared, at a time that the plan report gives. -/
def comparePlans (plans : List (Nat × DWord)) (s : State) : Option State × State :=
  let p := s.job.plan.getD {}
  let s := { s with job.plan := s.job.plan.map fun p => { p with planningNs := s.time - s.job.planFrom } }
  let s := sendRounds (ownSlot s) p.digest plans s
  match digestFault errPlanDisagree p.digest plans s with
  | some s' => (some s', s)
  | none => unlessFaulted s

/-- Steps 4 and 5 of Table 06-6 with the bound plan `p`: where it fits every count (R288), it is installed and its digest compared. -/
def installFitting (x : PlanIn) (im : Image) (first : Nat) (p : Plan) (s : State) : Option State × State :=
  (fitFault im p s).elim (comparePlans x.plans (installOwn im p first s)) fun s' => (some s', s)

/-- Steps 2 to 5 of Table 06-6, with the first fault: the job plan, the module plans, whose groups and bytes must fit (R273, R288, R586), the copies
and programs in place, and then the comparison of the plan digests (R298, R301). -/
def planNow (x : PlanIn) (im : Image) (first : Nat) (s : State) : Option State × State :=
  match shapePlan s im with
  | .error (axis, level, cap) =>
    (some (failPlanning errPlanShape axis none32 (detail [(level, 4), (cap, 4), (s.job.rankMap.length, 4)]) s), s)
  | .ok (p, ignored) =>
    match groupsFault im s with
    | some s' => (some s', s)
    | none =>
      installFitting x im first { bindPlan s im (countMaskOf (usableTiles s :: x.counts.map (·.2))) ignored p with counts := x.counts } s

/-- Step 1 of Table 06-6 over Flume: START_JOB digests, Cruise ROM versions, the count mask (R266, R267, R795), with the first fault. -/
def planRounds (x : PlanIn) (s : State) : Option State × State :=
  let d := digest8 s.job.body
  let s := sendRounds (ownSlot s) d x.starts s
  match digestFault errStartDisagree d x.starts s with
  | some s' => (some s', s)
  | none =>
    let v := Config.cruiseRom.setWidth 64
    let s := deviceFlume 1 1 [v, (~~~ Config.cruiseRom).setWidth 64] s
    match romFault x.roms s with
    | some s' => (some s', s)
    | none => unlessFaulted (deviceFlume 4 1 (countWords (countMaskOf [usableTiles s])) s)

/-- Steps 1 to 6 of Table 06-6: no module enters RUNNING until the digests agree (R300); then the first step is released, or a job restored forms its
shards. -/
def planAll (x : PlanIn) (im : Image) (s : State) : State :=
  match planRounds x s with
  | (some s', _) => s'
  | (none, s) =>
    match carriedFault im s with
    | some s' => s'
    | none =>
      match planNow x im (firstPhase (im.initPhase.isSome && !s.job.restore) im) s with
      | (some s', _) => s'
      | (none, s) =>
        let s := beginRunning (beginJob im s)
        if s.job.restore then formShards im s else s

/-- PLAN_COMPUTE (R264 to R302): PLANNING in the order of Table 06-6. -/
def execPlanCompute (p : PlanIn) (s : State) : Host.Outcome State Fault Refusal :=
  .next (
    match s.job.image with
    | some im => if s.dev.st = .planning then planAll p im s else s
    | none => s)

end Sys2Proof.Machine
end

