-- ==== Sys2Proof/Machine/Heartwood.lean ====
section
/-! DEFINITION. Traffic between a module and its keeper (R630, R637, R640, R656): the journal mirror, the chunks and headers of a snapshot, and the
pulls of a restore. Every copy carries tag 0xFFFF. Which engines make them, and the arrival counters, are the model's: DESIGN CHOICE (log 87), chunk i
goes by the i-th of the module's bound tiles in turn, and signals counter 254 of the keeper's tile 0. -/
namespace Sys2Proof.Machine

/-- Bytes of the journal mirror (Table 14-3). -/
abbrev mirrorOffset : Nat := 0x10000
abbrev slotsOffset : Nat := 0x04010000
abbrev mirrorRecords : Nat := 65536

/-- Address on the keeper of this module's area (R640). -/
def areaBase (s : State) : Nat := Config.keeperArea (keeperNow s) (ownEndpoint s)
/-- Addresses on the keeper of the header and of the stream of slot A (0) or B (1) (Table 14-3, log 60). -/
def ownHeaderAddr (s : State) (b : Nat) : Nat := areaBase s + 0x8000 * b
def ownStreamAddr (s : State) (b : Nat) : Nat := areaBase s + slotsOffset + (ringKeeper s).slotSize * b

/-- The tile whose engine makes the i-th heartwood copy. -/
def heartTile (s : State) (i : Nat) : Nat := let ts := boundTiles s; nth ts (i % ts.length) 0

/-- A copy of bytes to the keeper, with its digest where one is asked for (R545, R547). -/
def keeperCopy (s : State) (i addr : Nat) (bs : List Byte) (digestAddr : Option Nat) : CopyJob :=
  { tile := heartTile s i, sent := 0, waitOn := none, data := some bs
    req := { src := 0, dst := .endpoint (keeperNow s), dstAddr := addr, length := bs.length, counter := tileCtr 0 254, progress := false
             digest := digestAddr.isSome, digestAddr := digestAddr.getD 0, tray := false, keeper := true } }

/-- Heartwood copies start, on a module whose ring gives it a keeper. -/
def sendToKeeper (js : List CopyJob) (s : State) : State :=
  if keeperNow s = 0xFFFF then s else pumpCopies { s with remote.copies := s.remote.copies ++ js }

/-- A request or a copy of this module to an address range of its keeper is under way. -/
def keeperBusy (s : State) (lo hi : Nat) : Bool :=
  let within := fun (a : Nat) => decide (lo ≤ a) && decide (a < hi)
  (s.remote.copies.any fun j => j.data.isSome && within j.req.dstAddr) ||
    s.remote.pend.any fun e => e.pkt.job == 0xFFFF && e.key.dst == keeperNow s && within e.pkt.addr.toNat

/-- The mirror of a record is under way (R630); chunks of the module's snapshot are (R638). -/
def mirrorPending (s : State) : Bool := keeperBusy s (areaBase s + mirrorOffset) (areaBase s + slotsOffset)
def chunksPending (s : State) : Bool := keeperBusy s (areaBase s + slotsOffset) (areaBase s + slotsOffset + 2 * (ringKeeper s).slotSize)

/-- A record goes to the next place of the keeper's journal mirror (R630). -/
def mirrorRecord (r : List Byte) (s : State) : State :=
  let place := s.recov.mirrored % mirrorRecords
  sendToKeeper [keeperCopy s 0 (areaBase s + mirrorOffset + 1024 * place) r none] { s with recov.mirrored := s.recov.mirrored + 1 }

/-- A slot's header (Table 14-3): state, step, stream bytes, chunk count and image ID, 8 bytes each (log 60). -/
def slotHeader (k : KeepSlot) : List Byte :=
  leBytes 8 k.st ++ leBytes 8 k.step.toNat ++ leBytes 8 k.bytes.length ++ leBytes 8 k.digests.length ++ leBytes 8 k.imageId.toNat

/-- The header of slot A (0) or B (1) is written on the keeper. -/
def sendHeader (b : Nat) (k : KeepSlot) (s : State) : State := sendToKeeper [keeperCopy s 0 (ownHeaderAddr s b) (slotHeader k) none] s

/-- The chunks of a snapshot go to slot A (0) or B (1), each with its SHA-256 for the slot's digest list, which follows the stream (R637, R640). -/
def sendChunks (b : Nat) (k : KeepSlot) (s : State) : State :=
  let base := ownStreamAddr s b
  sendToKeeper ((chunksOf 1048576 k.bytes.length k.bytes).zipIdx.map fun e =>
    keeperCopy s e.2 (base + 1048576 * e.2) e.1 (some (base + k.bytes.length + 32 * e.2))) s

/-- The snapshot that is being saved goes to the keeper; a step restart, which drops the copies under way (R578), sends it again. -/
def sendSnapshot (s : State) : State :=
  let go := fun (b : Nat) (k : KeepSlot) (s : State) => if k.st = 1 ∧ s.recov.saving = some k.step.toNat then sendChunks b k (sendHeader b k s) else s
  go 1 s.recov.ownB (go 0 s.recov.ownA s)

/-! ### Restores (R656) -/

/-- Length of the module's snapshot stream in formats (R636). -/
def streamLength (s : State) (formats : Table Nat) : Nat :=
  match s.job.image, s.job.plan with
  | some im, some p => streamOnly im p formats
  | none, _ => 0
  | some _, none => 0

/-- Heartwood staging holds 1,024 chunks (Table 08-7). -/
abbrev stagingBase : Nat := reserveBase + 0x80000000

/-- COPY_PULL of chunk `i` of a slot into heartwood staging (R546, R656). -/
def chunkPull (s : State) (b : Nat) (k : KeepSlot) (i : Nat) : Packet :=
  let n := min 1048576 (streamLength s k.formats - 1048576 * i)
  let body := leBytes 6 (stagingBase + 1048576 * (i % 1024)) ++ leBytes 8 n ++ leBytes 1 254 ++ leBytes 1 0 ++ List.replicate 16 0
  { reqPacket (keeperNow s) 6 (ownStreamAddr s b + 1048576 * i) 0 body false with job := 0xFFFF }

/-- Asks the keeper for the chunks not yet asked for, while the tiles have room (R526); `fuel` is the number of chunks. -/
def pumpPulls (b : Nat) (k : KeepSlot) : Nat → State → State
  | 0, s => s
  | n + 1, s =>
    match s.recov.toPull with
    | [] => s
    | i :: rest =>
      let t := heartTile s i
      if h : t < 256 then
        if hasRoom s t (keeperNow s) then
          pumpPulls b k n (issue ⟨t, h⟩ none (chunkPull s b k i) 0 none false { s with recov.toPull := rest })
        else s
      else s

/-- Slot A (0) or B (1) of the keeper that holds snapshot `n`, committed, with what this module knows of it. -/
def slotHolding (s : State) (n : Nat) : Option (Nat × KeepSlot) :=
  [(0, s.recov.ownA), (1, s.recov.ownB)].find? fun e => decide (2 ≤ e.2.st) && e.2.step.toNat == n

/-- The pulls of the restore in hand go on. -/
def goOnPulling (s : State) : State :=
  match s.recov.rollbackTo.bind (slotHolding s) with
  | some (b, k) => if keeperNow s = 0xFFFF then s else pumpPulls b k s.recov.toPull.length s
  | none => s

end Sys2Proof.Machine
end

