-- ==== Sys2Proof/Machine/Steps.lean ====
section
/-! DEFINITION. The step program of a job (R243 to R252), the gradient-norm guard, the step boundary in the order of Table 04-6a, the journal, the
snapshot trigger and the drain. -/
namespace Sys2Proof.Machine

/-! ### The start of a step -/

/-- A tensor whose contents do not outlive a step: gradient, activation or scratch without the carry flag (Table 05-2). -/
def isTransient (im : Image) (tid : Nat) : Bool :=
  let t := tensorOf im tid
  (t.role == 2 || t.role == 3 || t.role == 6) && t.flags % 2 == 0

/-- Tensors that some op of the image writes (R802). -/
def writtenTensors (im : Image) : List Nat := im.ops.foldl (fun ts o => o.outs.foldl sinsert ts) []

/-- The copy at key `k` holds +0 when the step begins (R189, R192). -/
def cleared (s : State) (im : Image) (k : Nat) : Bool :=
  isTransient im (keyTid k) || ((tensorOf im (keyTid k)).role == 5 && keyInst k == instOf s im (keyTid k))

/-- What a copy is when the step begins: contents dropped where R189 and R192 say so, no write counted. -/
def freshCopy (s : State) (im : Image) (k : Nat) (t : Tens) : Tens :=
  if cleared s im k then { generation := t.generation, marked := t.marked, busy := t.busy } else { t with writes := 0 }

/-- The copies that this step may write, at every position: NOT_READY until its journal record (R802). -/
def busyKeys (s : State) (im : Image) : List Nat :=
  (List.range (positions s)).flatMap fun pos => (writtenTensors im).map fun t => keyOf s im pos t

/-- Step 10 of Table 04-6a: the step in hand starts with its first item, from which on its replacements of programs count (R70): DESIGN CHOICE (log 89),
one at the boundary before counts for the step that ended. -/
def beginStep (im : Image) (s : State) : State :=
  if s.job.stepOpen then s
  else
    let fresh := (tmap s.job.tensors (freshCopy s im)).filter fun e => e.2 != {}
    let s := { s with job.tensors := fresh, job.stepOpen := true, job.replacements := 0 }
    (busyKeys s im).foldl (fun s k => setTens k { tens s k with busy := true } s) s

/-! ### The gradient-norm guard (R164, R165) -/

/-- Element 0 of a tensor at a position, exactly. -/
def element0 (s : State) (im : Image) (pos tid : Nat) : Num :=
  let (f, g, t) := seen s im pos tid
  elemOf f g t 0

/-- A list of rank contributions with this one put in its place. -/
def insertRank (x : Nat × DWord) : List (Nat × DWord) → List (Nat × DWord)
  | [] => [x]
  | y :: ys => if x.1 ≤ y.1 then x :: y :: ys else y :: insertRank x ys
def byRank (xs : List (Nat × DWord)) : List (Nat × DWord) := xs.foldr insertRank []

/-- The FP64 Flume sum of every rank's contribution, in ascending rank (R164, R594). -/
def rankSum (xs : List (Nat × DWord)) : DWord := (canonicalTree dadd ((byRank xs).map (·.2))).getD 0

/-- Own contributions: the norm-source tensor of each position (R164, R254). -/
def ownNorms (s : State) (im : Image) : List (Nat × DWord) :=
  (List.range (positions s)).map fun pos => (rankOf s im pos, enc64 (element0 s im pos im.safe.normSource))

/-- N2 of the step in hand (R164, R254); an image without a valid norm-source tensor has none: DESIGN CHOICE (log 29),
a free value of the configuration. -/
def formN2 (s : State) (im : Image) (others : List (Nat × DWord)) : DWord :=
  if normSourceOk im im.safe.normSource then rankSum (ownNorms s im ++ others) else Config.absentNorm s.job.step

/-- R165: skipped when N2 is NaN or +∞, or above L·L. -/
def guardSkips (limit : Word) (n2 : DWord) : Bool :=
  let l := dec32 limit
  match dec64 n2 with
  | .nan => true
  | .inf n => !n
  | .fin n m => Num.lt true (Num.mul l l) (.fin n m)

/-- Each rank's contribution to an FP64 sum over the device set, sent as the nodes that the module's ranks fold to (R164, R169, R594). -/
def sendRanks (im : Image) (own : List (Nat × DWord)) (s : State) : State :=
  deviceNodes 0 5 1 (foldNodes 0 5 (rankCount im) 1 (own.map fun e => ⟨0, 0, e.1, e.2⟩)) s

/-- The guard runs once in a step, before its update phase. -/
def runGuard (im : Image) (others : List (Nat × DWord)) (s : State) : State :=
  match s.job.n2Now with
  | some _ => s
  | none =>
    let n := formN2 s im others
    let s := sendRanks im (ownNorms s im) s
    { s with job.n2Now := some n, job.skipNow := guardSkips im.safe.limit n }

/-! ### Step items (R243 to R252) -/

/-- The step in hand may begin or go on: the mirror of the last record has landed before a step begins (R630). -/
def stepMayGo (s : State) : Bool := s.job.stepOpen || !mirrorPending s

/-- The item in hand has code `code`; no phase runs. -/
def atItem (s : State) (code : Nat) : Option (Image × Nat) :=
  match s.job.image with
  | none => none
  | some im =>
    match im.items[s.job.item]? with
    | none => none
    | some (c, arg) =>
      if jobRunning s ∧ stepMayGo s ∧ s.job.phase = none ∧ !s.job.inInit ∧ c = code then some (im, arg) else none

def nextItem (s : State) : State := { s with job.item := s.job.item + 1 }

/-- A phase begins once its boundary has started its programs and transfers (R294): what it forms again is formed (R286), every position stands at its
first op. A phase without ops ends at once. -/
def openPhase (im : Image) (phase : Nat) (s : State) : State :=
  let ph := (im.phases[phase]?).getD ⟨0, 0, 0⟩
  if s.job.opened ≠ some phase then s
  else endPhase im { recompute im phase s with job.phase := some phase, job.opNext := List.replicate (positions s) ph.first }

/-- RUN of a phase item (R244, R248), whose boundary has started it (R294): a skipped step passes over an update phase; one that runs waits for the
snapshot stream to be read (R638). -/
def runPhase (im : Image) (phase : Nat) (n2 : List (Nat × DWord)) (s : State) : State :=
  if ((im.phases[phase]?).getD ⟨0, 0, 0⟩).kind = 2 then
    if s.recov.triggerDue.isSome then s
    else
      let s := runGuard im n2 s
      if s.job.skipNow then nextItem { s with job.opened := none }
      else if s.job.opened ≠ some phase then s
      else openPhase im phase { s with job.updateBegun := true, job.lastUpdate := s.job.step }
  else openPhase im phase s

/-- RUN (R243, R244, R247, R248): the init phase once, else the phase of the item in hand. -/
def execRun (phase : Nat) (n2 : List (Nat × DWord)) (s : State) : Host.Outcome State Fault Refusal :=
  .next (
    match s.job.image with
    | none => s
    | some im =>
      if s.job.inInit then
        if jobRunning s ∧ s.job.phase = none ∧ im.initPhase = some phase then openPhase im phase s else s
      else
        match atItem s 1 with
        | some (im, arg) => if arg = phase then runPhase im phase n2 (beginStep im s) else s
        | none => s)

/-- LOOP (R246): iteration 0 begins. -/
def execLoop (s : State) : Host.Outcome State Fault Refusal :=
  .next (
    match atItem s 2 with
    | some (im, _) => nextItem (beginStep im s)
    | none => s)

/-- First item after item `code` that follows index `i`. -/
def afterCode (items : List (Nat × Nat)) (code i : Nat) : Nat := i + (items.drop i).findIdx (fun x => x.1 == code) + 1

/-- The op that forms tensor `tid` with the loop-sum flag. -/
def loopOp (im : Image) (tid : Nat) : Option OpRec := im.ops.find? fun o => o.flags / 2 % 2 == 1 && o.outs.contains tid

/-- The canonical sum over the iterations of a loop-sum op's results goes to its tensor (R206). -/
def flushLoop (im : Image) (s : State) : State :=
  let sums := s.job.loopSums
  sums.foldl (fun s e =>
    let n := (e.2.headD []).length
    let vs := (List.range n).map fun i => Val.num (dec32 (canonicalSum (e.2.map fun it => nth it i 0)))
    let sr := match loopOp im (keyTid e.1) with | some o => o.flags % 2 == 1 | none => false
    convertInto im (keyPos e.1) (keyTid e.1) sr vs s) { s with job.loopSums := [] }

/-- END_LOOP (R246, R206): the next iteration, or after the last the loop sums and the next item. -/
def execEndLoop (s : State) : Host.Outcome State Fault Refusal :=
  .next (
    match atItem s 3 with
    | some (im, _) =>
      if s.job.loopIter + 1 < s.job.mb then
        { s with job.item := afterCode im.items 2 0, job.loopIter := s.job.loopIter + 1, job.iters := s.job.iters + 1 }
      else nextItem (flushLoop im s)
    | none => s)

/-- Exact value of a condition's source (Table 05-12a). -/
def condSource (s : State) (im : Image) (c : CondRec) : Num :=
  let ofNat := fun (n : Nat) => Num.ofRat false (n : Rat)
  let t := tallyOf s.job.reduced c.id
  match c.source with
  | 0 => element0 s im 0 c.id
  | 1 => dec64 s.job.n2
  | 2 => dec64 s.job.bNoise
  | 3 => ofNat s.job.step.toNat
  | 4 => ofNat t.converted
  | 5 => ofNat t.saturated
  | 6 => ofNat t.underflowed
  | 7 => dec32 (BitVec.ofNat 32 t.maxAbs)
  | 8 => ofNat s.job.mb
  | _ => ofNat (if s.job.skip then 1 else 0)

/-- Exact value of a condition's constant (R251). -/
def condConstant (c : CondRec) : Num :=
  let w : DWord := BitVec.ofNat 64 c.constant
  if c.type = 0 then Num.ofRat false (w.toNat : Rat) else if c.type = 1 then Num.ofRat false (w.toInt : Rat) else dec64 w

/-- R251: lt, le, eq, ne, ge, gt on exact values; a NaN satisfies only ne. -/
def condHolds (s : State) (im : Image) (c : CondRec) : Bool :=
  let a := condSource s im c
  let b := condConstant c
  match c.compare with
  | 0 => flt a b
  | 1 => flt a b || feq a b
  | 2 => feq a b
  | 3 => !feq a b
  | 4 => flt b a || feq a b
  | _ => flt b a

/-- Condition `i` of the image holds. -/
def condTrue (s : State) (im : Image) (i : Nat) : Bool :=
  match im.conds[i]? with | some c => condHolds s im c | none => false

/-- The item after the ELSE (when `orElse`) or END_IF that matches the IF or ELSE just before the list; `d` counts the IFs open inside. -/
def skipBranch (orElse : Bool) : List (Nat × Nat) → Nat → Nat → Nat
  | [], i, _ => i
  | (c, _) :: is, i, d =>
    if c = 4 then skipBranch orElse is (i + 1) (d + 1)
    else if c = 6 then (if d = 0 then i + 1 else skipBranch orElse is (i + 1) (d - 1))
    else if c = 5 ∧ d = 0 ∧ orElse then i + 1
    else skipBranch orElse is (i + 1) d

/-- IF (R250 to R252): every module takes the same branch (R22). -/
def execIfItem (cond : Nat) (s : State) : Host.Outcome State Fault Refusal :=
  .next (
    match atItem s 4 with
    | some (im, arg) =>
      if arg = cond then
        let s := beginStep im s
        if condTrue s im arg then nextItem s
        else { s with job.item := skipBranch true (im.items.drop (s.job.item + 1)) (s.job.item + 1) 0 }
      else s
    | none => s)

/-- ELSE, reached at the end of the taken branch (R244). -/
def execElseItem (s : State) : Host.Outcome State Fault Refusal :=
  .next (
    match atItem s 5 with
    | some (im, _) => { s with job.item := skipBranch false (im.items.drop (s.job.item + 1)) (s.job.item + 1) 0 }
    | none => s)

/-- END_IF (R244). -/
def execEndIf (s : State) : Host.Outcome State Fault Refusal :=
  .next (
    match atItem s 6 with
    | some _ => nextItem s
    | none => s)

/-! ### Steps 3 to 7 of Table 04-6a -/

/-- A decision entry (Table 14-2). -/
structure Decision where
  kind : Nat
  cause : Nat
  old : Nat
  new : Nat
  target : Nat
  value : Nat
  deriving DecidableEq, Repr

/-- FP64 quotient, rounded to nearest-even. -/
def ddiv (a b : DWord) : DWord := enc64 (Num.mul (dec64 a) (Num.rcp (dec64 b)))

def canonicalNaN64 : DWord := 0x7FF8000000000000
def ofNat64 (n : Nat) : DWord := enc64 (Num.ofRat false (n : Rat))

/-- B_noise (R170). -/
def noiseScale (n b : Nat) (a c : DWord) : DWord :=
  if n = 1 ∨ feq (dec64 c) (dec64 a) ∨ flt (dec64 c) (dec64 a) then canonicalNaN64
  else
    let t2 := dsub (dmul (ofNat64 n) a) c
    ddiv (dmul (ofNat64 b) t2) (dsub c a)

/-- Own pre-reduction sums of squares by rank (R169). -/
def ownNoise (s : State) (im : Image) : List (Nat × DWord) :=
  (List.range (positions s)).map fun pos => (rankOf s im pos, tget s.job.noise pos 0)

/-- A (R169): the FP64 sum of every rank's pre-reduction sum of squares. -/
def formA (s : State) (im : Image) (others : List (Nat × DWord)) : DWord :=
  if s.job.noise.isEmpty then Config.absentNoise s.job.step else rankSum (ownNoise s im ++ others)

/-- Length of the data axis, 1 without one. -/
def dataSize (im : Image) : Nat := match dataAxis im with | some a => (nth im.machine a (1, 4)).1 | none => 1

/-- The module's tallies as it sends them (R131, R132): three counts per tensor in ascending ID, eight 64-bit words to an add, and the max_abs patterns,
sixteen to a 32-bit unsigned max. -/
def sendTallies (im : Image) (s : State) : State :=
  let ts := (ruled im).map fun r => tallyOf s.job.tallies r.tensor
  deviceFlumes 16 2 1 (ts.map fun t => BitVec.ofNat 64 t.maxAbs)
    (deviceFlumes 8 0 3 (ts.flatMap fun t => [BitVec.ofNat 64 t.converted, BitVec.ofNat 64 t.saturated, BitVec.ofNat 64 t.underflowed]) s)

/-- Step 3: the reduced tallies of the ruled tensors (R131). -/
def reduceTallies (im : Image) (others : List Tally) (s : State) : State :=
  let red := (ruled im).zipIdx.foldl (fun (m : Table Tally) (r, i) =>
    tset m r.tensor (Tally.add (tallyOf s.job.tallies r.tensor) (nth others i noTally)) noTally) []
  { sendTallies im s with job.reduced := red }

/-- The values of the last completed step become those of step s: N2, B_noise and the skip outcome (R164 to R170, R888). -/
def closeNorm (im : Image) (n2 a : List (Nat × DWord)) (s : State) : State :=
  let s := runGuard im n2 s
  let c := s.job.n2Now.getD 0
  let b := noiseScale (dataSize im) (s.job.mb * im.safe.examples) (formA s im a) c
  let s := if s.job.noise.isEmpty then s else sendRanks im (ownNoise s im) s
  { s with job.n2 := c, job.bNoise := b, job.skip := s.job.skipNow, job.skipsRun := if s.job.skipNow then s.job.skipsRun + 1 else 0 }

/-- promote_test (R137): 1 saturated, 2 underflowed, none. -/
def promoteTest (t : Tally) (r : PromoRule) : Option Nat :=
  if t.converted = 0 ∨ t.converted < r.minConv then none
  else if r.sat * t.converted < t.saturated * 2 ^ 24 then some 1
  else if r.uf * t.converted < t.underflowed * 2 ^ 24 then some 2
  else none

/-- The next rung of Table 04-2 (R135), element types by the rule. -/
def nextRung (f : Nat) (r : PromoRule) : Nat :=
  match rung f with
  | some 0 => 0xA | some 1 => 9 | some 2 => 8 | some 3 => r.mx6 | some 4 => r.mx8 | some 5 => 1 | some _ => f | none => f

def setFormat (im : Image) (tid f : Nat) (s : State) : State := { s with job.formats := tset s.job.formats tid f (tensorOf im tid).fmt }

/-- The own rank of a fault record (Table 04-6): DESIGN CHOICE (log 93), that of the module's first position. -/
def ownRank (s : State) (im : Image) : Nat := rankOf s im 0

/-- One promotion test and its decision (R137 to R141). -/
def promoteOne (im : Image) (r : PromoRule) (x : List Decision × State) : List Decision × State :=
  let (ds, s) := x
  let t := tallyOf s.job.reduced r.tensor
  match promoteTest t r with
  | none => (ds, s)
  | some cause =>
    let f := fmtNow s im r.tensor
    let count := if cause = 1 then t.saturated else t.underflowed
    if rung f = rung r.ceiling then
      (ds ++ [⟨2, cause, f, f, r.tensor, count⟩],
       raise errPromoteCeiling uCruise 0 r.tensor (ownRank s im)
         (detail [(s.job.step.toNat % 2 ^ 32, 4), (count * 2 ^ 24 / t.converted, 4), (cause, 1)]) s)
    else
      let g := nextRung f r
      (ds ++ [⟨1, cause, f, g, r.tensor, count⟩], setFormat im r.tensor g s)

/-- Step 4: the promotion tests in ascending tensor ID. -/
def promoteAll (im : Image) (s : State) : List Decision × State := (ruled im).foldl (fun x r => promoteOne im r x) ([], s)

def lowerRung (a b : Nat) : Bool :=
  match rung a, rung b with
  | some i, some j => decide (i < j)
  | none, _ => false
  | some _, none => false

/-- One demotion rule that fires (R142, R143, R258). -/
def demoteOne (im : Image) (promoted : List Nat) (r : ProgRule) (x : List Decision × State) : List Decision × State :=
  let (ds, s) := x
  let f := fmtNow s im r.tensor
  if !promoted.contains r.tensor && lowerRung r.value f then (ds ++ [⟨3, 0, f, r.value, r.tensor, 0⟩], setFormat im r.tensor r.value s)
  else (ds ++ [⟨4, 0, f, r.value, r.tensor, 0⟩], s)

/-- Step 5: the program rules (R171, R257): the decisions, the state with its formats and the next micro-batch count. -/
def programRules (im : Image) (promoted : List Nat) (s : State) : List Decision × State × Nat :=
  let fired := (numbered im.progs).filter fun (_, r) => condTrue s im r.cond
  let winner := ((fired.filter fun (_, r) => r.action == 1).getLast?)
  let step := fun (x : List Decision × State) (e : Nat × ProgRule) =>
    if e.2.action = 2 then demoteOne im promoted e.2 x
    else if winner.map (·.1) = some e.1 then (x.1 ++ [⟨5, 0, 0xFF, 0xFF, e.1, e.2.value⟩], x.2) else x
  let (ds, s') := fired.foldl step ([], s)
  (ds, s', match winner with | some (_, r) => r.value | none => s.job.mb)

/-- Step 6: copies that outlive the boundary are re-converted (R140). -/
def reconvertAll (im : Image) (old : Table Nat) (s : State) : State :=
  let one := fun (k : Nat) (t : Tens) =>
    let tid := keyTid k
    let was := tget old tid (tensorOf im tid).fmt
    if was = fmtNow s im tid ∨ t.codes.isEmpty ∨ isTransient im tid then t else reconvert im tid (fmtNow s im tid) t.fmt t
  { s with job.tensors := tmap s.job.tensors one }

/-- Tensors whose format the boundary changed. -/
def changedFormats (im : Image) (old : Table Nat) (s : State) : List Nat :=
  ((numbered im.tensors).filter fun (i, t) => tget old i t.fmt != fmtNow s im i).map (·.1)

/-! ### Step 8: the journal record -/

/-- The string at an offset of the STRINGS section, up to its NUL. -/
def stringAt (im : Image) (off : Nat) : List Byte := (im.strings.drop off).takeWhile (· != 0)
def lossName : List Byte := [0x6C, 0x6F, 0x73, 0x73]

/-- FP32 element 0 of the scalar tensor named "loss", or the canonical NaN (Table 14-1). -/
def lossWord (s : State) (im : Image) : Word :=
  match (numbered im.tensors).find? fun (_, t) => t.axes.isEmpty && stringAt im t.name == lossName with
  | some (i, _) => enc32 .rne (element0 s im 0 i)
  | none => nan32

/-- Data-axis coordinates held: the lowest and their number. -/
def dataRanks (s : State) (im : Image) : Nat × Nat :=
  match dataAxis im with
  | none => (0, 1)
  | some a =>
    let cs := ((List.range (positions s)).map fun pos => nth (unravel (machineSizes im) (rankOf s im pos)) a 0).foldl sinsert []
    (cs.headD 0, cs.length)

/-- The input bytes read in the step (Table 14-1). -/
def inputDigest (s : State) (im : Image) : DWord := digest8 (s.job.readIn.flatMap (storedForm s im))

/-- A decision entry's 16 bytes (Table 14-2). -/
def decisionBytes (d : Decision) : List Byte :=
  leBytes 1 d.kind ++ leBytes 1 d.cause ++ leBytes 1 d.old ++ leBytes 1 d.new ++ leBytes 4 d.target ++ leBytes 8 d.value

/-- Micro-batch iterations begun before the step in hand. -/
def iterStart (s : State) : Nat := s.job.iters - s.job.loopIter
/-- Micro-batch iterations of the step in hand: m, or one where the step program has no loop (R191, R246; log 97). -/
def stepIters (s : State) (im : Image) : Nat := if im.items.any fun i => i.1 == 2 then s.job.mb else 1
/-- Micro-batch iterations begun before the next step (R172, R191, R633). -/
def iterBase (s : State) (im : Image) : Nat := iterStart s + stepIters s im

/-- One journal record (Table 14-1) of a kind with its decisions. -/
def journalRecord (s : State) (im : Image) (kind mbNext : Nat) (ds : List Decision) : List Byte :=
  let (first, count) := dataRanks s im
  let snap := match s.recov.snapshot with | some n => n | none => 2 ^ 64 - 1
  let decisions := ((ds.flatMap decisionBytes) ++ List.replicate 832 0).take 832
  let body := [0x4A, 0x52, 0x4E, 0x4C] ++ leBytes 1 kind ++ leBytes 1 1 ++ leBytes 2 (ownSlot s) ++ leBytes 8 s.job.step.toNat ++
    leBytes 8 s.mtc.value.toNat ++ leBytes 8 im.id.toNat ++ leBytes 8 (planDigest s).toNat ++ leBytes 4 s.job.roundSeed.toNat ++
    leBytes 4 s.job.drawSeed.toNat ++ leBytes 8 (iterBase s im * im.safe.examples) ++ leBytes 8 (iterBase s im) ++
    leBytes 4 (s.job.step.toNat + 1) ++ leBytes 2 (stepIters s im) ++ leBytes 2 mbNext ++ leBytes 1 (if s.job.skip then 1 else 0) ++
    leBytes 1 ds.length ++ leBytes 2 s.job.skipsRun ++ leBytes 4 first ++ leBytes 4 count ++ leBytes 4 (lossWord s im).toNat ++
    leBytes 8 s.job.n2.toNat ++ leBytes 8 (dsqrt s.job.n2).toNat ++ leBytes 8 s.job.bNoise.toNat ++ leBytes 8 snap ++
    leBytes 8 s.job.shardDigest.toNat ++ leBytes 4 s.job.shardCount ++ leBytes 4 s.job.pairIndex ++
    leBytes 4 (tget s.recov.runs s.job.step.toNat 0) ++ leBytes 4 0 ++ decisions ++ leBytes 8 (inputDigest s im).toNat ++ List.replicate 32 0
  body ++ leBytes 8 (digest8 body).toNat

/-- The step's record and its continuations (R628, R629). -/
def journalRecords (s : State) (im : Image) (mbNext : Nat) (ds : List Decision) : List (List Byte) :=
  match chunksOf 52 (ds.length + 1) ds with
  | [] => [journalRecord s im 0 mbNext []]
  | d :: rest => journalRecord s im 0 mbNext d :: rest.map (journalRecord s im 1 mbNext)

/-- Records that the journal ring holds (Table 08-7). -/
abbrev journalRoom : Nat := 262144

/-- How many places back from the newest a place of the ring is. -/
def journalAge (s : State) (k : Nat) : Nat := (s.recov.journalNext + journalRoom - 1 - k) % journalRoom

/-- This job's records with their places, newest first. -/
def journalPlaces (s : State) : List (Nat × List Byte) :=
  let m := s.recov.journal.filter fun e => decide (journalAge s e.1 < s.recov.journalMine)
  (m.filter fun e => decide (e.1 < s.recov.journalNext)).reverse ++ (m.filter fun e => decide (s.recov.journalNext ≤ e.1)).reverse

/-- Records of a step that the ring holds, of kinds step and continuation, oldest first: the latest run's. -/
def heldRecords (s : State) (step : Nat) : List (List Byte) :=
  let mine := ((journalPlaces s).map (·.2)).filter fun r => jStep r == step && decide (jKind r ≤ 1)
  let n := mine.findIdx fun r => jKind r == 0
  (mine.take (n + 1)).reverse

/-- A record goes into the ring's next place (R630). -/
def putRecord (r : List Byte) (s : State) : State :=
  { s with
    recov.journal := tput s.recov.journal s.recov.journalNext r
    recov.journalNext := (s.recov.journalNext + 1) % journalRoom
    recov.journalMine := min journalRoom (s.recov.journalMine + 1) }

/-- Records go into the ring, to the keeper's mirror and to the host (R630). -/
def writeRecords (rs : List (List Byte)) (s : State) : State :=
  rs.foldl (fun s r => notifyAll 2 s.job.step.toNat r (mirrorRecord r (putRecord r s))) s

/-- This job's records of a step and of those after it leave the journal (R662). -/
def dropFrom (step : Nat) (s : State) : State :=
  let gone := ((journalPlaces s).filter fun e => decide (step ≤ jStep e.2)).map (·.1)
  { s with recov.journal := gone.foldl tdel s.recov.journal }

/-! ### Replay compare (R661, R662, R632) -/

/-- A record with the fields that replay does not compare set to 0. -/
def masked (r : List Byte) : List Byte :=
  let z := fun (o n : Nat) (b : List Byte) => splice b o (List.replicate n 0)
  z 1016 8 (z 132 8 (z 32 8 (z 16 8 r)))

/-- Module-local fields: data_pos, iter_base and shard_digest (R662). -/
def localFields (r : List Byte) : List Byte := slice r 48 16 ++ slice r 120 8

/-- The decision entries of a step's records, 16 bytes each (Tables 14-1, 14-2). -/
def decisionEntries (rs : List (List Byte)) : List (List Byte) :=
  rs.flatMap fun r => (List.range (field r 73 1)).map fun i => slice r (144 + 16 * i) 16

/-- Records without what their decision entries settle: the entries and their count. -/
def withoutEntries (r : List Byte) : List Byte := splice (splice r 144 (List.replicate 832 0)) 73 [0]

/-- Object, journalled and recomputed values of the first difference (Table 04-6): the first decision entry, in the order of tensors, that differs or that
one side holds more often, a side without it showing 0; else the first word of another field (log 35). -/
def replayDiff (old new : List (List Byte)) : Nat × Nat × Nat :=
  let x := (decisionEntries old).diff (decisionEntries new)
  let y := (decisionEntries new).diff (decisionEntries old)
  let key := fun (e : List Byte) => (if field e 0 1 = 5 then 2 ^ 32 else 0) + field e 4 4
  match (x ++ y).foldl (fun (m : Option Nat) e => match m with | none => some (key e) | some k => some (min k (key e))) none with
  | some k =>
    let ex := (x.find? fun e => key e == k).getD (List.replicate 16 0)
    let ey := (y.find? fun e => key e == k).getD (List.replicate 16 0)
    let w := ((List.range 4).find? fun i => slice ex (4 * i) 4 != slice ey (4 * i) 4).getD 0
    (if k < 2 ^ 32 then k else none32, field ex (4 * w) 4, field ey (4 * w) 4)
  | none =>
    let a := (old.map fun r => withoutEntries (masked r)).flatten
    let b := (new.map fun r => withoutEntries (masked r)).flatten
    match (List.range (max a.length b.length / 4)).find? fun i => slice a (4 * i) 4 != slice b (4 * i) 4 with
    | some i => (none32, field a (4 * i) 4, field b (4 * i) 4)
    | none => (none32, 0, 0)

/-- What a replayed step's records come to against the journal. -/
inductive Replay where
  | same | gap | input | decision | repeated
  deriving DecidableEq, Repr

def replayTest (s : State) (rs : List (List Byte)) : Replay :=
  match s.job.replayTo with
  | none => .same
  | some last =>
    if last ≤ s.job.step.toNat then .same
    else
      let old := heldRecords s s.job.step.toNat
      if old.isEmpty then .gap
      else if old.map masked = rs.map masked then .same
      else if s.recov.firstReplay.map masked = rs.map masked then .repeated
      else if slice (old.headD []) 976 8 ≠ slice (rs.headD []) 976 8 then .input
      else .decision

/-- ERR_JOURNAL_GAP, once in a replay (R632). -/
def noteGap (s : State) : State :=
  if s.recov.gapWritten then s
  else
    let n := (s.job.replayTo.getD 0) - s.job.step.toNat
    raise errJournalGap uCruise 0 (ownSlot s) (keeperNow s).toNat (detail [(s.job.step.toNat, 8), (n, 4)]) { s with recov.gapWritten := true }

/-- ERR_REPLAY_INPUT (R661). -/
def replayInput (rs : List (List Byte)) (s : State) : State :=
  stopA4 errReplayInput (raise errReplayInput uCruise 0 (ownSlot s) none32
    (detail [(s.job.step.toNat, 8), (jDataPos (rs.headD []) % 2 ^ 32, 4)]) s)

/-- ERR_REPLAY_DECISION and R662: the least module slot whose module-local fields differ is substituted with quarantine; with none, the job rolls
back again and the record is kept for the second replay. -/
def replayDecision (im : Image) (others : List Nat) (rs : List (List Byte)) (s : State) : State :=
  let old := heldRecords s s.job.step.toNat
  let (obj, was, now) := replayDiff old rs
  let s := raise errReplayDecision uCruise 0 obj (ownRank s im) (detail [(s.job.step.toNat % 2 ^ 32, 4), (was, 4), (now, 4)]) s
  let own := if localFields (old.headD []) = localFields (rs.headD []) then [] else [ownSlot s]
  let s := deviceFlume 1 1 [if own.isEmpty then 0xFFFFFFFF else BitVec.ofNat 64 (ownSlot s)] s
  match others ++ own with
  | [] => stopA2 errReplayDecision { s with recov.firstReplay := rs }
  | x :: xs =>
    let m := xs.foldl min x
    if m = ownSlot s then stopCorrupt errReplayDecision s else declareFault 3 errReplayDecision m false true s

/-! ### Step 9: replica digests (R159 to R163) -/

/-- Module slot that holds a rank. -/
def slotOfRank (im : Image) (p : Plan) (rank : Nat) : Nat :=
  ((List.range p.n).find? fun m => (List.range p.r).any fun pos => rankAt im p m pos == rank).getD 0xFFFF

/-- The axes over which a parameter is replicated (R160): its replicated mask and the data axis, whether or not the mask has that bit. DESIGN CHOICE
(log 92): so for every mask that is not empty. -/
def replicaMask (im : Image) (tid : Nat) : Nat :=
  (tensorOf im tid).replicated ||| (match dataAxis im with | some a => 2 ^ a | none => 0)

/-- Ranks `a` and `b` differ only over the axes of `mask`. -/
def sameGroup (im : Image) (mask a b : Nat) : Bool :=
  let ca := unravel (machineSizes im) a
  let cb := unravel (machineSizes im) b
  (List.range im.machine.length).all fun i => mask.testBit i || nth ca i 0 == nth cb i 0

/-- ERR_REPLICA_DIVERGE in the ledger: every crown, with the highest root band (Table 16-15, R158). -/
def ledgerReplica (s : State) : State :=
  let band := (List.range 256).foldl (fun b t => max b (rootBand s t)) 0
  (List.range 4).foldl (fun s q =>
    let s := updSummary q (fun d => { d with replica := satInc none32 d.replica }) s
    ledgerEvent q 1 band (notchInForce s q * 2 ^ 26 + (notch s q).crownK * 2 ^ 16) (newest s) s) s

/-- The rounds of a shard's comparison (Table 04-5) as this module's members of its group send them. A replica group that no collective of the image has
takes the class number after theirs: DESIGN CHOICE (log 70), R584 gives it none. -/
def sendReplica (im : Image) (pos mask : Nat) (all : List (Nat × DWord)) (digest : Nat → DWord) (s : State) : State :=
  let send := fun (fop type n : Nat) (f : Nat → List DWord) (s : State) =>
    let s' := beginFlume im mask pos none32 0 0 fop type n f s
    { s' with flume.ops := s'.flume.ops.filter fun x => x.op != none32 }
  if groupSize im mask ≤ 1 then s
  else
    let s := send 1 3 2 (fun q => [digest q, ~~~ digest q]) s
    match disagreement all with
    | none => s
    | some (low, _) =>
      let ds := all.map (·.2.toNat)
      let lo := ds.foldl min (2 ^ 64 - 1)
      let hi := ds.foldl max 0
      let s := send 0 3 2 (fun q => [if (digest q).toNat = lo then 1 else 0, if (digest q).toNat = hi then 1 else 0]) s
      match low with
      | none => s
      | some r =>
        let minor := (all.find? fun e => e.1 == r).map (·.2)
        send 1 1 1 (fun q => [if some (digest q) = minor then BitVec.ofNat 64 (rankOf s im q) else 0xFFFFFFFF]) s

/-- The comparison of one shard (Table 04-5, R163). -/
def compareShard (im : Image) (p : Plan) (others : List (Nat × Nat × DWord)) (s : State) (k : Nat) : State :=
  let tid := keyTid k
  let own := rankOf s im (keyPos k)
  let mask := replicaMask im tid
  let mine := ((shardKeys s im).filter fun j => keyTid j == tid).map fun j => (rankOf s im (keyPos j), shardDigest s im j)
  let all := (mine ++ (others.filter fun o => o.1 == tid).map fun o => (o.2.1, o.2.2)).filter fun e => sameGroup im mask own e.1
  let s := if (groupPositions s im mask (keyPos k)).head? = some (keyPos k) then
      sendReplica im (keyPos k) mask all (fun q => shardDigest s im (tensKey q tid 0)) s else s
  match disagreement all with
  | none => s
  | some (low, count) =>
    let s := raise errReplicaDiverge uCruise 0 (low.getD none32) own
      (detail [(tid, 4), (count, 4), (groupSize im mask, 3), (if low = none then 1 else 0, 1)]) s
    let s := ledgerReplica s
    match low with
    | none => stopA2 errReplicaDiverge s
    | some r =>
      let m := slotOfRank im p r
      if m = ownSlot s then stopCorrupt errReplicaDiverge s else declareFault 3 errReplicaDiverge m false true s

/-! ### The boundary as a whole -/

/-- The keeper's slot that holds snapshot `n` changes state, its header too (Table 14-3). -/
def setSnapshotState (n st : Nat) (s : State) : State :=
  let f := fun (k : KeepSlot) => if k.st ≠ 0 ∧ k.step.toNat = n then { k with st := st } else k
  let s' := { s with recov.ownA := f s.recov.ownA, recov.ownB := f s.recov.ownB }
  let s' := if s'.recov.ownA = s.recov.ownA then s' else sendHeader 0 s'.recov.ownA s'
  if s'.recov.ownB = s.recov.ownB then s' else sendHeader 1 s'.recov.ownB s'

/-- R639, R643: the snapshot of the step before commits when every module's chunks landed; every H-th committed one is host-held. -/
def commitSnapshot (landed : Bool) (s : State) : State :=
  match s.recov.saving with
  | none => s
  | some n =>
    if landed then
      let hold := (s.recov.commits + 1) % s.job.h = 0
      let s := setSnapshotState n (if hold then 3 else 2) { s with
        recov.previous := s.recov.snapshot, recov.snapshot := some n, recov.saving := none, recov.commits := s.recov.commits + 1
        recov.replays := 0, recov.keeperOk := true, recov.runs := s.recov.runs.filter fun e => decide (n < e.1) }
      if hold then notifyAll 3 n [] s else s
    else setSnapshotState n 0 { s with recov.saving := none }

/-- What a copy is once the step's record is written: READY, with the step as its generation where an op wrote it; an input instance of an
iteration now begun is free (R191, R802). -/
def closedCopy (s : State) (im : Image) (base k : Nat) (t : Tens) : Tens :=
  let t := { t with busy := false }
  let t := if t.writes = 0 then t else { t with generation := s.job.step, writes := 0 }
  if (tensorOf im (keyTid k)).role = 4 then
    { t with marked := match t.marked with | some u => if u < base then none else some u | none => none }
  else t

/-- The step is complete: the next one's number, counts and micro-batch count (R148, R166, R172). -/
def closeStep (im : Image) (mbNext : Nat) (s : State) : State :=
  let base := iterBase s im
  let tensors := (tmap s.job.tensors (closedCopy s im base)).filter fun e => e.2 != {}
  let runs := tset s.recov.runs s.job.step.toNat (tget s.recov.runs s.job.step.toNat 0 + 1) 0
  { s with
    job.tensors := tensors, job.step := s.job.step + 1, job.mb := mbNext, job.iters := base, job.loopIter := 0, job.item := 0
    job.stepOpen := false, job.updateBegun := false, job.opRuns := [], job.opNext := [], job.loopSums := [], job.noise := []
    job.lastLocal := s.job.tallies, job.tallies := [], job.n2Now := none, job.skipNow := false, job.readIn := [], job.awaitDone := []
    job.replayTo := match s.job.replayTo with | some t => if t ≤ s.job.step.toNat then none else some t | none => none
    recov.runs := runs
    recov.triggerDue := if s.job.step.toNat % s.job.k = 0 then some s.job.step.toNat else none }

/-- The job ends: DRAINING, with the end hold where one is set (R249, R798); every entry into DRAINING flushes the summaries (R779). -/
def beginDrain (hold : Bool) (s : State) : State :=
  flushSummaries (enter .draining { s with job.drainHold := hold })

/-- Program end (R249, Table 17-6). -/
def programEnd (step : DWord) (s : State) : State := beginDrain (s.job.endHold != 0) (notifyAll 6 step.toNat [] s)

/-- Steps 8 to 10 of Table 04-6a for a step whose record is to be written. ERR_GRAD_SKIP_LIMIT (R167) stops the job after the record and before the
replica comparison: DESIGN CHOICE (log 91). -/
def finishStep (im : Image) (p : Plan) (b : BoundaryIn) (mbNext : Nat) (rs : List (List Byte)) (s : State) : State :=
  let step := s.job.step
  let s := closeStep im mbNext (writeRecords rs s)
  if im.safe.skipLimit ≤ s.job.skipsRun then
    stopA4 errGradSkipLimit (raise errGradSkipLimit uCruise 0 (ownRank s im) none32
      (detail [(step.toNat % 2 ^ 32, 4), (s.job.skipsRun, 4)]) s)
  else
    let s := formShards im s
    let s := (shardKeys s im).foldl (compareShard im p b.replicas) s
    let s := if s.recov.triggerDue.isSome then deviceFlume 2 3 [s.mtc.value] s else s
    if im.lastStep ≠ 0 ∧ step.toNat = im.lastStep ∧ s.dev.st = .running ∧ !s.recov.window then programEnd step s else s

/-- Steps 8 to 10: commit or discard of a snapshot, the record with its replay compare, and the rest. -/
def recordStep (im : Image) (p : Plan) (b : BoundaryIn) (mbNext : Nat) (ds : List Decision) (s : State) : State :=
  let s := commitSnapshot b.othersLanded (if s.recov.saving.isSome then deviceFlume 3 1 [1] s else s)
  let rs := journalRecords s im mbNext ds
  match replayTest s rs with
  | .same => finishStep im p b mbNext rs s
  | .gap => finishStep im p b mbNext rs (noteGap s)
  | .input => replayInput rs s
  | .decision => replayDecision im b.differ rs s
  | .repeated =>
    let s := dropFrom s.job.step.toNat s
    finishStep im p b mbNext rs { s with recov.firstReplay := [], job.replayTo := none }

/-- Steps 3 to 7 of Table 04-6a, then the rest. -/
def boundaryAll (im : Image) (p : Plan) (b : BoundaryIn) (s : State) : State :=
  let old := s.job.formats
  let s := closeNorm im b.n2 b.a (reduceTallies im b.tallies s)
  let (d1, s) := promoteAll im s
  let promoted := (d1.filter fun d => d.kind == 1).map (·.target)
  let (d2, s, mbNext) := programRules im promoted s
  let changed := changedFormats im old s
  if changed.isEmpty then recordStep im p b mbNext (d1 ++ d2) s
  else
    let s := reconvertAll im old s
    let q := replanPhases s im changed p
    match fitFault im q s with
    | some s' => s'
    | none =>
      match comparePlans b.plans (installOwn im q (firstPhase false im) { s with job.planFrom := s.time }) with
      | (some s', _) => s'
      | (none, s) => recordStep im (s.job.plan.getD q) b mbNext (d1 ++ d2) s

/-- Every tile's shadow comparisons are complete (R157). -/
def shadowsDone (s : State) : Bool := s.tiles.all fun e => e.2.samples.isEmpty

/-- The step's items are done and what the boundary waits for has come: shadow comparisons (R157), and the chunks of a snapshot being saved (R638). -/
def boundaryReady (s : State) (im : Image) : Bool :=
  jobRunning s && stepMayGo s && s.job.phase == none && !s.job.inInit && s.job.item == im.items.length && shadowsDone s &&
    (s.recov.saving == none || !chunksPending s) && s.recov.triggerDue == none

/-- STEP_BOUNDARY (R173). -/
def execStepBoundary (b : BoundaryIn) (s : State) : Host.Outcome State Fault Refusal :=
  .next (
    match s.job.image, s.job.plan with
    | some im, some p => if boundaryReady s im then boundaryAll im p b (beginStep im s) else s
    | none, _ => s
    | some _, none => s)

/-! ### The snapshot trigger (R635 to R644) -/

/-- The module's snapshot stream (R636). -/
def snapshotStream (s : State) (im : Image) (step : Nat) : List Byte :=
  let keys := (List.range (positions s)).flatMap fun pos => (numbered im.tensors).filterMap fun (i, t) =>
    if t.role ≤ 1 then some (tensKey pos i 0) else none
  let tallies := (ruled im).flatMap fun r =>
    let t := tallyOf s.job.reduced r.tensor
    leBytes 8 t.converted ++ leBytes 8 t.saturated ++ leBytes 8 t.underflowed ++ leBytes 4 t.maxAbs
  keys.flatMap (storedForm s im) ++ (heldRecords s step).headD [] ++ tallies

/-- A slot that a save may write: neither host-held nor the latest committed (R641, R644). -/
def writable (s : State) (k : KeepSlot) : Bool := k.st != 3 && !(k.st == 2 && s.recov.snapshot == some k.step.toNat)

/-- ERR_SNAPSHOT_SKIPPED (R644). Table 14-1 has no field for the skip: DESIGN CHOICE (log 35), the records say it by the snapshot_step that stays. -/
def skipSnapshot (step : Nat) (s : State) : State :=
  let held := if s.recov.ownA.st = 3 then s.recov.ownA.step.toNat else s.recov.ownB.step.toNat
  raise errSnapshotSkipped uCruise 0 (keeperNow s).toNat (ownSlot s) (detail [(step, 8), (held % 2 ^ 32, 4)]) s

/-- A host-held slot that the host has released on the keeper is committed again (R643, R804). -/
def takeRelease (released : List Nat) (k : KeepSlot) : KeepSlot :=
  if k.st = 3 ∧ released.contains k.step.toNat then { k with st := 2 } else k

/-- SNAPSHOT_BEGIN (R603, R635 to R644): at the agreed time the save starts into a writable slot; `released` are the steps of this module's
host-held snapshots that the host has released on the keeper; a spare being filled takes no trigger. -/
def execSnapshotBegin (mtc : DWord) (released : List Nat) (s : State) : Host.Outcome State Fault Refusal :=
  .next (
    match s.job.image, s.recov.triggerDue with
    | some im, some step =>
      if jobRunning s ∧ mtc ≤ s.mtc.value then
        let s := { s with recov.triggerDue := none, recov.ownA := takeRelease released s.recov.ownA, recov.ownB := takeRelease released s.recov.ownB }
        let bs := snapshotStream s im step
        let k : KeepSlot := { st := 1, step := BitVec.ofNat 64 step, bytes := bs, digests := chunkDigests bs, imageId := im.id, formats := s.job.formats }
        if writable s s.recov.ownA then sendSnapshot { s with recov.ownA := k, recov.saving := some step }
        else if writable s s.recov.ownB then sendSnapshot { s with recov.ownB := k, recov.saving := some step }
        else skipSnapshot step s
      else s
    | none, _ => s
    | some _, none => s)

/-! ### The drain (R577, R344, R360, R797, R798) -/

/-- The areas of kept modules that the job has substituted are free when it ends (R665): both slots are empty. -/
def freeAreas (s : State) : State :=
  let old := (ringKeeper s).kept
  ((List.range old.length).filter fun k => nth old k 0xFFFF != nth (keptNow s) k 0xFFFF).foldl (fun s k =>
    { s with mem := writeMem (writeMem s.mem (headerAddr s k 0) (leBytes 8 0)) (headerAddr s k 1) (leBytes 8 0) }) s

/-- A job's state is cleared: tile SRAM and the job region are zeroed, the counters cleared, the job and its recovery forgotten; the keeper areas
that this module keeps for others, its journal and its dumps stay. -/
def clearJob (s : State) : State :=
  let r := s.recov
  let s := clearRemote (zeroJob (zeroSram (freeAreas s)))
  { s with
    job := {}, tiles := tmap s.tiles fun _ x => { x with slots := [], samples := [], awaits := [] }
    flume := {}, remote.deviceSet := [], remote.watches := []
    recov := { journal := r.journal, journalNext := r.journalNext, dumps := r.dumps, dumpNext := r.dumpNext } }

/-- The state that a drain leads to: READY, or RELAYING on a spare (Table 01-5). -/
def afterDrain (s : State) : DevState := if s.dev.role = some .spare then .relaying else .ready

/-- DRAIN_COMPLETE (R577, R797, R798): not during the end hold, nor while THERM_TRIP_N is low. -/
def execDrainComplete (s : State) : Host.Outcome State Fault Refusal :=
  .next (
    if s.dev.st = .draining ∧ !s.job.drainHold ∧ s.pins.thermTripN then enter (afterDrain s) (clearJob s) else s)

/-- END_HOLD_EXPIRE (R798): the last transfer counts as landed. -/
def execEndHoldExpire (s : State) : Host.Outcome State Fault Refusal :=
  .next (if s.dev.st = .draining then { s with job.drainHold := false } else s)

end Sys2Proof.Machine
end

