-- ==== Sys2Proof/Machine/Recovery.lean ====
section
/-! DEFINITION. Recovery (Chapter 14): notices and the collection window, step restart, rollback and replay, substitution, spare fill and repair. -/
namespace Sys2Proof.Machine

/-! ### The START_JOB body (Table 17-5) -/

/-- Fields of an accepted START_JOB, with their defaults. -/
def startFields (b : List Byte) (j : Job) : Job :=
  let n := field b 40 4
  { j with
    tag := BitVec.ofNat 16 (field b 0 2), restore := field b 2 1 % 2 == 1
    roundSeed := BitVec.ofNat 32 (field b 4 4), drawSeed := BitVec.ofNat 32 (field b 8 4), k := orDefault (field b 12 4) 100
    firstStep := BitVec.ofNat 64 (field b 16 8), h := orDefault (field b 24 4) 10, tDead := orDefault (field b 28 4) 20
    waitTimeout := orDefault (field b 32 4) 100000, endHold := field b 36 4
    rankMap := (List.range n).map fun i => BitVec.ofNat 16 (field b (44 + 2 * i) 2)
    record := slice b (44 + 2 * n) 1024, body := b, started := true }

/-! ### Notices (R648, R649, R652) -/

/-- States in which a module takes part in the recovery of its job. -/
def recovers (s : State) : Bool := s.dev.st == .planning || s.dev.st == .running || s.dev.st == .filling

/-- RECOVERY_NOTICE (R649, R652, R666, R807): with the current job's tag, the first notice of an attempt halts the job; a module past the start of
its update phase answers A1 with A2; the subject of A3 stops, and one named as silently corrupt is quarantined, from FAULTED too (Table 01-5). -/
def execRecoveryNotice (n : Notice) (s : State) : Host.Outcome State Fault Refusal :=
  .next (
    if n.job ≠ s.job.tag ∨ n.attempt < s.recov.attempt ∨ s.recov.notices.contains n then s
    else if s.dev.st = .faulted then
      (if n.action = 3 ∧ n.subject = ownSlot s ∧ n.flags.getLsbD 0 then enter .quarantined { s with recov.notices := s.recov.notices ++ [n] } else s)
    else if !recovers s then s
    else
      let s := haltJob s
      let s := { s with recov.window := true, recov.notices := s.recov.notices ++ [n], recov.attempt := n.attempt }
      let s := if n.action = 1 ∧ s.job.updateBegun ∧ n.step = s.job.step
        then sendNotice (mkNotice s 2 n.code.toNat 0xFFFF false) s else s
      if n.action = 3 ∧ n.subject = ownSlot s then
        if n.flags.getLsbD 0 && s.dev.st == .running then enter .quarantined s else enter .faulted s
      else s)

/-- RECOVERY_NOTICE_RESEND (R648): three times in all, at 1 ms intervals. -/
def execRecoveryNoticeResend (s : State) : Host.Outcome State Fault Refusal :=
  .next (
    match s.recov.toSend with
    | some (n, k) => emit (.notice n (noticePeers s)) { s with recov.toSend := if 1 < k then some (n, k - 1) else none }
    | none => s)

/-! ### Restore (R634, R656 to R660) -/

/-- ERR_HEARTWOOD_LOST (R657, R658): the job ends. -/
def heartwoodLost (cause : Nat) (s : State) : State :=
  let latest := s.recov.snapshot.getD (2 ^ 64 - 1)
  stopA4 errHeartwoodLost (raise errHeartwoodLost uCruise 0 (ownSlot s) (keeperNow s).toNat (detail [(latest, 8), (cause, 1)]) s)

/-- The init phase that starts again begins with write counts of 0 and its transient tensors at +0 (R189, R247). -/
def freshInit (s : State) : State :=
  match s.job.image with
  | some im => if s.job.inInit then { s with job.tensors := (tmap s.job.tensors (freshCopy s im)).filter fun e => e.2 != {} } else s
  | none => s

/-- The work of the step in hand is discarded; it starts again from its first item, or from the init phase (R247, R655). -/
def abandonStep (s : State) : State :=
  let s := freshInit s
  { s with
    job.phase := none, job.opened := none, job.opNext := [], job.item := 0, job.iters := iterStart s, job.loopIter := 0, job.loopSums := [], job.opRuns := []
    job.tallies := [], job.noise := [], job.n2Now := none, job.skipNow := false, job.readIn := [], job.awaitDone := []
    job.stepOpen := false, job.updateBegun := false, job.waitingInput := [], job.rotations := []
    recov.runs := tset s.recov.runs s.job.step.toNat (tget s.recov.runs s.job.step.toNat 0 + 1) 0 }

/-- A replay starts (R578, R585, R589): counters 0 with the plan's kinds, sequence numbers from 0, the next plane pair. -/
def replayPlane (s : State) : State :=
  let s := clearRemote s
  let s := { s with flume.ops := [], flume.bulks := [], flume.seqs := [], flume.resend := [], job.pairIndex := s.job.pairIndex + 1 }
  startStep s

/-- Every input instance is marked unwritten (R660). -/
def unmarkInputs (s : State) : State :=
  { s with job.tensors := (tmap s.job.tensors fun _ t => { t with marked := none }).filter fun e => e.2 != {} }

/-- The first test of R633 that the journalled record of step `n` fails, where the module holds it. -/
def heldSkew (n : Nat) (s : State) : Option (Nat × Nat × Nat) :=
  match s.job.image, (heldRecords s n).head? with
  | some im, some r => journalSkew s im r ((heldRecords s (n - 1)).head?)
  | none, _ => none
  | some _, none => none

/-- The restore of snapshot `n` begins: its record checked where the module holds it (R634), inputs unwritten, the host told data_pos of the record
(R660), and the chunks asked of the keeper (R656). -/
def beginRestore (n : Nat) (s : State) : State :=
  match heldSkew n s with
  | some c => raiseSkew c { s with recov.rollbackTo := none }
  | none =>
    let r := (heldRecords s n).headD []
    let e := match s.job.image with | some im => im.safe.examples | none => 1
    let chunks := match slotHolding s n with | some (_, k) => List.range k.digests.length | none => []
    let s := unmarkInputs { s with recov.rollbackTo := some n, recov.restored := [], recov.triggerDue := none, recov.saving := none, recov.toPull := chunks
                                   job.iters := if e = 0 then 0 else jDataPos r / e }
    notifyAll 4 (jDataPos r) [] (goOnPulling s)

/-- Tensors of the snapshot stream in order, with their formats and bytes (R636). -/
def streamKeys (s : State) (im : Image) : List Nat :=
  (List.range (positions s)).flatMap fun pos => (numbered im.tensors).filterMap fun (i, t) => if t.role ≤ 1 then some (tensKey pos i 0) else none

/-- The stream's tensors put in place, each of generation S (R656, R802), and what follows them. -/
def takeTensors (im : Image) (step : Nat) (formats : Table Nat) : List Nat → List Byte → State → List Byte × State
  | [], bs, s => (bs, s)
  | k :: ks, bs, s =>
    let tid := keyTid k
    let f := tget formats tid (tensorOf im tid).fmt
    let g := geoTens im tid f
    let n := storedSize (dimsOf im tid) f g
    let c := parseStored (dimsOf im tid) f g (bs.take n)
    let t : Tens := { fmt := c.fmt, codes := c.codes, bscales := c.bscales, tscales := c.tscales, generation := BitVec.ofNat 64 step }
    takeTensors im step formats ks (bs.drop n) (setTens k t s)

/-- Reduced tallies at the end of the stream (R636). -/
def takeTallies : List PromoRule → List Byte → Table Tally → Table Tally
  | [], _, m => m
  | r :: rs, bs, m => takeTallies rs (bs.drop 28) (tset m r.tensor ⟨field bs 0 8, field bs 8 8, field bs 16 8, field bs 24 4⟩ noTally)

/-- The restored state of the last completed step (R634, R659, R888); the job's first step stays. -/
def restoreStep (im : Image) (r : List Byte) (s : State) : State := { restoreCounters im r s with job.firstStep := s.job.firstStep }

/-- The plan for restored formats that differ from those in force (R144, R302): it must fit as any plan does (R288, R374), or the job ends. -/
def restoredPlan (im : Image) (old : Table Nat) (s : State) : State ⊕ State :=
  match s.job.plan, changedFormats im old s with
  | some p, c :: cs =>
    let q := replanPhases s im (c :: cs) p
    match fitFault im q s with
    | some failed => .inl { failed with recov.rollbackTo := none }
    | none => .inr (installOwn im q (firstPhase false im) { s with job.inInit := false })
  | some _, [] => .inr s
  | none, _ => .inr s

/-- Every chunk has landed and every slot is filled: the record is checked (R634), the tensors, tallies and counters restored, and the replay of
step S + 1 begins (R656, R663 step 7). -/
def startReplay (im : Image) (n : Nat) (k : KeepSlot) (s : State) : State :=
  let bytes := s.recov.restored.flatMap (·.2)
  let old := s.job.formats
  let s0 := { s with job.formats := k.formats }
  let (rest, s1) := takeTensors im n k.formats (streamKeys s0 im) bytes s0
  let r := rest.take 1024
  match journalSkew s im r ((heldRecords s (n - 1)).head?) with
  | some c => raiseSkew c { s with recov.rollbackTo := none }
  | none =>
    let last := max s.job.step.toNat (s.job.replayTo.getD 0)
    let s := restoreStep im r s1
    match restoredPlan im old s with
    | .inl failed => failed
    | .inr s =>
      let s := { s with
        job.reduced := takeTallies (ruled im) (rest.drop 1024) [], job.replayTo := some last, job.inInit := false
        recov.rollbackTo := none, recov.restored := [], recov.gapWritten := false, recov.held := false }
      let s := formShards im (startStep s)
      if s.dev.st = .filling then enter .running s else s

/-- The replay begins once the restore is whole and no fill or repair is awaited (R667, R668). -/
def tryReplay (s : State) : State :=
  match s.job.image, s.recov.rollbackTo with
  | some im, some n =>
    match slotHolding s n with
    | some (_, k) =>
      if s.recov.restored.length = k.digests.length ∧ s.recov.unfilled = [] ∧ !s.recov.window ∧ recovers s then startReplay im n k s else s
    | none => s
  | none, _ => s
  | some _, none => s

/-- SNAPSHOT_CHUNK_LAND (R656, R657): a chunk is checked against its digest; a mismatch goes back to the previous snapshot, or ends the job. -/
def execSnapshotChunkLand (chunk : Nat) (data : List Byte) (s : State) : Host.Outcome State Fault Refusal :=
  .next (
    match s.recov.rollbackTo with
    | none => s
    | some n =>
      match (slotHolding s n).bind fun e => e.2.digests[chunk]? with
      | none => s
      | some d =>
        let found := sha256 data
        if found = d then tryReplay (goOnPulling { s with recov.restored := tput s.recov.restored chunk data })
        else
          let s := raise errDigestMismatch uCruise 0 (ownSlot s) (keeperNow s).toNat
            (detail [(n % 2 ^ 32, 4), (chunk, 4), (leNat (found.take 4), 4)]) s
          match s.recov.previous with
          | some p =>
            if p ≠ n ∧ (slotHolding s p).isSome then beginRestore p { s with recov.snapshot := some p, recov.previous := none, recov.replays := 1 } else heartwoodLost 2 s
          | none => heartwoodLost 2 s)

/-! ### The end of the collection window (R650 to R658) -/

/-- Highest action over the notices (R646). -/
def highestAction (ns : List Notice) : Nat := ns.foldl (fun a n => max a n.action) 0

/-- Module slots that A3 notices substitute, ascending (R650). -/
def subjectsOf (ns : List Notice) : List Nat :=
  ((ns.filter fun n => n.action == 3 && n.subject != 0xFFFF).map (·.subject)).foldl sinsert []

/-- ERR_MODULE_LOST for one substituted slot (R651). -/
def raiseLost (ns : List Notice) (s : State) (m : Nat) : State :=
  match ns.find? fun n => n.action == 3 && n.subject == m with
  | some n => raise errModuleLost uCruise 0 m n.reporter
      (detail [(n.code.toNat, 2), (n.action, 1), (n.attempt % 256, 1), (n.step.toNat, 8)]) s
  | none => s

/-- Module slot that a notice's fault concerns. -/
def noticeSlot (n : Notice) : Nat := if n.subject = 0xFFFF then n.reporter else n.subject

/-- A notice that repeats one of the attempt before at the same step, or any notice of a ninth attempt from one snapshot (R654). -/
def repeatedNotice (s : State) : Option Notice :=
  if 8 ≤ s.recov.replays then s.recov.notices.head?
  else s.recov.notices.find? fun n => s.recov.last.any fun m => m.code == n.code && noticeSlot m == noticeSlot n && m.step == n.step

/-- First tensor with the carry flag (R645). -/
def carried (im : Image) : Option Nat := ((numbered im.tensors).find? fun (_, t) => t.flags % 2 == 1).map (·.1)

/-- The recovery digest (R653). -/
def recoveryDigest (action attempt step : Nat) (slots : List Nat) : DWord :=
  digest8 (leBytes 1 action ++ leBytes 4 attempt ++ leBytes 8 step ++ slots.flatMap (leBytes 2))

/-- The own tray's slot of a module whose ranks the spare takes (R325). -/
def lostSlot (s : State) (e : BitVec 16) : List Nat := if trayKey s e = trayKey s (ownEndpoint s) then (slotOfEndpoint s e).toList else []

/-- A spare takes a module slot on every module: rank map and device set (R519, R559), the old module's place as a keeper and as a kept module (R658,
R663), and in the rings, whose paths no longer lead through the old module's slot (R325). -/
def substitute (m : Nat) (e : BitVec 16) (s : State) : State :=
  let old := nth s.job.rankMap m 0xFFFF
  { s with
    job.rankMap := lset s.job.rankMap m e
    job.lostSlots := (lostSlot s old).foldl sinsert s.job.lostSlots
    remote.deviceSet := (s.remote.deviceSet.filter (· != old)) ++ [e]
    recov.keeper := if keeperNow s = old then some e else s.recov.keeper
    recov.kept := if (keptNow s).contains old then some ((keptNow s).map fun k => if k = old then e else k) else s.recov.kept
    recov.unfilled := s.recov.unfilled.filter (· != m) }

/-- The spare that may fill a module slot: that of the slot's tray, unless it has filled one in this job (R663, R668). -/
def spareFor (s : State) (m : Nat) : Option (BitVec 16) :=
  let e := trayMate s (nth s.job.rankMap m 0xFFFF)
  if e = 0xFFFF ∨ s.job.rankMap.contains e then none else some e

/-- Before a replay the whole of Table 06-6 is repeated when a spare's count is absent from the count mask or a tile of this or another module of the device
set, whose count is then another, has been fenced (R304). -/
def replanAll (spares : List (Nat × Nat)) (x : PlanIn) (s : State) : State :=
  match s.job.image, s.job.plan with
  | some im, some p =>
    let known := spares.all fun e => e.2 == 0 || p.countMask.getLsbD (e.2 - 1)
    let same := x.counts.all fun e => spares.any (fun y => y.1 == e.1) || tget p.counts e.1 e.2 == e.2
    if known ∧ same ∧ p.tiles = boundTiles s then s
    else
      match planRounds x { s with job.planFrom := s.time } with
      | (some s', _) => s'
      | (none, s) =>
        match planNow x im (firstPhase s.job.inInit im) s with
        | (some s', _) => s'
        | (none, s) => s
  | none, _ => s
  | some _, none => s

/-- ERR_RECOVERY_DISAGREE (R653). -/
def disagree (action attempt : Nat) (d : DWord) (s : State) : State :=
  stopA4 errRecoveryDisagree (raise errRecoveryDisagree uCruise 0 (ownSlot s) none32
    (detail [(action, 1), (attempt % 256, 1), (0, 2), (d.toNat, 8)]) s)

/-- Substitutions of an attempt: slots whose tray spare is in RELAYING are filled, the others leave the job held (R663, R668); a lost keeper takes
its area with it (R658). -/
def substituteAll (slots : List Nat) (spares : List (Nat × Nat)) (x : PlanIn) (s : State) : State :=
  let lostKeeper := slots.any fun m => nth s.job.rankMap m 0xFFFF == keeperNow s
  let s := slots.foldl (raiseLost s.recov.notices) s
  let s := if lostKeeper then { s with recov.keeperOk := false } else s
  let s := { s with recov.unfilled := slots.foldl sinsert s.recov.unfilled }
  let s := slots.foldl (fun s m =>
    match spareFor s m with
    | some e => if spares.any (fun x => x.1 == m) then substitute m e s else s
    | none => s) s
  let s := { s with recov.held := !s.recov.unfilled.isEmpty }
  replanAll spares x s

/-- A step restart (R655), or a rollback to the snapshot in force (R656, R658). -/
def act (action : Nat) (s : State) : State :=
  if action = 1 ∧ s.recov.rollbackTo = none then sendSnapshot (replayPlane (abandonStep s))
  else
    match s.recov.snapshot with
    | none => heartwoodLost 3 s
    | some n =>
      if !s.recov.keeperOk ∨ slotHolding s n = none then heartwoodLost 1 s
      else beginRestore n (replayPlane (abandonStep { s with job.replayTo := some (max s.job.step.toNat (s.job.replayTo.getD 0)) }))

/-- COLLECTION_WINDOW_END (R645, R646, R650 to R658): `spares` are the substituted slots whose tray spare is in RELAYING, with its enabled tiles. -/
def execCollectionWindowEnd (recoveryDigestsAgree : Bool) (spares : List (Nat × Nat)) (plan : PlanIn) (s : State) : Host.Outcome State Fault Refusal :=
  .next (
    if !s.recov.window then s
    else
      let ns := s.recov.notices
      let action := highestAction ns
      let s := { s with recov.window := false }
      if !recovers s then s
      else if action = 4 ∨ s.dev.st = .planning then
        enter .faulted ((subjectsOf ns).foldl (raiseLost ns) s)
      else
        match s.job.image.bind carried with
        | some t =>
          let n := ns.headD ⟨0, 0, 0, 0, 0, 0, 0, 0, 0⟩
          stopA4 errNoRollback (raise errNoRollback uCruise 0 t (ownSlot s) (detail [(n.code.toNat, 2), (action, 1), (0, 1), (s.job.step.toNat, 8)]) s)
        | none =>
          match repeatedNotice s with
          | some n =>
            stopA4 errRecoveryRepeat (raise errRecoveryRepeat uCruise 0 n.subject none32
              (detail [(n.code.toNat, 2), (n.attempt % 256, 1), (0, 1), (n.step.toNat, 8)]) s)
          | none =>
            let slots := subjectsOf ns
            let dest := if action = 1 then s.job.step.toNat else s.recov.snapshot.getD (2 ^ 64 - 1)
            let d := recoveryDigest action s.recov.attempt dest slots
            let s := substituteAll slots spares plan s
            let s := if recovers s then deviceFlume 1 3 [d, ~~~ d] s else s
            if !recovers s then s
            else if !recoveryDigestsAgree then
              disagree action s.recov.attempt d s
            else
              let s := { s with recov.attempt := s.recov.attempt + 1, recov.last := ns, recov.notices := [], recov.replays := s.recov.replays + 1 }
              act action s)

/-! ### Spare fill and repair (R663 to R668) -/

/-- Decision entries of a record (Table 14-2): kind, new format and target. -/
def decisionsOf (r : List Byte) : List (Nat × Nat × Nat) :=
  (List.range (field r 73 1)).map fun i => (field r (144 + 16 * i) 1, field r (147 + 16 * i) 1, field r (148 + 16 * i) 4)

/-- Formats in force after step `n` by the journal's promotions and demotions. -/
def formatsAt (im : Image) (n : Nat) (records : List (List Byte)) : Table Nat :=
  ((records.filter fun r => decide (jStep r ≤ n)).flatMap decisionsOf).foldl (fun m (kind, new, t) =>
    if kind = 1 ∨ kind = 3 then tset m t new (tensorOf im t).fmt else m) []

/-- The spare's job and plans (Table 14-7 steps 1 to 3). -/
def fillJob (f : FillIn) (s : State) : State :=
  let im := parseImage f.image
  let map := lset f.rankMap f.slot (ownEndpoint s)
  let j := startFields f.start { ({} : Job) with bytes := f.image, image := some im }
  let last := (f.mirror.filter fun r => decide (jStep r ≤ f.snapshot)).getLast?
  let k : KeepSlot := { st := 2, step := BitVec.ofNat 64 f.snapshot, digests := f.digests, imageId := im.id, formats := formatsAt im f.snapshot f.mirror }
  let s := { s with
    job := { j with rankMap := map, lostSlots := lostSlot s (nth f.rankMap f.slot 0xFFFF), formats := k.formats, pairIndex := f.pairIndex, replayTo := some f.replayTo, mb := im.safe.mbInit, step := j.firstStep }
    remote.deviceSet := map
    recov.attempt := f.attempt + 1, recov.snapshot := some f.snapshot, recov.ownA := if f.slotB then {} else k, recov.ownB := if f.slotB then k else {}
    recov.journalMine := 0, recov.keeper := some f.keeper, recov.kept := some f.kept }
  let s := f.mirror.foldl (fun s r => putRecord r s) { s with recov.mirrored := f.mirror.length }
  match last with
  | some r => { s with job.step := BitVec.ofNat 64 (jStep r + 1) }
  | none => s

/-- The spare's side of the recovery digest round (R653, Table 14-7 step 6), then the restore of the slot's snapshot. -/
def fillRestore (f : FillIn) (s : State) : State :=
  if f.digests.isEmpty then heartwoodLost 3 s
  else
    let d := recoveryDigest 3 (f.attempt) f.snapshot f.slots
    let s := deviceFlume 1 3 [d, ~~~ d] s
    if s.dev.st = .faulted then s else if f.agree then beginRestore f.snapshot s else disagree 3 (f.attempt) d s

/-- FILL_ASSIGN (R34, R300, R410, R663, R664, R675): a spare in RELAYING takes a module slot, computes its plans, compares their digest and begins the
restore of the slot's snapshot; in another state the assignment is rejected. -/
def execFillAssign (f : FillIn) (s : State) : Host.Outcome State Fault Refusal :=
  .next (
    let s := endExerciser s
    if s.dev.qLost ≠ 0 then raise errQuadrantLost uDevice 0 (lostQuad s) 0xFFFF (lostDetail s) s
    else if s.dev.st ≠ .relaying ∨ s.dev.role ≠ some .spare then
      raise errStateConflict uDevice 0 none32 none32 (detail [(stCode s.dev.st, 1)]) s
    else
      let s := enter .filling (fillJob f s)
      match s.job.image with
      | none => s
      | some im =>
        match planRounds f.plan { s with job.planFrom := s.time } with
        | (some s', _) => s'
        | (none, s) =>
          match planNow f.plan im (firstPhase false im) s with
          | (some s', _) => s'
          | (none, s) => fillRestore f s)

/-- SPARE_AVAILABLE (R668): the tray's spare slot has reached RELAYING, and the held job goes on. -/
def execSpareAvailable (slot : Nat) (endpoint : BitVec 16) (tiles : Nat) (plan : PlanIn) (s : State) : Host.Outcome State Fault Refusal :=
  .next (
    if s.recov.held ∧ s.recov.unfilled.contains slot ∧ spareFor s slot = some endpoint then
      let s := replanAll [(slot, tiles)] plan (substitute slot endpoint s)
      if !recovers s then s else tryReplay { s with recov.held := !s.recov.unfilled.isEmpty }
    else s)

/-- Repair limit in seconds (Table 15-8). -/
def repairSeconds (s : State) : Nat := orDefault (policy s).repairLimit 86400000 / 1000

/-- REPAIR_TIMEOUT (R668). -/
def execRepairTimeout (s : State) : Host.Outcome State Fault Refusal :=
  .next (
    if s.recov.held then
      stopA4 errRepairTimeout (raise errRepairTimeout uCruise 0 (s.recov.unfilled.headD 0xFFFF) none32
        (detail [(s.recov.unfilled.length, 4), (repairSeconds s, 4)]) { s with recov.held := false })
    else s)

end Sys2Proof.Machine
end

