-- ==== Sys2Proof/Machine/Flags.lean ====
section
/-! DEFINITION. The contents of every register of Chapter 19: the registers by name, and the value that each shows of the state. -/
namespace Sys2Proof.Machine

/-- The registers of Tables 19-4 to 19-14. A 64-bit pair is one register; `index` operands count words, entries or counters. -/
inductive Reg where
  | devId | devState | devJob | devEndpoint | devStep | devMtc | devTick | devEvents | faultHeld | faultSel | faultNew
  | faultRec (k : Nat) | devFenced (k : Nat) | devScratch | groupMask (g k : Nat) | win (e k : Nat)
  | tileFlags | tileSlots | tileTemp | tileSramUncorr | tileSramCorr | tileScrub | tileArrayBusy | tileCtr (c : Nat)
  | hbmFlags | hbmTemp | hbmRetired | hbmUncorr | hbmCorr | hbmPatrol | hbmRdBytes | hbmWrBytes
  | laneState | laneFlags | laneMargin | lanePower | laneDelay | lanePartner | laneSupply
  | seamStatus (m : Nat) | dlinkSel | dlinkState | dlinkPhase | dlinkMargin | dlinkRetry
  | ftStatus | ftSel | ftData | ftSwitch | ftCommit | ftDigest
  | telSel | telData | telTick | tallySel | tallyConv | tallySat | tallyUf | tallyMaxabs
  | pwrModule | pwrLimit | pwrRuntime | quadStatus (q : Nat) | tripStatus | sensorSel | sensorValue | sensorInfo
  | idSerial (k : Nat) | idVariant | idMac | idWardenRom | idCruiseRom | idRingGen | idFloor | idControlFloor | idStartCount | idMachine
  | idEnabled (k : Nat)
  deriving DecidableEq, Repr

/-- Bit of a status word. -/
def bit (b : Bool) (n : Nat) : Nat := if b then 2 ^ n else 0
/-- A signed 16-bit value, and a temperature with 0x8000 when absent. -/
def s16 (v : Int) : Nat := signedField 2 v
def temp16 (v : Option Int) : Nat := match v with | some t => s16 t | none => 0x8000

/-! ### Device block (Tables 19-4 and 19-5) -/

/-- DEV_STATE (Table 19-5). -/
def devStateWord (s : State) : Nat :=
  stCode s.dev.st + 2 ^ 8 * s.dev.qLost.toNat + bit (!s.pins.thermTripN) 12 + 2 ^ 13 * (s.dev.holdCause % 8) +
    2 ^ 16 * (match s.dev.role with | some r => roleCode r | none => 7) + bit s.dev.ringSlotB 19 + 2 ^ 20 * stCode s.dev.prev

/-- Word `k` of a 256-bit map. -/
def mapWord (m : BitVec 256) (k : Nat) : Nat := m.toNat / 2 ^ (32 * k) % 2 ^ 32

/-- The sixteen bytes of a window entry (Table 12-5), and the entry that sixteen bytes spell. -/
def winBytes (e : WinEntry) : List Byte := leBytes 6 e.base ++ leBytes 6 e.length ++ leBytes 2 e.job.toNat ++ leBytes 1 e.perm.toNat ++ [0]
def winOf (bs : List Byte) : WinEntry :=
  ⟨field bs 0 6, field bs 6 6, BitVec.ofNat 16 (field bs 12 2), BitVec.ofNat 8 (field bs 14 1)⟩
def noWindow : List Byte := List.replicate 16 0

/-! ### Tile block (Tables 19-6 and 19-7) -/

/-- A tile is in the tile map from step 7 of Table 15-1 (Table 19-7). -/
def inMap (s : State) (t : Nat) : Bool := decide (7 ≤ s.dev.startStep) && tileUsable s t

/-- The crown half shows live values: it exists and its tile is in the tile map (R859). -/
def crownShown (s : State) (t : Nat) : Bool := !isFA s && tileUsable s t

def anySlot (s : State) (t : Nat) (st : SlotSt) : Bool := (tile s t).slots.any fun e => e.2.st == st

/-- TILE_FLAGS (Table 19-7, R859). -/
def tileFlagsWord (s : State) (t : Nat) : Nat :=
  let crown := crownShown s t
  bit (inMap s t) 0 + bit (s.bark.made.variant == .cb && !s.bark.made.enabled.getLsbD t) 1 + bit (s.stacking.fenced.getLsbD t) 2 +
    bit (!crown || s.heat.crownsOff || (tile s t).crownGated) 3 +
    bit ((dlink s t).width == .lower || (dlink s t).width == .upper) 4 +
    bit (crown && anySlot s t .halted) 5 + bit (crown && anySlot s t .waiting) 6 +
    bit (isSuspect (tget s.heat.roots t {})) 7 + bit (crown && isSuspect (tget s.heat.crowns t {})) 8 + bit (rootBand s t == 4) 9

/-- TILE_SLOTS: two bits a slot. -/
def tileSlotsWord (s : State) (t : Nat) : Nat :=
  if crownShown s t then sumNat ((List.range 8).map fun k => 4 ^ k * slotSt (slot (tile s t) k).st) else 0

def tileTempWord (s : State) (t : Nat) : Nat :=
  2 ^ 16 * temp16 (tget s.heat.roots t {}).value + (if crownShown s t then temp16 (tget s.heat.crowns t {}).value else 0x8000)

/-! ### HBM stack block (Table 19-8) -/

def hbmFlagsWord (s : State) (m : Nat) : Nat :=
  let h := hbm s m
  bit h.trained 0 + bit h.selfRefresh 1 + bit (h.refresh == 2) 2 + bit (h.refresh == 4) 3 + bit (h.admission == 50) 4 +
    bit (h.admission == 25) 5 + bit h.poolFull 6 + bit (stackBand s m == 4) 7

def hbmTempWord (s : State) (m : Nat) : Nat :=
  if (hbm s m).trained then
    2 ^ 16 * stackBand s m + (match (tget s.heat.hbms m {}).reading with | some v => s16 (v / 4) | none => 0x8000)
  else 0x00078000

/-! ### Lane block (Table 19-9) -/

def laneStCode : LaneState → Nat
  | .disabled => 0 | .down => 1 | .training => 2 | .init => 3 | .up => 4 | .held => 5

/-- LANE_STATE: a lane that the wiring map leaves DISABLED serves no plane and no tray port. -/
def laneStateWord (s : State) (l : Nat) : Nat :=
  let r := lane s l
  let on := r.st != .disabled
  let plane := if !on then 0xFF else match planeOf s l with | some p => p | none => if isFA s then 0xFF else 0xFE
  laneStCode r.st + 2 ^ 3 * (r.heldCause % 32) + 2 ^ 8 * min r.retrains 255 + 2 ^ 16 * plane + 2 ^ 24 * (if on then portOf s l else 0xFF)

/-- Supply power of a lane's engine. -/
def laneSupply (s : State) (l : Nat) : Int × Int := tget s.heat.supply (engineOf l) (0, 0)

def laneFlagsWord (s : State) (l : Nat) : Nat :=
  let r := lane s l
  let e := engineOf l
  bit (r.st == .up) 0 + bit (r.st == .held) 1 + bit r.remapped.isSome 2 +
    bit (s.heat.laserLow.contains (2 * e) || s.heat.laserLow.contains (2 * e + 1)) 3 + bit r.retraining 4

def pairWord (a b : Int) : Nat := s16 a + 2 ^ 16 * s16 b

/-! ### Seams, die links and fabric tables (Tables 19-10 and 19-11) -/

def seamStatusWord (s : State) (m : Nat) : Nat :=
  let ws := (List.range 8).map fun i => (dlink s (256 + 8 * m + i)).width
  ws.countP (· == .fenced) + 2 ^ 8 * ws.countP (fun w => w == .lower || w == .upper) + bit (seamFenced s m) 16

def widthCode : Width → Nat
  | .full => 0 | .lower => 1 | .upper => 2 | .fenced => 3

/-- Link, direction and segment that DLINK_SEL names. -/
def selLink (v : Word) : Nat := bits v.toNat 8 0
def selDir (v : Word) : Nat := bits v.toNat 9 9
def selSeg (v : Word) : Nat := bits v.toNat 13 10
def selSegment (s : State) (v : Word) : Seg := seg (dirOf (dlink s (selLink v)) (selDir v)) (selSeg v)

def dlinkStateWord (s : State) (v : Word) : Nat :=
  let l := dlink s (selLink v)
  let g := selSegment s v
  widthCode l.width + 2 ^ 8 * min l.relinks 255 + 2 ^ 16 * min g.spares.length 17 + bit g.failed 21

def dlinkPhaseWord (s : State) (v : Word) : Nat :=
  sumNat ((List.range 5).map fun b => 64 ^ b * (phaseCode s (selLink v) (selDir v) (selSeg v) b % 64))

def dlinkMarginWord (s : State) (v : Word) : Nat :=
  (match (selSegment s v).margin with | some m => min m 0xFF | none => 0xFF) + 2 ^ 8 * (dlink s (selLink v)).band

def ftStatusWord (s : State) : Nat :=
  bit s.fabric.epoch 0 + bit s.fabric.oldValid 1 + bit s.fabric.armed 2 + bit s.fabric.inactiveComplete 3 + 2 ^ 16 * min (heldOld s) 0xFFFF

/-! ### Telemetry (Table 19-12) -/

/-- Fields of TEL_SEL. -/
def telCounter (v : Word) : Nat := bits v.toNat 3 0
def telVc (v : Word) : Nat := bits v.toNat 6 4
def telScope (v : Word) : Nat := bits v.toNat 9 8
def telDir (v : Word) : Nat := bits v.toNat 10 10
def telIndex (v : Word) : Nat := bits v.toNat 22 12

/-- Counter key of the port that TEL_SEL names. -/
def telPort (v : Word) : Nat := match telScope v with | 0 => laneCtr (telIndex v) | 1 => trayCtr (telIndex v) | _ => 2000 + telIndex v

/-- Link of a lane or tray port that TEL_SEL names. -/
def telLink (v : Word) : Nat := if telScope v = 1 then 144 + telIndex v else telIndex v

/-- The die link behind a mesh port: the tile's vertical link, or the bridge link of a seam crossing. -/
def telDieLink (v : Word) : Option (Nat × Nat) :=
  let t := telIndex v / 8
  let p := telIndex v % 8
  if p = 4 then some (t, 0) else (bridgeOf t p).map fun k => (k, if p = 2 ∨ p = 1 then 0 else 1)

/-- The selected counter (Table 11-4, row order 0 to 9); drops are the sum over the causes. -/
def telValue (s : State) (v : Word) : Nat :=
  let c := tget s.fabric.ctrs (telPort v) {}
  let mesh := telScope v = 2
  let r := lane s (telIndex v)
  let b := telVc v = 1
  match telCounter v with
  | 0 => tget c.flits (2 * telVc v + telDir v) 0
  | 1 => if mesh then fullness s (telIndex v / 8) (telIndex v % 8) (telVc v) else min (linkDepth s (telLink v) (telVc v)) 65535
  | 2 => tget c.depthHw (telVc v) 0
  | 3 => tget c.stall (telVc v) 0
  | 4 => if mesh then (match telDieLink v with | some (k, d) => (dirOf (dlink s k) d).retries | none => 0) else (link s (telLink v)).retries
  | 5 => if b then r.fecB else r.fecA
  | 6 => if b then r.uncB else r.uncA
  | 7 => if b then r.marginB else r.marginA
  | 8 => c.hopDrops + c.noRoute + c.oldEpoch + c.newEpoch + c.crcDrops +
      (if mesh then 0 else (link s (telLink v)).badCrc + (link s (telLink v)).overruns)
  | _ => c.escape

/-- The module-local tally that TALLY_SEL names (R134). -/
def selTally (s : State) (v : Word) : Tally := tallyOf s.job.lastLocal v.toNat

/-! ### Thermal and power, identity (Tables 19-13 and 19-14) -/

def quadStatusWord (s : State) (q : Nat) : Nat :=
  let n := notch s q
  notchInForce s q % 64 + (if s.dev.ring.isSome then 2 ^ 8 * (n.crownK % 1024) else 0) + 2 ^ 20 * hotBand s q +
    bit (s.dev.qLost.getLsbD q) 24 + bit s.heat.crownsOff 25 + 2 ^ 28 * (n.calm % 8)

def tripStatusWord (s : State) : Nat :=
  let low := !s.pins.thermTripN
  bit low 0 + 2 * (s.heat.tripSource % 4) + 2 ^ 8 * min s.heat.trips 255 + (if low then 2 ^ 16 * (1000 - s.heat.coolTicks) else 0)

/-- The sensor that SENSOR_SEL names (R745). -/
def selSensor (s : State) (v : Word) : Sensor :=
  let n := bits v.toNat 7 0
  match bits v.toNat 15 14 with
  | 0 => tget s.heat.crowns n {}
  | 1 => tget s.heat.roots n {}
  | 2 => tget s.heat.hbms n {}
  | _ => s.heat.lookout

def sensorInfoWord (r : Sensor) : Nat := signedField 1 r.offset + 2 ^ 8 * r.band + bit (isSuspect r) 12 + bit r.notSubst 13

/-- Fields of the identity block from the Bark read 0 until step 4, those from the ring until step 5 (R876). -/
def barkRead (s : State) : Bool := decide (4 ≤ s.dev.startStep)
def fromBark (s : State) (v : Nat) : Nat := if barkRead s then v else 0
def fromRing (s : State) (f : Ring → Nat) : Nat := match s.dev.ring with | some r => f r | none => 0

/-- What the Stump holds reads 0 until the control block is read, in the command that makes step 4 (Table 15-1, R718; log 62). -/
def fromStump (s : State) (v : Nat) : Nat := if barkRead s then v else 0

/-- LANE_DELAY: 0 before INIT (Table 19-9). -/
def laneDelayWord (s : State) (l : Nat) : Nat :=
  let r := lane s l
  if r.st = .disabled ∨ r.st = .down ∨ (r.st = .training ∧ r.retraining = false) then 0 else r.delay4 / 4

/-! ### All registers -/

/-- The value of a register, as path copy `v` sees it; `i` is the number of the window's tile, stack or lane. -/
def regValue (s : State) (v : View) (i : Nat) : Reg → Nat
  | .devId => 0x96400001 + 0x100 * variantCode s.bark.made.variant
  | .devState => devStateWord s
  | .devJob => s.job.tag.toNat + 2 ^ 16 * ownSlot s
  | .devEndpoint => (ownEndpoint s).toNat + bit (s.dev.ring.isSome && isFA s) 16
  | .devStep => s.job.step.toNat
  | .devMtc => if s.mtc.everLocked then s.mtc.value.toNat else 0
  | .devTick => s.heat.tick
  | .devEvents => s.regs.events.toNat
  | .faultHeld => s.faults.length
  | .faultSel => v.faultSel.toNat
  | .faultNew => s.regs.faultNew
  | .faultRec k => match v.faultRec with | some f => (recWord f k).toNat | none => 0
  | .devFenced k => mapWord s.stacking.fenced k
  | .devScratch => s.regs.scratch.toNat
  | .groupMask g k => mapWord (tget s.regs.groupMask g 0) k
  | .win e k => field (tget s.remote.staged e noWindow) (4 * k) 4
  | .tileFlags => tileFlagsWord s i
  | .tileSlots => tileSlotsWord s i
  | .tileTemp => tileTempWord s i
  | .tileSramUncorr => (tile s i).uncorr
  | .tileSramCorr => (tile s i).corr
  | .tileScrub => tget s.mem.scrub (scrubKey i 0) 0
  | .tileArrayBusy => if crownShown s i then (tile s i).arrayBusy else 0
  | .tileCtr c => (ctr s (tileCtr i c)).value % 2 ^ 31 + bit (ctr s (tileCtr i c)).isFlag 31
  | .hbmFlags => hbmFlagsWord s i
  | .hbmTemp => hbmTempWord s i
  | .hbmRetired => (hbm s i).retired.length
  | .hbmUncorr => (hbm s i).uncorr
  | .hbmCorr => (hbm s i).corr
  | .hbmPatrol => (hbm s i).patrol
  | .hbmRdBytes => (hbm s i).readBytes
  | .hbmWrBytes => (hbm s i).writeBytes
  | .laneState => laneStateWord s i
  | .laneFlags => laneFlagsWord s i
  | .laneMargin => (lane s i).marginA % 256 + 2 ^ 8 * ((lane s i).marginB % 256)
  | .lanePower => pairWord (lane s i).powA (lane s i).powB
  | .laneDelay => laneDelayWord s i
  | .lanePartner => (lane s i).partner.toNat
  | .laneSupply => pairWord (laneSupply s i).1 (laneSupply s i).2
  | .seamStatus m => seamStatusWord s m
  | .dlinkSel => v.dlinkSel.toNat
  | .dlinkState => dlinkStateWord s v.dlinkSel
  | .dlinkPhase => dlinkPhaseWord s v.dlinkSel
  | .dlinkMargin => dlinkMarginWord s v.dlinkSel
  | .dlinkRetry => (dirOf (dlink s (selLink v.dlinkSel)) (selDir v.dlinkSel)).retries
  | .ftStatus => ftStatusWord s
  | .ftSel => v.ftSel.toNat
  | .ftData => 0
  | .ftSwitch => s.regs.ftSwitchLo.toNat + 2 ^ 32 * s.regs.ftSwitchHi.toNat
  | .ftCommit => 0
  | .ftDigest => s.fabric.digest.toNat
  | .telSel => v.telSel.toNat
  | .telData => telValue s v.telSel
  | .telTick => s.heat.telTick
  | .tallySel => v.tallySel.toNat
  | .tallyConv => (selTally s v.tallySel).converted
  | .tallySat => (selTally s v.tallySel).saturated
  | .tallyUf => (selTally s v.tallySel).underflowed
  | .tallyMaxabs => (selTally s v.tallySel).maxAbs
  | .pwrModule => s.heat.power % 2 ^ 16 + 2 ^ 16 * (s.pins.v48 % 2 ^ 16)
  | .pwrLimit => fromRing s fun _ => limitInForce s % 2 ^ 16 + 2 ^ 16 * (ringLimit s % 2 ^ 16)
  | .pwrRuntime => s.heat.runtimeNext
  | .quadStatus q => quadStatusWord s q
  | .tripStatus => tripStatusWord s
  | .sensorSel => v.sensorSel.toNat
  | .sensorValue => temp16 (selSensor s v.sensorSel).value + 2 ^ 16 * temp16 (selSensor s v.sensorSel).reading
  | .sensorInfo => sensorInfoWord (selSensor s v.sensorSel)
  | .idSerial k => fromBark s (s.bark.made.serial.toNat / 2 ^ (32 * k) % 2 ^ 32)
  | .idVariant => fromBark s (variantCode s.bark.made.variant + 2 ^ 8 * popcount 256 (enabledTiles s.bark.made).toNat)
  | .idMac => fromBark s s.bark.made.macHost.toNat
  | .idWardenRom => if s.dev.startStep = 0 then 0 else Config.wardenRom.toNat
  | .idCruiseRom => if s.dev.startStep = 0 ∨ isFA s then 0 else Config.cruiseRom.toNat
  | .idRingGen => fromRing s (·.generation)
  | .idFloor => fromStump s (recordFloor s)
  | .idControlFloor => fromStump s s.stump.controlFloor
  | .idStartCount => fromStump s s.stump.startCount
  | .idMachine => fromRing s (·.machineId.toNat)
  | .idEnabled k => fromBark s (mapWord (enabledTiles s.bark.made) k)

end Sys2Proof.Machine
end

