-- ==== Sys2Proof/Machine/Registers.lean ====
section
/-! DEFINITION. Access to the register map (Chapter 19): windows, checks, reads, writes, and the register commands. -/
namespace Sys2Proof.Machine

/-! ### Windows (Table 19-2) -/

/-- A window of the control space. -/
inductive Window where
  | device | tile (t : Nat) | tiles | group (g : Nat) | stack (m : Nat) | allStacks | lane (l : Nat) | lanes
  | seams | fabric | telemetry | thermal | identity
  deriving DecidableEq, Repr

/-- Window and offset of an address (Table 19-2). -/
def windowOf (s : State) (a : Nat) : Option (Window × Nat) :=
  if a < 0x10000 then some (.device, a)
  else if a < 0x01000000 then none
  else if a < 0x02000000 then some (.tile ((a - 0x01000000) / 0x10000), a % 0x10000)
  else if a < 0x02010000 then some (.tiles, a % 0x10000)
  else if a < 0x02100000 then none
  else if a < 0x02200000 then some (.group ((a - 0x02100000) / 0x10000), a % 0x10000)
  else if a < 0x03000000 then none
  else if a < 0x03100000 then (if isFA s then none else some (.stack ((a - 0x03000000) / 0x10000), a % 0x10000))
  else if a < 0x03110000 then (if isFA s then none else some (.allStacks, a % 0x10000))
  else if a < 0x04000000 then none
  else if a < 0x04090000 then some (.lane ((a - 0x04000000) / 0x1000), a % 0x1000)
  else if a < 0x04F00000 then none
  else if a < 0x04F01000 then some (.lanes, a % 0x1000)
  else if a < 0x05000000 then none
  else if a < 0x05010000 then some (.seams, a % 0x10000)
  else if a < 0x06000000 then none
  else if a < 0x06010000 then some (.fabric, a % 0x10000)
  else if a < 0x08000000 then none
  else if a < 0x08010000 then some (.telemetry, a % 0x10000)
  else if a < 0x09000000 then none
  else if a < 0x09010000 then some (.thermal, a % 0x10000)
  else if a < 0x0A000000 then none
  else if a < 0x0A010000 then some (.identity, a % 0x10000)
  else none

/-- Windows of the lookout domain; the others are V48 (Table 19-2). -/
def isLookoutWindow : Window → Bool
  | .device => true | .thermal => true | .identity => true
  | .tile _ => false | .tiles => false | .group _ => false | .stack _ => false | .allStacks => false | .lane _ => false | .lanes => false
  | .seams => false | .fabric => false | .telemetry => false

/-- The quadrant to which a window belongs (R858). -/
def windowQuad : Window → Option Nat
  | .tile t => some (quadOf t)
  | .stack m => some (stackQuad m)
  | .lane l => some (laneQuad l)
  | .device => none | .tiles => none | .group _ => none | .allStacks => none | .lanes => none
  | .seams => none | .fabric => none | .telemetry => none | .thermal => none | .identity => none

/-- Tile, stack or lane number of a window, and the members of a broadcast window (R860). -/
def windowIndex : Window → Nat
  | .tile t => t | .stack m => m | .lane l => l
  | .device => 0 | .tiles => 0 | .group _ => 0 | .allStacks => 0 | .lanes => 0
  | .seams => 0 | .fabric => 0 | .telemetry => 0 | .thermal => 0 | .identity => 0

def members (s : State) : Window → Option (List Nat)
  | .tiles => some ((List.range 256).filter (inMap s))
  | .group g => some ((List.range 256).filter fun t => inMap s t && (tget s.regs.groupMask g 0).getLsbD t)
  | .allStacks => some (List.range 16)
  | .lanes => some ((List.range 144).filter fun l => (lane s l).st != .disabled)
  | .device => none | .tile _ => none | .stack _ => none | .lane _ => none
  | .seams => none | .fabric => none | .telemetry => none | .thermal => none | .identity => none

/-! ### Registers by offset -/

/-- The word of a register: the whole register, or the low or high word of a pair (R853). -/
inductive Half where
  | whole | lo | hi
  deriving DecidableEq, Repr

/-- Both words of a pair at offset `x`. -/
def pairAt (r : Reg) (x off : Nat) : Option (Reg × Half) :=
  if off = x then some (r, .lo) else if off = x + 4 then some (r, .hi) else none

/-- Register `n` of a run of words from offset `x`. -/
def runAt4 (f : Nat → Reg) (x n off : Nat) : Option (Reg × Half) :=
  if x ≤ off ∧ off < x + 4 * n then some (f ((off - x) / 4), .whole) else none

/-- Single registers by offset. -/
def one (rs : List (Nat × Reg)) (off : Nat) : Option (Reg × Half) := (rs.find? fun e => e.1 == off).map fun e => (e.2, .whole)

/-- Table 19-4. -/
def deviceReg (off : Nat) : Option (Reg × Half) :=
  one [(0x00, .devId), (0x04, .devState), (0x08, .devJob), (0x0C, .devEndpoint), (0x28, .devEvents), (0x2C, .faultHeld),
    (0x30, .faultSel), (0x34, .faultNew), (0x80, .devScratch)] off
  <|> pairAt .devStep 0x10 off <|> pairAt .devMtc 0x18 off <|> pairAt .devTick 0x20 off
  <|> runAt4 .faultRec 0x40 8 off <|> runAt4 .devFenced 0x60 8 off
  <|> runAt4 (fun n => .groupMask (n / 8) (n % 8)) 0x200 128 off <|> runAt4 (fun n => .win (n / 4) (n % 4)) 0x400 256 off

/-- Table 19-6. -/
def tileReg (off : Nat) : Option (Reg × Half) :=
  one [(0x00, .tileFlags), (0x04, .tileSlots), (0x08, .tileTemp), (0x0C, .tileSramUncorr), (0x18, .tileScrub)] off
  <|> pairAt .tileSramCorr 0x10 off <|> pairAt .tileArrayBusy 0x20 off <|> runAt4 .tileCtr 0x100 256 off

/-- Table 19-8. -/
def stackReg (off : Nat) : Option (Reg × Half) :=
  one [(0x00, .hbmFlags), (0x04, .hbmTemp), (0x08, .hbmRetired), (0x0C, .hbmUncorr), (0x18, .hbmPatrol)] off
  <|> pairAt .hbmCorr 0x10 off <|> pairAt .hbmRdBytes 0x20 off <|> pairAt .hbmWrBytes 0x28 off

/-- Table 19-9. -/
def laneReg (off : Nat) : Option (Reg × Half) :=
  one [(0x00, .laneState), (0x04, .laneFlags), (0x08, .laneMargin), (0x0C, .lanePower), (0x10, .laneDelay), (0x14, .lanePartner),
    (0x18, .laneSupply)] off

/-- Table 19-10. -/
def seamReg (off : Nat) : Option (Reg × Half) :=
  one [(0x00, .seamStatus 0), (0x10, .seamStatus 1), (0x20, .seamStatus 2), (0x30, .seamStatus 3), (0x1000, .dlinkSel),
    (0x1004, .dlinkState), (0x1008, .dlinkPhase), (0x100C, .dlinkMargin), (0x1010, .dlinkRetry)] off

/-- Table 19-11. -/
def fabricReg (off : Nat) : Option (Reg × Half) :=
  one [(0x00, .ftStatus), (0x04, .ftSel), (0x08, .ftData), (0x14, .ftCommit)] off <|> pairAt .ftSwitch 0x0C off <|> pairAt .ftDigest 0x18 off

/-- Table 19-12. -/
def telemetryReg (off : Nat) : Option (Reg × Half) :=
  one [(0x00, .telSel), (0x0C, .telTick), (0x100, .tallySel), (0x11C, .tallyMaxabs)] off
  <|> pairAt .telData 0x04 off <|> pairAt .tallyConv 0x104 off <|> pairAt .tallySat 0x10C off <|> pairAt .tallyUf 0x114 off

/-- Table 19-13. -/
def thermalReg (off : Nat) : Option (Reg × Half) :=
  one [(0x00, .pwrModule), (0x04, .pwrLimit), (0x08, .pwrRuntime), (0x20, .tripStatus), (0x30, .sensorSel), (0x34, .sensorValue),
    (0x38, .sensorInfo)] off <|> runAt4 .quadStatus 0x10 4 off

/-- Table 19-14. -/
def identityReg (off : Nat) : Option (Reg × Half) :=
  one [(0x10, .idVariant), (0x1C, .idWardenRom), (0x20, .idCruiseRom), (0x24, .idRingGen), (0x28, .idFloor), (0x2C, .idControlFloor),
    (0x30, .idStartCount)] off
  <|> runAt4 .idSerial 0x00 4 off <|> pairAt .idMac 0x14 off <|> pairAt .idMachine 0x34 off <|> runAt4 .idEnabled 0x40 8 off

/-- The register at an offset of a window; offsets are multiples of 4 (R850, R857). -/
def regAt (w : Window) (off : Nat) : Option (Reg × Half) :=
  if off % 4 ≠ 0 then none
  else match w with
    | .device => deviceReg off
    | .tile _ => tileReg off
    | .tiles => tileReg off
    | .group _ => tileReg off
    | .stack _ => stackReg off
    | .allStacks => stackReg off
    | .lane _ => laneReg off
    | .lanes => laneReg off
    | .seams => seamReg off
    | .fabric => fabricReg off
    | .telemetry => telemetryReg off
    | .thermal => thermalReg off
    | .identity => identityReg off

/-! ### Path copies (R853, R854) -/

/-- The Warden protocol shares one copy; each Hauler connection has its own; JTAG has one. -/
def viewKey : Path → Path
  | .warden _ => .warden 0
  | .hauler c => .hauler c
  | .jtag => .jtag

def viewOf (s : State) (p : Path) : View := ((s.regs.views.find? fun e => e.1 == viewKey p).map (·.2)).getD {}
def setView (p : Path) (v : View) (s : State) : State :=
  { s with regs.views := (s.regs.views.filter fun e => e.1 != viewKey p) ++ [(viewKey p, v)] }

/-- A session, connection or Test-Logic-Reset begins: selectors 0, the newest record copied (R854, R865). -/
def beginView (p : Path) (s : State) : State := setView p { faultRec := s.faults.head? } s

/-- Code of a path in fault details, and the Hauler connection or 0xFFFF. -/
def pathCode : Path → Nat
  | .warden _ => 0 | .hauler _ => 1 | .jtag => 2
def pathPeer : Path → Nat
  | .hauler c => c | .warden _ => 0xFFFF | .jtag => 0xFFFF

/-! ### Checks -/

/-- Why a register access is refused: code, the address, whether it writes, the value written, the cause of ERR_REG_OFF and the members of a
broadcast. -/
structure RegFail where
  code : Nat
  addr : Nat
  write : Bool
  value : Nat := 0
  cause : Nat := 0
  members : Nat := 0
  deriving DecidableEq, Repr

/-- A register of the V48 domain is off (R858): the cause, or 0. -/
def offCause (s : State) (w : Window) : Nat :=
  if isLookoutWindow w then 0
  else if s.dev.st = .lookout ∨ !s.pins.v48On ∨ !s.pins.modRstN then 1
  else match windowQuad w with
    | some q => if s.dev.qLost.getLsbD q then 2 else 0
    | none => 0

/-- Selector registers (R854), and the controls of Table 19-3. -/
def isSelector : Reg → Bool
  | .faultSel => true | .dlinkSel => true | .ftSel => true | .telSel => true | .tallySel => true | .sensorSel => true
  | _ => false
def isControl (r : Reg) : Bool :=
  isSelector r || match r with
    | .devScratch => true | .devEvents => true | .groupMask _ _ => true | .win _ _ => true | .ftData => true | .ftSwitch => true
    | .ftCommit => true | .pwrRuntime => true | _ => false

/-- Paths that Table 19-3 gives a control. -/
def pathAllows (r : Reg) : Path → Bool
  | .warden _ => true
  | .hauler _ => r != .pwrRuntime
  | .jtag => r == .devScratch || isSelector r

/-- States in which Table 19-3 accepts a write (R562, R862). -/
def stateAllows (s : State) (r : Reg) : Bool :=
  let awake := s.dev.st != .lookout && s.dev.st != .starting
  match r with
  | .groupMask _ _ => awake
  | .win _ _ => s.dev.st == .ready || s.dev.st == .loading
  | .ftData => awake
  | .ftSwitch => awake
  | .ftCommit => awake
  | .pwrRuntime => s.dev.st != .lookout
  | _ => true

/-- TEL_SEL names an item that exists (R873). -/
def telOk (s : State) (v : Word) : Bool :=
  let c := telCounter v
  let i := telIndex v
  decide (v.toNat < 2 ^ 23) && !v.getLsbD 7 && !v.getLsbD 11 && decide (c ≤ 9) &&
  (match telScope v with
    | 0 => decide (i < 144)
    | 1 => decide (i < 4) && !isFA s
    | 2 => decide (i / 8 < 256) && decide (i % 8 < 5)
    | _ => false) &&
  (if c ≤ 3 then decide (telVc v ≤ 5) else if 5 ≤ c ∧ c ≤ 7 then decide (telVc v ≤ 1) && telScope v == 0 else telVc v == 0)

/-- SENSOR_SEL names a sensor of the module (R745). -/
def sensorOk (s : State) (v : Word) : Bool :=
  let n := bits v.toNat 7 0
  decide (v.toNat < 2 ^ 16) && bits v.toNat 13 8 == 0 &&
  match bits v.toNat 15 14 with
  | 0 => !isFA s
  | 1 => true
  | 2 => !isFA s && decide (n < 16)
  | _ => n == 0

/-- FT_SWITCH of this state lies at least 10 ms after the MTC (R871). -/
def switchTime (s : State) : Nat := s.regs.ftSwitchLo.toNat + 2 ^ 32 * s.regs.ftSwitchHi.toNat

/-- The value lies in the range that Chapter 19 gives the field (R864, R868, R869, R871, R873, R874). -/
def valueOk (s : State) (r : Reg) (v : Word) : Bool :=
  match r with
  | .faultSel => decide (v.toNat < 256)
  | .dlinkSel => decide (v.toNat < 2 ^ 14) && hasLink s (selLink v)
  | .ftSel => decide (v.toNat < 3 * 2 ^ 16)
  | .ftData => decide (v.toNat < 2 ^ 16)
  | .ftCommit => v == 1 && decide (s.mtc.value.toNat + 10000000 ≤ switchTime s)
  | .telSel => telOk s v
  | .sensorSel => sensorOk s v
  | .pwrRuntime => v == 0 || (decide (1000 ≤ v.toNat) && decide (v.toNat ≤ ringLimit s))
  | .win _ k => k != 3 || decide (v.toNat < 2 ^ 21)
  | _ => true

/-- OR-readable registers (R861). -/
def orReadable (r : Reg) : Bool := r == .tileFlags || r == .hbmFlags || r == .laneFlags

/-- The register that an access reaches, or why it is refused: unmapped, off, path, state, busy table, value (R851, R856 to R874). -/
def checkAccess (s : State) (p : Path) (a : Nat) (write : Option Word) : RegFail ⊕ (Window × Reg × Half) :=
  let fail := fun (code cause n : Nat) => (Sum.inl { code, addr := a, write := write.isSome, value := (write.getD 0).toNat, cause, members := n })
  match windowOf s a with
  | none => fail errRegUnmapped 0 0
  | some (w, off) =>
    match regAt w off with
    | none => fail errRegUnmapped 0 0
    | some (r, h) =>
      if offCause s w ≠ 0 then fail errRegOff (offCause s w) 0
      else match write with
        | none =>
          match members s w with
          | some ms => if orReadable r then .inr (w, r, h) else fail errBcastRead 0 ms.length
          | none => .inr (w, r, h)
        | some v =>
          if !isControl r then .inr (w, r, h)
          else if !pathAllows r p then fail errRegPath 0 0
          else if !stateAllows s r then fail errStateConflict 0 0
          else if r = .ftData ∧ (s.fabric.oldValid ∨ s.fabric.armed) then fail errTableBusy 0 0
          else if !valueOk s r v then fail errRegValue 0 0
          else .inr (w, r, h)

/-! ### Reads -/

/-- Word of a register's value. -/
def halfWord (h : Half) (n : Nat) : Word :=
  match h with
  | .whole => BitVec.ofNat 32 n
  | .lo => BitVec.ofNat 32 n
  | .hi => BitVec.ofNat 32 (n / 2 ^ 32)

/-- What a read does besides reading: FAULT_NEW clears (RC), and a selected depth_hw clears with TEL_DATA_LO (R872). -/
def afterRead (v : View) (r : Reg) (h : Half) (s : State) : State :=
  match r, h with
  | .faultNew, _ => { s with regs.faultNew := 0 }
  | .telData, .lo =>
    if telCounter v.telSel = 2 then countPort (telPort v.telSel) (fun c => { c with depthHw := tset c.depthHw (telVc v.telSel) 0 0 }) s else s
  | _, _ => s

/-- One register read at address `a`: OR over the members of a broadcast window (R861), the latched word of a pair (R853). -/
def readOne (p : Path) (a : Nat) (w : Window) (r : Reg) (h : Half) (s : State) : Word × State :=
  let v := viewOf s p
  match members s w with
  | some ms =>
    (BitVec.ofNat 32 (ms.foldl (fun x i => x ||| regValue s v i r) 0), setView p { v with latch := none } s)
  | none =>
    let n := regValue s v (windowIndex w) r
    let latch := if h = .lo then some (a, halfWord .hi n) else none
    let x := match h, v.latch with
      | .hi, some (b, hi) => if b + 4 = a then hi else halfWord .hi n
      | _, _ => halfWord h n
    (x, afterRead v r h (setView p { v with latch } s))

/-! ### Writes -/

/-- Puts an entry into a table of the inactive copy (R507, R869). -/
def putEntry (table idx e : Nat) (t : Tables) : Tables :=
  match table with
  | 0 => { t with down := tset t.down idx e 0xFFFF }
  | 1 => { t with flume := tset t.flume idx e 0xFFFF }
  | _ => { t with ctrl := tset t.ctrl idx e 0xFFFF }

/-- FT_DATA (R507, R869): the entry goes into the inactive copy, and the path's index advances. -/
def writeEntry (p : Path) (v : Word) (s : State) : State :=
  let view := viewOf s p
  let idx := bits view.ftSel.toNat 15 0
  let s := setView p { view with ftSel := BitVec.ofNat 32 (2 ^ 16 * (view.ftSel.toNat / 2 ^ 16) + (idx + 1) % 2 ^ 16) } s
  let put := putEntry (bits view.ftSel.toNat 17 16) idx v.toNat
  if s.fabric.epoch then { s with fabric.copy0 := put s.fabric.copy0, fabric.changing := true }
  else { s with fabric.copy1 := put s.fabric.copy1, fabric.changing := true }

/-- WIN (R866): words 0 to 2 are staged; word 3 makes the whole entry take effect. -/
def writeWin (e k : Nat) (v : Word) (s : State) : State :=
  let bs := splice (tget s.remote.staged e noWindow) (4 * k) (leBytes 4 v.toNat)
  let s := { s with remote.staged := tset s.remote.staged e bs noWindow }
  if k = 3 then { s with remote.windows := tset s.remote.windows e (winOf bs) ⟨0, 0, 0, 0⟩ } else s

/-- Effect of a write (Table 19-3); a write to any other register is ignored (R11, R862). -/
def writeOne (p : Path) (r : Reg) (h : Half) (x : Word) (s : State) : State :=
  let v := viewOf s p
  match r with
  | .devScratch => { s with regs.scratch := x }
  | .devEvents => { s with regs.events := s.regs.events &&& ~~~x }
  | .faultSel => setView p { v with faultSel := x, faultRec := s.faults[x.toNat]? } s
  | .dlinkSel => setView p { v with dlinkSel := x } s
  | .ftSel => setView p { v with ftSel := x } s
  | .telSel => setView p { v with telSel := x } s
  | .tallySel => setView p { v with tallySel := x } s
  | .sensorSel => setView p { v with sensorSel := x } s
  | .groupMask g k =>
    let m := (tget s.regs.groupMask g 0).toNat
    let m := m - 2 ^ (32 * k) * (m / 2 ^ (32 * k) % 2 ^ 32) + 2 ^ (32 * k) * x.toNat
    { s with regs.groupMask := tset s.regs.groupMask g (BitVec.ofNat 256 m) 0 }
  | .win e k => writeWin e k x s
  | .ftData => writeEntry p x s
  | .ftSwitch => if h = .hi then { s with regs.ftSwitchHi := x } else { s with regs.ftSwitchLo := x }
  | .ftCommit =>
    { s with fabric.inactiveComplete := true, fabric.armed := true, fabric.changing := true, fabric.switchTime := BitVec.ofNat 64 (switchTime s) }
  | .pwrRuntime => { s with heat.runtimeNext := x.toNat }
  | _ => s

/-! ### Requests -/

/-- Reads `n` registers from `a`, or the first refusal (R851). -/
def readMany (p : Path) : Nat → Nat → State → RegFail ⊕ (List Word × State)
  | 0, _, s => .inr ([], s)
  | n + 1, a, s =>
    match checkAccess s p a none with
    | .inl f => .inl f
    | .inr (w, r, h) =>
      let (x, s) := readOne p a w r h s
      match readMany p n (a + 4) s with
      | .inl f => .inl f
      | .inr (xs, s) => .inr (x :: xs, s)

/-- Writes the values from `a` on, or the first refusal (R851). -/
def writeMany (p : Path) : List Word → Nat → State → RegFail ⊕ State
  | [], _, s => .inr s
  | x :: xs, a, s =>
    match checkAccess s p a (some x) with
    | .inl f => .inl f
    | .inr (_, r, h) => writeMany p xs (a + 4) (writeOne p r h x s)

/-- Detail of a refusal (Tables 11-6, 17-8, 19-15). -/
def failDetail (s : State) (p : Path) (f : RegFail) (n : Nat) : List Byte :=
  let path := (pathCode p, 1)
  if f.code = errBcastRead then detail [path, (0, 1), (f.members, 2), (n, 4)]
  else if f.code = errRegUnmapped then detail [path, (if f.write then 1 else 0, 1), (0, 2), (n, 4)]
  else if f.code = errRegOff then detail [path, (f.cause, 1), (stCode s.dev.st, 1), (0, 1), (n, 4)]
  else if f.code = errStateConflict then detail [(stCode s.dev.st, 1)]
  else if f.code = errTableBusy then detail [(s.fabric.switchTime.toNat, 8), (heldOld s, 4)]
  else detail [path, (0, 3), (f.value, 4), (n, 4)]

/-- Notes a refusal for the tick's record: one per code, naming the last request refused with it (R877). -/
def noteRefused (p : Path) (op : Nat) (f : RegFail) (s : State) : State :=
  let n := ((s.regs.refused.find? fun e => e.2.code.toNat == f.code).map (·.1)).getD 0 + 1
  let obj := if f.code = errStateConflict then op else if f.code = errTableBusy then 0 else f.addr
  let r := mkRec s f.code (if f.code = errTableBusy then uTile else uDevice) 0 obj (pathPeer p) (failDetail s p f n)
  { s with regs.refused := (s.regs.refused.filter fun e => e.2.code.toNat != f.code) ++ [(n, r)] }

/-- A register request (R851): all of it is checked before any of it is performed. Answers the status, the words read and the state. -/
def accessRegs (p : Path) (op : Nat) (write : Bool) (a count : Nat) (values : List Word) (s : State) : Nat × List Word × State :=
  if count = 0 ∨ 64 < count ∨ (write ∧ values.length ≠ count) then
    (errRegValue, [], noteRefused p op { code := errRegValue, addr := a, write, value := count } s)
  else if write then
    match writeMany p values a s with
    | .inl f => (f.code, [], noteRefused p op f s)
    | .inr s => (0, [], s)
  else
    match readMany p count a s with
    | .inl f => (f.code, [], noteRefused p op f s)
    | .inr (xs, s) => (0, xs, s)

/-- A path reaches the register map (Table 19-1, R792, R807): a Warden session after a ring is verified, an open Hauler connection with
permission outside STARTING, JTAG while the lookout runs. -/
def pathReaches (s : State) (write : Bool) : Path → Bool
  | .warden k => lookoutUp s && s.hauler.sessions.contains k && s.dev.ring.isSome
  | .hauler k =>
    thas s.hauler.conns k && s.dev.st != .starting && s.dev.st != .lookout && decide ((if write then 3 else 2) ≤ orDefault (policy s).haulerRegisters 2)
  | .jtag => lookoutUp s

/-- One register access given as a command of its own: performed when the path reaches the map, its outcome sent on that path. -/
def registerCommand (p : Path) (write : Bool) (a : Nat) (values : List Word) (s : State) : Host.Outcome State Fault Refusal :=
  .next (
    if pathReaches s write p then
      let op := match p with | .warden _ => 0x4E | .hauler _ => if write then 9 else 8 | .jtag => 0
      let (st, xs, s) := accessRegs p op write a 1 values s
      emit (.register p (BitVec.ofNat 16 st) xs) s
    else s)

/-- REGISTER_WRITE (R856 to R864): one write on a path. -/
def execRegisterWrite (p : Path) (addr value : Word) (s : State) : Host.Outcome State Fault Refusal :=
  registerCommand p true addr.toNat [value] s

/-- DEV_EVENTS (Table 19-4): write of the W1C register. -/
def execDevEvents (p : Path) (value : Word) (s : State) : Host.Outcome State Fault Refusal := registerCommand p true 0x28 [value] s

/-- FAULT_SEL (R865): the selected record is copied into the path's view. -/
def execFaultSel (p : Path) (value : Word) (s : State) : Host.Outcome State Fault Refusal := registerCommand p true 0x30 [value] s

/-- FAULT_NEW (Table 19-4): the count of records, cleared by the read. -/
def execFaultNew (p : Path) (s : State) : Host.Outcome State Fault Refusal := registerCommand p false 0x34 [] s

/-- WIN (R562, R866): word `k` of window entry `e`. -/
def execWin (p : Path) (e : Fin 64) (k : Fin 4) (value : Word) (s : State) : Host.Outcome State Fault Refusal :=
  registerCommand p true (0x400 + 16 * e.val + 4 * k.val) [value] s

/-- FT_DATA (R869, R870): an entry of the inactive copy. -/
def execFtData (p : Path) (value : Word) (s : State) : Host.Outcome State Fault Refusal := registerCommand p true 0x06000008 [value] s

/-- FT_COMMIT (R870, R871): the inactive copy is complete and the switch armed. -/
def execFtCommit (p : Path) (value : Word) (s : State) : Host.Outcome State Fault Refusal := registerCommand p true 0x06000014 [value] s

/-- PWR_RUNTIME (R874, R875): the run-time power limit from the next tick on. -/
def execPwrRuntime (p : Path) (value : Word) (s : State) : Host.Outcome State Fault Refusal := registerCommand p true 0x09000008 [value] s

/-- DLINK_SEL (R868): link, direction and segment that the path's DLINK registers show. -/
def execDlinkSel (p : Path) (value : Word) (s : State) : Host.Outcome State Fault Refusal := registerCommand p true 0x05001000 [value] s

/-- TEL_SEL (R873): the counter that the path's TEL_DATA shows. -/
def execTelSel (p : Path) (value : Word) (s : State) : Host.Outcome State Fault Refusal := registerCommand p true 0x08000000 [value] s

/-- TEL_DATA_LO (R872): the selected counter's low word; a selected depth_hw clears. -/
def execTelDataLo (p : Path) (s : State) : Host.Outcome State Fault Refusal := registerCommand p false 0x08000004 [] s

/-- PAIR_LO_READ (R853): a read of a _LO word, which latches its _HI word for the path. -/
def execPairLoRead (p : Path) (addr : Word) (s : State) : Host.Outcome State Fault Refusal := registerCommand p false addr.toNat [] s

/-- BROADCAST_READ (R861): the OR over the members of a broadcast window. -/
def execBroadcastRead (p : Path) (addr : Word) (s : State) : Host.Outcome State Fault Refusal := registerCommand p false addr.toNat [] s

end Sys2Proof.Machine
end

