-- ==== Sys2Proof/Machine/Warden.lean ====
section
/-! DEFINITION. The Warden protocol (Tables 17-7 and 08-5): status, ledger, telemetry, rings, floor records, owner keys, quotes, the IEEE 1500
operations, the idle-time exerciser, release from quarantine, window entries and register access. -/
namespace Sys2Proof.Machine

/-! ### Sessions and refusals (R807) -/

/-- A Warden-protocol request of an open session (R807): before a ring is verified only the status, ledger, quote and enrolment operations
(`early`) are accepted, from any peer; after that every operation, from the ring's management peers only. -/
def wardenRequest (r : WReq) (op : Nat) (early : Bool) (f : State → State) (s : State) : Host.Outcome State Fault Refusal :=
  .next (
    if !lookoutUp s || decide (s.dev.startStep < 2) || !s.hauler.sessions.contains r.session then s
    else match s.dev.ring with
      | none => if early then f s else refuseWarden r op s
      | some ring => if ring.peers.contains r.peer then f s else s)

/-- A request whose fields lie outside their range: ERR_HAULER_INVALID, no change. -/
def invalidWarden (r : WReq) (op off : Nat) (s : State) : State :=
  wardenReply r errHaulerInvalid [] (raise errHaulerInvalid uDevice 0 op 0xFFFF (detail [(r.msg.toNat, 4), (off, 4)]) s)

/-- READY or QUARANTINED. -/
def readyOrQuarantined (s : State) : Bool := s.dev.st == .ready || s.dev.st == .quarantined

/-! ### Status (R809, Table 17-3) -/

/-- Image ID of the image held, or 0. -/
def heldImage (s : State) : DWord := match s.job.image with | some im => im.id | none => 0

/-- Body of a QUERY of kind 0 (Table 17-3). -/
def statusBody (s : State) : List Byte :=
  leBytes 2 (stCode s.dev.st) ++ leBytes 2 s.job.tag.toNat ++ leBytes 8 s.job.step.toNat ++ leBytes 8 (heldImage s).toNat ++
    leBytes 4 s.faults.length

/-- What an all-nodes status request is answered with (R809). -/
def presenceBody (s : State) : List Byte :=
  leBytes 16 s.bark.made.serial.toNat ++ leBytes 1 (stCode s.dev.st) ++ leBytes 6 s.bark.made.macHost.toNat ++ leBytes 6 s.bark.made.macA.toNat ++
    leBytes 6 s.bark.made.macB.toNat

/-- WARDEN_STATUS (R807, R809): the status and the fault records, newest first; an all-nodes request is answered in every state. -/
def execWardenStatus (r : WReq) (multicast : Bool) (s : State) : Host.Outcome State Fault Refusal :=
  if multicast then
    .next (if lookoutUp s && decide (2 ≤ s.dev.startStep) then wardenReply r 0 (presenceBody s) s else s)
  else wardenRequest r 0x41 true (fun s => wardenReply r 0 (statusBody s ++ s.faults.flatMap recBytes) s) s

/-! ### The ledger (R775 to R781) -/

/-- A record followed by the CRC-32 over it. -/
def withCrc (bs : List Byte) : List Byte := bs ++ leBytes 4 (crc32 bs)

/-- A die is part of the module: a ULS-9640-FA has no crowns and no stacks. -/
def diePresent (s : State) (d : Nat) : Bool := !isFA s || (decide (4 ≤ d) && decide (d < 12))

/-- Directory entry of a die (Table 16-13). -/
def directoryEntry (s : State) (d : Nat) : List Byte :=
  if d < 28 then
    withCrc (leBytes 8 (nth s.bark.made.fingerprints d 0).toNat ++ leBytes 1 (if diePresent s d then 1 else 0) ++ List.replicate 51 0)
  else List.replicate 64 0

/-- Summary of a die (Table 16-14). -/
def summaryBytes (s : State) (d : Nat) (m : Summary) : List Byte :=
  let q := d - 4
  let margins := fun (t : Table Nat) => (List.range 72).flatMap fun i => if 4 ≤ d ∧ d < 8 then leBytes 1 (tget t (72 * q + i) 0) else [0]
  withCrc (leBytes 8 (nth s.bark.made.fingerprints d 0).toNat ++ leBytes 8 m.ticks ++ leBytes 8 m.corrected ++ leBytes 8 m.uncorrected ++
    ((List.range 5).flatMap fun b => leBytes 8 (nth m.bandTicks b 0)) ++ ((List.range 5).flatMap fun b => leBytes 8 (nth m.notchTicks b 0)) ++
    leBytes 4 m.trips ++ leBytes 4 m.suspects ++ leBytes 4 m.shadow ++ leBytes 4 m.replica ++ leBytes 4 m.repairs ++ leBytes 4 m.fences ++
    leBytes 4 m.notLogged ++ leBytes 1 m.lowMargin ++ [0] ++ leBytes 2 m.noMargin ++
    ((List.range 64).flatMap fun i => leBytes 1 (signedField 1 (tget m.offsets i 0))) ++ margins m.laneMargins ++ margins m.lastMargins ++
    List.replicate 156 0)

/-- One of the 128 summary blocks: the block whose sequence number falls on the place, or an empty one (Table 16-13). -/
def blockBytes (s : State) (place : Nat) : List Byte :=
  match s.bark.blocks.find? fun b => b.1 % 128 == place with
  | some b =>
    let body := withCrc (leBytes 8 b.1 ++ (List.range 28).flatMap fun d => summaryBytes s d (tget b.2 d {}))
    body ++ List.replicate (16384 - body.length) 0
  | none => List.replicate 16384 0

/-- An event entry (R777). -/
def eventBytes (e : Event) : List Byte :=
  withCrc (leBytes 1 e.die ++ leBytes 1 e.kind ++ leBytes 1 e.band ++ [0] ++ leBytes 4 e.fingerprint.toNat ++ leBytes 4 e.startCount ++
    leBytes 4 e.sequence ++ recBytes e.record ++ List.replicate 12 0)

/-- The event at a place of the ring (R778). -/
def eventAt (s : State) (place : Nat) : List Byte :=
  let age := (s.bark.eventNext + 465919 - place) % 465920
  if age < s.bark.events.length then
    match s.bark.events[s.bark.events.length - 1 - age]? with
    | some e => eventBytes e
    | none => List.replicate 64 0
  else List.replicate 64 0

/-- Byte of the ledger region (Table 16-13). -/
def ledgerByte (s : State) (a : Nat) : Byte :=
  if a < 0x10000 then nth (directoryEntry s (a / 64)) (a % 64) 0
  else if a < 0x210000 then nth (blockBytes s ((a - 0x10000) / 16384)) (a % 16384) 0
  else nth (eventAt s ((a - 0x210000) / 64)) (a % 64) 0

/-- Size of the ledger region: 30.5 MiB (R775). -/
abbrev ledgerSize : Nat := 31981568

/-- Bytes of the ledger region, as far as it reaches. -/
def ledgerBytes (s : State) (off len : Nat) : List Byte := (List.range (min len (ledgerSize - off))).map fun i => ledgerByte s (off + i)

/-- WARDEN_LEDGER_READ (R781). -/
def execWardenLedgerRead (r : WReq) (offset length : Nat) (s : State) : Host.Outcome State Fault Refusal :=
  wardenRequest r 0x42 true (fun s => wardenReply r 0 (ledgerBytes s offset length) s) s

/-! ### Telemetry (R773, R774) -/

/-- Bands at 4 bits each, lowest entry in bits 3 to 0 of the first byte (Table 16-12). -/
def packNibbles (xs : List Nat) : List Byte := packBits 4 xs

/-- A thermal and power record's 1,376 bytes (Table 16-12). -/
def telBytes (t : TelRec) : List Byte :=
  leBytes 8 t.tick ++ leBytes 8 t.mtc.toNat ++ leBytes 2 t.power ++ leBytes 2 t.v48 ++ t.notches.flatMap (leBytes 1) ++ t.amps.flatMap (leBytes 2) ++
    leBytes 4 t.flags.toNat ++ t.suspects.flatMap (leBytes 1) ++ t.root.flatMap (fun v => leBytes 2 (signedField 2 v)) ++
    t.crown.flatMap (fun v => leBytes 2 (signedField 2 v)) ++ t.stack.flatMap (fun v => leBytes 2 (signedField 2 v)) ++ packNibbles t.bands ++
    List.replicate 16 0

/-- TELEMETRY_SUBSCRIBE (R774): at most 4 subscribers, a period of 1 to 1,000 ticks, 100 when 0. -/
def execTelemetrySubscribe (r : WReq) (period : Nat) (s : State) : Host.Outcome State Fault Refusal :=
  wardenRequest r 0x43 false (fun s =>
    if 1000 < period then invalidWarden r 0x43 0 s
    else
      let p := orDefault period 100
      if s.heat.subs.any fun u => u.peer == r.peer then
        wardenReply r 0 [] { s with heat.subs := s.heat.subs.map fun u => if u.peer == r.peer then { u with period := p } else u }
      else if 4 ≤ s.heat.subs.length then invalidWarden r 0x43 0 s
      else wardenReply r 0 [] { s with heat.subs := s.heat.subs ++ [{ peer := r.peer, period := p, sentAt := s.heat.tick }] }) s

/-- TELEMETRY_BUFFER_READ (R773): records of the buffer, newest first. -/
def execTelemetryBufferRead (r : WReq) (first count : Nat) (s : State) : Host.Outcome State Fault Refusal :=
  wardenRequest r 0x43 false (fun s => wardenReply r 0 ((slice s.heat.telemetry first count).flatMap telBytes) s) s

/-! ### Rings, floor records and owner keys (R700 to R705, R720) -/

/-- The slot that staging writes: never the active one (R704). -/
def stagingSlot (u : Stump) : Bool := u.stateA == .active

/-- STAGE_RING (R703, R704): verified, written, read back, staged. -/
def execStageRing (r : WReq) (ring : Ring) (s : State) : Host.Outcome State Fault Refusal :=
  wardenRequest r 0x44 false (fun s =>
    if s.dev.st = .starting then refuseWarden r 0x44 s
    else
      let b := stagingSlot s.stump
      match verifyRing s ring (effectiveFloor s) with
      | some f => wardenReply r (ringFailCode f) [] (raiseRing (slotNo b) ring f s)
      | none =>
        let s := writeControl (putSlotState b .writing) s
        let s := { s with stump := putSlotRing b ring s.stump }
        wardenReply r 0 [] (writeControl (fun u => putSlotFails b 0 (putSlotState b .staged u)) s)) s

/-- A floor record that R702 accepts. -/
def floorOk (s : State) (f : FloorRec) : Bool :=
  f.formOk && f.rsaOk && f.slhOk && decide (f.keyIndex < s.bark.ownerKeys.length) && decide (f.floor ≤ activeGeneration s) &&
  match s.stump.floorRec with
  | some c => decide (c.generation < f.generation) && decide (c.floor ≤ f.floor)
  | none => true

/-- WRITE_FLOOR_RECORD (R702). -/
def execWriteFloorRecord (r : WReq) (f : FloorRec) (s : State) : Host.Outcome State Fault Refusal :=
  wardenRequest r 0x45 false (fun s =>
    if floorOk s f then wardenReply r 0 [] (useStump { s with stump := { s.stump with floorRec := some f } })
    else
      wardenReply r errRingFloor []
        (raise errRingFloor uWarden 0 0xFF none32 (detail [(f.generation, 4), (effectiveFloor s, 4), (activeGeneration s, 4)]) s)) s

/-- A change of the owner key list that R720 refuses. -/
def refuseKeys (r : WReq) (keyIndex : Nat) (rsaBad slhBad : Bool) (s : State) : State :=
  wardenReply r errRingSignature []
    (raise errRingSignature uWarden 0 0xFF none32 (detail [(keyIndex, 2), ((if rsaBad then 1 else 0) + (if slhBad then 2 else 0), 1)]) s)

/-- ENROL_OWNER_KEYS (R720): in LOOKOUT with HOLD_N low, the whole list, of at most 4 entries (Table 15-2). -/
def execEnrolOwnerKeys (r : WReq) (keys : List OwnerKey) (s : State) : Host.Outcome State Fault Refusal :=
  wardenRequest r 0x46 true (fun s =>
    if s.dev.st = .lookout ∧ !s.pins.holdN ∧ keys.length ≤ 4 then
      wardenReply r 0 [] { s with bark.ownerKeys := keys, bark.regions := tset s.bark.regions 4 {} {} }
    else refuseKeys r 0xFFFF false false s) s

/-- UPDATE_OWNER_KEYS (R720): in any state except STARTING, signed with both algorithms by a listed entry. -/
def execUpdateOwnerKeys (r : WReq) (keys : List OwnerKey) (keyIndex : Nat) (rsaOk slhOk : Bool) (s : State) : Host.Outcome State Fault Refusal :=
  wardenRequest r 0x46 true (fun s =>
    let listed := !regionLost s 4 && decide (keyIndex < s.bark.ownerKeys.length)
    if s.dev.st ≠ .starting ∧ listed ∧ rsaOk ∧ slhOk ∧ keys.length ≤ 4 then wardenReply r 0 [] { s with bark.ownerKeys := keys }
    else refuseKeys r keyIndex (!(listed && rsaOk)) (!(listed && slhOk)) s) s

/-! ### Quotes (R716 to R719) -/

/-- Reserved bytes. -/
def noBytes (n : Nat) : List Byte := List.replicate n 0

/-- Quote body (Table 15-13); fields not yet known in the current state are 0. -/
def quoteBody (s : State) (nonce : BitVec 256) : List Byte :=
  let known := barkRead s
  let ring := s.dev.ring
  leBytes 4 0x544F5551 ++ leBytes 32 nonce.toNat ++ leBytes 8 (if s.mtc.everLocked then s.mtc.value.toNat else 0) ++
  leBytes 16 s.bark.made.serial.toNat ++ leBytes 1 (fromBark s (variantCode s.bark.made.variant)) ++ leBytes 1 (stCode s.dev.st) ++
  leBytes 2 (fromBark s (usableTiles s)) ++ leBytes 1 (if ring.isSome then slotNo s.dev.ringSlotB else 0) ++ noBytes 3 ++
  leBytes 4 (fromRing s (·.generation)) ++ leBytes 4 (fromStump s (recordFloor s)) ++ leBytes 4 (fromStump s s.stump.controlFloor) ++
  leBytes 48 (match ring with | some r => r.bodyDigest.toNat | none => 0) ++ leBytes 4 Config.wardenRom.toNat ++
  leBytes 4 (if isFA s then 0 else Config.cruiseRom.toNat) ++
  leBytes 32 (if known then
    (Config.regionsDigest s.bark.made.fingerprints (enabledTiles s.bark.made) s.bark.fenced
      (s.bark.repairs.map fun e => [e.link, e.dir, e.seg, e.group, e.wire, e.kind, e.origin])).toNat else 0) ++
  leBytes 8 (heldImage s).toNat ++ leBytes 4 (fromStump s s.stump.startCount) ++ noBytes 76

/-- Begins to sign a quote for a requester: path code 0 Warden or 1 Hauler, session or connection, and message ID; one at a time (R717, R719).
Answers the code of a refusal, or 0. -/
def beginQuote (path id : Nat) (msg : Word) (nonce : BitVec 256) (s : State) : Nat × State :=
  if !s.dev.identityOk then (errIdentity, s)
  else if s.dev.quote.isSome then
    (errQuoteBusy, raise errQuoteBusy uWarden 0 path (if path = 1 then id else 0xFFFF) (detail []) s)
  else (0, { s with dev.quote := some (path, id, msg, quoteBody s nonce) })

/-- WARDEN_QUOTE (R718, R719): in every state after step 2. -/
def execWardenQuote (r : WReq) (nonce : BitVec 256) (s : State) : Host.Outcome State Fault Refusal :=
  wardenRequest r 0x47 true (fun s =>
    match beginQuote 0 r.session r.msg nonce s with
    | (0, s) => s
    | (code, s) => wardenReply r code [] s) s

/-- QUOTE_SIGNED (R718, R719): body and signatures go to the requester, and quotes are accepted again. -/
def execQuoteSigned (s : State) : Host.Outcome State Fault Refusal :=
  .next (
    match s.dev.quote with
    | none => s
    | some (path, id, msg, body) =>
      let s := { s with dev.quote := none }
      let whole := body ++ Config.quoteSignatures body
      if path = 0 then emit (.wardenReply id msg 0 whole) s else reply ⟨id, msg⟩ 0 whole s)

/-! ### Power and memory operations (R736, R368) -/

/-- RUNTIME_POWER_LIMIT (R736, R875): 1,000 W up to the ring's limit, or 0 for none, from the next tick on. -/
def execRuntimePowerLimit (r : WReq) (watts : Nat) (s : State) : Host.Outcome State Fault Refusal :=
  wardenRequest r 0x48 false (fun s =>
    if watts = 0 ∨ (1000 ≤ watts ∧ watts ≤ ringLimit s) then wardenReply r 0 [] { s with heat.runtimeNext := watts }
    else invalidWarden r 0x48 0 s) s

/-- States in which Table 08-5 accepts a read of a stack's registers. -/
def stackReadable (s : State) : Bool :=
  !isFA s && (s.dev.st == .ready || s.dev.st == .loading || s.dev.st == .planning || s.dev.st == .running || s.dev.st == .draining ||
    s.dev.st == .faulted || s.dev.st == .filling || s.dev.st == .quarantined)

/-- IEEE1500_READ (R368, Table 08-5): identification, temperature in °C, repair and error registers. -/
def execIeee1500Read (r : WReq) (m : Stack) (s : State) : Host.Outcome State Fault Refusal :=
  wardenRequest r 0x49 false (fun s =>
    if stackReadable s then
      let t := match (tget s.heat.hbms m.val {}).reading with | some v => s16 (v / 4) | none => 0x8000
      wardenReply r 0 (leBytes 4 (Config.ieee1500 m.val 0).toNat ++ leBytes 4 t ++ leBytes 4 (Config.ieee1500 m.val 1).toNat ++
        leBytes 4 (Config.ieee1500 m.val 2).toNat) s
    else refuseWarden r 0x49 s) s

/-- A record of the device reserve at local address `a`, with the bytes that lie in stack `m` lost to its self-test. -/
def loseBytes (m draw a : Nat) (bs : List Byte) : List Byte :=
  bs.zipIdx.map fun e => if hbmStack (a + e.2) = m then Config.afterBist m (a + e.2) draw else e.1

/-- A stack's contents are lost, and its share of the job region is zero again (Table 08-5). -/
def loseStack (m : Nat) (s : State) : State :=
  let (k, s) := draw s
  { s with
    mem.cells := s.mem.cells.filter fun c => !(decide (c.1 < hbmEnd) && hbmStack c.1 == m)
    mem.poison := s.mem.poison.filter fun u => !(decide (u < hbmEnd) && hbmStack u == m)
    mem.bist := tput s.mem.bist m (k, jobEnd s)
    recov.journal := tmap s.recov.journal fun p bs => loseBytes m k (journalBase + 1024 * p) bs
    recov.dumps := tmap s.recov.dumps fun p bs => loseBytes m k (dumpBase + dumpSize * p) bs }

/-- MEMORY_BIST (R368, Table 08-5). -/
def execMemoryBist (r : WReq) (m : Stack) (s : State) : Host.Outcome State Fault Refusal :=
  wardenRequest r 0x49 false (fun s =>
    if readyOrQuarantined s && !isFA s then wardenReply r 0 [] (loseStack m.val s) else refuseWarden r 0x49 s) s

/-- SOFT_PPR (R368, Table 08-5): lasts until the next start; a repair of the stack (Table 16-15). -/
def execSoftPpr (r : WReq) (m : Stack) (row : Nat) (s : State) : Host.Outcome State Fault Refusal :=
  wardenRequest r 0x49 false (fun s =>
    if readyOrQuarantined s && !isFA s then
      let s := updHbm m.val (fun h => { h with softRows := sinsert h.softRows row }) s
      let s := updSummary (stackDie m.val) (fun d => { d with repairs := satInc none32 d.repairs }) s
      wardenReply r 0 [] (ledgerEvent (stackDie m.val) 2 (stackBand s m.val) 0 { mtc := s.mtc.value } s)
    else refuseWarden r 0x49 s) s

/-- HARD_PPR (R368, R369, Table 08-5): permanent, and recorded in the ledger. -/
def execHardPpr (r : WReq) (m : Stack) (row : Nat) (s : State) : Host.Outcome State Fault Refusal :=
  wardenRequest r 0x49 false (fun s =>
    if readyOrQuarantined s && !isFA s then
      let s := { s with bark.ppr := s.bark.ppr ++ [(m.val, row)] }
      let s := updSummary (stackDie m.val) (fun d => { d with repairs := satInc none32 d.repairs }) s
      wardenReply r 0 [] (ledgerEvent (stackDie m.val) 2 (stackBand s m.val) 0 { mtc := s.mtc.value } s)
    else refuseWarden r 0x49 s) s

/-- LIST_PAGE_RETIREMENT (R368, Table 08-5): recorded in the Bark, applied at the next start (R361). -/
def execListPageRetirement (r : WReq) (m : Stack) (page : Nat) (s : State) : Host.Outcome State Fault Refusal :=
  wardenRequest r 0x49 false (fun s =>
    if s.dev.st = .lookout ∨ s.dev.st = .starting ∨ isFA s then refuseWarden r 0x49 s
    else if stackPages ≤ page then invalidWarden r 0x49 0 s
    else
      let s := { s with bark.retire := if s.bark.retire.contains (m.val, page) then s.bark.retire else s.bark.retire ++ [(m.val, page)] }
      let s := updSummary (stackDie m.val) (fun d => { d with repairs := satInc none32 d.repairs }) s
      wardenReply r 0 [] (ledgerEvent (stackDie m.val) 2 (stackBand s m.val) 0 { mtc := s.mtc.value } s)) s

/-! ### Idle-time exerciser and quarantine (R671 to R675) -/

/-- IDLE_TIME_EXERCISER (R673): in READY or QUARANTINED, on a module with crowns. -/
def execIdleTimeExerciser (r : WReq) (s : State) : Host.Outcome State Fault Refusal :=
  wardenRequest r 0x4A false (fun s =>
    if readyOrQuarantined s && !isFA s then
      wardenReply r 0 [] (setExerciser { s with heat.exerciser := exerciserTests })
    else refuseWarden r 0x4A s) s

/-- Load fingerprint of an exerciser test in quadrant `q` (Table 04-4): the array alone is active. -/
def exerciserPrint (s : State) (q rate n : Nat) : Nat :=
  notchInForce s q * 2 ^ 26 + (notch s q).crownK * 2 ^ 16 + rate * 2 ^ 14 + (n - 1) * 2 ^ 8 + 8 * 2 ^ 4

/-- Result of a test in its ledger entry: 0 pass, 1 another digest, 2 band not reached. -/
def exerciserResult (t : Nat × Nat × Nat) (digest : DWord) (reached : Bool) : Nat :=
  if !reached then 2 else if digest = Config.exerciserDigest t.1 t.2.1 t.2.2 then 0 else 1

/-- EXERCISER_TEST_END (R673, R674): the result goes to the ledger under each quadrant's crown, and the next test begins. -/
def execExerciserTestEnd (digest : DWord) (band : Nat) (reached : Bool) (s : State) : Host.Outcome State Fault Refusal :=
  .next (
    match s.heat.exerciser with
    | [] => s
    | t :: rest =>
      if !readyOrQuarantined s then endExerciser s
      else
        let res := exerciserResult t digest reached
        let s := (List.range 4).foldl (fun s q =>
          ledgerEvent q 4 (if reached then band else t.1) (exerciserPrint s q t.2.1 t.2.2) { mtc := s.mtc.value, obj := BitVec.ofNat 32 res } s) s
        setExerciser { s with heat.exerciser := rest })

/-- RELEASE_QUARANTINED (R671, R675, Table 01-5): after the SRAM scrub and the counter clear. -/
def execReleaseQuarantined (r : WReq) (s : State) : Host.Outcome State Fault Refusal :=
  wardenRequest r 0x4B false (fun s =>
    let s := endExerciser s
    if s.dev.st = .quarantined then wardenReply r 0 [] (enter (afterDrain s) (clearJob s)) else refuseWarden r 0x4B s) s

/-! ### Windows and registers -/

/-- WINDOW_ENTRIES (R562): a whole entry (Table 12-5), in READY and LOADING. -/
def execWindowEntries (r : WReq) (e : Fin 64) (entry : WinEntry) (s : State) : Host.Outcome State Fault Refusal :=
  wardenRequest r 0x4C false (fun s =>
    if s.dev.st ≠ .ready ∧ s.dev.st ≠ .loading then refuseWarden r 0x4C s
    else if 32 ≤ entry.perm.toNat then invalidWarden r 0x4C 14 s
    else
      let s := { s with remote.windows := tset s.remote.windows e.val entry ⟨0, 0, 0, 0⟩ }
      wardenReply r 0 [] { s with remote.staged := tset s.remote.staged e.val (winBytes entry) noWindow }) s

/-- WARDEN_REG_ACCESS (R850 to R852): operation 0x4E. -/
def execWardenRegAccess (r : WReq) (write : Bool) (addr : Word) (count : Nat) (values : List Word) (s : State) :
    Host.Outcome State Fault Refusal :=
  wardenRequest r 0x4E false (fun s =>
    let (st, xs, s) := accessRegs (.warden r.session) 0x4E write addr.toNat count values s
    wardenReply r st (xs.flatMap fun x => leBytes 4 x.toNat) s) s

end Sys2Proof.Machine
end

