-- ==== Sys2Proof/Machine/Hauler.lean ====
section
/-! DEFINITION. The host port's transport and requests (Chapter 17). -/
namespace Sys2Proof.Machine

/-! ### Connections and sessions (R784, R789, R807) -/

/-- The next free connection or session ID. -/
def freeId (s : State) : Nat :=
  let used := fun (i : Nat) => thas s.hauler.conns i || s.hauler.sessions.contains i
  (((List.range 100).map fun i => (s.hauler.nextConn - 1 + i) % 65535 + 1).find? fun i => !used i).getD 1

/-- IPv6 link-local address by modified EUI-64 of a MAC address (R808, RFC 4291): FE80::/64, the first octet's bit 1 inverted, FF FE in the middle. -/
def linkLocal (mac : BitVec 48) : IpAddr :=
  let m := mac.toNat
  .v6 (BitVec.ofNat 128 (0xFE80 * 2 ^ 112 + (m / 2 ^ 24 ^^^ 0x020000) * 2 ^ 40 + 0xFFFE * 2 ^ 24 + m % 2 ^ 24))

/-- Addresses at which a port answers (R782, R808): the host port at those of the ring's NETWORK section, a management port at its link-local one
in every state and, once a ring is verified, at those that the ring gives it. -/
def portAddrs (s : State) (p : EtherPort) : List IpAddr :=
  match p, s.dev.ring with
  | .host, some r => .v6 r.hostV6 :: (r.hostV4.map IpAddr.v4).toList
  | .host, none => []
  | .mgmtA, r => linkLocal s.bark.made.macA :: ((r.map (·.mgmtA)).getD [])
  | .mgmtB, r => linkLocal s.bark.made.macB :: ((r.map (·.mgmtB)).getD [])

/-- A UDP packet reaches the port's service: Hauler on 47600, the Warden protocol on 47601, at an address of the port (R782, R807, R808). -/
def listens (s : State) (u : Udp) : Bool :=
  decide (u.udpPort = if u.port = .host then 47600 else 47601) && (portAddrs s u.port).contains u.dst

/-- OPEN (R782, R784, R807): at the host port a Hauler connection, of which 64 are accepted; at a management port a Warden session, of which 8
are. -/
def execHauOpen (u : Udp) (wantsNotices : Bool) (s : State) : Host.Outcome State Fault Refusal :=
  .next (
    let k := freeId s
    if !listens s u then s
    else if u.port ≠ .host then
      if !lookoutUp s || decide (s.dev.startStep < 2) then s
      else if 8 ≤ s.hauler.sessions.length then emit (.hauler 5 0 0 0 0) s
      else
        beginView (.warden k) (emit (.openOk k 8192 false) { s with hauler.sessions := s.hauler.sessions ++ [k], hauler.nextConn := k % 65535 + 1 })
    else if !s.optics.hostUp then s
    else if 64 ≤ s.hauler.conns.length then emit (.hauler 5 0 0 0 0) s
    else
      let s := { s with hauler.conns := tput s.hauler.conns k { notices := wantsNotices }, hauler.nextConn := k % 65535 + 1 }
      beginView (.hauler k) (emit (.openOk k 8192 wantsNotices) s))

/-- A connection or session ends (R789). -/
def endPath (k : Nat) (s : State) : State :=
  if thas s.hauler.conns k then endConn k s else { s with hauler.sessions := s.hauler.sessions.filter (· != k) }

/-- CLOSE (R789). -/
def execClose (conn : Nat) (s : State) : Host.Outcome State Fault Refusal := .next (endPath conn s)

/-- HAULER_RESET (R789): as CLOSE. -/
def execHaulerReset (conn : Nat) (s : State) : Host.Outcome State Fault Refusal := .next (endPath conn s)

/-- CONNECTION_TIMEOUT (R788): the device closes the connection with RESET. -/
def execConnectionTimeout (conn : Nat) (s : State) : Host.Outcome State Fault Refusal :=
  .next (if thas s.hauler.conns conn || s.hauler.sessions.contains conn then endPath conn (emit (.hauler 5 conn 0 0 0) s) else s)

/-! ### Sequence numbers and acknowledgement (R785 to R787) -/

/-- `a` comes before `b`, modulo 2^32. -/
def seqBefore (a b : Word) : Bool := a != b && decide ((b - a).toNat < 2 ^ 31)

def updConn (k : Nat) (f : Conn → Conn) (s : State) : State :=
  if thas s.hauler.conns k then { s with hauler.conns := tput s.hauler.conns k (f (tget s.hauler.conns k {})) } else s

/-- A packet without new data leaves: an ACK, or a DATA packet sent again. -/
def sendPacket (kind k : Nat) (seq : Word) (s : State) : State :=
  let c := tget s.hauler.conns k {}
  emit (.hauler kind k c.rxNext (sackOf c) seq) (updConn k (fun c => { c with unackedRx := 0 }) s)

/-- Half the window, of at least 8 packets (R787). -/
def halve (w : Nat) : Nat := max 8 (w / 2)

/-- A DATA packet is sent again: its timeout doubles up to 100 ms, and the window halves (R786, R787). -/
def resend (k : Nat) (seq : Nat) (gap : Bool) (s : State) : State :=
  let again := fun (e : Nat × Nat × Bool) => if e.1 = seq then (e.1, min 100000 (2 * e.2.1), e.2.2 || gap) else e
  sendPacket 2 k (BitVec.ofNat 32 seq) (updConn k (fun c => { c with unacked := c.unacked.map again, window := halve c.window }) s)

/-- Sequence numbers that a sack reports received. -/
def sacked (ack : Word) (sack : DWord) : List Word :=
  ((List.range 64).filter fun i => sack.getLsbD i).map fun i => ack + 1 + BitVec.ofNat 32 i

/-- Takes an acknowledgement (R785, R787): what is acknowledged leaves, and each round trip without loss widens the window by one. -/
def ackConn (ack : Word) (got : List Word) (c : Conn) : Conn :=
  let kept := c.unacked.filter fun e => !seqBefore (BitVec.ofNat 32 e.1) ack && !got.contains (BitVec.ofNat 32 e.1)
  let round := !c.unacked.isEmpty && !seqBefore ack c.roundEnd
  { c with unacked := kept, window := if round then min 4096 (c.window + 1) else c.window, roundEnd := if round then c.txNext else c.roundEnd }

/-- Packets with 3 or more received behind them, not yet sent again for it (R786). -/
def gaps (got : List Word) (c : Conn) : List Nat :=
  (c.unacked.filter fun e => !e.2.2 && decide (3 ≤ got.countP fun g => seqBefore (BitVec.ofNat 32 e.1) g)).map (·.1)

/-- Acknowledgement fields of an arriving packet: releases, gap retransmissions, and what the window then lets go. -/
def takeAckFields (g : HSeg) (s : State) : State :=
  let got := sacked g.ack g.sack
  let s := updConn g.conn (ackConn g.ack got) s
  let s := (gaps got (tget s.hauler.conns g.conn {})).foldl (fun s q => resend g.conn q true s) s
  pump g.conn s

/-- HAULER_ACK (R785). -/
def execHaulerAck (g : HSeg) (s : State) : Host.Outcome State Fault Refusal :=
  .next (if thas s.hauler.conns g.conn then takeAckFields g s else s)

/-! ### DATA segments and messages (R785, R790) -/

/-- Puts a segment into its place by offset. -/
def insertSeg (off : Nat) (bs : List Byte) : List (Nat × List Byte) → List (Nat × List Byte)
  | [] => [(off, bs)]
  | e :: es => if e.1 < off then e :: insertSeg off bs es else if e.1 = off then e :: es else (off, bs) :: e :: es

/-- Puts a whole request among those that wait, by rising message ID (R790). -/
def insertDone (m : Nat) (bs : List Byte) : List (Nat × List Byte) → List (Nat × List Byte)
  | [] => [(m, bs)]
  | e :: es => if e.1 < m then e :: insertDone m bs es else (m, bs) :: e :: es

/-- The next expected number moves over those already received. -/
def slideRx : Nat → Conn → Conn
  | 0, c => c
  | n + 1, c =>
    if c.rxSeen.contains c.rxNext.toNat then slideRx n { c with rxNext := c.rxNext + 1, rxSeen := c.rxSeen.filter (· != c.rxNext.toNat) } else c

/-- Takes a new segment into its message; a message whose segments are all in is a whole request. -/
def takeSegment (g : HSeg) (c : Conn) : Conn :=
  let m := g.msg.toNat
  let (segs, len) := ((c.parts.find? fun p => p.1 == m).map (·.2)).getD ([], none)
  let segs := insertSeg g.offset.toNat g.payload segs
  let len := if g.flags.getLsbD 1 then some (g.offset.toNat + g.payload.length) else len
  let rest := c.parts.filter fun p => p.1 != m
  if len = some (sumNat (segs.map fun e => e.2.length)) then
    { c with parts := rest, done := insertDone m (segs.flatMap (·.2)) c.done }
  else { c with parts := rest ++ [(m, segs, len)] }

/-- The first segment of a LOAD_PROGRAM takes the device from READY to LOADING (R793, R675). -/
def beginLoad (conn : Nat) (s : State) : State :=
  enter .loading { endExerciser s with job := { ({} : Job) with arriving := some conn } }

/-- The failing body offset of a target with `n` bytes after it (Table 17-4), or none: its kind, its flags. -/
def targetForm (write : Bool) (b : List Byte) : Option Nat :=
  let kind := field b 0 1
  let flags := field b 1 1
  if b.length < 32 ∨ (!write ∧ b.length ≠ 32) then some (min 32 b.length) else if 3 < kind then some 0
  else if write = false ∧ flags ≠ 0 ∨ 3 ≤ flags ∨ (flags = 1 ∧ kind ≠ 0) ∨ (flags = 2 ∧ kind ≠ 1) then some 1 else none

/-- The failing body offset of a whole request that has no form of Table 17-3 (R791), or none; 0 for one whose message header fails (Table 17-2). -/
def requestFault (bs : List Byte) : Option Nat :=
  let b := bs.drop 16
  let len := fun (n : Nat) => if b.length = n then none else some (min n b.length)
  if bs.length < 16 ∨ field bs 1 7 ≠ 0 ∨ field bs 8 8 ≠ b.length then some 0
  else match field bs 0 1 with
    | 1 => targetForm true b
    | 2 => targetForm false b
    | 3 => if b.length ≠ 8 then len 8 else if 2 < field b 1 1 then some 1 else if field b 2 2 ≠ 0 then some 2 else none
    | 4 => none
    | 5 => none
    | 6 => len 2
    | 7 => if 4 < field b 0 1 then some 0 else if field b 1 3 ≠ 0 then some 1 else len (if field b 0 1 = 3 then 40 else 8)
    | 8 => len 8
    | 9 => if b.length < 8 then some b.length else len (8 + 4 * field b 4 4)
    | _ => some 0

/-- The failing body offset of the request that a segment makes whole, where that is none of Table 17-3. -/
def badWhole (g : HSeg) (c : Conn) : Option Nat :=
  ((takeSegment g c).done.find? fun e => e.1 == g.msg.toNat).bind fun e => requestFault e.2

/-- A whole request that is none of Table 17-3 is answered at once and waits for none before it, since it is not performed (R791); a LOAD_PROGRAM that
began with it ends. -/
def refuseBad (g : HSeg) (loads : Bool) (off : Nat) (s : State) : State :=
  let r : Req := ⟨g.conn, g.msg⟩
  let op := match (tget s.hauler.conns g.conn {}).done.find? fun e => e.1 == g.msg.toNat with | some e => field e.2 0 1 | none => 0
  let s := updConn g.conn (fun c => { c with done := c.done.filter fun e => e.1 != g.msg.toNat }) s
  let s := if (loads ∨ op = 4) ∧ s.dev.st = .loading ∧ s.job.arriving = some g.conn then enter .ready { s with job := {} } else s
  refuseInvalid r op off s

/-- DATA (R785, R790, R791, R793): delivered once, acknowledged at the sixteenth packet at the latest. -/
def execData (g : HSeg) (s : State) : Host.Outcome State Fault Refusal :=
  .next (
    if !thas s.hauler.conns g.conn then s
    else
      let s := takeAckFields g s
      let c := tget s.hauler.conns g.conn {}
      let old := seqBefore g.seq c.rxNext || c.rxSeen.contains g.seq.toNat
      let s := updConn g.conn (fun c =>
        let c := { c with unackedRx := c.unackedRx + 1 }
        if old then c else takeSegment g (slideRx 65536 { c with rxSeen := sinsert c.rxSeen g.seq.toNat })) s
      let loads := !old && g.flags.getLsbD 0 && field g.payload 0 1 == 4 && s.dev.st == .ready && s.dev.qLost == 0
      let s := if loads then beginLoad g.conn s else s
      let s : State := match (if old then none else badWhole g c) with | some off => refuseBad g loads off s | none => s
      if 16 ≤ (tget s.hauler.conns g.conn {}).unackedRx then sendPacket 3 g.conn 0 s else s)

/-- HAULER_ACK_TIMER (R785): 20 µs without an outgoing packet. -/
def execHaulerAckTimer (conn : Nat) (s : State) : Host.Outcome State Fault Refusal :=
  .next (if thas s.hauler.conns conn && (tget s.hauler.conns conn {}).unackedRx != 0 then sendPacket 3 conn 0 s else s)

/-- HAULER_RETRANSMIT_TIMEOUT (R786, R787). -/
def execHaulerRetransmitTimeout (conn : Nat) (seq : Word) (s : State) : Host.Outcome State Fault Refusal :=
  .next (if (tget s.hauler.conns conn {}).unacked.any fun e => e.1 == seq.toNat then resend conn seq.toNat false s else s)

/-! ### Requests (R790, R791, R796) -/

/-- A request is performed once: it leaves those that wait. -/
def takeDone (r : Req) (s : State) : State := updConn r.conn (fun c => { c with done := c.done.filter fun e => e.1 != r.msg.toNat }) s

/-- A request of an open connection is performed once no whole request of a lower message ID waits there (R790). -/
def inTurn (r : Req) (s : State) : Bool :=
  thas s.hauler.conns r.conn && (tget s.hauler.conns r.conn {}).done.all fun e => decide (r.msg.toNat ≤ e.1)

/-- A request in its turn, in a state that Table 17-6a accepts (R796). -/
def haulerRequest (r : Req) (op : Nat) (accepted : State → Bool) (f : State → State) (s : State) : Host.Outcome State Fault Refusal :=
  .next (
    if !inTurn r s then s
    else
      let s := takeDone r s
      if accepted s then f s else refuseState r op s)

/-- Opcodes of Table 17-3. -/
abbrev opWrite : Nat := 1
abbrev opRead : Nat := 2

/-- States of Table 17-6a. -/
def isLoading (s : State) : Bool := s.dev.st == .loading
def isReady (s : State) : Bool := s.dev.st == .ready
def pastLookout (s : State) : Bool := s.dev.st != .lookout
def pastStarting (s : State) : Bool := s.dev.st != .lookout && s.dev.st != .starting
def takesInput (s : State) : Bool := s.dev.st == .loading || s.dev.st == .planning || s.dev.st == .running || s.dev.st == .filling
def readsTensor (s : State) : Bool :=
  s.dev.st == .loading || s.dev.st == .planning || s.dev.st == .running || s.dev.st == .faulted || (s.dev.st == .draining && s.job.drainHold)
def takesSignal (s : State) : Bool := s.dev.st == .planning || s.dev.st == .running || s.dev.st == .filling
/-- States that take STOP_JOB (Table 01-5): in FAULTED not a relay, which a trip holds there until MOD_RST_N or AUX_RST_N (R769). -/
def stoppable (s : State) : Bool :=
  s.dev.st == .loading || s.dev.st == .planning || s.dev.st == .running || (s.dev.st == .faulted && !isFA s) || s.dev.st == .draining

/-! ### Tensor targets (R883, R799 to R802) -/

/-- Positions that a tensor target covers: every rank before START_JOB, the module's afterwards (R883). -/
def targetPositions (s : State) (im : Image) : Nat :=
  if s.job.started then (match s.job.plan with | some p => p.r | none => rankCount im / max 1 s.job.rankMap.length) else rankCount im

/-- Length of a copy's place: the canonical stored form rounded up to 64 B (R883). -/
def placeLength (s : State) (im : Image) (tid : Nat) : Nat :=
  let f := fmtNow s im tid
  (storedSize (dimsOf im tid) f (geoTens im tid f) + 63) / 64 * 64

/-- The failing body offset of a tensor target (Table 17-4, R883), or none: its instance, ID, offset and length. -/
def targetFault (s : State) (im : Image) (t : Target) : Option Nat :=
  let rec' := tensorOf im t.id
  if im.tensors.length ≤ t.id then some 4
  else if (if rec'.role = 4 ∨ rec'.role = 5 then rec'.depth ≤ t.inst else t.inst ≠ 0) then some 2
  else if 2 ^ 28 < t.length then some 24
  else if targetPositions s im * placeLength s im t.id < t.offset + t.length then some 16
  else none

/-- Writes bytes from a target offset on into the copies that they reach. -/
def writeCopies (im : Image) (tid inst off : Nat) (bs : List Byte) (s : State) : State :=
  let p := placeLength s im tid
  let f := fmtNow s im tid
  let g := geoTens im tid f
  if bs.isEmpty ∨ p = 0 then s
  else
    ((List.range (targetPositions s im)).filter fun k => decide (off < (k + 1) * p) && decide (k * p < off + bs.length)).foldl (fun s k =>
      let key := tensKey k tid inst
      let whole := pad64 (storedForm s im key)
      let lo := max off (k * p)
      let hi := min (off + bs.length) ((k + 1) * p)
      let c := parseStored (dimsOf im tid) f g (splice whole (lo - k * p) (slice bs (lo - off) (hi - lo)))
      setTens key { tens s key with fmt := c.fmt, codes := c.codes, bscales := c.bscales, tscales := c.tscales } s) s

/-- The role of the target's tensor gives the host no WRITE, or no READ (Table 05-2): such a request is answered with ERR_HAULER_INVALID whatever the
state (R188). -/
def roleRefuses (write : Bool) (t : Target) (s : State) : Bool :=
  match s.job.image with
  | some im => decide (t.id < im.tensors.length) && (if write then [2, 3, 5, 6] else [4, 6]).contains (tensorOf im t.id).role
  | none => false

/-- WRITE_TENSOR (R188, R883): a parameter or optimizer-state tensor, in LOADING. -/
def execWriteTensor (r : Req) (t : Target) (bytes : List Byte) (s : State) : Host.Outcome State Fault Refusal :=
  haulerRequest r opWrite (fun s => isLoading s || roleRefuses true t s) (fun s =>
    match s.job.image with
    | none => refuseInvalid r opWrite 4 s
    | some im =>
      match targetFault s im t with
      | some off => refuseInvalid r opWrite off s
      | none =>
        if 2 ≤ (tensorOf im t.id).role then refuseInvalid r opWrite 4 s
        else if t.generation ≠ 0 then refuseInvalid r opWrite 8 s
        else if bytes.length ≠ t.length then refuseInvalid r opWrite 24 s
        else reply r 0 [] (writeCopies im t.id 0 t.offset bytes s)) s

/-- The iteration that an input instance expects next (R191, R799): the least one of this step or later, or the one after that which is marked. -/
def expectedIter (s : State) (im : Image) (tid inst : Nat) : Nat :=
  let d := max 1 (tensorOf im tid).depth
  match (tens s (tensKey 0 tid inst)).marked with
  | some v => v + d
  | none => let b := iterStart s; b + (inst + d - b % d) % d

/-- ERR_INSTANCE_BUSY (R799, R800). -/
def refuseBusy (r : Req) (t : Target) (expected : Nat) (s : State) : State :=
  refuse r errInstanceBusy t.id (detail [(t.inst, 2), (0, 2), (expected, 8)]) s

/-- A WRITE of an input instance (R799, R800), and its mark. -/
def writeInput (r : Req) (t : Target) (bytes : List Byte) (mark : Bool) (s : State) : State :=
  match s.job.image with
  | none => refuseInvalid r opWrite 4 s
  | some im =>
    match targetFault s im t with
    | some off => refuseInvalid r opWrite off s
    | none =>
      let u := t.generation.toNat
      if (tensorOf im t.id).role ≠ 4 then refuseInvalid r opWrite 4 s
      else if t.inst ≠ u % (tensorOf im t.id).depth then refuseInvalid r opWrite 2 s
      else if bytes.length ≠ t.length then refuseInvalid r opWrite 24 s
      else
        let key := tensKey 0 t.id t.inst
        let e := expectedIter s im t.id t.inst
        if (tens s key).marked.isSome ∨ u ≠ e then refuseBusy r t e s
        else
          let s := writeCopies im t.id t.inst t.offset bytes s
          reply r 0 [] (if mark then setTens key { tens s key with marked := some u } s else s)

/-- WRITE_INPUT (R799): the bytes of an instance, not yet marked. -/
def execWriteInput (r : Req) (t : Target) (bytes : List Byte) (s : State) : Host.Outcome State Fault Refusal :=
  haulerRequest r opWrite (fun s => takesInput s || roleRefuses true t s) (fun s => writeInput r t bytes false s) s

/-- WRITE_MARK_WRITTEN (R800): the bytes and the mark; ops that wait on the instance may go on. -/
def execWriteMarkWritten (r : Req) (t : Target) (bytes : List Byte) (s : State) : Host.Outcome State Fault Refusal :=
  haulerRequest r opWrite (fun s => takesInput s || roleRefuses true t s) (fun s => writeInput r t bytes true s) s

/-- Body of a READ reply (Table 17-3). -/
def readBody (generation : DWord) (ready : Bool) (data : List Byte) : List Byte :=
  leBytes 8 generation.toNat ++ leBytes 1 (if ready then 0 else 1) ++ noBytes 7 ++ (if ready then data else [])

/-- A tensor on the module is READY (R802). -/
def tensorReady (s : State) (im : Image) (tid inst : Nat) : Bool :=
  (List.range (targetPositions s im)).all fun k =>
    let t := tens s (tensKey k tid inst)
    !t.busy && (decide ((tensorOf im tid).role ≤ 1) || t.generation != 0xFFFFFFFFFFFFFFFF)

/-- READ_TENSOR (R801 to R803, R883). DESIGN CHOICE (log 57): the data of all segments is read at the moment of the request. -/
def execReadTensor (r : Req) (t : Target) (s : State) : Host.Outcome State Fault Refusal :=
  haulerRequest r opRead (fun s => readsTensor s || roleRefuses false t s) (fun s =>
    match s.job.image with
    | none => refuseInvalid r opRead 4 s
    | some im =>
      match targetFault s im t with
      | some off => refuseInvalid r opRead off s
      | none =>
        if [4, 6].contains (tensorOf im t.id).role then refuseInvalid r opRead 4 s
        else if t.generation ≠ 0 then refuseInvalid r opRead 8 s
        else
          let all := (List.range (targetPositions s im)).flatMap fun k => pad64 (storedForm s im (tensKey k t.id t.inst))
          reply r 0 (readBody (tens s (tensKey 0 t.id t.inst)).generation (tensorReady s im t.id t.inst) (slice all t.offset t.length)) s) s

/-! ### Snapshot slots of kept modules (Table 14-3, R804) -/

/-- Ring order of a kept module: by module slot while a rank map is held, else the target's ID itself. -/
def keptIndex (s : State) (id : Nat) : Option Nat :=
  match s.dev.ring with
  | none => none
  | some _ =>
    if s.job.rankMap.isEmpty then (if id < (keptNow s).length then some id else none)
    else
      match s.job.rankMap[id]? with
      | some e => let i := (keptNow s).findIdx (· == e); if i < (keptNow s).length then some i else none
      | none => none

/-- State and step that a slot's header holds. -/
def headerState (s : State) (k b : Nat) : Nat := leNat (readBytes s.mem (headerAddr s k b) 8)
def headerStep (s : State) (k b : Nat) : Nat := leNat (readBytes s.mem (headerAddr s k b + 8) 8)

/-- The slot of a kept module that holds the target's step (Table 17-4). -/
def keptSlot (s : State) (t : Target) : Option (Nat × Nat) :=
  (keptIndex s t.id).bind fun k => ([0, 1].find? fun b => headerState s k b != 0 && headerStep s k b == t.generation.toNat).map fun b => (k, b)

/-- The failing body offset of a snapshot-slot target, or its address (Table 17-4). -/
def slotTarget (s : State) (t : Target) : Nat ⊕ Nat :=
  if t.inst ≠ 0 then .inl 2
  else if (keptIndex s t.id).isNone then .inl 4
  else if 2 ^ 28 < t.length then .inl 24
  else match keptSlot s t with
    | none => .inl 8
    | some (k, b) => if (ringKeeper s).slotSize < t.offset + t.length then .inl 16 else .inr (streamAddr s k b + t.offset)

/-- WRITE_RELEASE (R804): a host-held slot becomes an ordinary committed one. -/
def execWriteRelease (r : Req) (t : Target) (s : State) : Host.Outcome State Fault Refusal :=
  haulerRequest r opWrite pastStarting (fun s =>
    if t.length ≠ 0 then refuseInvalid r opWrite 24 s
    else match slotTarget s t, keptSlot s t with
      | .inr _, some (k, b) =>
        if headerState s k b = 3 then reply r 0 [] { s with mem := writeMem s.mem (headerAddr s k b) (leBytes 8 2) }
        else refuseInvalid r opWrite 8 s
      | .inl off, _ => refuseInvalid r opWrite off s
      | .inr _, none => refuseInvalid r opWrite 8 s) s

/-- WRITE_SNAPSHOT_SLOT (R796, Table 17-4). -/
def execWriteSnapshotSlot (r : Req) (t : Target) (bytes : List Byte) (s : State) : Host.Outcome State Fault Refusal :=
  haulerRequest r opWrite pastStarting (fun s =>
    match slotTarget s t with
    | .inl off => refuseInvalid r opWrite off s
    | .inr a =>
      if bytes.length ≠ t.length then refuseInvalid r opWrite 24 s
      else reply r 0 [] (touchHbm a bytes.length true { s with mem := writeMem s.mem a bytes })) s

/-- READ_SNAPSHOT_SLOT (R804). -/
def execReadSnapshotSlot (r : Req) (t : Target) (s : State) : Host.Outcome State Fault Refusal :=
  haulerRequest r opRead pastStarting (fun s =>
    match slotTarget s t with
    | .inl off => refuseInvalid r opRead off s
    | .inr a => reply r 0 (readBody t.generation true (readBytes s.mem a t.length)) (touchHbm a t.length false s)) s

/-! ### Journal ring and fault dumps (Table 08-7) -/

/-- The places that `len` bytes from `off` on reach. -/
def recordPlaces (size off len : Nat) : List Nat := (List.range (if len = 0 then 0 else (off + len - 1) / size + 1 - off / size)).map (off / size + ·)

/-- Writes bytes into records kept by place. -/
def writeRecordBytes (m : Mem) (base size off : Nat) (bs : List Byte) (recs : Table (List Byte)) : Table (List Byte) :=
  (recordPlaces size off bs.length).foldl (fun recs p =>
    let lo := max off (p * size)
    let hi := min (off + bs.length) ((p + 1) * size)
    let held := (tget recs p []).length
    let whole := recordBytes m recs base size (p * size) (max held (hi - p * size))
    tput recs p (splice whole (lo - p * size) (slice bs (lo - off) (hi - lo)))) recs

/-- The failing body offset of a journal-ring or fault-dump target (Table 17-4), or none. -/
def areaFault (t : Target) : Option Nat :=
  if t.inst ≠ 0 then some 2 else if t.id ≠ 0 then some 4 else if t.generation ≠ 0 then some 8
  else if 2 ^ 28 < t.length then some 24 else if areaBytes < t.offset + t.length then some 16 else none

/-- WRITE_JOURNAL_RING (R796). -/
def execWriteJournalRing (r : Req) (t : Target) (bytes : List Byte) (s : State) : Host.Outcome State Fault Refusal :=
  haulerRequest r opWrite pastStarting (fun s =>
    match areaFault t with
    | some off => refuseInvalid r opWrite off s
    | none =>
      if bytes.length ≠ t.length then refuseInvalid r opWrite 24 s
      else reply r 0 [] { s with recov.journal := writeRecordBytes s.mem journalBase 1024 t.offset bytes s.recov.journal }) s

/-- WRITE_FAULT_DUMP (R796). -/
def execWriteFaultDump (r : Req) (t : Target) (bytes : List Byte) (s : State) : Host.Outcome State Fault Refusal :=
  haulerRequest r opWrite pastStarting (fun s =>
    match areaFault t with
    | some off => refuseInvalid r opWrite off s
    | none =>
      if bytes.length ≠ t.length then refuseInvalid r opWrite 24 s
      else reply r 0 [] { s with recov.dumps := writeRecordBytes s.mem dumpBase dumpSize t.offset bytes s.recov.dumps }) s

/-- READ_JOURNAL_RING (R806). -/
def execReadJournalRing (r : Req) (t : Target) (s : State) : Host.Outcome State Fault Refusal :=
  haulerRequest r opRead pastStarting (fun s =>
    match areaFault t with
    | some off => refuseInvalid r opRead off s
    | none => reply r 0 (readBody 0 true (recordBytes s.mem s.recov.journal journalBase 1024 t.offset t.length)) s) s

/-- READ_FAULT_DUMP (R796). -/
def execReadFaultDump (r : Req) (t : Target) (s : State) : Host.Outcome State Fault Refusal :=
  haulerRequest r opRead pastStarting (fun s =>
    match areaFault t with
    | some off => refuseInvalid r opRead off s
    | none => reply r 0 (readBody 0 true (recordBytes s.mem s.recov.dumps dumpBase dumpSize t.offset t.length)) s) s

/-! ### Host counters (R570, R574, R575) -/

/-- The failing body offset of a SIGNAL (Table 17-3): the host counter, the count or threshold. -/
def signalBad (h n : Nat) : Option Nat := if 16 ≤ h then some 0 else if n = 0 ∨ ctrMax < n then some 4 else none

/-- HAULER_SIGNAL (R570, R574): a failing signal leaves the counter and the job as they are. -/
def execHaulerSignal (r : Req) (h n : Nat) (s : State) : Host.Outcome State Fault Refusal :=
  haulerRequest r 3 takesSignal (fun s =>
    match signalBad h n with
    | some off => refuseInvalid r 3 off s
    | none =>
      let code := signalFault (ctr s (hostCtr h)) n
      if code = 0 then reply r 0 [] (doSignal (hostCtr h) n (ownEndpoint s).toNat 0 s)
      else reply r code [] (raiseSignal code (hostCtr h) n (ownEndpoint s).toNat 0 3 s)) s

/-- SET_WATCH (R575): one watch on each host counter. -/
def execSetWatch (r : Req) (h threshold : Nat) (s : State) : Host.Outcome State Fault Refusal :=
  haulerRequest r 3 takesSignal (fun s =>
    match signalBad h threshold with
    | some off => refuseInvalid r 3 off s
    | none => reply r 0 [] { s with remote.watches := (s.remote.watches.filter fun w => w.1 != h) ++ [(h, r.conn, threshold)] }) s

/-- CLEAR_WATCH (R575). -/
def execClearWatch (r : Req) (h : Nat) (s : State) : Host.Outcome State Fault Refusal :=
  haulerRequest r 3 takesSignal (fun s =>
    match signalBad h 1 with
    | some off => refuseInvalid r 3 off s
    | none => reply r 0 [] { s with remote.watches := s.remote.watches.filter fun w => w.1 != h }) s

/-! ### Loading, starting and stopping (R793 to R798) -/

/-- LOAD_PROGRAM is performed in READY, or in LOADING on the connection that its first segment came on (R793). -/
def takesImage (conn : Nat) (s : State) : Bool := s.dev.st == .ready || (s.dev.st == .loading && s.job.arriving == some conn)

/-- A rejected image (R200, R263): the record, the code in the reply, READY again. -/
def rejectImage (r : Req) (x : Reject) (s : State) : State :=
  enter .ready (reply r x.code [] { raise x.code uCruise 0 x.object none32 x.det s with job := {} })

/-- LOAD_PROGRAM (R200, R410, R675, R793): ends the exerciser; rejected while a quadrant is lost, in every state of Table 09-7; else the image is checked, and held or rejected. An image
over 2 GiB is one that exceeds Table 05-12 (R262). -/
def execLoadProgram (r : Req) (image : List Byte) (s : State) : Host.Outcome State Fault Refusal :=
  haulerRequest r 4 (fun s => takesImage r.conn s || (s.dev.qLost != 0 && pastStarting s)) (fun s =>
    if s.dev.qLost ≠ 0 then refuse r errQuadrantLost (lostQuad s) (lostDetail s) s
    else
      let s := if s.dev.st = .ready then beginLoad r.conn s else s
      if image.length < 64 then enter .ready (refuseInvalid r 4 0 { s with job := {} })
      else match checkImage s image with
        | some x => rejectImage r x s
        | none => reply r 0 [] { s with job := { ({} : Job) with bytes := image, image := some (parseImage image) } }) (if inTurn r s then endExerciser s else s)

/-- A field is 0, which takes the default, or in its range. -/
def rangeOrZero (lo hi v : Nat) : Bool := v == 0 || (decide (lo ≤ v) && decide (v ≤ hi))

/-- Form of the journal record that a restore carries (R794). -/
def carriedOk (j : List Byte) : Bool :=
  j.length == 1024 && field j 0 4 == 0x4C4E524A && field j 4 1 == 0 && field j 5 1 == 1 && decide (field j 73 1 ≤ 52) &&
  field j 140 4 == 0 && (slice j 984 32).all (· == 0) && field j 1016 8 == (digest8 (j.take 1016)).toNat

/-- Index of the first endpoint of the rank map that stands there before, or that the machine description does not list (R794). -/
def badRank (s : State) : List (BitVec 16) → List (BitVec 16) → Nat → Option Nat
  | _, [], _ => none
  | seen, e :: es, i => if seen.contains e || (endpointPos s e).isNone then some i else badRank s (e :: seen) es (i + 1)

/-- The failing body offset of a START_JOB (Table 17-5, R794), or none. -/
def startFault (s : State) (b : List Byte) : Option Nat :=
  let n := field b 40 4
  let restore := field b 2 2 == 1
  let map := (List.range n).map fun i => BitVec.ofNat 16 (field b (44 + 2 * i) 2)
  if b.length < 44 then some b.length
  else if field b 0 2 = 0 ∨ field b 0 2 = 0xFFFF then some 0
  else if 1 < field b 2 2 then some 2
  else if !rangeOrZero 1 16384 (field b 12 4) then some 12
  else if !rangeOrZero 1 65535 (field b 24 4) then some 24
  else if !rangeOrZero 5 1000000 (field b 28 4) then some 28
  else if !rangeOrZero 1 1000000 (field b 32 4) then some 32
  else if 3600000 < field b 36 4 then some 36
  else if n = 0 ∨ 36864 < n ∨ b.length ≠ 44 + 2 * n + (if restore then 1024 else 0) then some 40
  else match badRank s [] map 0 with
    | some i => some (44 + 2 * i)
    | none =>
      if !map.contains (ownEndpoint s) then some 44
      else if restore && !carriedOk (slice b (44 + 2 * n) 1024) then some (44 + 2 * n)
      else none

/-- Bytes written at positions that the module does not hold are discarded (R883). -/
def bindWrites (im : Image) (n : Nat) (m : Table Tens) : Table Tens :=
  if n = 0 ∨ rankCount im % n ≠ 0 then m else m.filter fun e => decide (keyPos e.1 < rankCount im / n)

/-- START_JOB accepted (R272, R519, R660, R794): the module slots in the order of the machine description, and PLANNING. -/
def acceptStart (im : Image) (body : List Byte) (s : State) : State :=
  let j := startFields body s.job
  let map := slotOrder s j.rankMap
  let s := { s with job := { j with rankMap := map, tensors := bindWrites im map.length j.tensors, planFrom := s.time }, remote.deviceSet := map }
  let e := im.safe.examples
  let s := if s.job.restore then
      notifyAll 4 (jDataPos s.job.record) [] (unmarkInputs { s with job.iters := if e = 0 then 0 else jDataPos s.job.record / e })
    else s
  enter .planning s

/-- START_JOB (R794): accepted in LOADING with an image held. -/
def execStartJob (r : Req) (body : List Byte) (s : State) : Host.Outcome State Fault Refusal :=
  haulerRequest r 5 (fun s => isLoading s && s.job.image.isSome) (fun s =>
    match startFault s body, s.job.image with
    | some off, _ => refuseInvalid r 5 off s
    | none, some im => reply r 0 [] (acceptStart im body s)
    | none, none => s) s

/-- The job stops (R796 to R798): its slots halt, recovery ends, and the drain begins. -/
def stopJob (s : State) : State :=
  let s := haltJob s
  let s := { s with recov.window := false, recov.held := false, recov.toSend := none, recov.rollbackTo := none }
  beginDrain false (if s.job.started then notifyAll 6 s.job.step.toNat [] s else s)

/-- STOP_JOB (R796 to R798): in DRAINING it only ends the end hold. -/
def execStopJob (r : Req) (tag : BitVec 16) (s : State) : Host.Outcome State Fault Refusal :=
  haulerRequest r 6 stoppable (fun s =>
    if tag ≠ s.job.tag then refuseInvalid r 6 0 s
    else if s.dev.st = .draining then reply r 0 [] { s with job.drainHold := false }
    else reply r 0 [] (stopJob s)) s

/-! ### Queries (Table 17-3) -/

/-- QUERY_STATUS: from STARTING on. -/
def execQueryStatus (r : Req) (s : State) : Host.Outcome State Fault Refusal :=
  haulerRequest r 7 pastLookout (fun s => reply r 0 (statusBody s) s) s

/-- Phases of a step as the plan counts them: one that stands in the LOOP runs once for each micro-batch (R246). -/
def countedPhases (s : State) (im : Image) : List Nat := (stepPhases im).flatMap fun e => if e.2 then List.replicate s.job.mb e.1 else [e.1]

/-- Expected time of a step in ps (Table 06-7). -/
def stepCost (s : State) (im : Image) (m : ModPlan) : Nat := sumNat ((countedPhases s im).map fun ph => nth m.costs ph 0)

/-- Time in ps that the ops of a step hold virtual tile `v`. -/
def tileBusy (s : State) (im : Image) (p : Plan) (m : ModPlan) (v : Nat) : Nat :=
  let place := if p.r ≤ m.n then (if v < p.r * p.tilesPerRank then some (v % max 1 p.tilesPerRank) else none) else some 0
  match place with
  | none => 0
  | some i => sumNat ((countedPhases s im).map fun ph =>
      sumNat ((phaseOps im ph).map fun e => match m.ops.find? fun x => x.op == e.1 with | some x => if i < x.tiles then x.cost else 0 | none => 0))

/-- tile_occupancy (Table 06-7): the busy fraction of each physical tile, through the binding (R271). -/
def occupancy (s : State) (im : Image) (p : Plan) (m : ModPlan) : List Nat :=
  (List.range 256).map fun t =>
    let v := p.tiles.findIdx (· == t)
    if v < p.tiles.length then 1000 * tileBusy s im p m v / max 1 (stepCost s im m) else 0

/-- A phase's reuse factor (Table 06-7): streamed bytes over bytes read from HBM, in thousandths; 0 where nothing is read. -/
def reuseOf (im : Image) (m : ModPlan) (ph : Nat) : Nat :=
  let ops := m.ops.filter fun x => (phaseOps im ph).any fun e => e.1 == x.op
  let read := sumNat (ops.map (·.hbmRead))
  if read = 0 then 0 else 1000 * sumNat (ops.map (·.streamed)) / read

/-- The cost-model fields of the plan report (R289, R290, Table 06-7). -/
def costFields (s : State) (im : Image) (p : Plan) (m : ModPlan) : List Byte :=
  let phases := List.range im.phases.length
  let peak := fun (tier ph : Nat) => (((planPhases im).zipIdx.filter fun e => e.1.1 == ph).map fun e => nth (nth m.peaks tier []) e.2 0).foldl max 0
  let redone := phases.flatMap fun ph => (tget m.redo ph []).map fun e => (e.1, ph)
  ((List.range 3).flatMap fun tier => phases.flatMap fun ph => leBytes 8 (peak tier ph)) ++
  (phases.flatMap fun ph => leBytes 8 (reuseOf im m ph)) ++
  (phases.flatMap fun ph => leBytes 8 (divUp (nth m.costs ph 0) 1000)) ++ leBytes 8 (divUp (stepCost s im m) 1000) ++
  leBytes 4 redone.length ++ redone.flatMap (fun e => leBytes 4 e.1 ++ leBytes 4 e.2) ++
  leBytes 4 m.offloaded.length ++ m.offloaded.flatMap (fun t => leBytes 4 t ++ leBytes 8 (p.r * nth m.lens t 0)) ++
  leBytes 4 p.ignoredHints.length ++ p.ignoredHints.flatMap (fun h => leBytes 4 h.1 ++ leBytes 4 h.2) ++
  leBytes 4 s.job.replacements ++ (occupancy s im p m).flatMap (leBytes 2) ++ leBytes 4 (p.planningNs / 1000000)

/-- The plan report: the fields of Table 06-7 in its order. The table gives them no widths or counts: DESIGN CHOICE (log 59), each list is preceded by its
length where the fields before do not give it. -/
def planReport (s : State) (im : Image) (p : Plan) : List Byte :=
  let axes := (List.range im.machine.length).flatMap fun a => leBytes 4 (nth p.fModule a 1) ++ leBytes 4 (nth p.fTray a 1) ++ leBytes 4 (nth p.fTree a 1)
  leBytes 8 im.id.toNat ++ leBytes 8 p.digest.toNat ++ leBytes 4 p.phaseDigests.length ++ p.phaseDigests.flatMap (fun d => leBytes 8 d.toNat) ++
  leBytes 4 Config.cruiseRom.toNat ++ leBytes 32 p.countMask.toNat ++ leBytes 4 im.machine.length ++ axes ++
  leBytes 4 p.r ++ leBytes 4 p.tilesPerRank ++ leBytes 4 p.helpers ++
  match p.own with
  | some m => costFields s im p m
  | none => []

/-- QUERY_PLAN_REPORT (R306): empty without a plan. -/
def execQueryPlanReport (r : Req) (s : State) : Host.Outcome State Fault Refusal :=
  haulerRequest r 7 pastLookout (fun s =>
    match s.job.image, s.job.plan with
    | some im, some p => reply r 0 (planReport s im p) s
    | none, _ => reply r 0 [] s
    | some _, none => reply r 0 [] s) s

/-- QUERY_FAULT_RECORDS: newest first. -/
def execQueryFaultRecords (r : Req) (count : Nat) (s : State) : Host.Outcome State Fault Refusal :=
  haulerRequest r 7 pastLookout (fun s =>
    if count = 0 ∨ 256 < count then refuseInvalid r 7 4 s else reply r 0 ((s.faults.take count).flatMap recBytes) s) s

/-- ERR_HAULER_DENIED (R792, Table 17-8). -/
def refuseDenied (r : Req) (op ringField value addr : Nat) (s : State) : State :=
  refuse r errHaulerDenied op (detail [(ringField, 1), (value, 1), (0, 2), (addr, 4)]) s

/-- QUERY_QUOTE (R718, R719, R792). -/
def execQueryQuote (r : Req) (nonce : BitVec 256) (s : State) : Host.Outcome State Fault Refusal :=
  haulerRequest r 7 pastLookout (fun s =>
    let v := orDefault (policy s).haulerQuotes 2
    if v ≠ 2 then refuseDenied r 7 2 v 0 s
    else match beginQuote 1 r.conn r.msg nonce s with
      | (0, s) => s
      | (code, s) => reply r code [] s) s

/-- A tally as Table 04-1 lays it out. -/
def tallyBytes (t : Tally) : List Byte := leBytes 8 t.converted ++ leBytes 8 t.saturated ++ leBytes 8 t.underflowed ++ leBytes 4 t.maxAbs

/-- QUERY_REDUCED_TALLY (R134, R888): a ruled tensor's, of the last completed step; zero before one. -/
def execQueryReducedTally (r : Req) (tensor : Nat) (s : State) : Host.Outcome State Fault Refusal :=
  haulerRequest r 7 pastLookout (fun s =>
    match s.job.image with
    | some im =>
      if (tensorOf im tensor).rule = 0xFFFF ∨ im.tensors.length ≤ tensor then refuseInvalid r 7 4 s
      else reply r 0 (tallyBytes (tallyOf s.job.reduced tensor)) s
    | none => refuseInvalid r 7 4 s) s

/-! ### Registers (R792) -/

/-- A Hauler register request: state, count, the ring's permission, then the map (R791, R792, R851). -/
def haulerRegs (r : Req) (op need : Nat) (write : Bool) (addr : Word) (count : Nat) (values : List Word) (s : State) :
    Host.Outcome State Fault Refusal :=
  haulerRequest r op pastStarting (fun s =>
    let v := orDefault (policy s).haulerRegisters 2
    if count = 0 ∨ 64 < count ∨ (write ∧ values.length ≠ count) then refuseInvalid r op 4 s
    else if v < need then refuseDenied r op 1 v addr.toNat s
    else
      let (st, xs, s) := accessRegs (.hauler r.conn) op write addr.toNat count values s
      reply r st (xs.flatMap fun x => leBytes 4 x.toNat) s) s

/-- READ_REG (R792). -/
def execReadReg (r : Req) (addr : Word) (count : Nat) (s : State) : Host.Outcome State Fault Refusal := haulerRegs r 8 2 false addr count [] s

/-- WRITE_REG (R792). -/
def execWriteReg (r : Req) (addr : Word) (values : List Word) (s : State) : Host.Outcome State Fault Refusal :=
  haulerRegs r 9 3 true addr values.length values s

end Sys2Proof.Machine
end

