-- ==== Sys2Proof/Machine/Jtag.lean ====
section
/-! DEFINITION. The test access port (R838 to R841, R850, R854). -/

namespace Sys2Proof.Machine
open Sys2Proof

/-- An intrusive instruction takes effect (R839): LOOKOUT with HOLD_N low. -/
def intrusiveOk (s : State) : Bool := s.dev.st == .lookout && !s.pins.holdN

/-- The boundary cells drive the output lands (EXTEST, CLAMP), and the outputs are released (HIGHZ), as Table 18-7 says. -/
def landsDriven (s : State) : Bool := (s.jtag.ir == .extest || s.jtag.ir == .clamp) && intrusiveOk s
def landsReleased (s : State) : Bool := s.jtag.ir == .highz && intrusiveOk s

/-- Levels of the lands that the cells stand at (R840), in the order of Table 18-1 (DESIGN CHOICE, log 63), observe-only REFCLK first. The clock, Stump
and test lands come from outside as `lines`; the resets, the hold and the three status outputs are the state's. -/
def boundaryCells (s : State) (lines : BitVec 19) : BitVec 25 :=
  BitVec.ofBool (readyLand s) ++ BitVec.ofBool s.pins.thermTripN ++ BitVec.ofBool (faultNLand s) ++ BitVec.ofBool s.pins.holdN ++
    BitVec.ofBool s.pins.modRstN ++ BitVec.ofBool s.pins.auxRstN ++ lines

/-- FAULT_N, THERM_TRIP_N and READY as the module holds them: by the device (R820, R821), from the boundary register, or none when released. -/
def statusLands (s : State) : List (Option Bool) :=
  if landsReleased s then [none, none, none]
  else if landsDriven s then [22, 23, 24].map fun i => some (s.jtag.boundary.getLsbD i)
  else [some (faultNLand s), some s.pins.thermTripN, some (readyLand s)]

/-- An instruction reaches the TAP, which answers in every state while the lookout domain runs (R838). -/
def jtagLoad (i : JInstr) (s : State) : State := if lookoutUp s then { s with jtag.ir := i } else s

/-- An intrusive instruction: BYPASS and nothing else outside LOOKOUT with HOLD_N low (R839). -/
def jtagIntrusive (i : JInstr) (f : State → State) (s : State) : State :=
  if !lookoutUp s then s else if intrusiveOk s then f { s with jtag.ir := i } else { s with jtag.ir := .bypass }

/-- The cells capture the lands, and new contents are shifted into the boundary register. -/
def scanCells (lines : BitVec 19) (shifted : BitVec 25) (s : State) : State :=
  { s with jtag.sampled := boundaryCells s lines, jtag.boundary := shifted }

/-- IDCODE of the TAP (R838). -/
abbrev jtagId : BitVec 81 := 0x196405C3

/-- BYPASS: the one-bit bypass register is selected. -/
def execBypass (s : State) : Host.Outcome State Fault Refusal := .next (jtagLoad .bypass s)

/-- IDCODE (R838): the identification is captured. -/
def execIdcode (s : State) : Host.Outcome State Fault Refusal :=
  .next (if lookoutUp s then { s with jtag.ir := .idcode, jtag.capture := jtagId } else s)

/-- SAMPLE/PRELOAD: the boundary cells are captured, and operation is not disturbed. -/
def execSamplePreload (lines : BitVec 19) (shifted : BitVec 25) (s : State) : Host.Outcome State Fault Refusal :=
  .next (if lookoutUp s then scanCells lines shifted { s with jtag.ir := .sample } else s)

/-- EXTEST: the boundary cells drive and capture the lands. -/
def execExtest (lines : BitVec 19) (shifted : BitVec 25) (s : State) : Host.Outcome State Fault Refusal :=
  .next (jtagIntrusive .extest (scanCells lines shifted) s)

/-- CLAMP: outputs are held from the boundary register. -/
def execClamp (s : State) : Host.Outcome State Fault Refusal := .next (jtagIntrusive .clamp id s)

/-- HIGHZ: outputs are released. -/
def execHighz (s : State) : Host.Outcome State Fault Refusal := .next (jtagIntrusive .highz id s)

/-- The data register of CTRL_ACCESS (R850): bit 0 write, bits 32 to 1 address, bits 64 to 33 data, bits 80 to 65 status. -/
def ctrlWord (write : Bool) (addr data : Word) (status : BitVec 16) : BitVec 81 :=
  BitVec.ofNat 81 ((if write then 1 else 0) + 2 * addr.toNat + 2 ^ 33 * data.toNat + 2 ^ 65 * status.toNat)

/-- CTRL_ACCESS (R850): one read or write of the control space; the status, and the word read, are captured. -/
def execCtrlAccess (dr : BitVec 81) (s : State) : Host.Outcome State Fault Refusal :=
  .next (
    if lookoutUp s then
      let write := dr.getLsbD 0
      let addr := BitVec.ofNat 32 (bits dr.toNat 32 1)
      let data := BitVec.ofNat 32 (bits dr.toNat 64 33)
      let (st, xs, s) := accessRegs .jtag 0 write addr.toNat 1 (if write then [data] else []) s
      { s with jtag.ir := .ctrl, jtag.capture := ctrlWord write addr (xs.head?.getD data) (BitVec.ofNat 16 st) }
    else s)

/-- LEDGER_READ (R781): the four bytes of the ledger region at an offset, as far as the region reaches. -/
def execLedgerRead (offset : Nat) (s : State) : Host.Outcome State Fault Refusal :=
  .next (if lookoutUp s then { s with jtag.ir := .ledger, jtag.ledger := ledgerBytes s offset 4 } else s)

/-- Test-Logic-Reset: IDCODE is selected (Table 18-7), and the JTAG copies of the selectors begin anew (R854). -/
def execJtagTestLogicReset (s : State) : Host.Outcome State Fault Refusal :=
  .next (if lookoutUp s then beginView .jtag { s with jtag.ir := .idcode } else s)

end Sys2Proof.Machine
end

