-- ==== Sys2Proof/Machine/Dispatch.lean ====
section
/-! DEFINITION. The dispatch: one arm per constructor of Instr. -/
namespace Sys2Proof.Machine

/-- The effect of a command on everything but the queue. -/
def exec (i : Instr) (s : State) : Host.Outcome State Fault Refusal :=
  match i with
  | .vauxOn holdN modRstN puf unwrap => Sys2Proof.Machine.execVauxOn holdN modRstN puf unwrap s
  | .vauxLoss => Sys2Proof.Machine.execVauxLoss s
  | .auxRstNAssert => Sys2Proof.Machine.execAuxRstNAssert s
  | .auxRstNRelease holdN modRstN puf unwrap => Sys2Proof.Machine.execAuxRstNRelease holdN modRstN puf unwrap s
  | .modRstNAssert => Sys2Proof.Machine.execModRstNAssert s
  | .modRstNRelease => Sys2Proof.Machine.execModRstNRelease s
  | .holdNRise => Sys2Proof.Machine.execHoldNRise s
  | .wardenSelfTestPass => Sys2Proof.Machine.execWardenSelfTestPass s
  | .v48InRange v48 obs => Sys2Proof.Machine.execV48InRange v48 obs s
  | .startChecks => Sys2Proof.Machine.execStartChecks s
  | .startHoldRetry => Sys2Proof.Machine.execStartHoldRetry s
  | .ringTrialRestart => Sys2Proof.Machine.execRingTrialRestart s
  | .holdLimitExpire => Sys2Proof.Machine.execHoldLimitExpire s
  | .q0Loss => Sys2Proof.Machine.execQ0Loss s
  | .refclkLoss => Sys2Proof.Machine.execRefclkLoss s
  | .auxclkLoss => Sys2Proof.Machine.execAuxclkLoss s
  | .auxclkReturn => Sys2Proof.Machine.execAuxclkReturn s
  | .v48Shutdown v48 => Sys2Proof.Machine.execV48Shutdown v48 s
  | .thermTripComparator t value => Sys2Proof.Machine.execThermTripComparator t value s
  | .thermTripRelease => Sys2Proof.Machine.execThermTripRelease s
  | .managementTick r => Sys2Proof.Machine.execManagementTick r s
  | .notchRaise q => Sys2Proof.Machine.execNotchRaise q s
  | .notchFloor q => Sys2Proof.Machine.execNotchFloor q s
  | .sensorSuspect k sensor => Sys2Proof.Machine.execSensorSuspect k sensor s
  | .refreshRateApply m => Sys2Proof.Machine.execRefreshRateApply m s
  | .wardenCoreReset pc => Sys2Proof.Machine.execWardenCoreReset pc s
  | .ledgerSummaryFlush => Sys2Proof.Machine.execLedgerSummaryFlush s
  | .ledgerEventWrite => Sys2Proof.Machine.execLedgerEventWrite s
  | .telemetryDatagram sub => Sys2Proof.Machine.execTelemetryDatagram sub s
  | .laneTrainingAttempt l => Sys2Proof.Machine.execLaneTrainingAttempt l s
  | .codewordLock l w words => Sys2Proof.Machine.execCodewordLock l w words s
  | .trainingTimeout l => Sys2Proof.Machine.execTrainingTimeout l s
  | .initFrame l f rtt => Sys2Proof.Machine.execInitFrame l f rtt s
  | .discoveryRecord l d => Sys2Proof.Machine.execDiscoveryRecord l d s
  | .laneExtraLight l powA powB => Sys2Proof.Machine.execLaneExtraLight l powA powB s
  | .laneRetrain l cause => Sys2Proof.Machine.execLaneRetrain l cause s
  | .retrainComplete l => Sys2Proof.Machine.execRetrainComplete l s
  | .retrainTimeout l => Sys2Proof.Machine.execRetrainTimeout l s
  | .frameReceive l f => Sys2Proof.Machine.execFrameReceive l f s
  | .frameReplayTimeout l => Sys2Proof.Machine.execFrameReplayTimeout l s
  | .hostPortDown lanes cause => Sys2Proof.Machine.execHostPortDown lanes cause s
  | .ethernetPauseReceive frame => Sys2Proof.Machine.execEthernetPauseReceive frame s
  | .dieLinkTransfer link dir segs => Sys2Proof.Machine.execDieLinkTransfer link dir segs s
  | .dieLinkReplayTimeout link dir => Sys2Proof.Machine.execDieLinkReplayTimeout link dir s
  | .relinkStart link dir => Sys2Proof.Machine.execRelinkStart link dir s
  | .relinkComplete link fails codes => Sys2Proof.Machine.execRelinkComplete link fails codes s
  | .missingClock k fromQuad => Sys2Proof.Machine.execMissingClock k fromQuad s
  | .quadrantResetSeen q powerGood => Sys2Proof.Machine.execQuadrantResetSeen q powerGood s
  | .routerPacketArrive t port vc p => Sys2Proof.Machine.execRouterPacketArrive t port vc p s
  | .meshEscape t vc => Sys2Proof.Machine.execMeshEscape t vc s
  | .escapeTableInstall => Sys2Proof.Machine.execEscapeTableInstall s
  | .relayForward l vc p => Sys2Proof.Machine.execRelayForward l vc p s
  | .reach sub restoral mtc => Sys2Proof.Machine.execReach sub restoral mtc s
  | .trayState slot live ports => Sys2Proof.Machine.execTrayState slot live ports s
  | .tableDigest l digest => Sys2Proof.Machine.execTableDigest l digest s
  | .mtcSyncSend => Sys2Proof.Machine.execMtcSyncSend s
  | .mtcSync m => Sys2Proof.Machine.execMtcSync m s
  | .mtcHoldover => Sys2Proof.Machine.execMtcHoldover s
  | .epochSwitch => Sys2Proof.Machine.execEpochSwitch s
  | .oldEpochRetire => Sys2Proof.Machine.execOldEpochRetire s
  | .load p ecc => Sys2Proof.Machine.execLoad p ecc s
  | .store p => Sys2Proof.Machine.execStore p s
  | .storeFlag p => Sys2Proof.Machine.execStoreFlag p s
  | .storeFlagPerform src => Sys2Proof.Machine.execStoreFlagPerform src s
  | .atomic p => Sys2Proof.Machine.execAtomic p s
  | .atomicGroupClose line ecc => Sys2Proof.Machine.execAtomicGroupClose line ecc s
  | .atomicResultExpire src seq => Sys2Proof.Machine.execAtomicResultExpire src seq s
  | .signal p => Sys2Proof.Machine.execSignal p s
  | .copyPull p ecc => Sys2Proof.Machine.execCopyPull p ecc s
  | .loadData p => Sys2Proof.Machine.execLoadData p s
  | .ack p => Sys2Proof.Machine.execAck p s
  | .atomicData p => Sys2Proof.Machine.execAtomicData p s
  | .busy p => Sys2Proof.Machine.execBusy p s
  | .busyResend k => Sys2Proof.Machine.execBusyResend k s
  | .error p => Sys2Proof.Machine.execError p s
  | .retransmit k => Sys2Proof.Machine.execRetransmit k s
  | .tDeadExpire k => Sys2Proof.Machine.execTDeadExpire k s
  | .seqSignal iss dst tile ctr n => Sys2Proof.Machine.execSeqSignal iss dst tile ctr n s
  | .seqWait iss ctr th timeout => Sys2Proof.Machine.execSeqWait iss ctr th timeout s
  | .seqTake iss ctr n => Sys2Proof.Machine.execSeqTake iss ctr n s
  | .waitTimeout ctr place => Sys2Proof.Machine.execWaitTimeout ctr place s
  | .deviceWatchdog => Sys2Proof.Machine.execDeviceWatchdog s
  | .copyEngineCopy iss c ecc => Sys2Proof.Machine.execCopyEngineCopy iss c ecc s
  | .teeForward ring step ecc => Sys2Proof.Machine.execTeeForward ring step ecc s
  | .cornerTurnRead t base pitch rows cols width scales ecc => Sys2Proof.Machine.execCornerTurnRead t base pitch rows cols width scales ecc s
  | .scrubWalk t bank ecc => Sys2Proof.Machine.execScrubWalk t bank ecc s
  | .hbmPatrolScrub m ecc => Sys2Proof.Machine.execHbmPatrolScrub m ecc s
  | .hbmSelfRefreshEntry m => Sys2Proof.Machine.execHbmSelfRefreshEntry m s
  | .hbmPatrolBurst m ecc => Sys2Proof.Machine.execHbmPatrolBurst m ecc s
  | .arrayStream iss acc rows newSet parityOk => Sys2Proof.Machine.execArrayStream iss acc rows newSet parityOk s
  | .stationaryLoad iss cols => Sys2Proof.Machine.execStationaryLoad iss cols s
  | .stationaryLoadComplete t parityOk => Sys2Proof.Machine.execStationaryLoadComplete t parityOk s
  | .leafArrive t src ecc => Sys2Proof.Machine.execLeafArrive t src ecc s
  | .nodeStoreDrain t toFmt stochastic ecc => Sys2Proof.Machine.execNodeStoreDrain t toFmt stochastic ecc s
  | .thinPathPass iss acc vecs weights parityOk ecc => Sys2Proof.Machine.execThinPathPass iss acc vecs weights parityOk ecc s
  | .vectorOp iss op parityOk ecc => Sys2Proof.Machine.execVectorOp iss op parityOk ecc s
  | .leafReduce iss kind acc inputs => Sys2Proof.Machine.execLeafReduce iss kind acc inputs s
  | .combine t issue kind dest node n idx value poisoned ecc => Sys2Proof.Machine.execCombine t issue kind dest node n idx value poisoned ecc s
  | .unitClockGate t u => Sys2Proof.Machine.execUnitClockGate t u s
  | .crownClockGate t => Sys2Proof.Machine.execCrownClockGate t s
  | .crownWake t why => Sys2Proof.Machine.execCrownWake t why s
  | .shadowCompare t a b => Sys2Proof.Machine.execShadowCompare t a b s
  | .thirdTileRecompute t a b => Sys2Proof.Machine.execThirdTileRecompute t a b s
  | .phaseBoundary phase => Sys2Proof.Machine.execPhaseBoundary phase s
  | .contract pos op => Sys2Proof.Machine.execContract pos op s
  | .map pos op => Sys2Proof.Machine.execMap pos op s
  | .reduceSum pos op => Sys2Proof.Machine.execReduceSum pos op s
  | .reduceSumOfSquares pos op => Sys2Proof.Machine.execReduceSumOfSquares pos op s
  | .reduceMax pos op => Sys2Proof.Machine.execReduceMax pos op s
  | .reduceMin pos op => Sys2Proof.Machine.execReduceMin pos op s
  | .attendForward pos op => Sys2Proof.Machine.execAttendForward pos op s
  | .attendBackward pos op => Sys2Proof.Machine.execAttendBackward pos op s
  | .normaliseRms pos op => Sys2Proof.Machine.execNormaliseRms pos op s
  | .normaliseLayer pos op => Sys2Proof.Machine.execNormaliseLayer pos op s
  | .gather pos op => Sys2Proof.Machine.execGather pos op s
  | .scatterAdd pos op => Sys2Proof.Machine.execScatterAdd pos op s
  | .scatterReplace pos op => Sys2Proof.Machine.execScatterReplace pos op s
  | .cast pos op => Sys2Proof.Machine.execCast pos op s
  | .drawBits pos op => Sys2Proof.Machine.execDrawBits pos op s
  | .drawUniform pos op => Sys2Proof.Machine.execDrawUniform pos op s
  | .drawBernoulli pos op => Sys2Proof.Machine.execDrawBernoulli pos op s
  | .collectiveReduce pos op members => Sys2Proof.Machine.execCollectiveReduce pos op members s
  | .collectiveReduceScatter pos op members => Sys2Proof.Machine.execCollectiveReduceScatter pos op members s
  | .collectiveGather pos op members => Sys2Proof.Machine.execCollectiveGather pos op members s
  | .collectiveAllToAll pos op members => Sys2Proof.Machine.execCollectiveAllToAll pos op members s
  | .collectiveBroadcast pos op members => Sys2Proof.Machine.execCollectiveBroadcast pos op members s
  | .collectiveScalarReduce pos op members => Sys2Proof.Machine.execCollectiveScalarReduce pos op members s
  | .collectiveBarrier pos op members => Sys2Proof.Machine.execCollectiveBarrier pos op members s
  | .copyBox pos op => Sys2Proof.Machine.execCopyBox pos op s
  | .copyReshape pos op => Sys2Proof.Machine.execCopyReshape pos op s
  | .hostSignalNotify pos op => Sys2Proof.Machine.execHostSignalNotify pos op s
  | .hostSignalAwait pos op => Sys2Proof.Machine.execHostSignalAwait pos op s
  | .run phase n2 => Sys2Proof.Machine.execRun phase n2 s
  | .loop => Sys2Proof.Machine.execLoop s
  | .endLoop => Sys2Proof.Machine.execEndLoop s
  | .ifItem cond => Sys2Proof.Machine.execIfItem cond s
  | .elseItem => Sys2Proof.Machine.execElseItem s
  | .endIf => Sys2Proof.Machine.execEndIf s
  | .stepBoundary b => Sys2Proof.Machine.execStepBoundary b s
  | .snapshotBegin mtc released => Sys2Proof.Machine.execSnapshotBegin mtc released s
  | .drainComplete => Sys2Proof.Machine.execDrainComplete s
  | .endHoldExpire => Sys2Proof.Machine.execEndHoldExpire s
  | .flumeUp l p => Sys2Proof.Machine.execFlumeUp l p s
  | .flumeDown l p => Sys2Proof.Machine.execFlumeDown l p s
  | .busyRelay p => Sys2Proof.Machine.execBusyRelay p s
  | .relayResend seq => Sys2Proof.Machine.execRelayResend seq s
  | .flumeTimeout group seq => Sys2Proof.Machine.execFlumeTimeout group seq s
  | .flumeSlotDiscard job group seq => Sys2Proof.Machine.execFlumeSlotDiscard job group seq s
  | .bulkUp l p => Sys2Proof.Machine.execBulkUp l p s
  | .bulkDown p => Sys2Proof.Machine.execBulkDown p s
  | .bulkDone p => Sys2Proof.Machine.execBulkDone p s
  | .chunkTimeout group chunk => Sys2Proof.Machine.execChunkTimeout group chunk s
  | .bulkBufferDiscard job group chunk => Sys2Proof.Machine.execBulkBufferDiscard job group chunk s
  | .recoveryNotice n => Sys2Proof.Machine.execRecoveryNotice n s
  | .recoveryNoticeResend => Sys2Proof.Machine.execRecoveryNoticeResend s
  | .collectionWindowEnd recoveryDigestsAgree spares plan => Sys2Proof.Machine.execCollectionWindowEnd recoveryDigestsAgree spares plan s
  | .snapshotChunkLand chunk data => Sys2Proof.Machine.execSnapshotChunkLand chunk data s
  | .fillAssign f => Sys2Proof.Machine.execFillAssign f s
  | .spareAvailable slot endpoint tiles plan => Sys2Proof.Machine.execSpareAvailable slot endpoint tiles plan s
  | .repairTimeout => Sys2Proof.Machine.execRepairTimeout s
  | .hauOpen u wantsNotices => Sys2Proof.Machine.execHauOpen u wantsNotices s
  | .data g => Sys2Proof.Machine.execData g s
  | .haulerAck g => Sys2Proof.Machine.execHaulerAck g s
  | .close conn => Sys2Proof.Machine.execClose conn s
  | .haulerReset conn => Sys2Proof.Machine.execHaulerReset conn s
  | .haulerAckTimer conn => Sys2Proof.Machine.execHaulerAckTimer conn s
  | .haulerRetransmitTimeout conn seq => Sys2Proof.Machine.execHaulerRetransmitTimeout conn seq s
  | .connectionTimeout conn => Sys2Proof.Machine.execConnectionTimeout conn s
  | .writeTensor r t bytes => Sys2Proof.Machine.execWriteTensor r t bytes s
  | .writeInput r t bytes => Sys2Proof.Machine.execWriteInput r t bytes s
  | .writeMarkWritten r t bytes => Sys2Proof.Machine.execWriteMarkWritten r t bytes s
  | .writeRelease r t => Sys2Proof.Machine.execWriteRelease r t s
  | .writeSnapshotSlot r t bytes => Sys2Proof.Machine.execWriteSnapshotSlot r t bytes s
  | .writeJournalRing r t bytes => Sys2Proof.Machine.execWriteJournalRing r t bytes s
  | .writeFaultDump r t bytes => Sys2Proof.Machine.execWriteFaultDump r t bytes s
  | .readTensor r t => Sys2Proof.Machine.execReadTensor r t s
  | .readSnapshotSlot r t => Sys2Proof.Machine.execReadSnapshotSlot r t s
  | .readJournalRing r t => Sys2Proof.Machine.execReadJournalRing r t s
  | .readFaultDump r t => Sys2Proof.Machine.execReadFaultDump r t s
  | .haulerSignal r h n => Sys2Proof.Machine.execHaulerSignal r h n s
  | .setWatch r h threshold => Sys2Proof.Machine.execSetWatch r h threshold s
  | .clearWatch r h => Sys2Proof.Machine.execClearWatch r h s
  | .loadProgram r image => Sys2Proof.Machine.execLoadProgram r image s
  | .startJob r body => Sys2Proof.Machine.execStartJob r body s
  | .planCompute p => Sys2Proof.Machine.execPlanCompute p s
  | .stopJob r tag => Sys2Proof.Machine.execStopJob r tag s
  | .queryStatus r => Sys2Proof.Machine.execQueryStatus r s
  | .queryPlanReport r => Sys2Proof.Machine.execQueryPlanReport r s
  | .queryFaultRecords r count => Sys2Proof.Machine.execQueryFaultRecords r count s
  | .queryQuote r nonce => Sys2Proof.Machine.execQueryQuote r nonce s
  | .queryReducedTally r tensor => Sys2Proof.Machine.execQueryReducedTally r tensor s
  | .readReg r addr count => Sys2Proof.Machine.execReadReg r addr count s
  | .writeReg r addr values => Sys2Proof.Machine.execWriteReg r addr values s
  | .wardenStatus r multicast => Sys2Proof.Machine.execWardenStatus r multicast s
  | .wardenLedgerRead r offset length => Sys2Proof.Machine.execWardenLedgerRead r offset length s
  | .telemetrySubscribe r period => Sys2Proof.Machine.execTelemetrySubscribe r period s
  | .telemetryBufferRead r first count => Sys2Proof.Machine.execTelemetryBufferRead r first count s
  | .stageRing r ring => Sys2Proof.Machine.execStageRing r ring s
  | .writeFloorRecord r f => Sys2Proof.Machine.execWriteFloorRecord r f s
  | .enrolOwnerKeys r keys => Sys2Proof.Machine.execEnrolOwnerKeys r keys s
  | .updateOwnerKeys r keys keyIndex rsaOk slhOk => Sys2Proof.Machine.execUpdateOwnerKeys r keys keyIndex rsaOk slhOk s
  | .wardenQuote r nonce => Sys2Proof.Machine.execWardenQuote r nonce s
  | .runtimePowerLimit r watts => Sys2Proof.Machine.execRuntimePowerLimit r watts s
  | .ieee1500Read r m => Sys2Proof.Machine.execIeee1500Read r m s
  | .memoryBist r m => Sys2Proof.Machine.execMemoryBist r m s
  | .softPpr r m row => Sys2Proof.Machine.execSoftPpr r m row s
  | .hardPpr r m row => Sys2Proof.Machine.execHardPpr r m row s
  | .listPageRetirement r m page => Sys2Proof.Machine.execListPageRetirement r m page s
  | .idleTimeExerciser r => Sys2Proof.Machine.execIdleTimeExerciser r s
  | .exerciserTestEnd digest band reached => Sys2Proof.Machine.execExerciserTestEnd digest band reached s
  | .releaseQuarantined r => Sys2Proof.Machine.execReleaseQuarantined r s
  | .windowEntries r e entry => Sys2Proof.Machine.execWindowEntries r e entry s
  | .wardenRegAccess r write addr count values => Sys2Proof.Machine.execWardenRegAccess r write addr count values s
  | .registerWrite p addr value => Sys2Proof.Machine.execRegisterWrite p addr value s
  | .devEvents p value => Sys2Proof.Machine.execDevEvents p value s
  | .faultSel p value => Sys2Proof.Machine.execFaultSel p value s
  | .faultNew p => Sys2Proof.Machine.execFaultNew p s
  | .win p e k value => Sys2Proof.Machine.execWin p e k value s
  | .ftData p value => Sys2Proof.Machine.execFtData p value s
  | .ftCommit p value => Sys2Proof.Machine.execFtCommit p value s
  | .pwrRuntime p value => Sys2Proof.Machine.execPwrRuntime p value s
  | .dlinkSel p value => Sys2Proof.Machine.execDlinkSel p value s
  | .telSel p value => Sys2Proof.Machine.execTelSel p value s
  | .telDataLo p => Sys2Proof.Machine.execTelDataLo p s
  | .pairLoRead p addr => Sys2Proof.Machine.execPairLoRead p addr s
  | .broadcastRead p addr => Sys2Proof.Machine.execBroadcastRead p addr s
  | .bypass => Sys2Proof.Machine.execBypass s
  | .idcode => Sys2Proof.Machine.execIdcode s
  | .samplePreload lines shifted => Sys2Proof.Machine.execSamplePreload lines shifted s
  | .extest lines shifted => Sys2Proof.Machine.execExtest lines shifted s
  | .clamp => Sys2Proof.Machine.execClamp s
  | .highz => Sys2Proof.Machine.execHighz s
  | .ctrlAccess dr => Sys2Proof.Machine.execCtrlAccess dr s
  | .ledgerRead offset => Sys2Proof.Machine.execLedgerRead offset s
  | .jtagTestLogicReset => Sys2Proof.Machine.execJtagTestLogicReset s
  | .q0DomainStable => Sys2Proof.Machine.execQ0DomainStable s
  | .refclkReturn => Sys2Proof.Machine.execRefclkReturn s
  | .hostPortUp => Sys2Proof.Machine.execHostPortUp s
  | .quoteSigned => Sys2Proof.Machine.execQuoteSigned s

end Sys2Proof.Machine
end

