-- ==== Sys2Proof/Machine/Events.lean ====
section
/-! DEFINITION. Events of one moment: their rank (R32), and a register access beside a hardware update of the same root cycle (R855). -/
namespace Sys2Proof.Machine
open Sys2Proof

/-- Rank of an event that may cause a transition (R32): AUX_RST_N with the loss of its supply; MOD_RST_N or a loss of Q0; THERM_TRIP_N; any other fault
that stops the job; STOP_JOB; any other host command. What comes with neither a pin nor the host stands with the faults that it may bring. -/
def eventRank : Instr → Nat
  | .vauxOn .. => 0 | .vauxLoss => 0 | .auxRstNAssert => 0 | .auxRstNRelease .. => 0
  | .modRstNAssert => 1 | .modRstNRelease => 1 | .q0Loss => 1 | .refclkLoss => 1 | .v48Shutdown _ => 1 | .quadrantResetSeen q _ => if q.val = 0 then 1 else 3
  | .thermTripComparator _ _ => 2 | .managementTick _ => 2
  | .stopJob _ _ => 4
  | .hauOpen _ _ => 5 | .data _ => 5 | .haulerAck _ => 5 | .close _ => 5 | .haulerReset _ => 5 | .writeTensor .. => 5 | .writeInput .. => 5
  | .writeMarkWritten .. => 5 | .writeRelease .. => 5 | .writeSnapshotSlot .. => 5 | .writeJournalRing .. => 5 | .writeFaultDump .. => 5
  | .readTensor .. => 5 | .readSnapshotSlot .. => 5 | .readJournalRing .. => 5 | .readFaultDump .. => 5 | .haulerSignal .. => 5 | .setWatch .. => 5
  | .clearWatch .. => 5 | .loadProgram .. => 5 | .startJob .. => 5 | .queryStatus _ => 5 | .queryPlanReport _ => 5 | .queryFaultRecords .. => 5
  | .queryQuote .. => 5 | .queryReducedTally .. => 5 | .readReg .. => 5 | .writeReg .. => 5
  | _ => 3

/-- Commands that write memory words which another command of the moment may read. -/
def writesMemory : Instr → Bool
  | .store _ => true | .storeFlagPerform _ => true | .atomicGroupClose .. => true | .loadData _ => true | .atomicData _ => true
  | _ => false

/-- Order of the events of one moment: their rank (R32), and among those of one rank a write of memory second, so that a read of the same line in the same
root cycle returns the line as it was before (R334). -/
def eventOrder (c : Instr) : Nat := 2 * eventRank c + if writesMemory c then 1 else 0

/-- Puts an event behind those that come before it or with it. -/
def insertEvent (c : Instr) : List Instr → List Instr
  | [] => [c]
  | d :: ds => if eventOrder d ≤ eventOrder c then d :: insertEvent c ds else c :: d :: ds

/-- Events pending at one moment in the order in which the device takes them (R32, R334); each is then judged against the state that those before it
entered (R33). -/
def byPriority (cs : List Instr) : List Instr := cs.foldl (fun q c => insertEvent c q) []

/-- `s` with events that come at one moment at the end of its queue. -/
def atOnce (cs : List Instr) (s : State) : State := { s with pending := s.pending ++ byPriority cs }

/-- Registers whose access a hardware update follows when both fall into one root cycle: W1C, and RC with TEL_DATA while it clears (R855, R872). -/
def updateFollows (v : View) : Reg → Bool
  | .devEvents => true
  | .faultNew => true
  | .telData => telCounter v.telSel == 2
  | _ => false

/-- An access to register `r` on path copy `v` and a hardware update of it in one root cycle (R855): a W1C write leaves a bit set that the update sets,
an RC read returns the value before the increment, and an RW write stands. -/
def sameCycle (v : View) (r : Reg) (access update : State → State) (s : State) : State :=
  if updateFollows v r then update (access s) else access (update s)

end Sys2Proof.Machine
end

