-- ==== Sys2Proof/Safety.lean ====
section
/-! DEFINITION. What a sound state of the block is: the capacities that the spec gives its lists, the canonical form of memory, and the
transitions of Table 01-5; and what the statements say of a start. -/
namespace Sys2Proof.Machine
open Sys2Proof

/-- A table of at most `n` entries with rising keys. -/
def tableOk {α : Type} (n : Nat) (m : Table α) : Prop := (m.map (·.1)).Pairwise (· < ·) ∧ m.length ≤ n

/-- Capacities: 256 fault records (R865), 4 owner keys (Table 15-2), 4 telemetry subscribers (R774), 4,096 telemetry records (R773), 465,920 ledger
events (Table 16-13), 14,336 start-log entries (Table 15-4), 64 Hauler connections (R784); and memory in its canonical form. -/
def Limits (s : State) : Prop :=
  cellsWf s.mem.bist s.mem.cells = true ∧ s.faults.length ≤ 256 ∧ s.bark.ownerKeys.length ≤ 4 ∧ s.heat.subs.length ≤ 4 ∧
  s.heat.telemetry.length ≤ 4096 ∧ s.bark.events.length ≤ 465920 ∧ s.stump.log.length ≤ 14336 ∧ tableOk 64 s.hauler.conns

/-- A run is safe when every step answers a next state and its limits hold. -/
def Safe (s : State) : Prop := ∃ t, step s = .next t ∧ Limits t

/-- A transition of Table 01-5 that the command `c` may bring: its From and To, and its event where that event is a command or a pin of its
own. Faults that stop the job come with many commands and the table's event is the fault itself; a fill whose
plans fail passes FILLING on its way to FAULTED within its one command. -/
def Transition (c : Instr) (a b : DevState) : Prop :=
  match b with
  | .lookout => (∃ h m p u, c = .vauxOn h m p u) ∨ c = .vauxLoss ∨ c = .auxRstNAssert
  | .starting =>
    (a = .lookout ∧ (c = .wardenSelfTestPass ∨ c = .holdNRise ∨ c = .modRstNRelease)) ∨
    (a ≠ .lookout ∧ (c = .modRstNAssert ∨ c = .q0Loss ∨ c = .refclkLoss ∨ ∃ v, c = .v48Shutdown v))
  | .ready =>
    (a = .starting ∧ (c = .startChecks ∨ c = .startHoldRetry)) ∨ a = .loading ∨ (a = .draining ∧ c = .drainComplete) ∨
    (a = .quarantined ∧ ∃ r, c = .releaseQuarantined r)
  | .relaying =>
    (a = .starting ∧ (c = .startChecks ∨ c = .startHoldRetry)) ∨ (a = .draining ∧ c = .drainComplete) ∨
    (a = .quarantined ∧ ∃ r, c = .releaseQuarantined r)
  | .loading => a = .ready ∧ ((∃ g, c = .data g) ∨ ∃ r i, c = .loadProgram r i)
  | .planning => a = .loading ∧ ∃ r b, c = .startJob r b
  | .running => (a = .planning ∧ ∃ p, c = .planCompute p) ∨ a = .filling
  | .draining =>
    (a = .running ∧ ∃ b, c = .stepBoundary b) ∨
    ((a = .loading ∨ a = .planning ∨ a = .running ∨ a = .faulted) ∧ ∃ r j, c = .stopJob r j)
  | .filling => a = .relaying ∧ ∃ f, c = .fillAssign f
  | .quarantined => a = .running ∨ a = .faulted
  | .faulted =>
    a = .loading ∨ a = .planning ∨ a = .running ∨ a = .draining ∨ a = .filling ∨ (a = .relaying ∧ ∃ f, c = .fillAssign f) ∨
    (a ≠ .lookout ∧ ((∃ k v, c = .thermTripComparator k v) ∨ ∃ r, c = .managementTick r))

/-- `t` is `s` with a start begun (R677, R687, R692, R834): STARTING, the Stump in use at the clock that its table states, one start more counted and logged, and a ring chosen or a hold with cause ring. -/
def StartBegun (s t : State) : Prop :=
  t.dev.st = .starting ∧ t.stump.startCount = (s.stump.startCount + 1) % 2 ^ 32 ∧
  t.stump.log.length = min 14336 (s.stump.log.length + 1) ∧ t.dev.kek = s.dev.kek ∧ t.dev.identityOk = (s.dev.identityOk && t.dev.identityOk) ∧
  t.stump.slotA = s.stump.slotA ∧ t.stump.slotB = s.stump.slotB ∧ t.stump.controlFloor = s.stump.controlFloor ∧
  t.stump.clock = (if s.stump.clock = 0 then min 200 s.stump.part else s.stump.clock) ∧
  ((t.dev.startStep = 5 ∧ ∃ r, t.dev.ring = some r ∧ t.dev.role = some r.role ∧ slotRing s.stump t.dev.ringSlotB = some r ∧
      (t.dev.trial = true ↔ slotState s.stump t.dev.ringSlotB = .staged)) ∨
    (t.dev.startStep = 4 ∧ t.dev.holdCause = 6))

/-- `t` is `s` after the V48 domain's reset (R408, R825). -/
def V48Reset (s t : State) : Prop :=
  t.dev.st = .starting ∧ t.pins.v48On = false ∧ t.dev.ring = none ∧ t.dev.role = none ∧ t.dev.kek = s.dev.kek ∧ t.job = {} ∧ t.tiles = [] ∧
  t.mem = {} ∧ t.optics = {} ∧ t.stacking = {} ∧ t.fabric = {} ∧ t.remote = {} ∧ t.mtc = {} ∧ t.recov = {} ∧ t.flume = {} ∧ t.hauler.conns = [] ∧
  t.hauler.sessions = s.hauler.sessions ∧ t.bark = s.bark ∧ t.stump = s.stump

/-- `t` is `s` with the start complete under ring `r` (Table 01-5, Table 15-1 step 10). -/
def StartCommitted (s t : State) (r : Ring) : Prop :=
  t.dev.st = (if r.role = .working then .ready else .relaying) ∧ t.dev.startStep = 10 ∧ t.dev.ring = some r ∧ t.dev.trial = false ∧
  t.dev.holdCause = 0 ∧
  t = { s with dev := t.dev, heat.notches := t.heat.notches, bark := t.bark, stump := t.stump, faults := t.faults, regs := t.regs, out := t.out,
               hauler.conns := t.hauler.conns }

/-- `t` is `s` after a trial failure under ring `r` (R693, R694). -/
def TrialFailed (s t : State) (r : Ring) : Prop :=
  t.dev.st = .starting ∧ t.dev.restartDue = true ∧ t.dev.ring = some r ∧
  slotFails t.stump s.dev.ringSlotB = slotFails s.stump s.dev.ringSlotB + 1 ∧
  slotFails t.stump (!s.dev.ringSlotB) = slotFails s.stump (!s.dev.ringSlotB) ∧
  slotState t.stump s.dev.ringSlotB =
    (if 2 ≤ slotFails s.stump s.dev.ringSlotB + 1 then .failed else slotState s.stump s.dev.ringSlotB) ∧
  t.stump.controlFloor = s.stump.controlFloor ∧
  t = { s with dev := t.dev, stump := t.stump, faults := t.faults, regs := t.regs, out := t.out, hauler.conns := t.hauler.conns }

/-- The nodes of level `e` of the canonical tree over `xs` (R115): level 0 holds the children. -/
def nodesAt {α : Type} (op : α → α → α) : Nat → List α → List α
  | 0, xs => xs
  | e + 1, xs => nodesAt op e (nextLevel op xs)

/-- The node store of `r` after the children `vs` of output `x` have arrived in order, with emit level `e` (R54, R55). -/
def feed (c : Child) (vs : List Word) (r : TileRec) : TileRec := vs.foldl (fun r v => takeChild { c with value := v } v false r) r

/-- Children of source `src` that wait at the node store of tile `t`. -/
def waiting (s : State) (t src : Nat) : List Child := tget (tile s t).children src []

/-- Slot `k` of tile `t` issues an instruction for unit `n` whose fetches all succeed and which does nothing but retire: the sequencer's own instructions
before it run, the phase's arrivals are taken, the turn goes on, and a slot at the end of its program is IDLE (R68, R71, R72, R75, R294). -/
def issuedAlone (t : Tile) (n : Nat) (k : SlotId) (s : State) : State := issued ⟨t, k, []⟩ n true (retire n t k) s

/-- What goes over vertical links from `s` to `u` is over that of tile `t`: the other links are as they were, and what was sent are its transfers (R77,
R378). -/
def SentDown (s u : State) (t : Nat) : Prop :=
  (∀ j, j ≠ t → dlink u j = dlink s j) ∧ ∃ sent, u.out = s.out ++ sent ∧ ∀ o ∈ sent, ∃ d segs, o = Out.transfer t d segs

/-- Slot `k` of tile `t` has issued an instruction to unit `n` and retired it: the unit and the slot go on as the sequencer says, the arrivals that the
phase's first operation waited for are taken, what the instruction moves goes over the tile's own vertical link, and no other tile changes (R71, R72, R75,
R77, R85, R294). -/
def Issued (s u : State) (t : Tile) (n : Nat) (k : SlotId) : Prop :=
  let v := issuedAlone t n k s
  u = { s with tiles := u.tiles, draws := u.draws, remote.ctrs := (takeArrivals t s).remote.ctrs, job.progressAt := s.time,
               stacking.links := u.stacking.links, out := u.out } ∧
  (∀ j, j ≠ t.val → tile u j = tile s j) ∧ SentDown s u t ∧ (tile u t).awaits = [] ∧ (tile u t).slots = (tile v t).slots ∧
  (tile u t).lastUnit = (tile v t).lastUnit ∧ (tile u t).retired = (tile v t).retired ∧ (tile u t).gated = (tile v t).gated

/-- `u` is `s` but for the record of tile `t` and what goes over its vertical link. -/
def OverLink (s u : State) (t : Nat) : Prop :=
  u = { s with tiles := u.tiles, stacking.links := u.stacking.links, out := u.out } ∧ (∀ j, j ≠ t → tile u j = tile s j) ∧ SentDown s u t

/-- The crown storage of tile `t` holds in `u` what it held in `s`: sets, vector registers, node store and what waits for it (R83, R86). -/
def SameCrown (s u : State) (t : Nat) : Prop :=
  (tile u t).setA = (tile s t).setA ∧ (tile u t).setB = (tile s t).setB ∧ (tile u t).regs = (tile s t).regs ∧
  (tile u t).entries = (tile s t).entries ∧ (tile u t).outs = (tile s t).outs ∧ (tile u t).children = (tile s t).children ∧
  (tile u t).completed = (tile s t).completed

/-- `u` is `s` but for the record of tile `t`. -/
def OnlyTile (s u : State) (t : Nat) : Prop := u = { s with tiles := u.tiles } ∧ ∀ j, j ≠ t → tile u j = tile s j

/-- `u` is `s` but for fault records, notices, ledger events and summaries, and what a declared failure changes (R646 to R649): the recovery
notice, the device state, the halted slots and copies. -/
def OnlyFaults (s u : State) : Prop :=
  u = { s with out := u.out, faults := u.faults, regs := u.regs, dev := u.dev, bark := u.bark, tiles := u.tiles, remote.copies := u.remote.copies,
               recov := u.recov, hauler.conns := u.hauler.conns } ∧ u.bark.made = s.bark.made ∧ u.bark.ownerKeys = s.bark.ownerKeys

/-- A fault record of code `code` is the newest of `u`; the others are those of `s`, the latest 256 in all (R865). -/
def Recorded (s u : State) (code : Nat) : Prop := ∃ f : FaultRec, u.faults = (f :: s.faults).take 256 ∧ f.code.toNat = code

/-- `u` is `s` but for what was sent: replies and notices to connections and outputs. -/
def OnlySent (s u : State) : Prop := u = { s with out := u.out, hauler.conns := u.hauler.conns }

/-- `u` is `s` but for one fault record of code `code`, what counts it (Table 19-4, R687), and what was sent. -/
def OnlyRecorded (s u : State) (code : Nat) : Prop :=
  u = { s with out := u.out, hauler.conns := u.hauler.conns, faults := u.faults, regs.events := u.regs.events, regs.faultNew := u.regs.faultNew,
               dev.startFault := u.dev.startFault } ∧ Recorded s u code

/-- `u` is `s` with THERM_TRIP_N asserted (R767 to R769, R771): FAULTED, on a compute module notches 0, admission 25% and the crowns off with their
contents lost, on a relay every lane dark. -/
def Tripped (s u : State) : Prop :=
  u.dev.st = .faulted ∧ u.pins.thermTripN = false ∧ u.heat.coolTicks = 0 ∧
  (isFA s = false → u.heat.crownsOff = true ∧ (∀ q, q < 4 → (notch u q).notch = 0 ∧ (notch u q).calm = 0) ∧
    (∀ m, m < 16 → (hbm u m).admission = 25) ∧ ∀ t, (tile u t).entries = [] ∧ (tile u t).setA = [] ∧ (tile u t).setB = [] ∧ (tile u t).regs = []) ∧
  (isFA s = true → ∀ l, (lane u l).st = .disabled) ∧
  u = { s with out := u.out, hauler.conns := u.hauler.conns, faults := u.faults, regs := u.regs, dev := u.dev, bark := u.bark, pins := u.pins,
               heat := u.heat, tiles := u.tiles, mem.hbms := u.mem.hbms, optics.lanes := u.optics.lanes, recov := u.recov,
               remote.copies := u.remote.copies }

/-- A response to `p` finds a plane, or needs none (R478, R524). -/
def CanAnswer (s : State) (p : Packet) : Prop := p.src = ownEndpoint s ∨ p.plane = 0xFE ∨ choosePlane s p.src [] ≠ none

/-- Among what was sent from `s` to `u` is the response to `p` with opcode `op` and a payload that begins with `bs`, of the same sequence number
(R524). -/
def Answered (s u : State) (p : Packet) (op : Nat) (bs : List Byte) : Prop :=
  ∃ (before after : List Out) (q : Packet), u.out = s.out ++ before ++ .packet q :: after ∧ q.dst = p.src ∧ q.seq = p.seq ∧ q.job = p.job ∧
    q.opcode = BitVec.ofNat 8 op ∧ q.payload.take bs.length = bs

/-- A request `p` of opcode `op` reaches local address `a` and has not been performed: the window lets it in and no address check refuses it
(R525, R530, R531). -/
def Fresh (s : State) (p : Packet) (op a : Nat) : Prop :=
  p.opcode.toNat = op ∧ s.dev.st ≠ .lookout ∧ requestAddr s p = some a ∧ placeOf (win s p.src) p.seq.toNat = .fresh ∧ addrFault s p a = 0 ∧
    atomicBad p a = false

/-- The request has been performed: its sequence number is behind the window or marked (R531). -/
def Performed (u : State) (p : Packet) : Prop := placeOf (win u p.src) p.seq.toNat = .duplicate

/-- The bytes of `u` from `a` on are `bs`, and every other byte is that of `s`. -/
def Written (s u : State) (a : Nat) (bs : List Byte) : Prop :=
  readBytes u.mem a bs.length = bs ∧ ∀ b, (b < a ∨ a + bs.length ≤ b) → readByte u.mem b = readByte s.mem b

/-- The op named is the next of its position, is of this opcode and variant, and every input instance that it reads is there (R191, R203). -/
def OpReady (s : State) (pos op opcode variant : Nat) (im : Image) (o : OpRec) : Prop :=
  nextOp s pos op opcode variant = some (im, o) ∧ pos < s.job.opNext.length ∧ inputsReady s im o.ins = true

/-- The copy of key `k` in `u` is that of `s`. -/
def SameCopy (s u : State) (k : Nat) : Prop :=
  (tens u k).fmt = (tens s k).fmt ∧ (tens u k).codes = (tens s k).codes ∧ (tens u k).bscales = (tens s k).bscales ∧
  (tens u k).tscales = (tens s k).tscales

/-- The copy of key `k` in `u` is the stored form `c`. -/
def HoldsStored (u : State) (k : Nat) (c : Stored) : Prop :=
  (tens u k).fmt = c.fmt ∧ (tens u k).codes = c.codes ∧ (tens u k).bscales = c.bscales ∧ (tens u k).tscales = c.tscales

/-- The values `vs` went into output tensor `tid`: converted into its format with the op's rounding (R205), or inside a LOOP kept for the sum over
iterations (R206). -/
def Converted (s u : State) (im : Image) (o : OpRec) (pos tid : Nat) (vs : List Val) : Prop :=
  let k := keyOf s im pos tid
  if o.flags / 2 % 2 = 1 ∧ inLoopNow s im = true then
    tget u.job.loopSums k [] = tget s.job.loopSums k [] ++ [vs.map Val.word] ∧ SameCopy s u k
  else HoldsStored u k (encodeVals (fmtNow s im tid) (geoTens im tid (fmtNow s im tid)) (rounding s tid (tens s k).writes (o.flags % 2 == 1)) vs)

/-- The op has retired on its position alone, whose tiles' arrivals it has waited for; nothing but that and the job changed (R71, R203, R294). -/
def OpRetired (s u : State) (pos op : Nat) : Prop :=
  nth u.job.opNext pos none32 = op + 1 ∧ (∀ q, q ≠ pos → nth u.job.opNext q none32 = nth s.job.opNext q none32) ∧
    u = { takeRank pos s with job := u.job }

/-- Command `c` runs the op: it retires, its outputs take these values, and no other copy changes. -/
def OpDone (c : Instr) (s : State) (im : Image) (o : OpRec) (pos op : Nat) (outs : List (Nat × List Val)) : Prop :=
  ∃ u, exec c s = .next u ∧ OpRetired s u pos op ∧ (∀ e ∈ outs, Converted s u im o pos e.1 e.2) ∧
    ∀ k, (∀ e ∈ outs, k ≠ keyOf s im pos e.1) → SameCopy s u k

/-- Command `c` runs the op: it retires, its output is made of the encoded elements `src`, and no other copy changes (R234, R238, R240). -/
def OpMoved (c : Instr) (s : State) (im : Image) (o : OpRec) (pos op : Nat) (src : List Src) : Prop :=
  let y := out0 o
  let f := fmtNow s im y
  ∃ u, exec c s = .next u ∧ OpRetired s u pos op ∧ HoldsStored u (keyOf s im pos y) (assemble f (geoTens im y f) src) ∧
    ∀ k, k ≠ keyOf s im pos y → SameCopy s u k

/-- Among what was sent from `s` to `u`, or waiting on the request's connection in `u`, is its reply with this status and body (R790). -/
def Replied (s u : State) (r : Req) (status : Nat) (body : List Byte) : Prop :=
  (∃ xs, u.out = s.out ++ xs ∧ Out.reply r.conn r.msg (BitVec.ofNat 16 status) body ∈ xs) ∨
    Out.reply r.conn r.msg (BitVec.ofNat 16 status) body ∈ (tget u.hauler.conns r.conn {}).queue

/-- Among what was sent from `s` to `u` is the reply to a Warden-protocol request (R807). -/
def WardenReplied (s u : State) (r : WReq) (status : Nat) (body : List Byte) : Prop :=
  ∃ xs, u.out = s.out ++ xs ∧ Out.wardenReply r.session r.msg (BitVec.ofNat 16 status) body ∈ xs

/-- The Hauler command `c` of request `r` is refused with `code`: one fault record, the reply, and no other change (R34, R791). -/
def HaulerRefused (c : Instr) (s : State) (r : Req) (code : Nat) : Prop :=
  ∃ u, exec c s = .next u ∧ OnlyRecorded s u code ∧ Replied s u r code []

/-- The Warden-protocol command `c` of request `r` is refused with `code`: one fault record, the reply, and no other change (R34). -/
def WardenRefused (c : Instr) (s : State) (r : WReq) (code : Nat) : Prop :=
  ∃ u, exec c s = .next u ∧ OnlyRecorded s u code ∧ WardenReplied s u r code []

/-- The Hauler command `c` of request `r` is answered with this status and body, and nothing else changes. -/
def HaulerAnswered (c : Instr) (s : State) (r : Req) (status : Nat) (body : List Byte) : Prop :=
  ∃ u, exec c s = .next u ∧ OnlySent s u ∧ Replied s u r status body

/-- `s` after a reply of status 0 to a Warden-protocol request. -/
def wardenDone (s : State) (r : WReq) (body : List Byte) : State := { s with out := s.out ++ [.wardenReply r.session r.msg 0 body] }

/-- A Warden-protocol request is accepted (R807): the lookout runs past step 2, the session is open, and the peer is one of the ring's management
peers, or without a ring the operation is one of those that need none. -/
def WardenOpen (s : State) (r : WReq) (early : Bool) : Prop :=
  lookoutUp s = true ∧ 2 ≤ s.dev.startStep ∧ r.session ∈ s.hauler.sessions ∧
    (match s.dev.ring with | some g => r.peer ∈ g.peers | none => early = true)

/-- The registers of the V48 domain answer (R858). -/
def V48Up (s : State) : Prop := s.dev.st ≠ .lookout ∧ s.pins.v48On = true ∧ s.pins.modRstN = true

/-- The path copy of `p` in `u` is `v`, and the copies of the other paths are those of `s` (R853, R854). -/
def ViewSet (s u : State) (p : Path) (v : View) : Prop := viewOf u p = v ∧ ∀ q, viewKey q ≠ viewKey p → viewOf u q = viewOf s q

/-- The register command `c` on path `p` is refused with `code`: it is noted for the tick's record, answered, and nothing else changes (R877). -/
def RegRefused (c : Instr) (s : State) (p : Path) (code : Nat) : Prop :=
  ∃ u, exec c s = .next u ∧ u = { s with regs.refused := u.regs.refused, out := s.out ++ [.register p (BitVec.ofNat 16 code) []] } ∧
    ∃ e ∈ u.regs.refused, e.2.code = BitVec.ofNat 16 code

/-- `s` after an accepted register command on path `p` that answers `xs`. -/
def regDone (s : State) (p : Path) (xs : List Word) : State := { s with out := s.out ++ [.register p 0 xs] }

end Sys2Proof.Machine
end

