-- ==== Sys2Proof/Certificates/Slice0/Obligations.lean ====
section
/-! DEFINITION. The statements for the provers. Each names in its docstring the rules of the spec it formalises; where it rests on a choice of the
model it names the entry of the assumption log. -/
open Sys2Proof Sys2Proof.Machine

/-- A step runs the command at the front of the queue. For every state whose queue is c followed by rest, the step answers what exec answers for c on the
state with the queue rest; the queue is the model's (log 1). (00_scope, 01_overview) -/
def Obligations.StepRunsTheFrontCommand : Prop :=
  ∀ (c : Instr) (rest : List Instr) (s : State), s.pending = c :: rest → step s = exec c { s with pending := rest }

/-- What an empty queue lets happen. On an empty queue the step answers a next state that differs only in the model's time, in the MTC, in the fabric's
stall counters, token buckets and known egress depths, and in what the lanes and ports send of themselves: frames only. A lane in INIT or UP that has
sent all its frames sends one more, so that frames follow back to back. Each token bucket regains its rate; the egress depths are learnt anew every
128 ns and stay between; no frame waits in a deskew buffer beyond 64 ns. Without REFCLK or before the first lock the MTC stands still; otherwise it
never falls while its correction stays above minus one half, unless its 64 bits wrap. That time passes on an empty queue is the model's choice (log
4). Where it meets them it follows the model's choices of log entry 4 (notes/assumptions). (13_flume_relay R619 R623, 11_fabric_routing R479 R494,
10_optical_ports R418 R445 R455) -/
def Obligations.EmptyQueueLetsTimePass : Prop :=
  ∀ s : State, s.pending = [] → ∃ t, step s = .next t ∧
    t = { s with time := s.time + 1, mtc := t.mtc, fabric.ctrs := t.fabric.ctrs, fabric.flumeUsed := t.fabric.flumeUsed,
                 fabric.depths := t.fabric.depths, optics.lanes := t.optics.lanes, optics.links := t.optics.links, out := t.out } ∧
    (∃ sent, t.out = s.out ++ sent ∧ ∀ o ∈ sent, ∃ l f, o = .frame l f) ∧
    (∀ l, thas s.optics.lanes l = true → ((lane s l).st = .init ∨ (lane s l).st = .up) → (lane s l).sentTill ≤ 100 * (s.time + 1) →
      ∃ f, Out.frame l f ∈ t.out.drop s.out.length) ∧
    ((s.fabric.flumeUsed.map (·.1)).Pairwise (· < ·) → ∀ k, tget t.fabric.flumeUsed k 0 = tget s.fabric.flumeUsed k 0 - bucketFill k) ∧
    ((s.time + 1) % 128 ≠ 0 → t.fabric.depths = s.fabric.depths) ∧
    ((s.time + 1) % 128 = 0 → ∀ l, l < 144 → tget t.fabric.depths l 0 = egressDepth s l) ∧
    (∀ q, q < 4 → ∀ e ∈ (link t (144 + q)).deskew, t.time ≤ e.2 + 64) ∧
    t.mtc = { s.mtc with value := t.mtc.value, frac := t.mtc.frac, slew := t.mtc.slew } ∧
    ((s.pins.refclk = false ∨ s.mtc.everLocked = false) → t.mtc = s.mtc) ∧
    (-(2 : Int) ^ 31 < s.mtc.rate → s.mtc.rate < 2 ^ 31 → s.mtc.value.toNat + 2 < 2 ^ 64 → s.mtc.frac < 2 ^ 32 →
      s.mtc.value.toNat ≤ t.mtc.value.toNat ∧ t.mtc.value.toNat ≤ s.mtc.value.toNat + 2 ∧ t.mtc.frac < 2 ^ 32)

/-- The state right after reset. After reset the device is in LOOKOUT with no start step done, no ring, the V48 regulators off, no fault record, no
connection, no job, nothing listed in memory, an empty queue, READY low and FAULT_N high; the contents of Bark and Stump are the model's (log 2, 3).
Where it meets them it follows the model's choices of log entries 2, 3, 10 (notes/assumptions). (01_overview R29 R31, 15_start_rings R677 R680,
19_registers R850) -/
def Obligations.ResetState : Prop :=
  State.reset.dev.st = .lookout ∧ State.reset.dev.startStep = 0 ∧ State.reset.dev.ring = none ∧ State.reset.pins.v48On = false ∧
  State.reset.faults = [] ∧ State.reset.hauler.conns = [] ∧ State.reset.hauler.sessions = [] ∧ State.reset.job = {} ∧
  State.reset.mem.cells = [] ∧ State.reset.pending = [] ∧ State.reset.regs.scratch = 0 ∧
  readyLand State.reset = false ∧ faultNLand State.reset = true

/-- The limits of the state hold at reset. The capacities the spec gives the module's lists and the canonical form of memory hold in the reset state.
(19_registers R865, 15_start_rings R685, 16_warden_power_thermal R773 R774, 17_host_port R784) -/
def Obligations.LimitsHoldAtReset : Prop :=
  Limits State.reset

/-- Every step keeps the limits. From every state that meets the limits, whatever the command, a step answers a next state and that state meets them: at
most 256 fault records, 4 owner keys, 4 telemetry subscribers, 4,096 telemetry records, 465,920 ledger events, 14,336 start-log entries and 64 Hauler
connections under rising numbers, and memory in its canonical form. (19_registers R865, 15_start_rings R681 R685, 16_warden_power_thermal R773 R774
R778, 17_host_port R784) -/
def Obligations.EveryStepKeepsTheLimits : Prop :=
  ∀ s : State, Limits s → Safe s

/-- The queue and the manufacturing record. Every command answers a next state; it leaves the queue as it finds it, and what manufacture wrote into the
Bark (serial number, variant, enabled tiles, addresses, die fingerprints) is changed by none. Events that come at one moment join the end of the queue
in the order of R32, among those of one rank the writes of memory after the others (R334), else in the order in which they came. Where it meets them
it follows the model's choices of log entries 1, 2 (notes/assumptions). (15_start_rings R681, 01_overview R32, 08_memory R334) -/
def Obligations.NoCommandTouchesTheQueueOrTheManufacturingRecord : Prop :=
  (∀ (c : Instr) (s : State), ∃ t, exec c s = .next t ∧ t.pending = s.pending ∧ t.bark.made = s.bark.made) ∧
  ∀ (cs : List Instr) (s : State), ∃ q, atOnce cs s = { s with pending := s.pending ++ q } ∧ q.Perm cs ∧
    q.Pairwise (fun a b => eventRank a ≤ eventRank b ∧ (eventRank a = eventRank b → writesMemory a = true → writesMemory b = true)) ∧
    ∀ r w, q.filter (fun c => eventRank c == r && writesMemory c == w) = cs.filter (fun c => eventRank c == r && writesMemory c == w)

/-- The device changes state only by the transitions of Table 01-5. Whatever the command and the state, the device state after the command is the one
before it, or the pair is a transition of Table 01-5 and, where the table's event is a command or a pin of its own (the entry to LOOKOUT, the hand-
over, LOAD_PROGRAM, START_JOB, the assignment of a fill, release from quarantine, the end of a drain), the command is one that brings that event. A
fill that cannot be planned passes FILLING on its way to FAULTED within its one command. (R31) -/
def Obligations.OnlyTheTransitionsOfTable01_5 : Prop :=
  ∀ (c : Instr) (s t : State), exec c s = .next t → t.dev.st = s.dev.st ∨ Transition c s.dev.st t.dev.st

/-- VAUX and AUX_RST_N. VAUX on and a low AUX_RST_N bring LOOKOUT with every unit outside Bark and Stump at its reset value and the regulators off; the
key-encryption key lasts through AUX_RST_N and goes with VAUX; step 1 of the start is made when VAUX is on and AUX_RST_N is or becomes high. VAUX on
and the rising edge of AUX_RST_N pulse STUMP_RST_N, and the next use of the Stump begins anew; a start that VAUX or AUX_RST_N ends has the outcome
interrupted. Where it meets them it follows the model's choices of log entries 18, 19 (notes/assumptions). (01_overview R31, 15_start_rings R677 R697
R715 R717, 18_module R824 R831 R835) -/
def Obligations.SuppliesAndAuxReset : Prop :=
  ∀ (s : State) (holdN modRstN puf unwrap : Bool),
    (∃ t, exec (.vauxOn holdN modRstN puf unwrap) s = .next t ∧ t.dev.st = .lookout ∧ t.pins.vaux = true ∧ t.pins.v48On = false ∧
      t.pins.holdN = holdN ∧ t.pins.modRstN = modRstN ∧ t.pins.auxRstN = s.pins.auxRstN ∧
      (s.pins.auxRstN = true → t.dev.startStep = 1 ∧ t.dev.kek = puf ∧ t.dev.identityOk = (puf && unwrap)) ∧
      t.dev.ring = none ∧ t.job = {} ∧ t.tiles = [] ∧ t.mem = {} ∧ t.mtc = {} ∧ t.optics = {} ∧ t.hauler = {} ∧
      Out.stumpReset ∈ t.out ∧ t.stump = { s.stump with clock := 0 } ∧ t.bark.ownerKeys = s.bark.ownerKeys) ∧
    (∃ t, exec .vauxLoss s = .next t ∧ t.dev.st = .lookout ∧ t.pins.vaux = false ∧ t.pins.v48On = false ∧ t.dev.kek = false ∧
      readyLand t = false ∧ t.job = {} ∧ t.tiles = [] ∧ t.mem = {} ∧ t.hauler = {} ∧ t.stump = (noteInterrupted s).stump ∧ t.bark.ownerKeys = s.bark.ownerKeys) ∧
    (s.pins.vaux = true → ∃ t, exec .auxRstNAssert s = .next t ∧ t.dev.st = .lookout ∧ t.pins.auxRstN = false ∧ t.pins.v48On = false ∧
      t.dev.kek = s.dev.kek ∧ t.dev.startStep = 0 ∧ t.job = {} ∧ t.tiles = [] ∧ t.mem = {} ∧ t.hauler = {} ∧ t.stump = (noteInterrupted s).stump ∧
      t.bark.ownerKeys = s.bark.ownerKeys) ∧
    (s.pins.vaux = true → s.pins.auxRstN = false → ∃ t, exec (.auxRstNRelease holdN modRstN puf unwrap) s = .next t ∧
      t.pins.auxRstN = true ∧ t.dev.startStep = 1 ∧ t.dev.kek = (s.dev.kek || puf) ∧ t.dev.st = s.dev.st ∧ Out.stumpReset ∈ t.out ∧
      t = { s with pins := t.pins, dev := t.dev, out := t.out, faults := t.faults, regs := t.regs, hauler.conns := t.hauler.conns, stump.clock := 0 })

/-- What begins a start. The self-test passing, HOLD_N rising and MOD_RST_N rising begin a start in LOOKOUT once both lands are high and step 2 is
complete; MOD_RST_N rising, Q0's domain becoming stable and the restart of a failed trial begin one in STARTING. A start counts up start_count,
appends one entry to the start log with the Stump in use at the clock that its SFDP table states, up to 200 MHz, and either chooses a ring that
verifies or holds with cause ring. Where it meets them it follows the model's choices of log entries 15, 17 (notes/assumptions). (15_start_rings R677
R678 R687 R692 R693, 18_module R825 R826 R827 R828 R834, 09_stack_links R408) -/
def Obligations.StartsBegin : Prop :=
  ∀ s : State,
    (lookoutUp s = true → s.dev.st = .lookout → s.dev.startStep = 1 → s.pins.holdN = true → s.pins.modRstN = true →
      ∃ t, exec .wardenSelfTestPass s = .next t ∧ StartBegun s t) ∧
    (lookoutUp s = true → s.dev.st = .lookout → s.dev.startStep = 1 → s.pins.holdN = false →
      exec .wardenSelfTestPass s = .next { s with dev.startStep := 2 }) ∧
    (lookoutUp s = true → s.dev.st = .lookout → s.dev.startStep = 2 → s.pins.modRstN = true →
      ∃ t, exec .holdNRise s = .next t ∧ StartBegun s t ∧ t.pins.holdN = true) ∧
    (s.dev.st ≠ .lookout → exec .holdNRise s = .next { s with pins.holdN := true }) ∧
    (lookoutUp s = true → s.dev.st = .lookout → s.dev.startStep = 2 → s.pins.holdN = true →
      ∃ t, exec .modRstNRelease s = .next t ∧ StartBegun s t ∧ t.pins.modRstN = true) ∧
    (lookoutUp s = true → s.dev.st = .starting → s.pins.modRstN = false → s.dev.q0Held = false →
      ∃ t, exec .modRstNRelease s = .next t ∧ StartBegun s t) ∧
    (lookoutUp s = true → s.dev.st = .starting → s.dev.q0Held = true → s.pins.modRstN = true →
      ∃ t, exec .q0DomainStable s = .next t ∧ StartBegun s t ∧ t.dev.q0Held = false) ∧
    (lookoutUp s = true → s.dev.st = .starting → s.dev.restartDue = true → s.pins.modRstN = true →
      ∃ t, exec .ringTrialRestart s = .next t ∧ StartBegun s t ∧ t.dev.restartDue = false ∧ t.pins.v48On = false ∧ t.tiles = [] ∧ t.mem = {})

/-- MOD_RST_N, loss of Q0, of REFCLK and of V48, and the clocks. Outside LOOKOUT a low MOD_RST_N, a loss of Q0, a loss of REFCLK and a V48 outside 36 to
62 V with the regulators on each bring STARTING at once with the regulators off, no ring, no job and every unit outside the lookout domain at its
reset value; in LOOKOUT the first three change only their pin. A start that MOD_RST_N ends has the outcome interrupted. The return of REFCLK, the loss
of AUXCLK and its return change the pin they name, with ERR_AUXCLK at the loss. (09_stack_links R408, 16_warden_power_thermal R729 R732 R740,
15_start_rings R697, 18_module R825 R826) -/
def Obligations.ResetsOfTheV48Domain : Prop :=
  ∀ s : State,
    (lookoutUp s = true → s.dev.st ≠ .lookout → ∃ t, exec .modRstNAssert s = .next t ∧ V48Reset (noteInterrupted s) t ∧
      t.pins.modRstN = false ∧ t.dev.q0Held = false) ∧
    (s.dev.st = .lookout → exec .modRstNAssert s = .next { s with pins.modRstN := false }) ∧
    (s.dev.st ≠ .lookout → ∃ t, exec .q0Loss s = .next t ∧ V48Reset s t ∧ t.dev.q0Held = true) ∧
    (s.dev.st = .lookout → exec .q0Loss s = .next s) ∧
    (s.dev.st ≠ .lookout → ∃ t, exec .refclkLoss s = .next t ∧ V48Reset s t ∧ t.dev.q0Held = true ∧ t.pins.refclk = false) ∧
    (s.dev.st = .lookout → exec .refclkLoss s = .next { s with pins.refclk := false }) ∧
    (∀ v : Nat, (v < 3600 ∨ 6200 < v) → s.pins.v48On = true → s.dev.st ≠ .lookout →
      ∃ t, exec (.v48Shutdown v) s = .next t ∧ V48Reset s t ∧ t.dev.q0Held = true ∧ ∃ f ∈ t.faults, f.code = 0x0A04) ∧
    exec .refclkReturn s = .next { s with pins.refclk := true } ∧
    (lookoutUp s = true → s.pins.internalOsc = false → ∃ t, exec .auxclkLoss s = .next t ∧ t.pins.internalOsc = true ∧
      (∃ f, t.faults = (f :: s.faults).take 256 ∧ f.code.toNat = errAuxclk) ∧
      t = { s with pins := t.pins, heat.oscTicks := 0, out := t.out, faults := t.faults, regs := t.regs, dev := t.dev, hauler.conns := t.hauler.conns }) ∧
    exec .auxclkReturn s = .next { s with pins.internalOsc := false }

/-- Steps 6 to 10 of a start. With a ring chosen, V48 within 40 to 60 V and REFCLK present, the regulators turn on and steps 6 to 8 are made. At step 10
the device becomes READY (role working) or RELAYING when every check of Table 15-10 passes; a failing check of the first four rows is a trial failure
on a trial and a hold on any other ring; a failing check of the other rows holds in STARTING. A hold is tried again each second, and a hold of a trial
beyond its limit is a trial failure. Where it meets them it follows the model's choices of log entries 15, 16 (notes/assumptions). (01_overview R31,
15_start_rings R680 R693 R695 R698 R699, 16_warden_power_thermal R732) -/
def Obligations.StartRunsToItsEnd : Prop :=
  ∀ (s : State) (r : Ring), lookoutUp s = true → s.dev.st = .starting → s.dev.ring = some r →
    (∀ (v : Nat) (obs : TrainObs), s.dev.startStep = 5 → s.pins.modRstN = true → s.pins.refclk = true → 4000 ≤ v → v ≤ 6000 →
      ∃ t, exec (.v48InRange v obs) s = .next t ∧ t.pins.v48On = true ∧ t.pins.v48 = v ∧ t.dev.startStep = 7 ∧ t.dev.st = .starting ∧
        t.fabric.epoch = r.epoch ∧ (if t.fabric.epoch then t.fabric.copy1 else t.fabric.copy0) = r.tables ∧ t.mtc.locked = r.clock.isRoot ∧
        t.stump = s.stump) ∧
    (s.dev.startStep = 7 → s.dev.restartDue = false → ∃ t, exec .startChecks s = .next t ∧
      (failingRow s r = 0 → StartCommitted s t r) ∧
      (1 ≤ failingRow s r → failingRow s r ≤ 4 → s.dev.trial = true → TrialFailed s t r) ∧
      (1 ≤ failingRow s r → failingRow s r ≤ 4 → s.dev.trial = false → t.dev.st = .starting ∧ t.dev.holdCause = 6 ∧ t.stump.failsA = s.stump.failsA ∧
        t.stump.failsB = s.stump.failsB) ∧
      (5 ≤ failingRow s r → t.dev.st = .starting ∧ t.dev.holdCause = failingRow s r - 4 ∧
        (failingRow s r - 4) ∈ t.dev.holdsWritten ∧ ((failingRow s r - 4) ∈ s.dev.holdsWritten → t.faults = s.faults))) ∧
    (s.dev.startStep = 7 → s.dev.restartDue = false → s.pins.modRstN = true → s.dev.q0Held = false → s.dev.holdCause ≠ 0 → failingRow s r = 0 →
      ∃ t, exec .startHoldRetry s = .next t ∧ StartCommitted s t r) ∧
    (s.dev.trial = true → s.dev.restartDue = false → s.dev.holdCause ≠ 0 →
      s.dev.holdSince.getD s.time + 1000000 * orDefault r.policy.holdLimit 600000 < s.time → ∃ t, exec .holdLimitExpire s = .next t ∧ TrialFailed s t r)

/-- What the commit of a ring changes in the Stump. When a start passes its checks, a trial slot is active afterwards and the formerly active slot
previous, an active or previous slot that started keeps its state, both failure counts are 0, control_floor is the larger of control_floor and the
ring's floor field, and both slots hold the rings they held. (R696) -/
def Obligations.RingsCommitAsR696 : Prop :=
  ∀ (s : State) (r : Ring), lookoutUp s = true → s.dev.st = .starting → s.dev.ring = some r → s.dev.startStep = 7 → s.dev.restartDue = false →
    failingRow s r = 0 → ∃ t, exec .startChecks s = .next t ∧
      t.stump.failsA = 0 ∧ t.stump.failsB = 0 ∧ t.stump.controlFloor = max s.stump.controlFloor r.floor ∧
      t.stump.slotA = s.stump.slotA ∧ t.stump.slotB = s.stump.slotB ∧ t.stump.floorRec = s.stump.floorRec ∧
      (s.dev.trial = true → slotState t.stump s.dev.ringSlotB = .active) ∧
      (s.dev.trial = true → slotState s.stump (!s.dev.ringSlotB) = .active → slotState t.stump (!s.dev.ringSlotB) = .previous) ∧
      (s.dev.trial = true → slotState s.stump (!s.dev.ringSlotB) ≠ .active →
        slotState t.stump (!s.dev.ringSlotB) = slotState s.stump (!s.dev.ringSlotB)) ∧
      (s.dev.trial = false → t.stump.stateA = s.stump.stateA ∧ t.stump.stateB = s.stump.stateB)

/-- The ring that a start chooses. choose_ring answers a slot only when that slot's ring verifies against the effective floor and its state is staged (a
trial), active or previous; no staged ring that verifies is passed over for an active one, and no active one for a previous one; a slot that it does
not answer and that verified keeps its state. (15_start_rings R691 R692 R700) -/
def Obligations.RingChoice : Prop :=
  ∀ (s t : State) (b trial : Bool) (r : Ring), chooseRing (effectiveFloor s) ringOrder s = (some (b, r, trial), t) →
    slotRing s.stump b = some r ∧ verifyRing s r (effectiveFloor s) = none ∧
    (slotState s.stump b = .staged ∨ slotState s.stump b = .active ∨ slotState s.stump b = .previous) ∧
    (trial = true ↔ slotState s.stump b = .staged) ∧ slotState t.stump b = slotState s.stump b ∧
    (∀ r', slotRing s.stump (!b) = some r' → slotState s.stump (!b) = .staged → slotState s.stump b ≠ .staged →
      verifyRing s r' (effectiveFloor s) ≠ none ∧ slotState t.stump (!b) = .failed) ∧
    (∀ r', slotRing s.stump (!b) = some r' → slotState s.stump (!b) = .active → slotState s.stump b = .previous →
      verifyRing s r' (effectiveFloor s) ≠ none ∧ slotState t.stump (!b) = .failed)

/-- The leaves that the compute units form. A slot whose turn it is streams rows against the active set, or, where the stream changes sets, against the
other one; a stream that changes sets before the load is complete stalls and sends nothing to the node store, and the set that it leaves stays loaded.
Each child that a stream sends to the node store is the exact leaf of one streamed row and one stationary column, and there is one for every row and
used column. A thin-path pass reads its weights from the tile's SRAM and sends one leaf for each vector and chunk, poisoned where a weight is; its
vectors are those of the buffer, or those that reload it at a chunk boundary. The leaf reducer sends one leaf of its values or of its exact products.
A load writes the inactive set alone and is complete with good parity, when a stream that waited for it runs. The slot retires, the arrivals of the
phase are taken, and nothing else changes but what crosses the tile's own vertical link; the stationary sets, the vector registers and the node
store's entries stay. An issue runs the sequencer's own instructions before it, retires the slot's instruction, moves the unit's turn to the slot, and
leaves the slot after it or, with no instruction for a unit left, IDLE. Where it meets them it follows the model's choices of log entries 20, 21
(notes/assumptions). (02_tile R41 R42 R47 R48 R51 R60 R66 R68 R71 R72 R75 R77, 03_arithmetic R113 R114, 06_placement R294, 07_sequence_generation
R328) -/
def Obligations.LeavesOfArrayThinPathAndReducer : Prop :=
  ∀ (s : State) (t : Tile) (k : SlotId) (acc : AccSpec),
    (∀ n : Nat, canIssue s t k n = true →
      let v := issuedAlone t n k s
      let at' := settled (tile s t) k
      v = { s with tiles := v.tiles, remote.ctrs := (takeArrivals t s).remote.ctrs, job.progressAt := s.time } ∧
      (∀ j : Nat, j ≠ t → tile v j = tile s j) ∧ (tile v t).awaits = [] ∧ tget (tile v t).lastUnit n 7 = k ∧
      (tile v t).gated = (tile s t).gated &&& ~~~ unitBit n ∧ SameCrown s v t ∧ (∀ j : Nat, j ≠ k → slot (tile v t) j = slot (tile s t) j) ∧
      (slot (tile v t) k = { at' with pc := at'.pc + 1, released := false } ∨ (slot (tile v t) k).st = .idle)) ∧
    (∀ (rows : List Run) (newSet : Bool), canIssue s t k 0 = true → (tile s t).stalled = none → accFits acc 1 = true →
      (rows.all fun r => arrayFormat r.fmt) = true →
      (newSet = true → (tile s t).loaded = false → ∃ u, exec (.arrayStream ⟨t, k, []⟩ acc rows newSet true) s = .next u ∧
        u = { s with tiles := u.tiles, remote.ctrs := (takeArrivals t s).remote.ctrs, job.progressAt := u.job.progressAt,
                     stacking.links := u.stacking.links, out := u.out } ∧ SentDown s u t ∧ (∀ j : Nat, j ≠ t → tile u j = tile s j) ∧
        (tile u t).stalled = some ⟨k, acc, rows⟩ ∧ SameCrown s u t ∧ (tile u t).awaits = [] ∧
        (slot (tile u t) k).pc = (settled (tile s t) k).pc ∧ (slot (tile u t) k).st = .running) ∧
      ((newSet = true → (tile s t).loaded = true) → ∃ u, exec (.arrayStream ⟨t, k, []⟩ acc rows newSet true) s = .next u ∧ Issued s u t 0 k ∧
        let set := activeSet (if newSet then switchSet (tile s t) else tile s t)
        ∃ cs : List Child, waiting u t 0 = waiting s t 0 ++ cs ∧ cs.length = rows.length * min acc.count set.length ∧
          (∀ c ∈ cs, (∃ row ∈ rows, ∃ col ∈ set, c.value = leafProducts (decodeRun row) (decodeRun col)) ∧ c.leaf = acc.leaf ∧ c.first = acc.first ∧
            c.n = acc.n ∧ c.emit = acc.emit ∧ c.lvl = 0 ∧ c.poisoned = false) ∧
          (∀ j, j ≠ 0 → waiting u t j = waiting s t j) ∧ (tile u t).activeB = ((tile s t).activeB != newSet) ∧ (tile u t).stalled = none ∧
          (tile u t).loaded = (if newSet then (tile s t).activeLoaded else (tile s t).loaded) ∧
          (tile u t).activeLoaded = (newSet || (tile s t).activeLoaded) ∧
          (tile u t).setA = (tile s t).setA ∧ (tile u t).setB = (tile s t).setB ∧
          (tile u t).regs = (tile s t).regs ∧ (tile u t).entries = (tile s t).entries ∧ (tile u t).completed = (tile s t).completed)) ∧
    (∀ (load : Option (List (List Run))) (weights : List RunRef), let vecs := load.getD (tile s t).vectors
      canIssue s t k 1 = true → 1 ≤ vecs.length → vecs.length ≤ 8 → weights.length ≤ 4 →
      weights.all refFits = true → accFits acc weights.length = true →
      (vecs.all fun v => decide (v.length ≤ 4) && v.all fun r => arrayFormat r.fmt) = true →
      chunkInOrder (tile s t) acc.leaf acc.first load.isSome = true →
      ∃ u, exec (.thinPathPass ⟨t, k, []⟩ acc load weights true []) s = .next u ∧ Issued s u t 1 k ∧
        ∃ cs : List Child, waiting u t 1 = waiting s t 1 ++ cs ∧ cs.length = (vecs.map fun v => min v.length weights.length).sum ∧
          (∀ c ∈ cs, ∃ v ∈ vecs, ∃ x ∈ v, ∃ w ∈ weights, c.value = leafProducts (decodeRun x) (decodeRun (readRun s t w).1) ∧
            c.poisoned = (readRun s t w).2) ∧
          (tile u t).vectors = vecs ∧ (tile u t).setA = (tile s t).setA ∧ (tile u t).setB = (tile s t).setB ∧ (tile u t).entries = (tile s t).entries) ∧
    (∀ (inputs : ReduceIn) (kind : ReduceKind) (v : Word), canIssue s t k 2 = true → accFits acc 1 = true → reducerLeaf kind inputs = some v →
      (∀ xs, inputs = .values xs → kind = .sum → v = leafOf (xs.map dec32)) ∧
      (∀ a b, inputs = .products a b → v = leafProducts (decodeRun a) (decodeRun b)) ∧
      ∃ u, exec (.leafReduce ⟨t, k, []⟩ kind acc inputs) s = .next u ∧ Issued s u t 2 k ∧
        ∃ c : Child, waiting u t 2 = waiting s t 2 ++ [c] ∧ c.value = v ∧ c.kind = kind ∧ c.x = acc.x0 ∧ c.n = acc.n ∧ c.leaf = acc.leaf ∧
          (tile u t).regs = (tile s t).regs ∧ (tile u t).entries = (tile s t).entries) ∧
    (∀ cols : List Run, canIssue s t k 3 = true → (tile s t).loading = false → cols.length ≤ 256 → (cols.all fun c => arrayFormat c.fmt) = true →
      ∃ u, exec (.stationaryLoad ⟨t, k, []⟩ cols) s = .next u ∧ Issued s u t 3 k ∧ (tile u t).loading = true ∧ (tile u t).loaded = false ∧
        (tile u t).activeB = (tile s t).activeB ∧ (tile u t).children = (tile s t).children ∧
        (if (tile s t).activeB then (tile u t).setA = cols ∧ (tile u t).setB = (tile s t).setB
         else (tile u t).setB = cols ∧ (tile u t).setA = (tile s t).setA)) ∧
    ((tile s t).loading = true → (tile s t).crownGated = false → (tile s t).stalled = none →
      ∃ u, exec (.stationaryLoadComplete t true) s = .next u ∧ OnlyTile s u t ∧ tile u t = { tile s t with loading := false, loaded := true }) ∧
    (∀ st : Stream, (tile s t).loading = true → (tile s t).crownGated = false → (tile s t).stalled = some st →
      ∃ u, exec (.stationaryLoadComplete t true) s = .next u ∧ (tile u t).stalled = none ∧ (tile u t).loading = false ∧
        (tile u t).loaded = (tile s t).activeLoaded ∧ (tile u t).activeB = !(tile s t).activeB ∧
        waiting u t 0 = waiting s t 0 ++ arrayLeaves st.acc (activeSet (switchSet (tile s t))) st.rows)

/-- Vector operations, and what a fetch finds. A vector operation of a slot whose turn it is takes each operand from a register or, in an epilogue, from
completed entries, and writes its result lane by lane (a destination that is also an operand included), two BF16 lanes to a 32-bit lane in BF16 form:
to a register, when every other register and the entries stay, or in the place of completed entries, which take the operands' poison, when every
register stays. A conversion writes its codes and block scales to two registers, from FP32 elements or from two BF16 ones a lane. A form that Table
02-6 does not have, and an epilogue without its entries, change nothing; a read that fails its parity, or an entry's code, writes nothing and is
counted. For every instruction of the crown units, a fetch that finds a corrected error counts it and goes on; one that finds an uncorrectable error
halts the slot with a fault record and performs nothing. Where it meets them it follows the model's choices of log entries 20, 23 (notes/assumptions).
(02_tile R64 R65 R67 R82 R83 R84, 03_arithmetic R125 R126 R127, 14_recovery R646) -/
def Obligations.VectorOperationsLaneByLane : Prop :=
  ∀ (s : State) (t : Tile) (k : SlotId),
    (∀ (op : VecOp) (x y z v : List Word), (∀ bf, vecLanes op bf x y z = some v → ∀ i, i < 64 →
      if bf then some (nth v i 0) = vecPair16 op (nth x i 0) (nth y i 0) (nth z i 0) else nth v i 0 = vecLane op (nth x i 0) (nth y i 0) (nth z i 0)) ∧
      (vecLanes op false x y z).isSome = true) ∧
    (∀ (j : Fin 32) (x : List Word), argLanes (tile s t) (.reg j) = some x → ∀ i, i < 64 → nth x i 0 = nth (vreg (tile s t) j) i 0) ∧
    (∀ (x0 n : Nat) (x : List Word), argLanes (tile s t) (.entries x0 n) = some x → n ≤ 64 ∧ ∀ i, i < n →
      ∃ e, entryOf (tile s t) (x0 + i) = some e ∧ nth x i 0 = e.value) ∧
    (canIssue s t k 2 = true → ∀ (op : VecOp) (bf : Bool) (d a b c : VecArg) (x y z : List Word),
      argLanes (tile s t) a = some x → argLanes (tile s t) b = some y → argLanes (tile s t) c = some z → (argVals (tile s t) d).isSome = true →
      (vecLanes op bf x y z = none → ∀ p e, exec (.vectorOp ⟨t, k, []⟩ (.lanes op bf d a b c) p e) s = .next s) ∧
      ∀ v, vecLanes op bf x y z = some v →
        ∃ u, exec (.vectorOp ⟨t, k, []⟩ (.lanes op bf d a b c) true .ok) s = .next u ∧ Issued s u t 2 k ∧
          (tile u t).children = (tile s t).children ∧ (tile u t).setA = (tile s t).setA ∧ (tile u t).setB = (tile s t).setB ∧
          (tile u t).entries = (tile s t).entries ∧
          (∀ j : Fin 32, d = .reg j → vreg (tile u t) j = v ∧ (∀ i : Nat, i ≠ j → vreg (tile u t) i = vreg (tile s t) i) ∧
            (tile u t).completed = (tile s t).completed) ∧
          (∀ x0 n : Nat, d = .entries x0 n → (∀ i : Nat, vreg (tile u t) i = vreg (tile s t) i) ∧
            (tile u t).completed.map (·.x) = (tile s t).completed.map (·.x) ∧
            ∀ i, i < n → ∀ e, entryOf (tile s t) (x0 + i) = some e → entryOf (tile u t) (x0 + i) =
              some { e with value := nth v i 0
                            poisoned := e.poisoned || argPoison (tile s t) a || argPoison (tile s t) b || argPoison (tile s t) c })) ∧
    (canIssue s t k 2 = true → ∀ (cv : Convert) (d c : Fin 32) (a : VecArg) (vs : List Word), argVals (tile s t) a = some vs →
      (convertible cv.fmt = true → d ≠ c → ∃ u, exec (.vectorOp ⟨t, k, []⟩ (.convert cv d c a) true .ok) s = .next u ∧ Issued s u t 2 k ∧
        (let q := convRegs cv (convertRun cv ((convElems cv.bf16 vs).zipIdx.map fun e => (e.1, convRnd s cv e.2)))
         vreg (tile u t) d = q.1 ∧ vreg (tile u t) c = q.2) ∧
        ∀ j : Nat, j ≠ d → j ≠ c → vreg (tile u t) j = vreg (tile s t) j) ∧
      (convertible cv.fmt = false → ∀ p e, exec (.vectorOp ⟨t, k, []⟩ (.convert cv d c a) p e) s = .next s)) ∧
    (∀ (op : VecInstr) (p : Bool) (e : Ecc), vecEffect s t op = none → exec (.vectorOp ⟨t, k, []⟩ op p e) s = .next s) ∧
    (∀ x0 n i : Nat, i < n → (∀ y ∈ (tile s t).completed, y.x ≠ x0 + i) → argVals (tile s t) (.entries x0 n) = none) ∧
    (∀ (op : VecInstr) (p : Bool) (e : Ecc), canIssue s t k 2 = true → (vecEffect s t op).isSome = true →
      (p = false ∨ (e = .uncorrectable ∧ vecReadsStore op = true)) →
      ∃ u, exec (.vectorOp ⟨t, k, []⟩ op p e) s = .next u ∧
        OnlyFaults s { u with remote.ctrs := s.remote.ctrs, job.progressAt := s.job.progressAt } ∧ SameCrown s u t ∧
        (∃ f ∈ u.faults, f.code.toNat = errSramUncorr ∧ f.obj = BitVec.ofNat 32 t)) ∧
    (∀ (acc : AccSpec) (rows cols : List Run) (sw p : Bool) (vecs : Option (List (List Run))) (ws : List RunRef) (op : VecInstr) (kind : ReduceKind)
        (inputs : ReduceIn) (e : Ecc) (es : List (Nat × Ecc)),
      ∀ mk ∈ ([fun i => .arrayStream i acc rows sw p, fun i => .stationaryLoad i cols, fun i => .thinPathPass i acc vecs ws p es,
          fun i => .vectorOp i op p e, fun i => .leafReduce i kind acc inputs] : List (Issue → Instr)),
      settled (tile s t) k = slot (tile s t) k →
      (exec (mk ⟨t, k, []⟩) s = .next s → exec (mk ⟨t, k, [.corrected]⟩) s = .next s) ∧
      (exec (mk ⟨t, k, []⟩) s ≠ .next s → exec (mk ⟨t, k, [.corrected]⟩) s = exec (mk ⟨t, k, []⟩) (crownCorrected t s)) ∧
      (exec (mk ⟨t, k, []⟩) s ≠ .next s → ∃ u, exec (mk ⟨t, k, [.uncorrectable]⟩) s = .next u ∧ SameCrown s u t ∧
        (slot (tile u t) k).st = .halted ∧ ∃ f ∈ u.faults, f.code.toNat = errSramUncorr ∧ f.obj = BitVec.ofNat 32 t))

/-- The node store computes the canonical tree. Whatever the values, and whether the nodes add or take the maximum or the minimum (R118), when the
children of an output of n leaves, each a node of level l (l = 0 for leaves, above it for the nodes that parts deliver), reach a node store that holds
nothing of that output, in ascending order and with emit level e between l and D, what it completes is the nodes of level e of the canonical tree over
them, in ascending order, each at level e; the output is closed, its entries are free, and entries and outputs of every other number are untouched.
With e = D the one value completed is the root of the canonical tree over the children, for a sum the canonical sum. Where it meets them it follows
the model's choices of log entries 22, 24 (notes/assumptions). (02_tile R54 R55, 03_arithmetic R115 R116 R118 R121) -/
def Obligations.NodeStoreComputesTheCanonicalTree : Prop :=
  ∀ (c : Child) (vs : List Word) (r : TileRec), 1 ≤ c.n → c.n ≤ 8 ^ 15 → vs.length = (c.n + 8 ^ c.lvl - 1) / 8 ^ c.lvl → c.lvl ≤ c.emit →
    c.emit ≤ topOf c.n → c.poisoned = false →
    thas r.outs c.x = false → (∀ l, l < 32 → tget r.entries (entryKey c.x l) (0, 0) = (0, 0)) →
    (feed c vs r).completed = r.completed ++ (nodesAt (nodeOp c.kind) (c.emit - c.lvl) vs).map (fun v => ⟨c.x, c.emit, v, false, c.tensor, c.elem, c.w⟩) ∧
    (c.emit = topOf c.n → (nodesAt (nodeOp c.kind) (c.emit - c.lvl) vs).map some = [canonicalTree (nodeOp c.kind) vs]) ∧
    thas (feed c vs r).outs c.x = false ∧ (∀ l, l < 32 → tget (feed c vs r).entries (entryKey c.x l) (0, 0) = (0, 0)) ∧
    (∀ k, (∀ l, l < 32 → k ≠ entryKey c.x l) → tget (feed c vs r).entries k (0, 0) = tget r.entries k (0, 0)) ∧
    (∀ x, x ≠ c.x → tget (feed c vs r).outs x {} = tget r.outs x {})

/-- Parts of a canonical sum hand over whole nodes. For every node operation and every list of n children, a part that covers children a up to b, with a a
multiple of 8^e and b a multiple of 8^e or n, has exactly ⌈(b − a)/8^e⌉ nodes of level e; they are the nodes of the whole tree's level e from index
a/8^e on; and an owner that builds the tree from the level-e nodes gets the canonical result. (R121) -/
def Obligations.PartsOfACanonicalSum : Prop :=
  ∀ (α : Type) (op : α → α → α) (xs : List α) (a b e : Nat), 8 ^ e ∣ a → (8 ^ e ∣ b ∨ b = xs.length) → a ≤ b → b ≤ xs.length →
    (nodesAt op e (slice xs a (b - a))).length = (b - a + 8 ^ e - 1) / 8 ^ e ∧
    nodesAt op e (slice xs a (b - a)) = slice (nodesAt op e xs) (a / 8 ^ e) ((b - a + 8 ^ e - 1) / 8 ^ e) ∧
    canonicalTree op (nodesAt op e xs) = canonicalTree op xs

/-- Children, drains and the combine unit. The next child of a source enters the node store of a working crown when it is its output's next, its entry is
free and a new output finds room, and only the tile's record changes; a child that cannot enter stalls its source. A corrected error of the store is
counted; an uncorrectable one leaves a free value that carries poison, with a fault record. A drain takes up to 256 completed entries in order, or
into a block format one whole block or group of its tensor, and frees them. The combine unit takes a child whose turn it is at once, and holds one
whose turn has not come, so that children are taken in ascending index; it adds them, or hands them to the node store as children from the root half,
and turns away a child that is not one of the node's or is already in. Where it meets them it follows the model's choices of log entry 24
(notes/assumptions). (02_tile R53 R54 R55 R57 R67 R73 R80 R82 R83, 03_arithmetic R95 R116 R119) -/
def Obligations.NodeStoreDrainAndCombineUnit : Prop :=
  ∀ (s : State) (t : Tile),
    (∀ (src : LeafSource) (c : Child) (rest : List Child), waiting s t (sourceKey src) = c :: rest →
      let r := { tile s t with children := tset (tile s t).children (sourceKey src) rest [] }
      (canTake (tile s t) c = true → c.leaf = c.first + (tget (tile s t).outs c.x {}).next ∧
        (thas (tile s t).outs c.x = true ∨ openEntries (tile s t) + topOf c.n ≤ 262144)) ∧
      ((crownWorks s t = false ∨ canTake (tile s t) c = false) → ∀ e, exec (.leafArrive t src e) s = .next s) ∧
      (crownWorks s t = true → canTake (tile s t) c = true →
        (∃ u, exec (.leafArrive t src .ok) s = .next u ∧ OnlyTile s u t ∧ tile u t = takeChild c c.value false r) ∧
        (∃ u, exec (.leafArrive t src .corrected) s = .next u ∧ u = { s with tiles := u.tiles, bark := (crownCorrected t s).bark } ∧
          tile u t = takeChild c c.value false r) ∧
        (∃ u, exec (.leafArrive t src .uncorrectable) s = .next u ∧ OnlyFaults s { u with draws := s.draws } ∧
          (tile u t).entries = (takeChild c (Config.crownGarbage t c.x s.draws) true r).entries ∧
          (tile u t).outs = (takeChild c (Config.crownGarbage t c.x s.draws) true r).outs ∧
          (tile u t).completed = (takeChild c (Config.crownGarbage t c.x s.draws) true r).completed ∧
          ∃ f ∈ u.faults, f.code.toNat = errSramUncorr ∧ f.obj = BitVec.ofNat 32 t))) ∧
    (∀ (src : LeafSource) (e : Ecc), waiting s t (sourceKey src) = [] → exec (.leafArrive t src e) s = .next s) ∧
    (∀ (fmt : Nat) (sr : Bool), crownWorks s t = true → (dlink s t).paused = false → convertible fmt = true →
      let now := drainBatch s fmt (tile s t)
      (isBlock fmt = false → now = (tile s t).completed.take 256) ∧
      (isBlock fmt = true → now.length ≤ 4096 ∧ ∀ a ∈ now, ∀ b ∈ now, a.tensor = b.tensor ∧ a.w = b.w) ∧
      (now = [] → ∀ e, exec (.nodeStoreDrain t fmt sr e) s = .next s) ∧
      (now ≠ [] → ∃ u, exec (.nodeStoreDrain t fmt sr .ok) s = .next u ∧ OverLink s u t ∧
        (tile u t).completed.length + now.length = (tile s t).completed.length ∧
        (isBlock fmt = false → (tile u t).completed = (tile s t).completed.drop 256) ∧
        ∃ d : Drained, (tile u t).drained = (tile s t).drained ++ [d] ∧ d.outs = now.map (·.x) ∧ d.fmt = fmt ∧
          d.codes = (quantiseRun fmt (now.map fun c => (dec32 c.value, drainRnd s sr c))).1.codes ∧
          d.bad = (now.filter (·.poisoned)).map (·.x) ∧
          (tile u t).entries = (tile s t).entries ∧ (tile u t).children = (tile s t).children)) ∧
    (∀ (kind : CombineKind) (node n idx : Nat) (v : DWord), idx < n → s.pins.v48On = true → s.dev.qLost.getLsbD (quadOf t) = false →
      let m := tget (tile s t).nodes node {}
      m.held = [] →
      (idx = m.next →
        (∃ u, exec (.combine t none kind .add node n idx v false []) s = .next u ∧ OnlyTile s u t ∧ SameCrown s u t ∧ tget (tile u t).nodes node {} =
          { m with next := idx + 1, acc := if idx = 0 then combineChild kind v else combineAdd kind m.acc (combineChild kind v) }) ∧
        (∀ (k : SlotId), canIssue s t k 5 = true → ∃ u, exec (.combine t (some ⟨t, k, []⟩) kind .add node n idx v false []) s = .next u ∧
          Issued s u t 5 k ∧ tget (tile u t).nodes node {} =
            { m with next := idx + 1, acc := if idx = 0 then combineChild kind v else combineAdd kind m.acc (combineChild kind v) }) ∧
        (∀ (a : AccSpec) (lvl : Nat), nodesFit a lvl n = true → lvl < a.emit ∧ a.emit ≤ topOf a.n ∧
          ∃ u, exec (.combine t none kind (.store a lvl) node n idx v false []) s = .next u ∧
            waiting u t 3 = waiting s t 3 ++ [nodeChild a lvl idx (combineChild kind v) m.poison] ∧
            tget (tile u t).nodes node {} = { m with next := idx + 1 })) ∧
      (m.next < idx → ∃ u, exec (.combine t none kind .add node n idx v false []) s = .next u ∧ OnlyTile s u t ∧ SameCrown s u t ∧
        tget (tile u t).nodes node {} = { m with held := [(idx, combineChild kind v)] }) ∧
      (idx < m.next → exec (.combine t none kind .add node n idx v false []) s = .next s))

/-- Clock gating, wake, shadow checks and phase boundaries. Gating an idle unit or a quiet crown sets its bit and keeps every memory and register of the
tile; a released wait or the loader wakes a gated crown, outside READY, LOADING and RELAYING or where the exerciser drives it, and the slots released
go on. A sampled leaf that agrees with its shadow leaves the list, one that drifts is marked; the leaf that the third tile forms names the tile
suspected in ERR_SHADOW_DRIFT, and a module whose job runs is QUARANTINED. At the boundary before the phase that comes, every tile of the plan has the
phase's programs in its instruction memory, awaits the phase's arrivals with an empty node store, and the counters' kinds and the multicast groups are
the phase's; without transfers the slots stand at the start of their programs, or, where these hold no instruction for a unit, at their end. Where it
meets them it follows the model's choices of log entries 25, 26 (notes/assumptions). (02_tile R69 R70 R85 R86 R87 R88, 04_narrow_training R152 R153
R154 R155 R156 R158, 06_placement R294) -/
def Obligations.GatingWakeShadowChecksAndPhases : Prop :=
  ∀ (s : State) (t : Tile),
    (∀ c : CrownUnit,
      (unitIdle (tile s t) (unitOfCrown c) = true → ∃ u, exec (.unitClockGate t c) s = .next u ∧ OnlyTile s u t ∧
        tile u t = { tile s t with gated := (tile s t).gated ||| unitBit (unitOfCrown c) }) ∧
      (unitIdle (tile s t) (unitOfCrown c) = false → exec (.unitClockGate t c) s = .next s)) ∧
    (slotsQuiet (tile s t) = true → ∃ u, exec (.crownClockGate t) s = .next u ∧ OnlyTile s u t ∧ tile u t = { tile s t with crownGated := true }) ∧
    (slotsQuiet (tile s t) = false → exec (.crownClockGate t) s = .next s) ∧
    (isFA s = false → tileUsable s t = true → s.heat.crownsOff = false → crownHeld s t = false → s.pins.v48On = true →
      ∀ w : WakeCause, (w = .loader ∨ slotReleased (tile s t) = true) → ∃ u, exec (.crownWake t w) s = .next u ∧
        u = { s with tiles := u.tiles, job.progressAt := u.job.progressAt } ∧ (∀ j : Nat, j ≠ t → tile u j = tile s j) ∧
        (tile u t).crownGated = false ∧ SameCrown s u t ∧
        (∀ k, k < 8 → (slot (tile s t) k).released = false → slot (tile u t) k = slot (tile s t) k) ∧
        (∀ k, k < 8 → (slot (tile u t) k).released = false) ∧
        ((∀ k, k < 8 → (slot (tile s t) k).released = false) → u = { s with tiles := u.tiles } ∧ tile u t = { tile s t with crownGated := false })) ∧
    (slotReleased (tile s t) = false → exec (.crownWake t .signal) s = .next s) ∧
    (crownHeld s t = true → ∀ w, exec (.crownWake t w) s = .next s) ∧
    (∀ (x : Sample) (a b : Run), ((tile s t).samples.find? fun y => !y.drift) = some x →
      ((List.zipWith Machine.Num.mul (decodeRun a) (decodeRun b)).all Machine.Num.isFinite && (dec32 x.value).isFinite) = true →
      ∃ u, exec (.shadowCompare t a b) s = .next u ∧ OnlyTile s u t ∧
        (drifts s (decodeRun a) (decodeRun b) x.value = false → (tile u t).samples = (tile s t).samples.erase x) ∧
        (drifts s (decodeRun a) (decodeRun b) x.value = true → { x with drift := true } ∈ (tile u t).samples ∧
          (tile u t).samples.length = (tile s t).samples.length)) ∧
    (∀ (x : Sample) (a b : Run), ((tile s t).samples.find? fun y => y.drift) = some x → s.dev.st = .running →
      ∃ u, exec (.thirdTileRecompute t a b) s = .next u ∧ u.dev.st = .quarantined ∧ (tile u t).samples = (tile s t).samples.erase x ∧
        ∃ f ∈ u.faults, f.code.toNat = errShadowDrift ∧
          f.obj = BitVec.ofNat 32 (if leafProducts (decodeRun a) (decodeRun b) = x.value then shadowOf s t else t)) ∧
    (∀ (im : Image) (p : Plan) (m : ModPlan) (phase : Nat), s.job.image = some im → s.job.plan = some p → ownPlan s = some m → jobRunning s = true →
      s.job.phase = none → comingPhase s im = some phase → s.job.opened ≠ some phase → let ts := tget (boundaryPlan s im p m phase).transfers phase []
      ∃ u, exec (.phaseBoundary phase) s = .next u ∧
        u.fabric.groups = bindGroups p phase ∧ u.job.opened = some phase ∧
        (∀ i ∈ p.tiles, (tile u i).phase = phase ∧ (tile u i).awaits = awaitsOf p ts i ∧ (tile u i).entries = [] ∧
          (tile u i).outs = [] ∧ (tile u i).completed = [] ∧ (tile u i).children = [] ∧ (tile u i).nodes = [] ∧
          (phase < im.phases.length → thas (tile u i).imem phase = true)) ∧
        (ts = [] → s.remote.copies = [] → u.mem = s.mem ∧ (∀ j, (ctr u j).isFlag = (flagKeys p phase).contains j) ∧
          ∀ i ∈ p.tiles, ∀ k, k < 8 → slot (tile u i) k = startSlot (program (tile u i) k) ∨ (slot (tile u i) k).st = .idle))

/-- The thermal trip and its release. A root comparator that acts while its sensor is not suspect asserts THERM_TRIP_N outside LOOKOUT: FAULTED,
ERR_THERM_TRIP naming the sensor, crowns off and their contents lost with notches 0 and admission 25% on a compute module, lanes dark on a relay; the
comparator of a suspect sensor is masked. After 1,000 cool ticks, at a tick, the release raises THERM_TRIP_N, powers the crowns, sets each notch to
the lower of 32 and its band's ceiling, flushes the summaries and changes no device state; before that, and between ticks, it changes nothing. Where
it meets them it follows the model's choices of log entries 52, 53 (notes/assumptions). (01_overview R24, 16_warden_power_thermal R746 R758 R767 R768
R769 R770 R771 R779, 08_memory R366) -/
def Obligations.ThermalTripAndRelease : Prop :=
  ∀ s : State,
    (∀ (t : Tile) (v : Int), s.pins.v48On = true → s.pins.thermTripN = true → s.dev.st ≠ .lookout → isSuspect (tget s.heat.roots t {}) = false → 436 ≤ v →
      ∃ u, exec (.thermTripComparator t v) s = .next u ∧ Tripped s u ∧
        ∃ f : FaultRec, u.faults = (f :: s.faults).take 256 ∧ f.code.toNat = errThermTrip ∧ f.obj = BitVec.ofNat 32 (0x4000 + t.val)) ∧
    (∀ (t : Tile) (v : Int), isSuspect (tget s.heat.roots t {}) = true → exec (.thermTripComparator t v) s = .next s) ∧
    (s.pins.thermTripN = false → s.heat.tickAt = some s.time → 1000 ≤ s.heat.coolTicks → ∃ u, exec .thermTripRelease s = .next u ∧ u.pins = { s.pins with thermTripN := true } ∧
      u.dev = s.dev ∧ u.heat.crownsOff = (isFA s && s.heat.crownsOff) ∧
      (isFA s = false → ∀ q, q < 4 → (notch u q).notch = min 32 (ceilingOf s (hotBand s q)) ∧ (notch u q).calm = 0) ∧
      u.bark.blocks.length = min 128 (s.bark.blocks.length + 1) ∧
      u = { s with pins := u.pins, heat := u.heat, bark.summaries := u.bark.summaries, bark.blocks := u.bark.blocks }) ∧
    ((s.pins.thermTripN = true ∨ s.heat.tickAt ≠ some s.time ∨ s.heat.coolTicks < 1000) → exec .thermTripRelease s = .next s)

/-- notch_tick, its raise and the floor. Eight consecutive ticks under raise a quadrant's notch by one, up to 63. At every tick with V48 on each notch is
0 with calm count 0 when THERM_TRIP_N is low afterwards; otherwise it falls by one, calm count 0, when the quadrant is over (hottest root above the
target, a stack in B4, power above the limit in force, or notch above its band's ceiling), and stays when it is not, the calm count rising by one when
the quadrant is under and falling to 0 else. The raise acts at calm count 8 alone, and not while THERM_TRIP_N is low. After 1,000 ticks over at notch
0 ERR_NOTCH_FLOOR is written, once. Where it meets them it follows the model's choices of log entry 53 (notes/assumptions). (16_warden_power_thermal
R728 R736 R750 R763 R766 R768) -/
def Obligations.NotchTickAndRaise : Prop :=
  ∀ s : State,
    (∀ r : TickReadings, lookoutUp s = true → s.dev.st ≠ .lookout → s.pins.v48On = true → isFA s = false →
      ∃ u, exec (.managementTick r) s = .next u ∧ u.heat.tick = (s.heat.tick + 1) % 2 ^ 64 ∧ u.heat.runtime = s.heat.runtimeNext ∧ u.heat.power = r.power ∧
        ∀ q, q < 4 →
          let n := if (notch s q).calm = 8 then min 63 ((notch s q).notch + 1) else (notch s q).notch
          let calm := if (notch s q).calm = 8 then 0 else (notch s q).calm
          let overs := targetHi u < hotRoot u q ∨ stackHot u q = true ∨ limitInForce u < r.power ∨ ceilingOf u (hotBand u q) < n
          let unders := hotRoot u q < targetHi u - targetWidth u ∧ stackHot u q = false ∧ 100 * r.power < 97 * limitInForce u ∧
            n < ceilingOf u (hotBand u q)
          (u.pins.thermTripN = false → (notch u q).notch = 0 ∧ (notch u q).calm = 0) ∧
          (u.pins.thermTripN = true → overs → (notch u q).notch = n - 1 ∧ (notch u q).calm = 0) ∧
          (u.pins.thermTripN = true → ¬ overs → (notch u q).notch = n ∧ (unders → (notch u q).calm = min 8 (calm + 1)) ∧
            (¬ unders → (notch u q).calm = 0))) ∧
    (∀ q : Quad, s.pins.thermTripN = true → (notch s q).calm = 8 → ∃ u, exec (.notchRaise q) s = .next u ∧
      notch u q = { notch s q with notch := min 63 ((notch s q).notch + 1), calm := 0 } ∧ u = { s with heat.notches := u.heat.notches } ∧
      ∀ j : Nat, j ≠ q → notch u j = notch s j) ∧
    (∀ q : Quad, (s.pins.thermTripN = false ∨ (notch s q).calm ≠ 8) → exec (.notchRaise q) s = .next s) ∧
    (∀ q : Quad, 1000 ≤ (notch s q).floorTicks → (notch s q).floorWritten = false → ∃ u, exec (.notchFloor q) s = .next u ∧
      notch u q = { notch s q with floorWritten := true } ∧ Recorded s u errNotchFloor ∧ u.dev.st = s.dev.st ∧
      exec (.notchFloor q) u = .next u) ∧
    (∀ q : Quad, (notch s q).floorTicks < 1000 → exec (.notchFloor q) s = .next s)

/-- Bands of the sensors, and suspect sensors. At each tick with V48 on the band of every root sensor follows its value in use: up to the band of the
value at once, down only when the value lies 2 °C or more below the lower bound of the band in force, and then to the band of the value. A sensor that
becomes suspect at a tick is not substituted when 8 others of its quadrant are, and no other sensor changes by that. A sensor that has been off for
four consecutive ticks is reported suspect with ERR_SENSOR_SUSPECT; one already reported stays as it is. Where it meets them it follows the model's
choices of log entry 53 (notes/assumptions). (16_warden_power_thermal R747 R748 R754 R755 R757 R759) -/
def Obligations.BandsMoveAsR748 : Prop :=
  ∀ s : State,
    (∀ (r : TickReadings) (t : Tile) (v : Int), lookoutUp s = true → s.dev.st ≠ .lookout → s.pins.v48On = true → 256 ≤ r.root.length →
      (tget s.heat.roots t {}).value ≠ none → ∃ u, exec (.managementTick r) s = .next u ∧
        let a := tget s.heat.roots t {}
        let b := tget u.heat.roots t {}
        (b.value = some v → bandOf v > a.band → b.band = bandOf v) ∧
        (b.value = some v → bandOf v = a.band → b.band = a.band) ∧
        (b.value = some v → bandOf v < a.band → v ≤ bandFloor a.band - 8 → b.band = bandOf v) ∧
        (b.value = some v → bandOf v < a.band → bandFloor a.band - 8 < v → b.band = a.band) ∧ b.suspect = a.suspect) ∧
    (∀ t : Tile, (tget s.heat.roots t {}).suspect = false → 4 ≤ (tget s.heat.roots t {}).count →
      ∃ u, exec (.sensorSuspect .root t) s = .next u ∧ tget u.heat.roots t {} = { tget s.heat.roots t {} with suspect := true } ∧
        (∀ j : Nat, j ≠ t → tget u.heat.roots j {} = tget s.heat.roots j {}) ∧
        (∃ f : FaultRec, u.faults = (f :: s.faults).take 256 ∧ f.code.toNat = errSensorSuspect ∧ f.obj = BitVec.ofNat 32 (0x4000 + t.val)) ∧
        (tget u.bark.summaries (rootDie t) {}).suspects = satInc none32 (tget s.bark.summaries (rootDie t) {}).suspects ∧
        u.bark.queued.length = s.bark.queued.length + 1 ∧
        u = { s with heat.roots := u.heat.roots, bark := u.bark, faults := u.faults, regs := u.regs, dev := u.dev, out := u.out,
                     hauler.conns := u.hauler.conns } ∧ u.dev.st = s.dev.st) ∧
    (∀ (m : Table Sensor) (i : Nat),
      ((tget (allot false m i) i {}).notSubst = true ↔
        8 ≤ (m.filter fun e => e.1 != i && isSuspect e.2 && !e.2.notSubst && quadOf e.1 == quadOf i).length) ∧
      ∀ j, j ≠ i → tget (allot false m i) j {} = tget m j {}) ∧
    (∀ (k : SensorKind) (i : Fin 256), (tget (sensorsOf s k) i {}).suspect = true → exec (.sensorSuspect k i) s = .next s)

/-- The ledger's writes, telemetry datagrams and the Warden core's reset. Every 600,000 ticks the summaries go to the next block with the next sequence
number, the latest 128 kept. An event write moves the 64 oldest waiting entries to the log and counts the rest in their dies' summaries. Once its
period has passed a datagram goes out to its subscriber with the next sequence number. After 100 missed acknowledgements the Warden core's reset ends
every session, writes ERR_WARDEN_RESET and changes neither device state nor any other unit. A stack's selected refresh rate takes effect. Where it
meets them it follows the model's choices of log entry 53 (notes/assumptions). (16_warden_power_thermal R725 R726 R774 R777 R778 R779, 08_memory R365) -/
def Obligations.LedgerTelemetryAndTheWardenCore : Prop :=
  ∀ s : State,
    (lookoutUp s = true → s.heat.tick % 600000 = 0 → s.heat.tick ≠ 0 → ∃ u, exec .ledgerSummaryFlush s = .next u ∧
      (∃ b, u.bark.blocks = (b :: s.bark.blocks).take 128 ∧ (∀ c rest, s.bark.blocks = c :: rest → b.1 = c.1 + 1) ∧ (s.bark.blocks = [] → b.1 = 1) ∧
        ∀ d : Nat, { tget b.2 d {} with lastMargins := [] } = { tget s.bark.summaries d {} with lastMargins := [] }) ∧
      u = { s with bark.blocks := u.bark.blocks, bark.summaries := u.bark.summaries }) ∧
    (lookoutUp s = true → ∃ u, exec .ledgerEventWrite s = .next u ∧ u.bark.queued = [] ∧
      u.bark.events = lastOf 465920 (s.bark.events ++ s.bark.queued.take 64) ∧
      (s.bark.queued.length ≤ 64 → u.bark.summaries = s.bark.summaries) ∧
      u = { s with bark.queued := [], bark.events := u.bark.events, bark.eventNext := u.bark.eventNext, bark.summaries := u.bark.summaries }) ∧
    (∀ (i : Nat) (u0 : Sub), s.heat.subs[i]? = some u0 → s.heat.telTick < u0.sentAt + u0.period → exec (.telemetryDatagram i) s = .next s) ∧
    (∀ (i : Nat) (u0 : Sub), s.heat.subs[i]? = some u0 → u0.sentAt + u0.period ≤ s.heat.telTick → ∃ u, exec (.telemetryDatagram i) s = .next u ∧
      u.out = s.out ++ [.telemetry i u0.seq s.heat.telTick] ∧ u.heat.subs[i]? = some { u0 with seq := (u0.seq + 1) % 2 ^ 32, sentAt := s.heat.telTick } ∧
      (∀ j, j ≠ i → u.heat.subs[j]? = s.heat.subs[j]?) ∧ u = { s with out := u.out, heat.subs := u.heat.subs }) ∧
    (∀ pc : Word, lookoutUp s = true → 100 ≤ s.heat.missedAcks → ∃ u, exec (.wardenCoreReset pc) s = .next u ∧ u.hauler.sessions = [] ∧
      u.heat.missedAcks = 0 ∧ Recorded s u errWardenReset ∧ u.dev.st = s.dev.st ∧
      u = { s with heat.missedAcks := 0, hauler.sessions := [], hauler.conns := u.hauler.conns, out := u.out, faults := u.faults, regs := u.regs,
                   dev.startFault := u.dev.startFault }) ∧
    (∀ m : Stack, ∃ u, exec (.refreshRateApply m) s = .next u ∧ hbm u m = { hbm s m with refresh := (hbm s m).refreshNext } ∧
      (∀ j : Nat, j ≠ m → hbm u j = hbm s j) ∧ u = { s with mem.hbms := u.mem.hbms })

/-- Training, init frames and discovery. A DOWN lane's attempt takes it to TRAINING outside LOOKOUT; a wavelength locks after 4 codewords in a row that
decode and loses lock after 16 in a row that do not; lock on both wavelengths takes the lane to INIT with one init frame sent, which carries a token
of this end and echoes 0; a timeout returns it to DOWN. The token of an init frame of the link protocol's version is kept with the time at which it
first came, and echoed; one of another version holds the lane with ERR_LINK_VERSION. The init frame that echoes this end's token is answered with an
init frame that states the turnaround since the partner's token came, and gives the delay (rtt − turnaround)/2 − 50 ns: up to 505 ns a tree lane comes
UP with it, beyond it is HELD for length with ERR_LINK_LONG; another leaves the lane in INIT. A discovery record that matches the ring's wiring and
table digest makes a tree lane carry traffic and is kept as its partner; with another table digest the lane carries CTRL only, and from another
partner it is HELD with ERR_LINK_MISWIRED. Light on a DISABLED lane is recorded once. No other lane changes. Where it meets them it follows the
model's choices of log entry 42 (notes/assumptions). (10_optical_ports R418 R420 R422 R428 R429 R430, 15_start_rings R707 R709 R710 R712) -/
def Obligations.LanesTrainAndComeUp : Prop :=
  ∀ (s : State) (l : Lane),
    (s.dev.st ≠ .lookout → (lane s l).st = .down → ∃ u, exec (.laneTrainingAttempt l) s = .next u ∧ lane u l = { unlocked (lane s l) with st := .training, retraining := false } ∧ u = { s with optics.lanes := u.optics.lanes } ∧ ∀ j : Nat, j ≠ l → lane u j = lane s j) ∧
    ((lane s l).st ≠ .down → exec (.laneTrainingAttempt l) s = .next s) ∧
    (∀ (g b : Nat) (lock : Bool), ((List.replicate 4 true).foldl takeWord (lock, g, b)).1 = true ∧
      ((List.replicate 16 false).foldl takeWord (lock, g, b)).1 = false ∧ (∀ n, n < 4 → ((List.replicate n true).foldl takeWord (false, 0, b)).1 = false) ∧
      (∀ n, n < 16 → ((List.replicate n false).foldl takeWord (true, g, 0)).1 = true)) ∧
    (∀ (w : Wave) (words : List Bool), let r := takeWords w words (lane s l)
      (((lane s l).st = .training ∨ (lane s l).st = .init ∨ (lane s l).st = .up) →
        (¬ (r.st = .training ∧ r.lockA = true ∧ r.lockB = true ∧ r.retraining = false) → exec (.codewordLock l w words) s = .next (setLane l r s)) ∧
        (r.st = .training → r.lockA = true → r.lockB = true → r.retraining = false → ∃ u, exec (.codewordLock l w words) s = .next u ∧
          (lane u l).st = .init ∧ (lane u l).lockA = true ∧ (lane u l).lockB = true ∧ (lane u l).streamFrom = s.out.length ∧
          (∃ g : InitFrame, u.out = s.out ++ [.frame l (initAsFrame s l g)] ∧ g.magic = 0x4B4C ∧ g.token = (lane u l).token ∧ g.echo = 0 ∧
            g.turnaround = 0) ∧
          u = { s with optics.lanes := u.optics.lanes, out := u.out, draws := u.draws } ∧ ∀ j : Nat, j ≠ l → lane u j = lane s j)) ∧
      (((lane s l).st = .disabled ∨ (lane s l).st = .down ∨ (lane s l).st = .held) → exec (.codewordLock l w words) s = .next s)) ∧
    ((lane s l).st = .training → (lane s l).retraining = false → ∃ u, exec (.trainingTimeout l) s = .next u ∧
      lane u l = { unlocked (lane s l) with st := .down } ∧ u = { s with optics.lanes := u.optics.lanes } ∧
      ∀ j : Nat, j ≠ l → lane u j = lane s j) ∧
    (∀ (f : InitFrame) (rtt : Nat), (lane s l).st = .init → (lane s l).retraining = false → f.magic = 0x4B4C →
      ((f.verMax.toNat < 1 ∨ 1 < f.verMin.toNat) → ∃ u, exec (.initFrame l f rtt) s = .next u ∧ (lane u l).st = .held ∧ (lane u l).heldCause = 4 ∧
        Recorded s u errLinkVersion ∧ ∀ j : Nat, j ≠ l → lane u j = lane s j) ∧
      (1 ≤ f.verMax.toNat → f.verMin.toNat ≤ 1 →
        let came := if f.token = (lane s l).lastToken then (lane s l).tokenAt else s.time
        (f.echo ≠ (lane s l).token → ∃ u, exec (.initFrame l f rtt) s = .next u ∧ lane u l = { lane s l with lastToken := f.token, tokenAt := came } ∧
          u = { s with optics.lanes := u.optics.lanes } ∧ ∀ j : Nat, j ≠ l → lane u j = lane s j) ∧
        (f.echo = (lane s l).token →
          (∃ u, exec (.initFrame l f rtt) s = .next u ∧ ∃ (g : InitFrame) (rest : List Out), u.out = s.out ++ Out.frame l (initAsFrame s l g) :: rest ∧
            g.echo = f.token ∧ g.token = (lane s l).token ∧ g.turnaround = BitVec.ofNat 32 (2 * (s.time - came))) ∧
          ((f.turnaround.toNat : Int) + 200 ≤ 2 * rtt → 2 * (rtt : Int) - f.turnaround.toNat - 200 ≤ 2020 → isTrayLink (linkOf s l) = false →
            ∃ u, exec (.initFrame l f rtt) s = .next u ∧ (lane u l).st = .up ∧ ((lane u l).delay4 : Int) = 2 * rtt - f.turnaround.toNat - 200 ∧
              ∀ j : Nat, j ≠ l → lane u j = lane s j) ∧
          (2020 < 2 * (rtt : Int) - f.turnaround.toNat - 200 → ∃ u, exec (.initFrame l f rtt) s = .next u ∧ (lane u l).st = .held ∧
            (lane u l).heldCause = 1 ∧ Recorded s u errLinkLong ∧ ∀ j : Nat, j ≠ l → lane u j = lane s j)))) ∧
    (∀ (r : Ring) (w : Wire) (d : Discovery), s.dev.ring = some r → r.wiring.find? (fun x => x.lane == l.val) = some w → laneUp s l = true →
      isTrayLink (linkOf s l) = false → r.policy.treeRemap ≠ 2 → d.magic = 0x4443 → 1 ≤ d.verMax.toNat → d.verMin.toNat ≤ 1 →
      (d.machineId = r.machineId → d.ident = w.partner → d.lane.toNat = w.partnerLane → ∃ u, exec (.discoveryRecord l d) s = .next u ∧
        (lane u l).st = .up ∧ (lane u l).partner.toNat = d.lane.toNat * 65536 + d.ident.toNat ∧ (∀ j : Nat, j ≠ l → lane u j = lane s j) ∧
        (d.tableDigest = s.fabric.digest → carries u l = true ∧ u.faults = s.faults) ∧
        (d.tableDigest ≠ s.fabric.digest → carries u l = false ∧ Recorded s u errTableEpoch)) ∧
      ((d.machineId ≠ r.machineId ∨ d.ident ≠ w.partner ∨ d.lane.toNat ≠ w.partnerLane) → ∃ u, exec (.discoveryRecord l d) s = .next u ∧
        (lane u l).st = .held ∧ (lane u l).heldCause = 3 ∧ Recorded s u errLinkMiswired ∧
        ∀ j : Nat, j ≠ l → lane u j = { lane s j with sentTill := (lane u j).sentTill })) ∧
    (∀ a b : Int, s.dev.st ≠ .lookout → (lane s l).st = .disabled → (-120 < a ∨ -120 < b) → (lane s l).extraWritten = false →
      ∃ u, exec (.laneExtraLight l a b) s = .next u ∧ Recorded s u errLinkExtra ∧ (lane u l).st = .disabled ∧
        exec (.laneExtraLight l a b) u = .next u ∧ ∀ j : Nat, j ≠ l → lane u j = lane s j)

/-- Retraining, return and loss of a lane, and replay. A retrain whose cause holds (a wavelength without lock, the replay limit or rate, a received power
below −12 dBm) takes an UP lane to TRAINING, counts it and, on a tree lane, keeps the link's sequence state and frames; a tray port that keeps another
lane UP records ERR_PORT_NARROW; without a cause nothing changes. The lane that returns is UP and the link's held frames are sent again on its UP
lanes, unchanged and in order; on a tray port a lane that lies more than 64 ns beyond an UP lane is held. After the timeout it is DOWN with
ERR_LANE_DOWN, and a tree lane's link is empty. A frame that stays unacknowledged sends every held frame again, in order, and none else, and counts
them. Where it meets them it follows the model's choices of log entry 42 (notes/assumptions). (10_optical_ports R432 R433 R434 R435 R443 R444 R454
R456 R457, 11_fabric_routing R499) -/
def Obligations.LanesLeaveAndReturn : Prop :=
  ∀ (s : State) (l : Lane),
    (∀ cause : Nat, laneUp s l = true →
      (retrainDue s l cause = true → ∃ u, exec (.laneRetrain l cause) s = .next u ∧
        lane u l = { (if cause = 1 then lane s l else unlocked (lane s l)) with
          st := .training, retraining := true, retrains := satInc 255 (lane s l).retrains, retrainCause := cause } ∧
        (∀ j : Nat, j ≠ l → lane u j = { lane s j with sentTill := (lane u j).sentTill }) ∧ (isTrayLink (linkOf s l) = false → link u l = link s l) ∧
        (isTrayLink (linkOf s l) = true → (∃ j ∈ lanesOf (linkOf s l), j ≠ l ∧ laneUp s j = true) → Recorded s u errPortNarrow)) ∧
      (retrainDue s l cause = false → exec (.laneRetrain l cause) s = .next s)) ∧
    ((retrainDue s l 1 = true ↔ ((lane s l).lockA = false ∨ (lane s l).lockB = false)) ∧
      (retrainDue s l 4 = true ↔ ((lane s l).powA < -120 ∨ (lane s l).powB < -120)) ∧ (retrainDue s l 2 = true ↔ 8 ≤ (link s (linkOf s l)).again) ∧
      (retrainDue s l 3 = true ↔ 4096 ≤ replaysNow s (linkOf s l))) ∧
    ((lane s l).retraining = true → (lane s l).delay4 ≤ 2020 →
      (∀ i ∈ lanesOf (linkOf s l), ∀ j ∈ lanesOf (linkOf s l), (i = l ∨ laneUp s i = true) → (j = l ∨ laneUp s j = true) →
        (lane s i).delay4 ≤ (lane s j).delay4 + 256) →
      ∃ u, exec (.retrainComplete l) s = .next u ∧ laneUp u l = true ∧ (lane u l).retraining = false ∧
      (∀ j : Nat, j ≠ l → lane u j = { lane s j with sentTill := (lane u j).sentTill }) ∧ (link u (linkOf s l)).rxLast = (link s (linkOf s l)).rxLast ∧
      ∃ (lns : List Nat) (rest : List Out), lns.length = (link s (linkOf s l)).replay.length ∧
        (∀ j ∈ lns, j ∈ lanesOf (linkOf s l) ∧ laneUp u j = true) ∧
        u.out = s.out ++ (lns.zip (link s (linkOf s l)).replay).map (fun e => Out.frame e.1 e.2) ++ rest) ∧
    (∀ j : Nat, (lane s l).retraining = true → isTrayLink (linkOf s l) = true → j ∈ lanesOf (linkOf s l) → laneUp s j = true →
      (lane s j).delay4 + 256 < (lane s l).delay4 → ∃ u, exec (.retrainComplete l) s = .next u ∧ (lane u l).st = .held ∧ (lane u l).heldCause = 2 ∧
        ∃ f ∈ u.faults, f.code.toNat = errLinkLong) ∧
    ((lane s l).retraining = true → ∃ u, exec (.retrainTimeout l) s = .next u ∧ (lane u l).st = .down ∧ (lane u l).retraining = false ∧
      Recorded s u errLaneDown ∧ (∀ j : Nat, j ≠ l → lane u j = lane s j) ∧
      (isTrayLink (linkOf s l) = false → link u l = {} ∧ queueAt u (linkKey l) = [])) ∧
    (laneUp s l = true → (link s (linkOf s l)).replay ≠ [] → ∃ u, exec (.frameReplayTimeout l) s = .next u ∧
      (∃ lns : List Nat, lns.length = (link s (linkOf s l)).replay.length ∧ (∀ j ∈ lns, j ∈ lanesOf (linkOf s l) ∧ laneUp s j = true) ∧
        u.out = s.out ++ (lns.zip (link s (linkOf s l)).replay).map (fun e => Out.frame e.1 e.2)) ∧
      (link u (linkOf s l)).replay = (link s (linkOf s l)).replay ∧ (link u (linkOf s l)).rxLast = (link s (linkOf s l)).rxLast ∧
      (link u (linkOf s l)).txSeq = (link s (linkOf s l)).txSeq ∧ (link u (linkOf s l)).again = (link s (linkOf s l)).again + 1 ∧
      (link u (linkOf s l)).retries = (link s (linkOf s l)).retries + (link s (linkOf s l)).replay.length ∧
      u = { s with out := u.out, optics.links := u.optics.links, optics.lanes := u.optics.lanes } ∧ (∀ k, k ≠ linkOf s l → link u k = link s k) ∧
      ∀ j, lane u j = { lane s j with sentTill := (lane u j).sentTill })

/-- Frames are accepted in order, and the host port. A frame that fails its checks is dropped, counted and answered with a nak on every UP lane of the
link, and nothing else changes. A sequenced frame is accepted only when its number is the next one and its flits fit every buffer: the last accepted
number advances by it, and its flits join each VC's ingress buffer in slot order; one out of order leaves the last number and is answered with a nak,
but for a tray port's early one, which waits in the deskew buffer; after a frame in order none waits there whose turn has come. An idle or init-kind
frame advances nothing. No other link changes. The host port's loss ends every connection with ERR_HOST_PORT_DOWN, it comes up outside LOOKOUT while
V48 is on, and a PAUSE or PFC frame that passes the MAC's checks is discarded and counted; one that fails them is discarded. Where it meets them it
follows the model's choices of log entry 42 (notes/assumptions). (10_optical_ports R437 R438 R439 R441 R446 R448 R452 R455 R459 R461, 17_host_port
R789) -/
def Obligations.FramesAndTheHostPort : Prop :=
  ∀ s : State,
    (∀ (l : Lane) (f : Frame), laneUp s l = false → exec (.frameReceive l f) s = .next s) ∧
    (∀ (l : Lane) (f : Frame), laneUp s l = true →
      let k := linkOf s l
      let r := link s k
      (frameGood f = false → ∃ u, exec (.frameReceive l f) s = .next u ∧ link u k = { r with nak := true, badCrc := r.badCrc + 1 } ∧
        (∀ j, j ≠ k → link u j = link s j) ∧
        u.out = s.out ++ ((lanesOf k).filter (laneUp s)).map (fun j => Out.frame j (mkFrame [] [] r.txSeq r.rxLast 1 true r.xoffOut.toNat)) ∧
        u = { s with out := u.out, optics.links := u.optics.links, optics.lanes := u.optics.lanes } ∧
        ∀ j, lane u j = { lane s j with sentTill := (lane u j).sentTill }) ∧
      (frameGood f = true → ∃ u, exec (.frameReceive l f) s = .next u ∧ (∀ j, j ≠ k → link u j = link s j) ∧
        ((ctlField f 22 20 = 1 ∨ ctlField f 22 20 = 2) →
          (link u k).rxLast = r.rxLast ∧ (link u k).nak = r.nak ∧ (link u k).ingress = r.ingress) ∧
        ((ctlField f 22 20 = 0 ∨ ctlField f 22 20 = 3) →
          (ctlField f 47 36 = (r.rxLast + 1) % 4096 →
            (∀ e ∈ (link u k).deskew, ctlField e.1 47 36 ≠ ((link u k).rxLast + 1) % 4096) ∧
            (r.deskew = [] → overflows k f r = false → (link u k).rxLast = ctlField f 47 36 ∧ (link u k).nak = false ∧
              ∀ v, v < 6 → tget (link u k).ingress v [] = tget r.ingress v [] ++ vcFlits f v) ∧
            (r.deskew = [] → overflows k f r = true →
              (link u k).rxLast = r.rxLast ∧ (link u k).nak = true ∧ (link u k).overruns = r.overruns + 1)) ∧
          (ctlField f 47 36 ≠ (r.rxLast + 1) % 4096 → (link u k).rxLast = r.rxLast ∧ (link u k).ingress = r.ingress ∧
            (early k (ctlField f 47 36) r = false → (link u k).nak = true ∧ (link u k).drops = r.drops + 1) ∧
            (early k (ctlField f 47 36) r = true → (link u k).nak = r.nak ∧
              ((r.deskew.any fun e => ctlField e.1 47 36 == ctlField f 47 36) = false → (link u k).deskew = r.deskew ++ [(f, s.time)])))))) ∧
    (∀ (lanes : BitVec 8) (cause : Nat), s.optics.hostUp = true → ∃ u, exec (.hostPortDown lanes cause) s = .next u ∧ u.optics.hostUp = false ∧
      u.hauler.conns = [] ∧ Recorded s u errHostPortDown ∧ (∀ w ∈ u.remote.watches, w ∈ s.remote.watches ∧ thas s.hauler.conns w.2.1 = false) ∧
      (s.dev.st ≠ .loading → u.dev.st = s.dev.st ∧ u.job = s.job)) ∧
    (s.dev.st ≠ .lookout → s.pins.v48On = true → exec .hostPortUp s = .next { s with optics.hostUp := true }) ∧
    (s.dev.st = .lookout → exec .hostPortUp s = .next s) ∧
    (∀ frame : List Byte,
      (s.optics.hostUp = true → macGood frame = true → isPause frame = true →
        exec (.ethernetPauseReceive frame) s = .next { s with optics.pauses := s.optics.pauses + 1 }) ∧
      (s.optics.hostUp = true → macGood frame = false → exec (.ethernetPauseReceive frame) s = .next { s with optics.badMac := s.optics.badMac + 1 }) ∧
      (s.optics.hostUp = false → exec (.ethernetPauseReceive frame) s = .next s)) ∧
    (∀ body : List Byte, body.length ≤ 9212 → macGood (sealMac body) = true)

/-- Die-link transfers, their acceptance and their replay. On a running die link a transfer that fails a CRC or whose segments disagree is discarded: nak
is set and goes back in an idle transfer with the last accepted number. An accepted transfer advances the last accepted sequence number only when it
is the next one; another one sets nak. Its ack releases the transfers held up to it in the other direction, and its nak replays those still held, in
order; then what waits goes out: packets over a bridge link, the tile's bytes over a vertical one. A transfer is 512 B on each active segment, each
with its control bits and CRC; a segment so made passes its checks. A transfer unacknowledged for 64 cycles replays every held transfer in order. Each
carries what this end has accepted. A fenced or paused link takes none, and no other link changes. Where it meets them it follows the model's choices
of log entry 40 (notes/assumptions). (09_stack_links R378 R379 R380 R381 R382) -/
def Obligations.DieLinkTransfersAreTakenInOrder : Prop :=
  ∀ (s : State) (k : Fin 288) (d : Fin 2) (segs : List Segment),
    let l := dlink s k
    let r := dirOf l d
    let o := 1 - d.val
    (hasLink s k = true → l.width ≠ .fenced → l.paused = false → transferGood l.width segs = false →
      ∃ u, exec (.dieLinkTransfer k d segs) s = .next u ∧ dirOf (dlink u k) d = { r with nak := true } ∧ dirOf (dlink u k) o = dirOf l o ∧
        u.out = s.out ++ [.transfer k o (transferOver (activeSegs l.width) none r.rxLast true)] ∧
        u = { s with stacking.links := u.stacking.links, out := u.out } ∧ ∀ j : Nat, j ≠ k → dlink u j = dlink s j) ∧
    (∀ (x : Segment) (rest : List Segment), segs = x :: rest → hasLink s k = true → l.width ≠ .fenced → l.paused = false →
      transferGood l.width segs = true → ∃ u, exec (.dieLinkTransfer k d segs) s = .next u ∧
        let c := ctlBits x
        let q := c / 1024 % 64
        let kept := (takeAck (dirOf l o) (c / 16 % 64)).held
        let v := dirOf (dlink u k) d
        (c / 4 % 2 = 1 → q = (r.rxLast + 1) % 64 → v.rxLast = q ∧ v.nak = false) ∧
        (c / 4 % 2 = 1 → q ≠ (r.rxLast + 1) % 64 → v.rxLast = r.rxLast ∧ v.nak = true) ∧
        (c / 4 % 2 = 0 → v.rxLast = r.rxLast ∧ v.nak = r.nak) ∧
        (∃ more sent, (dirOf (dlink u k) o).held = kept ++ more ∧
          u.out = s.out ++ (if c / 8 % 2 = 1 then kept.map (fun h => Out.transfer k o (transferOver (activeSegs l.width) (some h) v.rxLast v.nak)) else []) ++ sent ∧
          (k.val < 256 → (dirOf l o).waiting = [] → (dirOf l o).queued = [] → more = [] ∧ sent = [])) ∧
        (k.val < 256 → u.fabric = s.fabric) ∧
        u = { s with stacking.links := u.stacking.links, fabric := u.fabric, out := u.out } ∧ ∀ j : Nat, j ≠ k → dlink u j = dlink s j) ∧
    (l.width ≠ .fenced → l.paused = false → ∃ u, exec (.dieLinkReplayTimeout k d) s = .next u ∧
      u.out = s.out ++ r.held.map (fun h => Out.transfer k d (transferOver (activeSegs l.width) (some h) (dirOf l o).rxLast (dirOf l o).nak)) ∧
      (dirOf (dlink u k) d).held = r.held ∧ (r.held ≠ [] → (dirOf (dlink u k) d).again = r.again + 1 ∧ (dirOf (dlink u k) d).retries = r.retries + 1) ∧
      dirOf (dlink u k) o = dirOf l o ∧
      u = { s with stacking.links := u.stacking.links, out := u.out } ∧ ∀ j : Nat, j ≠ k → dlink u j = dlink s j) ∧
    (∀ (w : Width) (x : Option (Nat × List Byte)) (ack : Nat) (nak : Bool), (∀ q, x = some q → q.1 < 64) → ack < 64 → w ≠ .fenced →
      transferGood w (transferOver (activeSegs w) x ack nak) = true) ∧
    ((l.width = .fenced ∨ l.paused = true) →
      exec (.dieLinkTransfer k d segs) s = .next s ∧ exec (.dieLinkReplayTimeout k d) s = .next s)

/-- Relink: spares, half width, fences and resumption. A link whose oldest transfer was replayed four times in a row, or that replayed 64 times within 1
ms, pauses. A test that finds nothing resumes it at its width with the held transfers replayed in order, each carrying the last accepted number of the
other direction; what waited then goes on. One failing data wire takes its group's spare, enters the repair map and writes no fault record. Two
failing wires of a group in the lower half of a full-width link leave the upper half, with ERR_LANE_DEGRADED. A failure in the half in use fences the
link: a vertical link's tile is fenced with ERR_DIE_LINK_FENCED. Where it meets them it follows the model's choices of log entry 40
(notes/assumptions). (09_stack_links R383 R384 R385 R386 R387 R389 R391, 01_overview R23) -/
def Obligations.RelinkRepairsOrFences : Prop :=
  ∀ (s : State) (k : Fin 288),
    let l := dlink s k
    (∀ d : Fin 2, hasLink s k = true → l.width ≠ .fenced → l.paused = false → (4 ≤ (dirOf l d).again ∨ 64 ≤ recentReplays s (dirOf l d)) →
      ∃ u, exec (.relinkStart k d) s = .next u ∧ dlink u k = { l with paused := true, relinks := satInc 255 l.relinks } ∧
        u = { s with stacking.links := u.stacking.links } ∧ ∀ j : Nat, j ≠ k → dlink u j = dlink s j) ∧
    (∀ d : Fin 2, (dirOf l d).again < 4 → recentReplays s (dirOf l d) < 64 → exec (.relinkStart k d) s = .next s) ∧
    (∀ (fails : List WireFail) codes, l.paused = false → exec (.relinkComplete k fails codes) s = .next s) ∧
    (l.paused = true → l.width ≠ .fenced → widthAfter l = l.width → ∃ u, exec (.relinkComplete k [] []) s = .next u ∧
      (dlink u k).width = l.width ∧ (dlink u k).paused = false ∧ (dlink u k).toCrown.again = 0 ∧ (dlink u k).toRoot.again = 0 ∧
      (∃ m0 m1 rest, (dlink u k).toCrown.held = l.toCrown.held ++ m0 ∧ (dlink u k).toRoot.held = l.toRoot.held ++ m1 ∧
        u.out = s.out ++ l.toCrown.held.map (fun h => Out.transfer k 0 (transferOver (activeSegs l.width) (some h) l.toRoot.rxLast l.toRoot.nak)) ++
          l.toRoot.held.map (fun h => Out.transfer k 1 (transferOver (activeSegs l.width) (some h) l.toCrown.rxLast l.toCrown.nak)) ++ rest ∧
        (k.val < 256 → l.toCrown.waiting = [] → l.toCrown.queued = [] → l.toRoot.waiting = [] → l.toRoot.queued = [] → m0 = [] ∧ m1 = []) ∧
        (k.val < 256 → l.toCrown.waiting = [] → l.toCrown.queued = [] → l.toRoot.waiting = [] → l.toRoot.queued = [] → parked s 5 = [] → parked s 6 = [] → rest = [] ∧ u = { s with stacking.links := u.stacking.links, out := u.out }))) ∧
    (∀ f : WireFail, l.paused = true → l.width ≠ .fenced → widthAfter l = l.width → f.real = true → f.wire.val < 32 →
      (seg (dirOf l f.dir) f.seg).failed = false → thas (seg (dirOf l f.dir) f.seg).spares f.group = false → s.bark.repairs.length < 8191 →
      ∃ u, exec (.relinkComplete k [f] []) s = .next u ∧ (dlink u k).width = l.width ∧ (dlink u k).paused = false ∧
        tget (seg (dirOf (dlink u k) f.dir) f.seg).spares f.group 99 = f.wire.val ∧
        (parked s 5 = [] → parked s 6 = [] → u.faults = s.faults) ∧
        u.bark.repairs = s.bark.repairs ++
          [{ link := k.val, dir := f.dir.val, seg := f.seg.val, group := f.group.val, wire := f.wire.val, kind := 1, origin := 1 }]) ∧
    (∀ f g : WireFail, l.paused = true → l.width = .full → failedSegs l = [] → f.dir = g.dir → f.seg = g.seg → f.group = g.group →
      f.wire ≠ g.wire → f.real = true → g.real = true → f.wire.val < 32 → g.wire.val < 32 → f.seg.val < 8 → thas (seg (dirOf l f.dir) f.seg).spares f.group = false →
      s.bark.repairs.length + 2 < 8191 →
      ∃ u, exec (.relinkComplete k [f, g] []) s = .next u ∧ (dlink u k).width = .upper ∧ (dlink u k).paused = false ∧
        (parked s 5 = [] → parked s 6 = [] → Recorded s u errLaneDegraded) ∧ u.bark.repairs.length = s.bark.repairs.length + 2) ∧
    (∀ f g : WireFail, k.val < 256 → l.paused = true → l.width = .lower → (∀ i, i < 8 → i ∉ failedSegs l) → f.dir = g.dir → f.seg = g.seg →
      f.group = g.group → f.wire ≠ g.wire → f.real = true → g.real = true → f.wire.val < 32 → g.wire.val < 32 → f.seg.val < 8 →
      thas (seg (dirOf l f.dir) f.seg).spares f.group = false → s.bark.repairs.length + 2 < 8191 →
      ∃ u, exec (.relinkComplete k [f, g] []) s = .next u ∧ (dlink u k).width = .fenced ∧ Recorded s u errDieLinkFenced ∧
        u.stacking.fenced.getLsbD k = true ∧ (tile u k).crownGated = true ∧ u.dev.st = s.dev.st)

/-- Missing clocks and the loss of a quadrant. A missing clock fences its bridge link, ending any relink of it, and is remembered by the end that reports
it, whatever else follows. A reset or power-good loss of a quadrant other than Q0 that is not lost yet marks it lost with ERR_QUADRANT_LOST and
disables its 36 lanes, a tray port that goes down with them being recorded before it; on a compute module PLANNING, RUNNING and FILLING end in
FAULTED, with the copies stopped that serve no other module's keeper traffic, and LOADING returns to READY with the job discarded, and every other
state stays; on a ULS-9640-FA the state stays. Q0, a quadrant already lost and a module in LOOKOUT change nothing. Where it meets them it follows the
model's choices of log entries 40, 41 (notes/assumptions). (09_stack_links R406 R407 R409 R410 R412 R413) -/
def Obligations.MissingClocksAndLostQuadrants : Prop :=
  ∀ s : State,
    (∀ (k : Fin 32) (q : Quad), s.pins.v48On = true → (q.val = (seamQuads (seamOf (256 + k.val))).1 ∨ q.val = (seamQuads (seamOf (256 + k.val))).2) →
      ∃ u, exec (.missingClock k q) s = .next u ∧ (dlink u (256 + k.val)).width = .fenced ∧ (dlink u (256 + k.val)).paused = false ∧
        (dlink u (256 + k.val)).clockMissing = (dlink s (256 + k.val)).clockMissing |||
          (if q.val = (seamQuads (seamOf (256 + k.val))).1 then 1 else 2) ∧
        ∀ j, j < 256 → (dlink u j).width = (dlink s j).width) ∧
    (∀ (k : Fin 32) (q : Quad), q.val ≠ (seamQuads (seamOf (256 + k.val))).1 → q.val ≠ (seamQuads (seamOf (256 + k.val))).2 →
      exec (.missingClock k q) s = .next s) ∧
    (∀ (q : Quad) (pg : Bool), q.val ≠ 0 → s.dev.st ≠ .lookout → s.pins.v48On = true → s.dev.qLost.getLsbD q = false →
      ∃ u, exec (.quadrantResetSeen q pg) s = .next u ∧ u.dev.qLost = s.dev.qLost ||| BitVec.ofNat 4 (2 ^ q.val) ∧
        (∃ (f : FaultRec) (more : List FaultRec), u.faults = (f :: (more ++ s.faults)).take 256 ∧ f.code.toNat = errQuadrantLost ∧
          ∀ g ∈ more, g.code.toNat = errLaneDown) ∧
        (∀ i, i < 36 → (lane u (36 * q.val + i)).st = .disabled) ∧
        (∀ j, j / 36 ≠ q.val → lane u j = { lane s j with sentTill := (lane u j).sentTill }) ∧
        (∀ k, (dlink u k).width = (dlink s k).width) ∧
        (isFA s = true → u.dev.st = s.dev.st) ∧
        (isFA s = false → (s.dev.st = .planning ∨ s.dev.st = .running ∨ s.dev.st = .filling) → u.dev.st = .faulted ∧ ∀ j ∈ u.remote.copies, j.req.keeper = true) ∧
        (isFA s = false → s.dev.st = .loading → u.dev.st = .ready ∧ u.job = {}) ∧
        (s.dev.st ≠ .planning → s.dev.st ≠ .running → s.dev.st ≠ .filling → s.dev.st ≠ .loading → u.dev.st = s.dev.st ∧ u.job = s.job)) ∧
    (∀ (q : Quad) (pg : Bool), (q.val = 0 ∨ s.dev.st = .lookout ∨ s.pins.v48On = false ∨ s.dev.qLost.getLsbD q = true) →
      exec (.quadrantResetSeen q pg) s = .next s)

/-- A router's hop, its choice of port and the escape. A router that takes its 255th hop of a packet drops and counts it. A request toward another tile
goes, with one hop more, to the queue of the adaptive port, or waits for an open port when none is. A packet for this tile is delivered when its CRC
passes, unless its opcode is reserved, its job tag is refused or the tile's ingress is stopped for requests; one whose CRC fails is dropped and
counted. A packet that has found no open port for 32 ns leaves that wait for the escape VC and is counted; before that it stays. The inactive copy of
the escape table is written and comes into force, with a table exactly while some bridge link or router is fenced. A router takes from a neighbour
only the packet that the neighbour sends next, and from a lane that attaches to it only the packet whose flits stand first in the VC's ingress buffer,
which they leave. A router of a lost quadrant, and every router without V48, takes nothing. Where it meets them it follows the model's choices of log
entry 43 (notes/assumptions). (11_fabric_routing R466 R468 R471 R472 R473 R476 R493 R495, 12_remote_memory R544, 09_stack_links R409, 10_optical_ports
R421 R446) -/
def Obligations.RoutersHopAndRoute : Prop :=
  ∀ (s : State) (t : Tile) (p : Packet),
    ((s.dev.st = .lookout ∨ s.pins.v48On = false ∨ s.dev.qLost.getLsbD (quadOf t) = true) →
      ∀ port vc, exec (.routerPacketArrive t port vc p) s = .next s) ∧
    (∀ port vc, takeFrom t port vc p s = none → exec (.routerPacketArrive t port vc p) s = .next s) ∧
    (∀ (l : Lane) (vc : VC), let r := link s (linkOf s l)
      (takeFrom t (.lane l) vc p s = none ↔ ¬ (laneTile l = t ∧ nextIn r (vcCode vc) p = true)) ∧
      ∀ q u, takeFrom t (.lane l) vc p s = some (q, u) → q = (p, none) ∧
        ∀ v, tget (link u (linkOf s l)).ingress v [] = if v = vcCode vc then (tget r.ingress v []).drop (flitsOf p) else tget r.ingress v []) ∧
    (s.dev.st ≠ .lookout → s.pins.v48On = true → s.dev.qLost.getLsbD (quadOf t) = false →
      (∀ vc : VC, p.hops = 254 → ∃ u, exec (.routerPacketArrive t .here vc p) s = .next u ∧
        (tget u.fabric.ctrs (meshCtr t 6) {}).hopDrops = (tget s.fabric.ctrs (meshCtr t 6) {}).hopDrops + 1 ∧
        u = { s with fabric.ctrs := u.fabric.ctrs }) ∧
      (∀ l q : Nat, p.hops ≠ 254 → p.flags.getLsbD 4 = false → p.dst ≠ ownEndpoint s → p.plane ≠ 0xFE →
        laneOfPlane s p.plane.toNat = some l → laneTile l ≠ t →
        (adaptivePort s t (laneTile l) 0 = some q → ∃ u, exec (.routerPacketArrive t .here .req p) s = .next u ∧
          queueAt u (queueKey t q 0) = queueAt s (queueKey t q 0) ++ [{ p with hops := p.hops + 1 }] ∧
          (∀ key, key ≠ queueKey t q 0 → queueAt u key = queueAt s key) ∧
          u = { s with fabric := u.fabric, stacking.links := u.stacking.links, out := u.out }) ∧
        (adaptivePort s t (laneTile l) 0 = none → ∃ u, exec (.routerPacketArrive t .here .req p) s = .next u ∧
          heldAt u (queueKey t 5 0) = heldAt s (queueKey t 5 0) ++ [{ p := { p with hops := p.hops + 1 }, since := s.time, port := 6 }] ∧
          (∀ key, key ≠ queueKey t 5 0 → heldAt u key = heldAt s key) ∧ u.out = s.out)) ∧
      (∀ vc : VC, p.hops ≠ 254 → p.flags.getLsbD 4 = false → p.flags.getLsbD 5 = false → p.dst = ownEndpoint s → addrTile p.addr.toNat = t →
        ((vc ≠ .req ∧ vc ≠ .reqE) ∨ ingressFull s t = false) →
        (p.crc ≠ packetCrc p → ∃ u, exec (.routerPacketArrive t .here vc p) s = .next u ∧
          (tget u.fabric.ctrs (meshCtr t 4) {}).crcDrops = (tget s.fabric.ctrs (meshCtr t 4) {}).crcDrops + 1 ∧ u.out = s.out ∧
          u.fabric.queues = s.fabric.queues) ∧
        (p.crc = packetCrc p → reservedOpcode p.opcode.toNat = false →
          (nativeMode s = false ∨ 2 ≤ classOf p.opcode.toNat ∨ p.job = s.job.tag ∨ (p.job = 0xFFFF ∧ keeperPeer s p.src = true)) →
          ∃ u, exec (.routerPacketArrive t .here vc p) s = .next u ∧ u.out = s.out ++ [.deliver t { p with hops := p.hops + 1 }] ∧
            u.fabric.queues = s.fabric.queues)) ∧
      (∀ vc : VC, (vc = .req ∨ vc = .reqE) → ingressFull s t = true → p.hops ≠ 254 → p.flags.getLsbD 4 = false → p.flags.getLsbD 5 = false →
        p.dst = ownEndpoint s → addrTile p.addr.toNat = t → ∃ u, exec (.routerPacketArrive t .here vc p) s = .next u ∧ u.out = s.out ∧
          queueAt u (queueKey t 7 (vcCode vc)) = queueAt s (queueKey t 7 (vcCode vc)) ++ [{ p with hops := p.hops + 1 }])) ∧
    (∀ (vc : VC) (h : Queued) (hs : List Queued), heldAt s (queueKey t 5 (vcCode vc)) = h :: hs →
      (h.since + 32 ≤ s.time → ∃ u, exec (.meshEscape t vc) s = .next u ∧ heldAt u (queueKey t 5 (vcCode vc)) = hs ∧
        (tget u.fabric.ctrs (portCtrOf s t h.port) {}).escape = (tget s.fabric.ctrs (portCtrOf s t h.port) {}).escape + 1) ∧
      (s.time < h.since + 32 → exec (.meshEscape t vc) s = .next s)) ∧
    (∀ vc : VC, heldAt s (queueKey t 5 (vcCode vc)) = [] → exec (.meshEscape t vc) s = .next s) ∧
    (∃ u, exec .escapeTableInstall s = .next u ∧
      (escapeNow u = none ↔ (∀ k, k < 32 → (dlink s (256 + k)).width ≠ .fenced) ∧ ∀ j, j < 256 → routerUp s j = true) ∧
      (∀ f, escapeNow u = some f → f = fencesNow s) ∧
      (waitingEscape s = [] → u.fabric.escapeSel = !s.fabric.escapeSel ∧
        (if s.fabric.escapeSel then u.fabric.escape1 = s.fabric.escape1 else u.fabric.escape0 = s.fabric.escape0) ∧
        u = { s with fabric.escape0 := u.fabric.escape0, fabric.escape1 := u.fabric.escape1, fabric.escapeSel := u.fabric.escapeSel }))

/-- A relay forwards down by its table. On a relaying leaf a packet that stands first in a lane's ingress buffer and whose destination the tables of its
epoch hold leaves by the lane of that entry, with one hop more and marked as descending. Where that lane attaches to the same router it waits in the
lane's queue while the lane is not UP, and goes out in a frame of its own when the lane carries traffic, unstopped, with nothing held or queued; where
it attaches to another router the packet goes toward that through the relay's mesh. A descended packet without an entry, or whose lane a quadrant's
loss has taken, is dropped and counted, as is one that takes its 255th hop. Outside RELAYING, on a lost lane, and for a packet that does not stand
first, nothing happens. Where it meets them it follows the model's choices of log entries 43, 44 (notes/assumptions). (11_fabric_routing R486 R487
R488 R468 R506, 10_optical_ports R442 R445 R446, 09_stack_links R412) -/
def Obligations.RelaysForwardByTheTables : Prop :=
  ∀ (s : State) (l : Lane) (p : Packet) (c : Tables),
    (isFA s = true → s.dev.st = .relaying → s.dev.role = some .leaf → p.hops ≠ 254 → p.flags.getLsbD 5 = false → laneLost s l = false →
      nextIn (link s l) 0 p = true → copyFor s (p.flags.getLsbD 0) = .ok c →
      let e := tget c.down p.dst.toNat 0xFFFF
      let q : Packet := { p with hops := p.hops + 1, flags := (p.flags ||| 2) &&& 0xFB }
      (e ≠ 0xFFFF → laneTile e = laneTile l → laneLost s e = false → linkUp s e = false → ∃ u, exec (.relayForward l .req p) s = .next u ∧
        queueAt u (linkKey e) = queueAt s (linkKey e) ++ [q] ∧ ∀ key, key ≠ linkKey e → queueAt u key = queueAt s key) ∧
      (e ≠ 0xFFFF → laneTile e = laneTile l → laneLost s e = false → e < 144 → carries s e = true → (link s e).xoffIn = 0 → (link s e).replay = [] →
        queueAt s (linkKey e) = [] →
        ∃ u, exec (.relayForward l .req p) s = .next u ∧ queueAt u (linkKey e) = [] ∧ ∃ f : Frame, (link u e).replay = [f] ∧
          f.flits = (headerBytes q ++ q.payload) ++ List.replicate (512 - (headerBytes q ++ q.payload).length) 0 ∧
          (link u e).txSeq = ((link s e).txSeq + 1) % 4096) ∧
      (∀ port : Nat, e ≠ 0xFFFF → laneTile e ≠ laneTile l → laneLost s e = false → adaptivePort s (laneTile l) (laneTile e) 0 = some port →
        ∃ u, exec (.relayForward l .req p) s = .next u ∧ let key := queueKey (laneTile l) port 0
          queueAt u key = queueAt s key ++ [{ p with hops := p.hops + 1, flags := p.flags ||| 2 }] ∧
          ((heldAt u key).getLast?.map (·.heading)) = some (some (.lane e)) ∧ ∀ k, k ≠ key → queueAt u k = queueAt s k) ∧
      ((e = 0xFFFF ∧ p.flags.getLsbD 1 = true ∨ e ≠ 0xFFFF ∧ laneLost s e = true) → ∃ u, exec (.relayForward l .req p) s = .next u ∧
        (tget u.fabric.ctrs (laneCtr l) {}).noRoute = (tget s.fabric.ctrs (laneCtr l) {}).noRoute + 1 ∧ u.fabric.queues = s.fabric.queues)) ∧
    (isFA s = true → s.dev.st = .relaying → laneLost s l = false → p.hops = 254 → ∀ vc : VC, nextIn (link s l) (vcCode vc) p = true →
      ∃ u, exec (.relayForward l vc p) s = .next u ∧
      (tget u.fabric.ctrs (laneCtr l) {}).hopDrops = (tget s.fabric.ctrs (laneCtr l) {}).hopDrops + 1 ∧ u.fabric.queues = s.fabric.queues) ∧
    (∀ vc : VC, (isFA s = false ∨ s.dev.st ≠ .relaying ∨ laneLost s l = true ∨ nextIn (link s l) (vcCode vc) p = false) →
      exec (.relayForward l vc p) s = .next s)

/-- Reach, tray states, digests and the epoch switch. A withdrawal or restoral later than the last one for its subject is applied and its time kept; an
earlier one, or one of the same time, changes nothing; an endpoint's plane leaves or rejoins its mask and no other endpoint's mask changes. A tray
state names its slot dead or alive and its ports. A table digest that matches lets an UP lane carry every kind of traffic; another one leaves it CTRL
alone with ERR_TABLE_EPOCH. The armed copy comes into force at its time, the old one stays valid until 100 µs after it with no old packet held. Where
it meets them it follows the model's choices of log entries 6, 44 (notes/assumptions). (11_fabric_routing R482 R483 R500 R501 R502 R504 R505 R508
R509) -/
def Obligations.ReachTrayAndTableEpochs : Prop :=
  ∀ s : State,
    (∀ (plane x : Nat) (restoral : Bool) (m : DWord), isFA s = false →
      (∀ m', reachTime s (.endpoint plane x) = some m' → m'.toNat < m.toNat) →
      ∃ u, exec (.reach (.endpoint plane x) restoral m) s = .next u ∧ reachTime u (.endpoint plane x) = some m ∧
        ((plane ∈ tget u.fabric.lostReach x []) ↔ restoral = false) ∧
        (∀ y, y ≠ plane → ((y ∈ tget u.fabric.lostReach x []) ↔ (y ∈ tget s.fabric.lostReach x []))) ∧
        (∀ y, y ≠ x → tget u.fabric.lostReach y [] = tget s.fabric.lostReach y []) ∧
        u = { s with fabric.reachTimes := u.fabric.reachTimes, fabric.lostReach := u.fabric.lostReach }) ∧
    (∀ (sub : ReachSubject) (restoral : Bool) (m m' : DWord), reachTime s sub = some m' → m.toNat ≤ m'.toNat →
      exec (.reach sub restoral m) s = .next s) ∧
    (∀ (slot : Fin 9) (live : Bool) (ports : BitVec 4), ∃ u, exec (.trayState slot live ports) s = .next u ∧
      (slot.val ∈ u.fabric.deadSlots ↔ live = false ∨ ports = 0) ∧
      (∀ j, j ≠ slot.val → (j ∈ u.fabric.deadSlots ↔ j ∈ s.fabric.deadSlots)) ∧
      (∀ q, q < 4 → ((slot.val, q) ∈ u.fabric.deadPorts ↔ ports.getLsbD q = false)) ∧
      (∀ j q, j ≠ slot.val → ((j, q) ∈ u.fabric.deadPorts ↔ (j, q) ∈ s.fabric.deadPorts)) ∧
      u = { s with fabric.deadSlots := u.fabric.deadSlots, fabric.deadPorts := u.fabric.deadPorts }) ∧
    (∀ (l : Lane) (g : DWord), laneUp s l = true →
      (g = s.fabric.digest → ∃ u, exec (.tableDigest l g) s = .next u ∧ carries u l = true ∧ u.faults = s.faults ∧
        (∀ j : Nat, j ≠ l → lane u j = { lane s j with sentTill := (lane u j).sentTill }) ∧
        (carries s l = true → heldAt s (linkKey (linkOf s l)) = [] → u = { s with optics.lanes := u.optics.lanes } ∧ lane u l = lane s l)) ∧
      (g ≠ s.fabric.digest → ∃ u, exec (.tableDigest l g) s = .next u ∧ carries u l = false ∧ laneUp u l = true ∧ Recorded s u errTableEpoch ∧
        ∀ j : Nat, j ≠ l → lane u j = lane s j)) ∧
    (∀ (l : Lane) (g : DWord), laneUp s l = false → exec (.tableDigest l g) s = .next s) ∧
    (s.fabric.armed = true → s.fabric.switchTime.toNat ≤ s.mtc.value.toNat → ∃ u, exec .epochSwitch s = .next u ∧
      u.fabric.epoch = !s.fabric.epoch ∧ u.fabric.oldValid = true ∧ u.fabric.armed = false ∧
      u.fabric.digest = tablesDigest (copyOf s (!s.fabric.epoch)) ∧ u = { s with fabric := u.fabric } ∧
      u.fabric.copy0 = s.fabric.copy0 ∧ u.fabric.copy1 = s.fabric.copy1 ∧ u.fabric.queues = s.fabric.queues) ∧
    ((s.fabric.armed = false ∨ s.mtc.value.toNat < s.fabric.switchTime.toNat) → exec .epochSwitch s = .next s) ∧
    (s.fabric.oldValid = true → (∀ e ∈ s.fabric.queues, ∀ h ∈ e.2, h.p.flags.getLsbD 0 = s.fabric.epoch) →
      s.fabric.switchTime.toNat + 100000 ≤ s.mtc.value.toNat → exec .oldEpochRetire s = .next { s with fabric.oldValid := false }) ∧
    (s.mtc.value.toNat < s.fabric.switchTime.toNat + 100000 → exec .oldEpochRetire s = .next s)

/-- The machine time counter follows its parent. A device sends its time to its parent, before there is one on its first UP time-parent lane, and a parent
answers a request with its time at the arrival and at the answer, its rank and its hops. An answer of the chosen parent takes, with the time t4 of its
own arrival, the offset ((t2 − t1) − (t4 − t3)) / 2: at the first lock during the start the counter steps by it, otherwise it never steps: the offset
becomes phase to slew and the frequency stays within ±100 ppm. A change of root raises ERR_MTC_ROOT once. With no parent left the lock is lost, the
frequency stays and ERR_MTC_HOLDOVER is raised once. Where it meets them it follows the model's choices of log entry 4 (notes/assumptions).
(13_flume_relay R621 R622 R623 R625 R626) -/
def Obligations.MachineTimeFollowsTheParent : Prop :=
  ∀ s : State,
    (∀ l : Lane, (s.mtc.parent = some l.val ∨ (s.mtc.parent = none ∧ (timeParents s).find? (laneUp s) = some l.val)) →
      exec .mtcSyncSend s = .next { s with out := s.out ++ [.mtcSync (.request l s.mtc.value)] }) ∧
    (s.mtc.parent = none → (∀ l ∈ timeParents s, laneUp s l = false) → exec .mtcSyncSend s = .next s) ∧
    (∀ (l : Lane) (t1 : DWord), exec (.mtcSync (.request l t1)) s =
      .next { s with out := s.out ++ [.mtcSync (.answer l t1 s.mtc.value s.mtc.value s.mtc.rootRank s.mtc.hops s.mtc.locked)] }) ∧
    (∀ (l : Lane) (t1 t2 t3 : DWord) (rank hops : Nat) (locked : Bool), laneUp s l = true → l.val ∈ timeParents s → isTimeRoot s = false →
      chooseParent { s with mtc.reports := tput s.mtc.reports l (rank, hops, locked) } = some l.val →
      let off := ((t2 - t1).toInt - (s.mtc.value - t3).toInt) / 2
      ∃ u, exec (.mtcSync (.answer l t1 t2 t3 rank hops locked)) s = .next u ∧ u.mtc.locked = true ∧ u.mtc.parent = some l.val ∧
        u.mtc.rootRank = rank ∧ u.mtc.hops = hops + 1 ∧ u.mtc.offset = off ∧
        (s.mtc.everLocked = false → s.dev.st = .starting → u.mtc.value = s.mtc.value + BitVec.ofInt 64 off ∧ u.faults = s.faults) ∧
        ((s.mtc.everLocked = true ∨ s.dev.st ≠ .starting) → u.mtc.value = s.mtc.value ∧ u.mtc.frac = s.mtc.frac ∧ u.mtc.slew = off * 2 ^ 32 ∧
          -429496 ≤ u.mtc.rate ∧ u.mtc.rate ≤ 429496 ∧ (s.mtc.rootRank = rank → u.faults = s.faults) ∧
          (s.mtc.rootRank ≠ rank → OnlyRecorded { s with mtc := u.mtc, draws := u.draws } u errMtcRoot))) ∧
    (∀ (l : Lane) (t1 t2 t3 : DWord) (rank hops : Nat) (locked : Bool),
      (laneUp s l = false ∨ l.val ∉ timeParents s ∨ isTimeRoot s = true) → exec (.mtcSync (.answer l t1 t2 t3 rank hops locked)) s = .next s) ∧
    (∀ l : Nat, isTimeRoot s = false → chooseParent s = some l → s.mtc.locked = true →
      exec .mtcHoldover s = .next { s with mtc.parent := some l }) ∧
    (isTimeRoot s = false → chooseParent s = none → s.mtc.everLocked = true → s.mtc.holdoverWritten = false →
      ∃ u, exec .mtcHoldover s = .next u ∧ u.mtc = { s.mtc with parent := none, locked := false, holdoverWritten := true } ∧
        Recorded s u errMtcHoldover ∧ u.dev.st = s.dev.st ∧ exec .mtcHoldover u = .next u)

/-- LOAD, STORE, SIGNAL and COPY_PULL at their target. A request whose sequence number was performed is answered again and changes neither memory,
counters nor windows; one beyond the window is dropped and counted; one that an address check refuses is answered with ERROR and not performed, and so
is one, performed before or not, that touches what the loss of a quadrant took; one that fails its window's check is counted and answered with ERROR.
A fresh STORE writes exactly its bytes, a fresh LOAD returns the bytes and writes none, a fresh SIGNAL raises its counter by its amount, a COPY_PULL
of 1 B to 4 GiB is accepted; each is then performed and answered with its own sequence number. Reads and writes of HBM are counted by its stack. Where
it meets them it follows the model's choices of log entries 45, 46 (notes/assumptions). (12_remote_memory R524 R525 R530 R531 R532 R534 R539 R561
R546, 08_memory R373, 09_stack_links R411) -/
def Obligations.RequestsArePerformedOnce : Prop :=
  ∀ (s : State) (p : Packet) (a : Nat),
    (∀ c : Instr, (c = .store p ∧ p.opcode.toNat = 2 ∨ c = .signal p ∧ p.opcode.toNat = 5 ∨ (∃ e, c = .load p e) ∧ p.opcode.toNat = 1 ∨
        (∃ e, c = .copyPull p e) ∧ p.opcode.toNat = 6 ∨ c = .storeFlag p ∧ p.opcode.toNat = 3 ∨ c = .atomic p ∧ p.opcode.toNat = 4) → s.dev.st ≠ .lookout →
      (requestAddr s p = none → ∃ u, exec c s = .next u ∧ u.remote.windowDrops = s.remote.windowDrops + 1 ∧ u.mem = s.mem ∧
        u.remote.wins = s.remote.wins ∧ u.remote.ctrs = s.remote.ctrs ∧ (CanAnswer s p → Answered s u p 0x45 [])) ∧
      (requestAddr s p = some a → placeOf (win s p.src) p.seq.toNat = .beyond →
        exec c s = .next { s with remote.beyondDrops := s.remote.beyondDrops + 1 }) ∧
      (requestAddr s p = some a → placeOf (win s p.src) p.seq.toNat = .fresh → addrFault s p a ≠ 0 → ∃ u, exec c s = .next u ∧
        u.mem = s.mem ∧ u.remote.wins = s.remote.wins ∧ u.remote.ctrs = s.remote.ctrs ∧ (CanAnswer s p → Answered s u p 0x45 []))) ∧
    (∀ c : Instr, (c = .store p ∧ p.opcode.toNat = 2 ∨ c = .signal p ∧ p.opcode.toNat = 5 ∨ (∃ e, c = .copyPull p e) ∧ p.opcode.toNat = 6 ∨
        c = .storeFlag p ∧ p.opcode.toNat = 3) → s.dev.st ≠ .lookout → requestAddr s p = some a → Performed s p → ∃ u, exec c s = .next u ∧
        u.mem = s.mem ∧ u.remote.wins = s.remote.wins ∧ u.remote.ctrs = s.remote.ctrs ∧ u.remote.copies = s.remote.copies ∧
        (CanAnswer s p → Answered s u p (if reachesLost s p a then 0x45 else 0x42) [])) ∧
    (∀ ecc, p.opcode.toNat = 1 → s.dev.st ≠ .lookout → requestAddr s p = some a → Performed s p → ∃ u, exec (.load p ecc) s = .next u ∧
        u.mem.cells = s.mem.cells ∧ u.remote = { s.remote with seqNext := u.remote.seqNext, copies := u.remote.copies } ∧
        (CanAnswer s p → if reachesLost s p a then Answered s u p 0x45 [] else ecc = [] → Answered s u p 0x41 (loadBytes s a p.aux.toNat))) ∧
    (Fresh s p 2 a → groupAcross s a p.aux.toNat = none → ∃ u, exec (.store p) s = .next u ∧
      Written s u a (p.payload.take p.aux.toNat) ∧ Performed u p ∧ u.remote.ctrs = s.remote.ctrs ∧ (CanAnswer s p → Answered s u p 0x42 [])) ∧
    (Fresh s p 1 a → groupAcross s a p.aux.toNat = none → ∃ u, exec (.load p []) s = .next u ∧ u.mem = { s.mem with hbms := u.mem.hbms } ∧ Performed u p ∧
      u.remote.ctrs = s.remote.ctrs ∧ (CanAnswer s p → Answered s u p 0x41 (loadBytes s a p.aux.toNat))) ∧
    (∀ k : Nat, Fresh s p 5 a → ctrAt s a = some k →
      (signalFault (ctr s k) p.aux.toNat = 0 → (ctr s k).waiters = [] → ∃ u, exec (.signal p) s = .next u ∧
        (ctr u k).value = (ctr s k).value + p.aux.toNat ∧ (ctr u k).lastEp = p.src ∧ (∀ j, j ≠ k → ctr u j = ctr s j) ∧ u.mem = s.mem ∧
        Performed u p ∧ (CanAnswer s p → Answered s u p 0x42 [])) ∧
      (signalFault (ctr s k) p.aux.toNat ≠ 0 → ∃ u, exec (.signal p) s = .next u ∧ (∀ j, ctr u j = ctr s j) ∧ u.mem = s.mem ∧ Performed u p ∧
        (inJob s = true → u.dev.st = .faulted))) ∧
    (Fresh s p 6 a → ∃ u, exec (.copyPull p []) s = .next u ∧ u.mem = s.mem ∧ Performed u p ∧
      (1 ≤ field p.payload 6 8 → field p.payload 6 8 ≤ 4 * gib → CanAnswer s p → Answered s u p 0x42 []) ∧
      ((field p.payload 6 8 = 0 ∨ 4 * gib < field p.payload 6 8) → u.remote.copies = s.remote.copies ∧ (CanAnswer s p → Answered s u p 0x45 [])))

/-- STORE_FLAG and ATOMIC at their target. A fresh STORE_FLAG is held and changes no memory; with 256 held it is answered BUSY. Its turn comes when every
earlier request of its source is performed: it then writes exactly its data, signals its counter and is answered. An ATOMIC opens a group on its line
and changes no memory until the group closes; the close applies the operation of Table 12-3 to the word alone, answers the old value, with its poison,
and keeps both for duplicates, which are answered with them; a held flag or a group's operation whose target a quadrant's loss took is answered with
ERROR and changes no memory. An expired result is forgotten. Where it meets them it follows the model's choices of log entry 46 (notes/assumptions).
(12_remote_memory R533 R536 R537 R538 R540 R542, 09_stack_links R411, 08_memory R340) -/
def Obligations.FlagsAndAtomicsAtTheirTarget : Prop :=
  ∀ (s : State) (p : Packet) (a : Nat),
    (Fresh s p 3 a → s.remote.heldFlags.length < 256 → (∀ h ∈ s.remote.heldFlags, h.src = p.src → h.pkt.seq ≠ p.seq) →
      exec (.storeFlag p) s = .next { s with remote.heldFlags := s.remote.heldFlags ++ [⟨p.src, p⟩] }) ∧
    (Fresh s p 3 a → 256 ≤ s.remote.heldFlags.length → (∀ h ∈ s.remote.heldFlags, h.src = p.src → h.pkt.seq ≠ p.seq) → CanAnswer s p →
      ∃ u, exec (.storeFlag p) s = .next u ∧ Answered s u p 0x44 [] ∧ u.remote = s.remote ∧ u.mem = s.mem) ∧
    (∀ k : Nat, (s.remote.heldFlags.find? fun h => h.src == p.src && h.pkt.seq.toNat == (win s p.src).base) = some ⟨p.src, p⟩ → p.opcode = 3 →
      requestAddr s p = some a → (requestBytes p = 0 ∨ groupAcross s a (requestBytes p) = none) → reachesLost s p a = false → ctrAt s (field p.payload 0 6) = some k →
      signalFault (ctr s k) p.aux.toNat = 0 → (ctr s k).waiters = [] →
      ∃ u, exec (.storeFlagPerform p.src) s = .next u ∧ u.remote.heldFlags = s.remote.heldFlags.erase ⟨p.src, p⟩ ∧
        Written s u a ((p.payload.drop 32).take (requestBytes p)) ∧ (ctr u k).value = (ctr s k).value + p.aux.toNat ∧
        (∃ n, 1 ≤ n ∧ n ≤ 1024 ∧ (win u p.src).base = ((win s p.src).base + n) % 2 ^ 32) ∧ (CanAnswer s p → Answered s u p 0x42 [])) ∧
    ((s.remote.heldFlags.find? fun h => h.src == p.src && h.pkt.seq.toNat == (win s p.src).base) = some ⟨p.src, p⟩ → requestAddr s p = some a →
      (requestBytes p = 0 ∨ groupAcross s a (requestBytes p) = none) → reachesLost s p a = true →
      ∃ u, exec (.storeFlagPerform p.src) s = .next u ∧ u.remote.heldFlags = s.remote.heldFlags.erase ⟨p.src, p⟩ ∧ u.mem = s.mem ∧
        u.remote.ctrs = s.remote.ctrs ∧ (CanAnswer s p → Answered s u p 0x45 [])) ∧
    (∀ x : BitVec 16, (∀ h ∈ s.remote.heldFlags, h.src = x → h.pkt.seq.toNat ≠ (win s x).base) →
      exec (.storeFlagPerform x) s = .next s) ∧
    (Fresh s p 4 a → resultsUsed s < 16384 → groupOn s (a / 64) = none →
      exec (.atomic p) s = .next { s with remote.groups := s.remote.groups ++ [⟨a / 64, [p], []⟩] }) ∧
    (Fresh s p 4 a → 16384 ≤ resultsUsed s → CanAnswer s p → ∃ u, exec (.atomic p) s = .next u ∧ Answered s u p 0x44 [] ∧
      u.remote = s.remote ∧ u.mem = s.mem) ∧
    (∀ e : BitVec 16 × Word × DWord × Bool, p.opcode = 4 → s.dev.st ≠ .lookout → requestAddr s p = some a → Performed s p → reachesLost s p a = false →
      s.remote.results.find? (fun e => e.1 == p.src && e.2.1 == p.seq) = some e → CanAnswer s p →
      ∃ u, exec (.atomic p) s = .next u ∧ Answered s u p 0x43 (leBytes 8 e.2.2.1.toNat) ∧
        (∃ q, Out.packet q ∈ u.out.drop s.out.length ∧ q.aux = (if e.2.2.2 then 1 else 0)) ∧ u.mem = s.mem ∧ u.remote = s.remote) ∧
    (∀ line : Nat, groupOn s line = some ⟨line, [p], []⟩ → requestAddr s p = some a → reachesLost s p a = true → CanAnswer s p →
      ∃ u, exec (.atomicGroupClose line []) s = .next u ∧ groupOn u line = none ∧ u.mem = s.mem ∧ Answered s u p 0x45 []) ∧
    (∀ line : Nat, groupOn s line = some ⟨line, [p], []⟩ → requestAddr s p = some a → reachesLost s p a = false →
      let w := if p.aux.getLsbD 4 then 8 else 4
      let old := leNat (readBytes s.mem a w)
      ∃ u, exec (.atomicGroupClose line []) s = .next u ∧ groupOn u line = none ∧
        Written s u a (leBytes w (atomicNew (p.aux.toNat % 16) (8 * w) old (field p.payload 0 w) (field p.payload 8 w))) ∧
        u.remote.results = s.remote.results ++ [(p.src, p.seq, BitVec.ofNat 64 old, poisoned s.mem a w)] ∧ Performed u p ∧
        (CanAnswer s p → Answered s u p 0x43 (leBytes 8 old))) ∧
    (∀ (line : Nat) ecc, groupOn s line = none → exec (.atomicGroupClose line ecc) s = .next s) ∧
    (∀ (x : BitVec 16) (q : Word), ∃ u, exec (.atomicResultExpire x q) s = .next u ∧
      (∀ e, e ∈ u.remote.results ↔ e ∈ s.remote.results ∧ ¬ (e.1 = x ∧ e.2.1 = q)) ∧ u = { s with remote.results := u.remote.results })

/-- LOAD_DATA, ACK, ATOMIC_DATA, BUSY, ERROR, retransmission and dead targets at the source. A response to no outstanding request is counted and changes
nothing else. LOAD_DATA and ATOMIC_DATA land their bytes at the return address and nowhere else; they and ACK free the entry and signal its counter.
BUSY marks the request, which is then sent again with the same sequence number, on any plane or again within its module or tray. A request that has
waited 10 µs is retransmitted, at most three times, before T_dead, on a plane not used yet. ERROR frees the entry, halts the slot that issued the
request, or the tile's copies, and stops the job. A target dead after T_dead frees the entry and leaves 0x7FFF_DEAD, poisoned. Where it meets them it
follows the model's choices of log entries 6, 45 (notes/assumptions). (12_remote_memory R524 R526 R528 R535 R548 R549 R550 R551 R552 R553 R554,
02_tile R76) -/
def Obligations.ResponsesCompleteRequests : Prop :=
  ∀ (s : State) (p : Packet) (e : Pend),
    (∀ c : Instr, (c = .loadData p ∧ p.opcode = 0x41 ∨ c = .ack p ∧ p.opcode = 0x42 ∨ c = .atomicData p ∧ p.opcode = 0x43 ∨
        c = .busy p ∧ p.opcode = 0x44 ∨ c = .error p ∧ p.opcode = 0x45) → pendOf s p = none →
      exec c s = .next { s with remote.lateDrops := s.remote.lateDrops + 1 }) ∧
    (pendOf s p = some e → s.remote.copies = [] →
      (∀ c : Instr, (c = .loadData p ∧ p.opcode = 0x41 ∨ c = .ack p ∧ p.opcode = 0x42 ∨ c = .atomicData p ∧ p.opcode = 0x43) →
        ∃ u, exec c s = .next u ∧ u.remote.pend = s.remote.pend.filter (fun x => x.key != e.key) ∧
          (e.counter = none → u.faults = s.faults ∧ u.remote.ctrs = s.remote.ctrs ∧ u.out = s.out) ∧
          (∀ k, e.counter = some k → signalFault (ctr s k) 1 = 0 → (ctr s k).waiters = [] → (ctr u k).value = (ctr s k).value + 1) ∧
          (c = .ack p → u.mem = s.mem) ∧ (c = .loadData p → Written s u e.ret (p.payload.take e.pkt.aux.toNat)) ∧
          (c = .atomicData p → Written s u e.ret (p.payload.take (if e.pkt.aux.getLsbD 4 then 8 else 4)))) ∧
      (p.opcode = 0x44 → ∃ u, exec (.busy p) s = .next u ∧ pendAt u e.key = some { e with busy := true } ∧
        u.remote.pend.length = s.remote.pend.length ∧ u = { s with remote.pend := u.remote.pend })) ∧
    (p.opcode = 0x45 → pendOf s p = some e → p.aux.toNat % 65536 ≠ errQuadrantLost → ∃ u, exec (.error p) s = .next u ∧
      u.remote.pend = s.remote.pend.filter (fun x => x.key != e.key) ∧
      (e.slot = none → ∀ j ∈ u.remote.copies, j.tile ≠ e.key.tile.val) ∧
      (∀ k, e.slot = some k → (slot (tile u e.key.tile) k).st = .halted) ∧
      Recorded s u (p.aux.toNat % 65536) ∧ u.mem = s.mem ∧ (inJob s = true → u.dev.st = .faulted)) ∧
    (∀ x : Nat, pendAt s e.key = some e → e.busy = true →
      (if e.pkt.plane = 0xFF ∨ e.pkt.plane = 0xFE then x = e.pkt.plane.toNat else choosePlane s e.key.dst [] = some x) →
      ∃ (u : State) (q : Packet), exec (.busyResend e.key) s = .next u ∧ u.out = s.out ++ [.packet q] ∧ q = { e.pkt with plane := BitVec.ofNat 8 x } ∧
        pendAt u e.key = some { e with pkt := q, busy := false, sent := s.time, planes := e.planes ++ [x] }) ∧
    (pendAt s e.key = some e → e.busy = false → exec (.busyResend e.key) s = .next s) ∧
    (∀ x : Nat, pendAt s e.key = some e → e.tries < 3 → e.busy = false → e.sent + 10000 ≤ s.time → s.time < e.first + 1000 * s.job.tDead →
      (if e.pkt.plane = 0xFF ∨ e.pkt.plane = 0xFE then x = e.pkt.plane.toNat else choosePlane s e.key.dst e.planes = some x) →
      ∃ (u : State) (q : Packet), exec (.retransmit e.key) s = .next u ∧ (e.pkt.plane ≠ 0xFF → e.pkt.plane ≠ 0xFE → x ∉ e.planes) ∧
        u.out = s.out ++ [.packet q] ∧ q = { e.pkt with plane := BitVec.ofNat 8 x, flags := e.pkt.flags ||| 0x40 } ∧
        pendAt u e.key = some { e with pkt := q, busy := false, sent := s.time, tries := e.tries + 1, planes := e.planes ++ [x] }) ∧
    (pendAt s e.key = some e → (3 ≤ e.tries ∨ e.busy = true ∨ s.time < e.sent + 10000 ∨ e.first + 1000 * s.job.tDead ≤ s.time) →
      exec (.retransmit e.key) s = .next s) ∧
    (∀ c : Instr, pendAt s e.key = some e → pendOf s p = some e → e.counter = none → s.remote.copies = [] →
      (c = .tDeadExpire e.key ∧ e.first + 1000 * s.job.tDead ≤ s.time ∨ c = .error p ∧ p.opcode = 0x45 ∧ p.aux.toNat % 65536 = errQuadrantLost) →
      ∃ u, exec c s = .next u ∧ u.remote.pend = s.remote.pend.filter (fun x => x.key != e.key) ∧ Recorded s u errRemoteDead ∧ u.dev.st = s.dev.st ∧
        (e.pkt.opcode = 1 → 0 < e.pkt.aux.toNat → poisoned u.mem e.ret e.pkt.aux.toNat = true ∧
          ∀ i, i < e.pkt.aux.toNat → readByte u.mem (e.ret + i) = nth (leBytes 4 0x7FFFDEAD) (i % 4) 0)) ∧
    (pendAt s e.key = some e → s.time < e.first + 1000 * s.job.tDead → exec (.tDeadExpire e.key) s = .next s) ∧
    (∀ k : ReqKey, pendAt s k = none → exec (.tDeadExpire k) s = .next s ∧ exec (.retransmit k) s = .next s ∧ exec (.busyResend k) s = .next s)

/-- Sync counters, waits, timeouts and the watchdog. A slot whose turn it is at the synchronisation unit takes the phase's arrivals and executes. Its
signal adds to a counter of its tile and releases waiters in order while the first one's threshold is met; one that would overflow, or set a flag
twice, leaves the counter unchanged, records the fault, halts the slot and stops the job; to another tile or module it goes as a SIGNAL request, and
where no plane is permitted the slot halts with ERR_ROUTE_UNREACHABLE. A wait whose threshold is met with no one before it takes it and goes on;
otherwise the slot waits at the end of the line, and the unit's turn has moved to it either way. A take lowers the value or fails with
ERR_SYNC_UNDERFLOW. A timeout removes its waiter, halts it and stops the job. After 10 s without progress the watchdog stores a dump and stops the
job, not while an input or recovery is awaited. A slot whose turn it is not issues nothing. Where it meets them it follows the model's choices of log
entry 45 (notes/assumptions). (12_remote_memory R564 R567 R568 R569 R570 R571 R572, 02_tile R72 R74 R75 R76, 06_placement R294) -/
def Obligations.CountersSignalWaitAndTake : Prop :=
  ∀ (s : State) (i : Issue) (c n : Nat), 
    (canIssue s i.tile i.slot 6 = true → i.fetch = [] → c < 256 → 1 ≤ n → n ≤ ctrMax →
      let s0 := takeArrivals i.tile s
      let key := tileCtr i.tile c
      let v := ctr s0 key
      let done := issuedAlone i.tile 6 i.slot s
      (∀ d : Dest, destOf s d = ownEndpoint s → signalFault v n = 0 → ∃ u, exec (.seqSignal i d i.tile c n) s = .next u ∧
        (ctr u key).value = (releaseWaiters v.waiters (v.value + n)).2.1 ∧
        (ctr u key).waiters = (releaseWaiters v.waiters (v.value + n)).1 ∧ (ctr u key).isFlag = v.isFlag ∧ (∀ j, j ≠ key → ctr u j = ctr s0 j) ∧
        (∀ w ∈ (releaseWaiters v.waiters (v.value + n)).2.2, w.1 = 0 → (slot (tile u w.2.1) w.2.2.1).st ≠ .waiting) ∧
        u.job.progressAt = s.time ∧ u.mem = s.mem ∧ (v.waiters = [] → u.tiles = done.tiles ∧ u.dev = s.dev)) ∧
      (∀ d : Dest, destOf s d = ownEndpoint s → signalFault v n ≠ 0 → ∃ u, exec (.seqSignal i d i.tile c n) s = .next u ∧
        (∀ j, ctr u j = ctr s0 j) ∧ Recorded s u (signalFault v n) ∧ (slot (tile u i.tile) i.slot).st = .halted ∧ (inJob s = true → u.dev.st = .faulted)) ∧
      (∀ (d : Dest) (t : Tile), destOf s d = ownEndpoint s → t ≠ i.tile → hasRoom s i.tile (destOf s d) = true →
        ∃ (u : State) (q : Packet) (e : Pend), exec (.seqSignal i d t c n) s = .next u ∧ u.out = s.out ++ [.packet q] ∧ q.opcode = 5 ∧
          q.dst = ownEndpoint s ∧ q.addr = BitVec.ofNat 48 (ctrAddr (tileCtr t c)) ∧ q.aux = BitVec.ofNat 32 n ∧ u.tiles = done.tiles ∧
          u.remote.pend = s.remote.pend ++ [e] ∧ e.pkt = q ∧ e.slot = some i.slot.val ∧ ∀ j, ctr u j = ctr s0 j) ∧
      (∀ (d : Dest) (t : Tile), destOf s d ≠ ownEndpoint s → hasRoom s i.tile (destOf s d) = true → nativeMode s = false →
        choosePlane s (destOf s d) [] = none → ∃ u, exec (.seqSignal i d t c n) s = .next u ∧ Recorded s u errRouteUnreachable ∧
          (slot (tile u i.tile) i.slot).st = .halted ∧ u.remote.pend = s.remote.pend ∧ ∀ j, ctr u j = ctr s0 j) ∧
      (∀ timeout : Nat, (v.isFlag = true → n = 1) → timeout ≤ 1000000 → v.waiters = [] → n ≤ v.value →
        ∃ u, exec (.seqWait i c n timeout) s = .next u ∧ ctr u key = { v with value := v.value - n } ∧ (∀ j, j ≠ key → ctr u j = ctr s0 j) ∧
          u = { s with remote.ctrs := u.remote.ctrs, job.progressAt := s.time, tiles := done.tiles }) ∧
      (∀ timeout : Nat, (v.isFlag = true → n = 1) → timeout ≤ 1000000 → (v.waiters ≠ [] ∨ v.value < n) →
        ∃ u, exec (.seqWait i c n timeout) s = .next u ∧
          ctr u key = { v with waiters := v.waiters ++ [(0, i.tile.val, i.slot.val, n, if timeout = 0 then s.job.waitTimeout else timeout)] } ∧
          (slot (tile u i.tile) i.slot).st = .waiting ∧ (slot (tile u i.tile) i.slot).pc = (settled (tile s i.tile) i.slot).pc ∧
          tget (tile u i.tile).lastUnit 6 7 = i.slot ∧ (∀ j, j ≠ key → ctr u j = ctr s0 j) ∧ (∀ j : Nat, j ≠ i.tile → tile u j = tile s j) ∧
          u = { s with remote.ctrs := u.remote.ctrs, job.progressAt := u.job.progressAt, tiles := u.tiles }) ∧
      (n ≤ v.value → ∃ u, exec (.seqTake i c n) s = .next u ∧ ctr u key = { v with value := v.value - n } ∧
        (∀ j, j ≠ key → ctr u j = ctr s0 j) ∧ u = { s with remote.ctrs := u.remote.ctrs, job.progressAt := s.time, tiles := done.tiles }) ∧
      (v.value < n → ∃ u, exec (.seqTake i c n) s = .next u ∧ (∀ j, ctr u j = ctr s0 j) ∧ Recorded s u errSyncUnderflow ∧
        (slot (tile u i.tile) i.slot).st = .halted ∧ (inJob s = true → u.dev.st = .faulted))) ∧
    (canIssue s i.tile i.slot 6 = false → (∀ d t, exec (.seqSignal i d t c n) s = .next s) ∧
      (∀ timeout, exec (.seqWait i c n timeout) s = .next s) ∧ exec (.seqTake i c n) s = .next s) ∧
    (∀ (k place : Nat) w, (ctr s k).waiters[place]? = some w → ∃ u, exec (.waitTimeout k place) s = .next u ∧
      ctr u k = { ctr s k with waiters := (ctr s k).waiters.eraseIdx place } ∧
      Recorded s u errWaitTimeout ∧ (inJob s = true → u.dev.st = .faulted) ∧ (w.1 = 0 → (slot (tile u w.2.1) w.2.2.1).st = .halted)) ∧
    (∀ k place : Nat, (ctr s k).waiters.length ≤ place → exec (.waitTimeout k place) s = .next s) ∧
    (s.dev.st = .running → s.job.waitingInput = [] → s.recov.held = false → s.recov.rollbackTo = none → s.job.progressAt + 10000000000 ≤ s.time →
      ∃ u, exec .deviceWatchdog s = .next u ∧ u.dev.st = .faulted ∧ Recorded s u errWatchdog ∧
        tget u.recov.dumps s.recov.dumpNext [] = faultDump s ∧ u.recov.dumpNext = (s.recov.dumpNext + 1) % 4) ∧
    ((s.dev.st ≠ .running ∨ s.job.waitingInput ≠ [] ∨ s.recov.held = true ∨ s.recov.rollbackTo ≠ none ∨
      s.time < s.job.progressAt + 10000000000) → exec .deviceWatchdog s = .next s)

/-- Copies of a tile's engine, and a ring member's forward. A copy of 1 B to 4 GiB that a slot issues to the free engine of its tile is taken whatever its
reads find: the slot's turn, the unit's turn and the progress go on, and no byte changes. While the tile's table has no room it waits in the engine as
it came; with room a copy of up to 256 bytes to this module's own endpoint sends one STORE of exactly the source's bytes to the destination address
and then one STORE_FLAG that signals the arrival counter by 1. A copy of no bytes or of more than 4 GiB, or one while the tile's engine has another,
starts nothing. A ring member of a running job forwards the block of every rotation step but the last, whatever its reads find, from its own place at
step 0 and from receive slot (step − 1) mod R afterwards, to the member before it, into receive slot step mod R there. A slot not used before, in this
rotation or an earlier one, is noted as used and takes the block at once; a slot used before waits at the end of the line of its release counter, or
takes one from it where no one waits and it is not 0. At the last step nothing is sent. Where it meets them it follows the model's choices of log
entry 45 (notes/assumptions). (12_remote_memory R526 R545, 02_tile R71 R78 R82, 07_sequence_generation R311 R315 R316 R323) -/
def Obligations.CopyEnginesAndTees : Prop :=
  ∀ s : State,
    (∀ (i : Issue) (c : CopyReq) (ecc : List (Nat × Ecc)), canIssue s i.tile i.slot 4 = true → Ecc.uncorrectable ∉ i.fetch → 1 ≤ c.length →
      c.length ≤ 4 * gib → engineCopy s i.tile = none →
      ∃ u, exec (.copyEngineCopy i c ecc) s = .next u ∧ (∀ b, readByte u.mem b = readByte s.mem b) ∧ u.job.progressAt = s.time ∧
        tget (tile u i.tile).lastUnit 4 7 = i.slot ∧ (∀ j, ctr u j = ctr (takeArrivals i.tile s) j) ∧
        (ecc = [] → i.fetch = [] → s.remote.copies = [] → roomFor s i.tile (destOf s c.dst) 1 = false →
          u = { s with tiles := (issuedAlone i.tile 4 i.slot s).tiles, remote.ctrs := (takeArrivals i.tile s).remote.ctrs, job.progressAt := s.time,
                       remote.copies := [{ tile := i.tile, req := c, sent := 0, waitOn := none }] }) ∧
        (ecc = [] → i.fetch = [] → s.remote.copies = [] → destOf s c.dst = ownEndpoint s → c.length ≤ 256 → c.digest = false →
          roomFor s i.tile (ownEndpoint s) 2 = true → u.tiles = (issuedAlone i.tile 4 i.slot s).tiles ∧
          ∃ a b : Packet, u.out = s.out ++ [.packet a, .packet b] ∧ a.opcode = 2 ∧ a.dst = ownEndpoint s ∧ a.addr = BitVec.ofNat 48 c.dstAddr ∧
            a.aux = BitVec.ofNat 32 c.length ∧ a.payload.take c.length = readBytes s.mem c.src c.length ∧
            b.opcode = 3 ∧ b.dst = ownEndpoint s ∧ b.aux = 1 ∧ b.payload.take 6 = leBytes 6 (ctrAddr c.counter) ∧
            u.remote.pend.length = s.remote.pend.length + 2 ∧ u.remote.copies = [] ∧ u.mem = s.mem)) ∧
    (∀ (i : Issue) (c : CopyReq) ecc, (c.length = 0 ∨ 4 * gib < c.length ∨ canIssue s i.tile i.slot 4 = false ∨ engineCopy s i.tile ≠ none) →
      exec (.copyEngineCopy i c ecc) s = .next s) ∧
    (∀ (ring step : Nat) ecc, (∀ p, s.job.plan = some p → p.rings[ring]? = none) → exec (.teeForward ring step ecc) s = .next s) ∧
    (∀ (p : Plan) (ring step : Nat) (r : RingRec) (ecc : List (Nat × Ecc)), s.job.plan = some p → p.rings[ring]? = some r →
      ((r.members.length ≤ step + 1 ∨ s.dev.st ≠ .running) → exec (.teeForward ring step ecc) s = .next s) ∧
      (step + 1 < r.members.length → s.dev.st = .running →
        let k := tileCtr r.tile (nth r.release (step % r.slots) 0)
        let v := ctr s k
        let atOnce := k ∉ s.remote.filled ∨ (v.waiters = [] ∧ 1 ≤ v.value)
        let job : CopyJob :=
          { tile := r.tile, sent := 0, waitOn := if s.remote.filled.contains k && !(v.waiters.isEmpty && decide (1 ≤ v.value)) then some k else none
            req := { src := if step = 0 then r.own else nth r.places ((step - 1) % r.slots) 0
                     dst := .slot (nth r.members ((r.index + r.members.length - 1) % r.members.length) 0)
                     dstAddr := nth r.nextPlaces (step % r.slots) 0, length := r.bytes
                     counter := tileCtr r.nextTile (nth r.arrival (step % r.slots) 0), progress := true, digest := false, digestAddr := 0
                     tray := r.oneTray, keeper := false } }
        ∃ u, exec (.teeForward ring step ecc) s = .next u ∧ (∀ b, readByte u.mem b = readByte s.mem b) ∧ (∀ j, j ≠ k → ctr u j = ctr s j) ∧
          (k ∉ s.remote.filled → u.remote.filled = s.remote.filled ++ [k] ∧ ctr u k = v) ∧
          (k ∈ s.remote.filled → u.remote.filled = s.remote.filled) ∧
          (k ∈ s.remote.filled → v.waiters = [] → 1 ≤ v.value → ctr u k = { v with value := v.value - 1 }) ∧
          (k ∈ s.remote.filled → (v.waiters ≠ [] ∨ v.value = 0) → ctr u k = { v with waiters := v.waiters ++ [(1, r.tile, 0, 1, s.job.waitTimeout)] }) ∧
          (ecc = [] → s.remote.copies = [] → (¬ atOnce ∨ roomFor s r.tile (destOf s job.req.dst) 1 = false) →
            u.remote.copies = [job] ∧ u.out = s.out ∧ u.mem = s.mem) ∧
          (ecc = [] → s.remote.copies = [] → atOnce → r.tile < 256 → r.oneTray = true → nativeMode s = false → 1 ≤ r.bytes → r.bytes ≤ 256 →
            roomFor s r.tile (destOf s job.req.dst) 2 = true →
            ∃ a b : Packet, u.out = s.out ++ [.packet a, .packet b] ∧ a.opcode = 2 ∧ a.dst = destOf s job.req.dst ∧
              a.addr = BitVec.ofNat 48 job.req.dstAddr ∧ a.payload.take r.bytes = readBytes s.mem job.req.src r.bytes ∧ b.opcode = 3 ∧
              b.dst = destOf s job.req.dst ∧ b.payload.take 6 = leBytes 6 (ctrAddr job.req.counter) ∧ u.remote.copies = [] ∧ u.mem = s.mem)))

/-- Scrub walk, patrol scrub, self-refresh and the corner-turn read. A scrub step advances its bank's row, after 6,143 to 0; a corrected word is counted
alone, an uncorrectable word of a live tensor stays poisoned with ERR_SRAM_UNCORR. The patrol scrub advances its stack's pointer by one page, or in
self-refresh lets one more page fall due, to 10,000; a burst reads the pages due and stays in self-refresh. A stack without requests enters self-
refresh in READY, LOADING, FAULTED, QUARANTINED and RELAYING alone. A tile or a stack of a lost quadrant is neither scrubbed nor read. A corner-turn
read sends the block's columns as 256 packed rows, 0 outside the block, 32-bit elements in two halves, with the scale arrays' bytes unchanged; each
half or block stands in the turn buffer whose turn it is, and nothing else changes. Where it meets them it follows the model's choices of log entry 39
(notes/assumptions). (08_memory R337 R338 R341 R342 R345 R346 R347 R348 R349 R357 R358, 09_stack_links R409, 16_warden_power_thermal R742 R743) -/
def Obligations.ScrubsRefreshAndCornerTurn : Prop :=
  ∀ s : State,
    (∀ (t : Tile) (bank : Fin 32) (ecc : List Ecc), s.dev.st ≠ .lookout → tileUsable s t = true → ∃ u, exec (.scrubWalk t bank ecc) s = .next u ∧
      let row := tget s.mem.scrub (scrubKey t bank) 0
      let off := (row * 32 + bank.val) * 64
      tget u.mem.scrub (scrubKey t bank) 0 = (if row = 6143 then 0 else row + 1) ∧
      (∀ j, j ≠ scrubKey t bank → tget u.mem.scrub j 0 = tget s.mem.scrub j 0) ∧
      ((∀ e ∈ ecc, e = .ok) → s.mem.poison = [] → u = { s with mem.scrub := u.mem.scrub }) ∧
      (ecc = [.corrected] → (tile u t).corr = (tile s t).corr + 1 ∧ u.faults = s.faults ∧ u.mem.cells.length ≤ s.mem.cells.length) ∧
      (ecc = [.uncorrectable] → (tile u t).uncorr = (tile s t).uncorr + 1 ∧ Recorded s u errSramUncorr ∧
        (ownerOf s (sramAddr t off) ≠ none → sramAddr t off ∈ u.mem.poison))) ∧
    (∀ (t : Tile) (bank : Fin 32) (ecc : List Ecc), (s.dev.st = .lookout ∨ tileUsable s t = false) → exec (.scrubWalk t bank ecc) s = .next s) ∧
    (∀ (m : Stack) (ecc : List (Nat × Ecc)), s.dev.st ≠ .lookout → s.dev.st ≠ .starting → isFA s = false → stackLost s m = false →
      ((hbm s m).selfRefresh = true → ∃ u, exec (.hbmPatrolScrub m ecc) s = .next u ∧
        hbm u m = { hbm s m with due := min 10000 ((hbm s m).due + 1) } ∧ u = { s with mem.hbms := u.mem.hbms } ∧
        ∀ j : Nat, j ≠ m → hbm u j = hbm s j) ∧
      ((hbm s m).selfRefresh = false → ∃ u, exec (.hbmPatrolScrub m ecc) s = .next u ∧ (hbm u m).patrol = ((hbm s m).patrol + 1) % 9437184 ∧
        (ecc = [] → s.mem.poison = [] → u = { s with mem.hbms := u.mem.hbms }))) ∧
    (∀ (m : Stack) (ecc : List (Nat × Ecc)), stackLost s m = true →
      exec (.hbmPatrolScrub m ecc) s = .next s ∧ exec (.hbmPatrolBurst m ecc) s = .next s) ∧
    (∀ (m : Stack) (ecc : List (Nat × Ecc)), (hbm s m).selfRefresh = true → stackLost s m = false → ∃ u, exec (.hbmPatrolBurst m ecc) s = .next u ∧
      (hbm u m).due = 0 ∧ (hbm u m).selfRefresh = true ∧ (hbm u m).patrol = ((hbm s m).patrol + (hbm s m).due) % 9437184) ∧
    (∀ (m : Stack) (ecc : List (Nat × Ecc)), (hbm s m).selfRefresh = false → exec (.hbmPatrolBurst m ecc) s = .next s) ∧
    (∀ m : Stack, isFA s = false → (s.dev.st = .ready ∨ s.dev.st = .loading ∨ s.dev.st = .faulted ∨ s.dev.st = .quarantined ∨ s.dev.st = .relaying) →
      ∃ u, exec (.hbmSelfRefreshEntry m) s = .next u ∧ hbm u m = { hbm s m with selfRefresh := true } ∧ u = { s with mem.hbms := u.mem.hbms } ∧
        ∀ j : Nat, j ≠ m → hbm u j = hbm s j) ∧
    (∀ m : Stack, (s.dev.st = .lookout ∨ s.dev.st = .starting ∨ s.dev.st = .planning ∨ s.dev.st = .running ∨ s.dev.st = .draining ∨ s.dev.st = .filling) →
      exec (.hbmSelfRefreshEntry m) s = .next s) ∧
    (∀ (t : Tile) (base pitch rows cols width : Nat) (scales : List (Nat × Nat)), 1 ≤ rows → rows ≤ 256 → 1 ≤ cols → cols ≤ 256 →
      width ∈ [1, 2, 3, 4, 6, 8, 16, 32] → blockFits base pitch rows cols width = true → scales.length ≤ 2 → (∀ x ∈ scales, x.1 + x.2 ≤ 0xC00000) →
      tileUsable s t = true →
      ∃ (u : State) (b : List (List Byte)) (k k' : Nat),
        let sc := scales.map fun x => readBytes s.mem (sramAddr t x.1) x.2
        let bad := (((List.range rows).map fun r => (base + r * pitch, (cols * width + 7) / 8)) ++ scales).any fun x =>
          poisoned s.mem (sramAddr t x.1) x.2
        exec (.cornerTurnRead t base pitch rows cols width scales []) s = .next u ∧
        u = { s with tiles := u.tiles, out := s.out ++
          (if width = 32 then [.turned t 32 (b.take 128) sc k bad, .turned t 32 (b.drop 128) sc k' bad] else [.turned t width b sc k bad]) } ∧
        b.length = 256 ∧ (∀ row ∈ b, row.length = 32 * width) ∧
        (∀ c r, c < 256 → r < 256 → leNat (nth b c []) / 2 ^ (r * width) % 2 ^ width =
          if c < cols ∧ r < rows then packedElem s.mem (sramAddr t base + r * pitch) width c else 0) ∧
        (∀ j : Nat, j ≠ t → tile u j = tile s j) ∧
        tile u t = (if width = 32 then
            (if (tile s t).turnNext then { tile s t with turnB := b.take 128, turnA := b.drop 128 }
             else { tile s t with turnA := b.take 128, turnB := b.drop 128 })
          else if (tile s t).turnNext then { tile s t with turnB := b, turnNext := false } else { tile s t with turnA := b, turnNext := true }))

/-- The computing ops of a Tally program and their results. When it is the next op of its position and its inputs are there, each computing op (CONTRACT,
MAP, the four REDUCEs, both NORMALISEs, GATHER, both SCATTERs, CAST and the three DRAWs) retires on its position alone; the values it forms go to its
output tensor, converted with the op's rounding or kept for the sum over iterations, and no other copy of a tensor and nothing but the job changes.
GATHER and SCATTER count the indices off the axis. Where it meets them it follows the model's choices of log entries 31, 33 (notes/assumptions).
(05_tally R203 R205 R206 R207 R208 R210 R216 R219 R225 R226 R228 R230) -/
def Obligations.ComputingOpsConvertTheirResults : Prop :=
  ∀ (s : State) (pos op : Nat) (im : Image) (o : OpRec),
    (OpReady s pos op 1 0 im o → OpDone (.contract pos op) s im o pos op [(out0 o, contractVals s im o pos)]) ∧
    (OpReady s pos op 2 0 im o → OpDone (.map pos op) s im o pos op [(out0 o, mapVals s im o pos)]) ∧
    (OpReady s pos op 3 0 im o → o.variant = 0 → OpDone (.reduceSum pos op) s im o pos op [(out0 o, reduceVals s im o pos)]) ∧
    (OpReady s pos op 3 1 im o → o.variant = 1 → OpDone (.reduceSumOfSquares pos op) s im o pos op [(out0 o, reduceVals s im o pos)]) ∧
    (OpReady s pos op 3 2 im o → o.variant = 2 → OpDone (.reduceMax pos op) s im o pos op [(out0 o, reduceVals s im o pos)]) ∧
    (OpReady s pos op 3 3 im o → o.variant = 3 → OpDone (.reduceMin pos op) s im o pos op [(out0 o, reduceVals s im o pos)]) ∧
    (OpReady s pos op 5 0 im o → o.variant = 0 → OpDone (.normaliseRms pos op) s im o pos op [(out0 o, normaliseVals s im o pos)]) ∧
    (OpReady s pos op 5 1 im o → o.variant = 1 → OpDone (.normaliseLayer pos op) s im o pos op [(out0 o, normaliseVals s im o pos)]) ∧
    (OpReady s pos op 6 0 im o → OpDone (.gather pos op) s im o pos op [(out0 o, gatherVals s im o pos)] ∧
      ∃ u, exec (.gather pos op) s = .next u ∧ u.job.rangeDrops = s.job.rangeDrops + offAxis s im o pos (in0 o)) ∧
    (OpReady s pos op 7 0 im o → OpDone (.scatterAdd pos op) s im o pos op [(out0 o, scatterVals 0 s im o pos)] ∧
      ∃ u, exec (.scatterAdd pos op) s = .next u ∧ u.job.rangeDrops = s.job.rangeDrops + offAxis s im o pos (out0 o)) ∧
    (OpReady s pos op 7 1 im o → OpDone (.scatterReplace pos op) s im o pos op [(out0 o, scatterVals 1 s im o pos)] ∧
      ∃ u, exec (.scatterReplace pos op) s = .next u ∧ u.job.rangeDrops = s.job.rangeDrops + offAxis s im o pos (out0 o)) ∧
    (OpReady s pos op 8 0 im o → OpDone (.cast pos op) s im o pos op [(out0 o, castVals s im o pos)]) ∧
    (OpReady s pos op 9 0 im o → OpDone (.drawBits pos op) s im o pos op [(out0 o, drawVals 0 s im o pos op)]) ∧
    (OpReady s pos op 9 1 im o → OpDone (.drawUniform pos op) s im o pos op [(out0 o, drawVals 1 s im o pos op)]) ∧
    (OpReady s pos op 9 2 im o → OpDone (.drawBernoulli pos op) s im o pos op [(out0 o, drawVals 2 s im o pos op)])

/-- ATTEND and COPY. ATTEND_FORWARD converts each query row's output and, with a second output, its lse; ATTEND_BACKWARD converts dQ, dK and dV. An ATTEND
of either variant that placement runs as a rotation asks for a step's blocks once, each as a waiter of its arrival counter, and changes nothing while
one has not come; with them it takes one step, without retiring before the last, and at the last one the forward variant converts what the fold's
roots give. COPY_BOX and COPY_RESHAPE between tensors of one format move encoded elements and their scales unchanged, between two formats they convert
the decoded values: COPY_RESHAPE every element in order, COPY_BOX those of the box, the rest of its output staying. The op retires on its position
alone and no other copy changes. Where it meets them it follows the model's choices of log entries 31, 33 (notes/assumptions). (05_tally R203 R205
R220 R222 R223 R224 R234 R237 R238 R240, 07_sequence_generation R309 R311 R318 R319) -/
def Obligations.AttendAndCopyOps : Prop :=
  ∀ (s : State) (pos op : Nat) (im : Image) (o : OpRec),
    let boxed : List Src := (List.range (elemCount im (out0 o))).map fun e =>
      match boxSource s im o e with
      | some i => ⟨(fullCopy s im pos (in0 o)).1, (fullCopy s im pos (in0 o)).2, i⟩
      | none => ⟨(fullCopy s im pos (out0 o)).1, (fullCopy s im pos (out0 o)).2, e⟩
    let shaped : List Src := (List.range (elemCount im (out0 o))).map fun e => ⟨(fullCopy s im pos (in0 o)).1, (fullCopy s im pos (in0 o)).2, e⟩
    let laid := fun (rs : List (List Word × Word)) =>
      scatterRows im (out0 o) (attAxes o).2.2.2 ((axesOf im (in0 o)).filter (· != (attAxes o).2.2.1)) (rs.map (·.1))
    (OpReady s pos op 4 0 im o → rotates s op = false →
      (o.outs = [out0 o] → OpDone (.attendForward pos op) s im o pos op [(out0 o, laid (attendRows s im o pos))]) ∧
      (∀ l : Nat, o.outs = [out0 o, l] → keyOf s im pos l ≠ keyOf s im pos (out0 o) →
        OpDone (.attendForward pos op) s im o pos op
          [(out0 o, laid (attendRows s im o pos)), (l, (attendRows s im o pos).map fun r => .num (numW r.2))])) ∧
    (∀ v : Nat, ∀ c ∈ ([(Instr.attendForward pos op, 0), (.attendBackward pos op, 1)] : List (Instr × Nat)), c.2 = v →
      ∀ (g : OpRec × RingRec) (gs : List (OpRec × RingRec)), nextOp s pos op 4 v = some (im, o) → rotates s op = true →
      ringsAt s im o pos = some (g :: gs) → inputsReady s im (o.ins.filter fun t => !(g :: gs).any fun e => out0 e.1 == t) = true →
      let run := runOf' s pos op
      let waits := stepWaits ((g :: gs).map (·.2)) run.step
      ((∀ w ∈ waits, w.1 ∈ run.asked) → (∃ w ∈ waits, w.1 ∉ run.got) → exec c.1 s = .next s) ∧
      (∀ w : Nat × Nat, waits = [w] → w.1 ∉ run.asked → w.1 ∉ run.got → ((ctr s w.1).waiters ≠ [] ∨ (ctr s w.1).value < w.2) →
        ∃ u, exec c.1 s = .next u ∧ ctr u w.1 = { ctr s w.1 with waiters := (ctr s w.1).waiters ++ [(3, g.2.tile, pos, w.2, s.job.waitTimeout)] } ∧
          (∀ j, j ≠ w.1 → ctr u j = ctr s j) ∧ w.1 ∈ (runOf' u pos op).asked ∧ (runOf' u pos op).step = run.step ∧
          u = { s with remote.ctrs := u.remote.ctrs, job.rotations := u.job.rotations }) ∧
      ((∀ w ∈ waits, w.1 ∈ run.asked ∧ w.1 ∈ run.got) → run.step + 1 < g.2.members.length → ∃ u, exec c.1 s = .next u ∧
        u.job.opNext = s.job.opNext ∧ u.job.tensors = s.job.tensors ∧ (runOf' u pos op).step = run.step + 1 ∧
        (v = 0 → (runOf' u pos op).rows = rotateRows s im o pos g (g :: gs) run))) ∧
    (∀ (g : OpRec × RingRec) (gs : List (OpRec × RingRec)), OpReady s pos op 4 0 im o → rotates s op = true → ringsAt s im o pos = some (g :: gs) →
      o.outs = [out0 o] → nativeMode s = false →
      (∀ e ∈ g :: gs, nth s.job.rankMap (nth e.2.members ((e.2.index + 1) % e.2.members.length) 0) 0xFFFF ≠ ownEndpoint s) →
      let run := runOf' s pos op
      (∀ w ∈ stepWaits ((g :: gs).map (·.2)) run.step, w.1 ∈ run.asked ∧ w.1 ∈ run.got) → g.2.members.length ≤ run.step + 1 →
      ∃ u, exec (.attendForward pos op) s = .next u ∧ nth u.job.opNext pos none32 = op + 1 ∧
        Converted s u im o pos (out0 o)
          (laid ((rotateRows s im o pos g (g :: gs) run).map fun r => rowOut (axisLen im (attAxes o).2.2.2) r.root)) ∧
        ∀ k, k ≠ keyOf s im pos (out0 o) → SameCopy s u k) ∧
    (∀ a b c : Nat, OpReady s pos op 4 1 im o → rotates s op = false → o.outs = [a, b, c] →
      keyOf s im pos a ≠ keyOf s im pos b → keyOf s im pos a ≠ keyOf s im pos c → keyOf s im pos b ≠ keyOf s im pos c →
      OpDone (.attendBackward pos op) s im o pos op
        [(a, (attendGrads s im o pos).1), (b, (attendGrads s im o pos).2.1), (c, (attendGrads s im o pos).2.2)]) ∧
    (OpReady s pos op 11 0 im o →
      (fmtNow s im (in0 o) = fmtNow s im (out0 o) → OpMoved (.copyBox pos op) s im o pos op boxed) ∧
      (fmtNow s im (in0 o) ≠ fmtNow s im (out0 o) → OpDone (.copyBox pos op) s im o pos op [(out0 o, movedVals boxed)]) ∧
      ∃ u, exec (.copyBox pos op) s = .next u ∧ u.job.rangeDrops = s.job.rangeDrops + boxDrops s im o) ∧
    (OpReady s pos op 11 1 im o →
      (fmtNow s im (in0 o) = fmtNow s im (out0 o) → OpMoved (.copyReshape pos op) s im o pos op shaped) ∧
      (fmtNow s im (in0 o) ≠ fmtNow s im (out0 o) → OpDone (.copyReshape pos op) s im o pos op [(out0 o, movedVals shaped)]))

/-- The collectives, once every member's data is there. COLLECTIVE_REDUCE, REDUCE_SCATTER and SCALAR_REDUCE convert the canonical combination of the
members' elements, REDUCE_SCATTER only this rank's slice. GATHER, ALL_TO_ALL and BROADCAST between tensors of one format move the members' encoded
elements unchanged, between two formats they convert the decoded values: element by element from the member and the place that the op's axis names. A
GATHER of a parameter or optimizer state also sends its shard's version; one that placement runs as a rotation moves nothing. A BARRIER retires when
every other group index is named and this module's own ranks of the group have reached it. With a member missing, GATHER, ALL_TO_ALL and BROADCAST
change nothing, nor does a reduction outside the tree. Where it meets them it follows the model's choices of log entry 32 (notes/assumptions).
(05_tally R231 R232 R233 R234 R235 R236 R169, 07_sequence_generation R309, 13_flume_relay R603, 14_recovery R669) -/
def Obligations.CollectivesOverTheirMembers : Prop :=
  ∀ (s : State) (pos op : Nat) (im : Image) (o : OpRec) (ms : List MemberX) (cs : List (Tens × Geo)),
    let xf := fmtNow s im (in0 o)
    let xd := dimsOf im (in0 o)
    let yd := dimsOf im (out0 o)
    let p := axisPosOf o
    let r := groupIndex im o.machine (rankOf s im pos)
    let gathered := srcOf cs (((List.range (product yd)).map fun e => nth (unravel yd e) p 0 / nth xd p 1).zip
      (shiftAxis xd yd p fun j => j % nth xd p 1))
    let exchanged := srcOf cs (((List.range (product yd)).map fun e => nth (unravel yd e) p 0 / (nth yd p 1 / cs.length)).zip
      (shiftAxis xd yd p fun j => r * (nth yd p 1 / cs.length) + j % (nth yd p 1 / cs.length)))
    let sent := srcOf cs ((List.range (elemCount im (out0 o))).map fun e => (field o.params 4 4, e))
    (memberCopies s im o pos op ms = some cs →
      (OpReady s pos op 10 0 im o → OpDone (.collectiveReduce pos op ms) s im o pos op
        [(out0 o, combineAt xf (combOf o) false (memberVals cs) (List.range (elemCount im (in0 o))))]) ∧
      (OpReady s pos op 10 1 im o → OpDone (.collectiveReduceScatter pos op ms) s im o pos op
        [(out0 o, combineAt xf (combOf o) false (memberVals cs) (sliceOf im o r))]) ∧
      (OpReady s pos op 10 5 im o → OpDone (.collectiveScalarReduce pos op ms) s im o pos op
        [(out0 o, combineAt xf (combOf o) true (memberVals cs) (List.range (elemCount im (in0 o))))]) ∧
      (OpReady s pos op 10 2 im o → turnedGather s im op = false → ∃ u, exec (.collectiveGather pos op ms) s = .next u ∧
        nth u.job.opNext pos none32 = op + 1 ∧ (∀ k, k ≠ keyOf s im pos (out0 o) → SameCopy s u k) ∧
        (xf = fmtNow s im (out0 o) → HoldsStored u (keyOf s im pos (out0 o)) (assemble xf (geoTens im (out0 o) xf) gathered)) ∧
        (xf ≠ fmtNow s im (out0 o) → Converted s u im o pos (out0 o) (movedVals gathered)) ∧
        (1 < (tensorOf im (in0 o)).role → u = { takeRank pos s with job := u.job })) ∧
      (OpReady s pos op 10 3 im o →
        (xf = fmtNow s im (out0 o) → OpMoved (.collectiveAllToAll pos op ms) s im o pos op exchanged) ∧
        (xf ≠ fmtNow s im (out0 o) → OpDone (.collectiveAllToAll pos op ms) s im o pos op [(out0 o, movedVals exchanged)])) ∧
      (OpReady s pos op 10 4 im o →
        (xf = fmtNow s im (out0 o) → OpMoved (.collectiveBroadcast pos op ms) s im o pos op sent) ∧
        (xf ≠ fmtNow s im (out0 o) → OpDone (.collectiveBroadcast pos op ms) s im o pos op [(out0 o, movedVals sent)]))) ∧
    (OpReady s pos op 10 2 im o → turnedGather s im op = true → ∃ u, exec (.collectiveGather pos op ms) s = .next u ∧
      nth u.job.opNext pos none32 = op + 1 ∧ ∀ k, SameCopy s u k) ∧
    (memberCopies s im o pos op ms = none →
      (OpReady s pos op 10 2 im o → turnedGather s im op = false → exec (.collectiveGather pos op ms) s = .next s) ∧
      (OpReady s pos op 10 3 im o → exec (.collectiveAllToAll pos op ms) s = .next s) ∧
      (OpReady s pos op 10 4 im o → exec (.collectiveBroadcast pos op ms) s = .next s) ∧
      (s.flume.bulks = [] → inTree s op = false →
        (OpReady s pos op 10 0 im o → exec (.collectiveReduce pos op ms) s = .next s) ∧
        (OpReady s pos op 10 1 im o → exec (.collectiveReduceScatter pos op ms) s = .next s))) ∧
    (∀ idx : List Nat, OpReady s pos op 10 6 im o →
      (matesThere s im o pos op = false → exec (.collectiveBarrier pos op idx) s = .next s) ∧
      (matesThere s im o pos op = true →
        (∀ i, i < groupSize im o.machine → (∃ q ∈ groupPositions s im o.machine pos, i = groupIndex im o.machine (rankOf s im q)) ∨ i ∈ idx) →
        OpDone (.collectiveBarrier pos op idx) s im o pos op []))

/-- Ops run in order, wait for their inputs, and signal the host. An op runs only while the job runs, as the next of its position and of the command's
kind, in its turn on a tile that several ranks share, and once the transfers to its position's tiles have arrived; otherwise the command changes
nothing. An op whose input instance is not marked waits and changes nothing else. HOST_SIGNAL_NOTIFY on position 0 adds its count to its host counter.
HOST_SIGNAL_AWAIT takes its count from the counter and retires when no one waits before it and the count is there; otherwise it waits at the end of
the line without retiring. No other position passes an await before position 0. Where it meets them it follows the model's choices of log entry 32
(notes/assumptions). (05_tally R191 R203 R241, 06_placement R278 R294, 12_remote_memory R567, 14_recovery R649) -/
def Obligations.OpsRunInOrderAndWaitForInputs : Prop :=
  ∀ (s : State) (pos op : Nat),
    (∀ a b im o, nextOp s pos op a b = some (im, o) → jobRunning s = true ∧ nth s.job.opNext pos none32 = op ∧ im.ops[op]? = some o ∧
      o.opcode = a ∧ o.variant = b ∧ pos < positions s ∧ tileTurn s pos op = true ∧ rankArrived s pos = true) ∧
    (∀ e ∈ [(Instr.contract pos op, 1, 0), (.map pos op, 2, 0), (.reduceSum pos op, 3, 0), (.reduceSumOfSquares pos op, 3, 1),
        (.reduceMax pos op, 3, 2), (.reduceMin pos op, 3, 3),
        (.normaliseRms pos op, 5, 0), (.normaliseLayer pos op, 5, 1), (.gather pos op, 6, 0), (.scatterAdd pos op, 7, 0),
        (.scatterReplace pos op, 7, 1), (.cast pos op, 8, 0), (.drawBits pos op, 9, 0), (.drawUniform pos op, 9, 1),
        (.drawBernoulli pos op, 9, 2), (.copyBox pos op, 11, 0), (.copyReshape pos op, 11, 1), (.hostSignalNotify pos op, 12, 0)],
      (nextOp s pos op e.2.1 e.2.2 = none → exec e.1 s = .next s) ∧
      (∀ im o, nextOp s pos op e.2.1 e.2.2 = some (im, o) → inputsReady s im o.ins = false →
        exec e.1 s = .next { s with job.waitingInput := sinsert s.job.waitingInput pos })) ∧
    (∀ c ∈ ([(.attendForward pos op, 0), (.attendBackward pos op, 1)] : List (Instr × Nat)),
      (nextOp s pos op 4 c.2 = none → exec c.1 s = .next s) ∧
      (∀ im o, nextOp s pos op 4 c.2 = some (im, o) → rotates s op = false → inputsReady s im o.ins = false →
        exec c.1 s = .next { s with job.waitingInput := sinsert s.job.waitingInput pos }) ∧
      (∀ im o g gs, nextOp s pos op 4 c.2 = some (im, o) → rotates s op = true → ringsAt s im o pos = some (g :: gs) →
        inputsReady s im (o.ins.filter fun t => !(g :: gs).any fun e => out0 e.1 == t) = false →
        exec c.1 s = .next { s with job.waitingInput := sinsert s.job.waitingInput pos })) ∧
    (∀ im o, OpReady s pos op 12 0 im o →
      let k := hostCtr (hostH o)
      (pos ≠ 0 → ∃ u, exec (.hostSignalNotify pos op) s = .next u ∧ OpRetired s u pos op) ∧
      (pos = 0 → (∀ t ∈ tilesAt s pos, (tile s t).awaits = []) → signalFault (ctr s k) (hostN o) = 0 → (ctr s k).waiters = [] → ∃ u, exec (.hostSignalNotify pos op) s = .next u ∧
        (ctr u k).value = (ctr s k).value + hostN o ∧ (∀ j, j ≠ k → ctr u j = ctr s j) ∧ nth u.job.opNext pos none32 = op + 1 ∧ u.mem = s.mem)) ∧
    (∀ im o, OpReady s pos op 12 1 im o →
      let k := hostCtr (hostH o)
      (pos ≠ 0 → op < nth s.job.opNext 0 0 → ∃ u, exec (.hostSignalAwait pos op) s = .next u ∧ OpRetired s u pos op) ∧
      (pos ≠ 0 → nth s.job.opNext 0 0 ≤ op → exec (.hostSignalAwait pos op) s = .next s) ∧
      (pos = 0 → pos ∈ s.job.awaitDone → ∃ u, exec (.hostSignalAwait pos op) s = .next u ∧ OpRetired s u pos op ∧ pos ∉ u.job.awaitDone) ∧
      (pos = 0 → pos ∉ s.job.awaitDone → (∀ t ∈ tilesAt s pos, (tile s t).awaits = []) → (ctr s k).waiters = [] → hostN o ≤ (ctr s k).value →
        ∃ u, exec (.hostSignalAwait pos op) s = .next u ∧ ctr u k = { ctr s k with value := (ctr s k).value - hostN o } ∧
          nth u.job.opNext pos none32 = op + 1) ∧
      (pos = 0 → pos ∉ s.job.awaitDone → (ctr s k).waiters = [] → (ctr s k).value < hostN o →
        ∃ u, exec (.hostSignalAwait pos op) s = .next u ∧ (ctr u k).value = (ctr s k).value ∧
          (ctr u k).waiters = [(2, rankOf s im pos, pos, hostN o, hostTimeout o)] ∧ u = { s with remote.ctrs := u.remote.ctrs } ∧
          exec (.hostSignalAwait pos op) u = .next u))

/-- The items of the step program. Once its boundary has started it, RUN opens the phase of the item in hand (once, before the first step, the init phase)
with every position at its first op, the tensors that the plan has it form again formed; before that it opens nothing. An update phase waits for the
snapshot trigger, passes the gradient-norm guard once in the step, and is passed over on a skipped step. LOOP opens its body, END_LOOP goes back for
the next micro-batch and after the last goes on with the loop sums converted. IF takes its branch when its condition holds and else goes past its
END_IF; ELSE, reached from the taken branch, goes past END_IF. Where it meets them it follows the model's choices of log entries 32, 34
(notes/assumptions). (05_tally R206 R243 R244 R246 R247 R248 R250 R252, 04_narrow_training R164 R165, 14_recovery R638, 06_placement R286 R294) -/
def Obligations.StepItemsRunInOrder : Prop :=
  ∀ (s : State) (im : Image),
    (∀ code arg, atItem s code = some (im, arg) → jobRunning s = true ∧ s.job.image = some im ∧ im.items[s.job.item]? = some (code, arg)) ∧
    (∀ ph n2, s.job.image = some im → s.job.inInit = true → jobRunning s = true → s.job.phase = none → im.initPhase = some ph → 0 < positions s →
      (s.job.opened ≠ some ph → exec (.run ph n2) s = .next s) ∧ (s.job.opened = some ph →
      0 < ((im.phases[ph]?).getD ⟨0, 0, 0⟩).count → ∃ u, exec (.run ph n2) s = .next u ∧ u.job.phase = some ph ∧
        u.job.opNext = List.replicate (positions s) ((im.phases[ph]?).getD ⟨0, 0, 0⟩).first ∧
        (∀ m, ownPlan s = some m → tget m.redo ph [] = [] → u.job.tensors = s.job.tensors) ∧
        u = { s with job.phase := u.job.phase, job.opNext := u.job.opNext, job.tensors := u.job.tensors })) ∧
    (∀ ph n2, s.job.inInit = false → atItem s 1 = some (im, ph) → s.job.stepOpen = true → 0 < positions s →
      let p := (im.phases[ph]?).getD ⟨0, 0, 0⟩
      0 < p.count →
      (p.kind ≠ 2 → s.job.opened ≠ some ph → exec (.run ph n2) s = .next s) ∧
      (p.kind ≠ 2 → s.job.opened = some ph → ∃ u, exec (.run ph n2) s = .next u ∧ u.job.phase = some ph ∧ u.job.opNext = List.replicate (positions s) p.first ∧
        (∀ m, ownPlan s = some m → tget m.redo ph [] = [] → u.job.tensors = s.job.tensors) ∧
        u = { s with job.phase := u.job.phase, job.opNext := u.job.opNext, job.tensors := u.job.tensors }) ∧
      (p.kind = 2 → s.recov.triggerDue ≠ none → exec (.run ph n2) s = .next s) ∧
      (p.kind = 2 → s.recov.triggerDue = none → ∃ u, exec (.run ph n2) s = .next u ∧ u.mem = s.mem ∧ u.dev = s.dev ∧ u.recov = s.recov ∧
        let c := match s.job.n2Now with | some c => c | none => formN2 s im n2
        let skip := match s.job.n2Now with | some _ => s.job.skipNow | none => guardSkips im.safe.limit c
        (skip = true → u.job = { s.job with n2Now := some c, skipNow := true, item := s.job.item + 1, opened := none }) ∧
        (skip = false → s.job.opened ≠ some ph → u.job = { s.job with n2Now := some c, skipNow := false }) ∧
        (skip = false → s.job.opened = some ph → u.job = { s.job with
          n2Now := some c, skipNow := false, updateBegun := true, lastUpdate := s.job.step, phase := some ph
          opNext := List.replicate (positions s) p.first, tensors := u.job.tensors })) ∧
      (∀ other, other ≠ ph → exec (.run other n2) s = .next s)) ∧
    (∀ arg, s.job.stepOpen = true → atItem s 2 = some (im, arg) → exec .loop s = .next { s with job.item := s.job.item + 1 }) ∧
    (∀ arg, atItem s 3 = some (im, arg) → s.job.loopIter + 1 < s.job.mb → ∀ (pre : List (Nat × Nat)) (x : Nat) (rest : List (Nat × Nat)),
      im.items = pre ++ (2, x) :: rest → (∀ e ∈ pre, e.1 ≠ 2) →
      exec .endLoop s = .next { s with job.item := pre.length + 1, job.loopIter := s.job.loopIter + 1, job.iters := s.job.iters + 1 }) ∧
    (∀ arg, atItem s 3 = some (im, arg) → s.job.mb ≤ s.job.loopIter + 1 → ∃ u, exec .endLoop s = .next u ∧ u.job.item = s.job.item + 1 ∧
      u.job.loopSums = [] ∧ u.job.iters = s.job.iters ∧ (s.job.loopSums = [] → u = { s with job.item := s.job.item + 1 })) ∧
    (∀ cond, s.job.stepOpen = true → atItem s 4 = some (im, cond) →
      (condTrue s im cond = true → exec (.ifItem cond) s = .next { s with job.item := s.job.item + 1 }) ∧
      (condTrue s im cond = false → ∀ (pre body post : List (Nat × Nat)) (x y : Nat), im.items = pre ++ (4, x) :: body ++ (6, y) :: post →
        pre.length = s.job.item → (∀ e ∈ body, e.1 ≠ 4 ∧ e.1 ≠ 5 ∧ e.1 ≠ 6) →
        exec (.ifItem cond) s = .next { s with job.item := pre.length + body.length + 2 }) ∧
      (condTrue s im cond = false → ∀ (pre body post : List (Nat × Nat)) (x y : Nat), im.items = pre ++ (4, x) :: body ++ (5, y) :: post →
        pre.length = s.job.item → (∀ e ∈ body, e.1 ≠ 4 ∧ e.1 ≠ 5 ∧ e.1 ≠ 6) →
        exec (.ifItem cond) s = .next { s with job.item := pre.length + body.length + 2 }) ∧
      (∀ other, other ≠ cond → exec (.ifItem other) s = .next s)) ∧
    (∀ arg, atItem s 5 = some (im, arg) → ∀ (pre body post : List (Nat × Nat)) (x y : Nat), im.items = pre ++ (5, x) :: body ++ (6, y) :: post →
      pre.length = s.job.item → (∀ e ∈ body, e.1 ≠ 4 ∧ e.1 ≠ 5 ∧ e.1 ≠ 6) →
      exec .elseItem s = .next { s with job.item := pre.length + body.length + 2 }) ∧
    (∀ arg, atItem s 6 = some (im, arg) → exec .endIf s = .next { s with job.item := s.job.item + 1 }) ∧
    (atItem s 2 = none → atItem s 3 = none → atItem s 5 = none → atItem s 6 = none →
      exec .loop s = .next s ∧ exec .endLoop s = .next s ∧ exec .elseItem s = .next s ∧ exec .endIf s = .next s)

/-- The step boundary, with no rule of promotion or program. With the step's items done and what the boundary waits for there, an image without promotion
and program rules and without replicated shards: a journal record of 1,024 B with the step's number enters the ring's next place, the step advances
with its item, tallies, open flag and update flag anew, the count of micro-batch iterations goes on by those of the step, one where it has no loop, N2
and the skip outcome become those of the last completed step, and a snapshot falls due after each K-th step. The skip limit ends the job in FAULTED
with ERR_GRAD_SKIP_LIMIT. On a module alone in its job and without a keeper, which sends nothing at the boundary, memory and fault records stay
otherwise and the last step ends the job in DRAINING. Before what the boundary waits for is there, it changes nothing. Where it meets them it follows
the model's choices of log entries 34, 35 (notes/assumptions). (04_narrow_training R134 R148 R166 R173, 14_recovery R628 R630 R635, 05_tally R191
R249) -/
def Obligations.StepBoundaryWritesItsRecord : Prop :=
  ∀ (s : State) (im : Image) (p : Plan) (b : BoundaryIn), s.job.image = some im → s.job.plan = some p →
    (boundaryReady s im = false → exec (.stepBoundary b) s = .next s) ∧
    (∀ c : DWord, boundaryReady s im = true → s.job.stepOpen = true → im.promos = [] → im.progs = [] → shardKeys s im = [] →
      s.job.replayTo = none → s.recov.saving = none → s.job.n2Now = some c → ∃ u, exec (.stepBoundary b) s = .next u ∧
        (tget u.recov.journal s.recov.journalNext []).length = 1024 ∧ jStep (tget u.recov.journal s.recov.journalNext []) = s.job.step.toNat ∧
        u.recov.journalNext = (s.recov.journalNext + 1) % 262144 ∧
        u.job.step = s.job.step + 1 ∧ u.job.item = 0 ∧ u.job.stepOpen = false ∧ u.job.updateBegun = false ∧ u.job.tallies = [] ∧
        u.job.lastLocal = s.job.tallies ∧ u.job.iters = s.job.iters - s.job.loopIter + stepIters s im ∧ u.job.mb = s.job.mb ∧
        u.job.formats = s.job.formats ∧ u.job.n2 = c ∧ u.job.skip = s.job.skipNow ∧
        u.job.skipsRun = (if s.job.skipNow = true then s.job.skipsRun + 1 else 0) ∧
        (u.recov.triggerDue = if s.job.step.toNat % s.job.k = 0 then some s.job.step.toNat else none) ∧
        (im.safe.skipLimit ≤ u.job.skipsRun → u.dev.st = .faulted ∧ ∃ f rest, u.faults = f :: rest ∧ f.code.toNat = errGradSkipLimit) ∧
        (s.job.rankMap.length ≤ 1 → keeperNow s = 0xFFFF → u.mem = s.mem ∧
          (im.safe.skipLimit ≤ u.job.skipsRun → Recorded s u errGradSkipLimit) ∧
          (u.job.skipsRun < im.safe.skipLimit → u.faults = s.faults ∧
            u.dev.st = (if im.lastStep ≠ 0 ∧ s.job.step.toNat = im.lastStep then .draining else .running))))

/-- The snapshot trigger and the end of a drain. At the agreed time a due snapshot starts into a writable slot with the module's stream, the first slot
before the second, and goes to the keeper, if there is one; with none writable ERR_SNAPSHOT_SKIPPED is written. A drain ends, unless the end hold
stands or THERM_TRIP_N is low, in READY, or in RELAYING on a spare, with the job forgotten, the counters and outstanding requests cleared, tile SRAM
and the job region zero and unpoisoned, the rest of HBM as it was where no kept module was substituted, and the journal kept. The end hold's expiry
only lifts the hold. Where it meets them it follows the model's choices of log entry 35 (notes/assumptions). (14_recovery R635 R636 R641 R644,
12_remote_memory R577, 08_memory R344 R360, 17_host_port R797 R798, 01_overview R31) -/
def Obligations.SnapshotsAndTheEndOfAJob : Prop :=
  ∀ s : State,
    (∀ (im : Image) (step : Nat) (mtc : DWord) (released : List Nat), s.job.image = some im → s.recov.triggerDue = some step →
      (s.mtc.value < mtc → exec (.snapshotBegin mtc released) s = .next s) ∧
      (jobRunning s = true → mtc ≤ s.mtc.value → ∃ u, exec (.snapshotBegin mtc released) s = .next u ∧ u.recov.triggerDue = none ∧
        let a := takeRelease released s.recov.ownA
        let b := takeRelease released s.recov.ownB
        (writable s a = true → u.recov.saving = some step ∧ u.recov.ownA.st = 1 ∧ u.recov.ownA.bytes = snapshotStream s im step ∧
          u.recov.ownB = b ∧ (keeperNow s = 0xFFFF → u = { s with recov := u.recov })) ∧
        (writable s a = false → writable s b = true → u.recov.saving = some step ∧ u.recov.ownB.st = 1 ∧
          u.recov.ownB.bytes = snapshotStream s im step ∧ u.recov.ownA = a ∧ (keeperNow s = 0xFFFF → u = { s with recov := u.recov })) ∧
        (writable s a = false → writable s b = false → u.recov.saving = s.recov.saving ∧ u.recov.ownA = a ∧ u.recov.ownB = b ∧
          Recorded s u errSnapshotSkipped ∧ u.dev.st = s.dev.st))) ∧
    (∀ (mtc : DWord) (released : List Nat), s.recov.triggerDue = none → exec (.snapshotBegin mtc released) s = .next s) ∧
    (s.dev.st = .draining → s.job.drainHold = false → s.pins.thermTripN = true → ∃ u, exec .drainComplete s = .next u ∧
      u.dev.st = (if s.dev.role = some .spare then .relaying else .ready) ∧ u.job = {} ∧ u.flume = {} ∧ u.remote.ctrs = [] ∧ u.remote.pend = [] ∧
      u.remote.copies = [] ∧ u.remote.heldFlags = [] ∧ u.recov.journal = s.recov.journal ∧ u.recov.dumps = s.recov.dumps ∧
      (∀ t, (tile u t).slots = []) ∧
      (∀ a, sramBase ≤ a → a < sramBase + 0x100000000 → readByte u.mem a = 0) ∧ (s.mem.bist = [] → ∀ a, a < jobEnd s → readByte u.mem a = 0) ∧
      (∀ x ∈ u.mem.poison, jobEnd s ≤ x ∧ ¬ (sramBase ≤ x ∧ x < sramBase + 0x100000000)) ∧
      (keptNow s = (ringKeeper s).kept → ∀ a, jobEnd s ≤ a → a < hbmEnd → readByte u.mem a = readByte s.mem a)) ∧
    ((s.dev.st ≠ .draining ∨ s.job.drainHold = true ∨ s.pins.thermTripN = false) → exec .drainComplete s = .next s) ∧
    (s.dev.st = .draining → exec .endHoldExpire s = .next { s with job.drainHold := false }) ∧
    (s.dev.st ≠ .draining → exec .endHoldExpire s = .next s)

/-- A relay's combine slots. Outside a relay at work a FLUME_UP changes nothing; a packet whose CRC fails is counted and dropped. A first contribution
allocates a slot with its nodes; with no slot free it is refused with BUSY_RELAY, the descriptor unchanged, by the lane that it came from. A part that
has come before changes nothing. The last contribution of an operation whose top this relay is folds the nodes, sends the result down on every
contributing lane and frees the slot. A discarded slot is gone. A refused packet is kept and goes again unchanged, by the module's output or by the
relay's lane toward the refusing relay; a refused piece of a bulk chunk is formed anew from its chunk. Where it meets them it follows the model's
choices of log entry 47 (notes/assumptions). (13_flume_relay R590 R591 R592 R594 R597 R600, 11_fabric_routing R466) -/
def Obligations.RelaysCombineInTheirSlots : Prop :=
  ∀ (s : State) (l : Lane) (p : Packet),
    let d := descOf p
    let is := slotIs p.job d.group d.seq
    (relaying s = false → exec (.flumeUp l p) s = .next s) ∧
    (relaying s = true → crcBad p = true → ∃ u, exec (.flumeUp l p) s = .next u ∧ u.flume = s.flume ∧
      (tget u.fabric.ctrs (meshCtr (laneTile l) 4) {}).crcDrops = (tget s.fabric.ctrs (meshCtr (laneTile l) 4) {}).crcDrops + 1) ∧
    (relaying s = true → crcBad p = false →
      (s.flume.slots.find? is = none → slotRoom s ≤ s.flume.slots.length → linkUp s l = false → ∃ (u : State) (q : Packet),
        exec (.flumeUp l p) s = .next u ∧ u.flume = s.flume ∧ queueAt u (linkKey l) = queueAt s (linkKey l) ++ [q] ∧ q.opcode = 0x82 ∧
        q.dst = p.src ∧ q.payload = p.payload.take 32) ∧
      (s.flume.slots.find? is = none → s.flume.slots.length < slotRoom s → 1 < d.kidsAt (relayLevel s) → ∃ (u : State) (x : FSlot),
        exec (.flumeUp l p) s = .next u ∧ u.flume.slots = s.flume.slots ++ [x] ∧ is x = true ∧ x.contribs.length = 1 ∧
        (d.op ≠ 6 → x.nodes = packetNodes p.job d p) ∧ u = { s with flume.slots := u.flume.slots }) ∧
      (∀ x, s.flume.slots.find? is = some x → hasPart l p x.contribs = true → exec (.flumeUp l p) s = .next s) ∧
      (∀ (x : FSlot) (c : Contrib), s.flume.slots.find? is = some x → x.contribs = [c] → c.lane ≠ l → c.parts ≤ c.got.length →
        p.aux.toNat / 2 ^ 16 % 256 ≤ 1 → x.kids / 256 ^ (relayLevel s - 1) % 256 = 2 → x.top ≤ relayLevel s → d.op ≠ 6 →
        let y : FSlot := { x with contribs := [c, ⟨l, d.lowest, d.digest, d.mismatch, max 1 (p.aux.toNat / 2 ^ 16 % 256), [p.aux.toNat / 2 ^ 8 % 256]⟩]
                                  nodes := x.nodes ++ packetNodes p.job d p }
        let data := (slotResult y).flatMap fun v => leBytes (typeBytes y.type) v.toNat
        slotMismatch y.contribs = none32 → linkUp s c.lane = false → linkUp s l = false → ∃ (u : State) (q : Packet),
          exec (.flumeUp l p) s = .next u ∧ u.flume.slots.find? is = none ∧ queueAt u (linkKey l) = queueAt s (linkKey l) ++ [q] ∧
          q.opcode = 0x81 ∧ (q.payload.drop 32).take data.length = data ∧
          (queueAt u (linkKey c.lane)).length = (queueAt s (linkKey c.lane)).length + 1)) ∧
    (∀ (job : BitVec 16) (g q : Word), ∃ u, exec (.flumeSlotDiscard job g q) s = .next u ∧ u.flume.slots.find? (slotIs job g q) = none ∧
      (∀ x, slotIs job g q x = false → (x ∈ u.flume.slots ↔ x ∈ s.flume.slots)) ∧ u = { s with flume.slots := u.flume.slots }) ∧
    (∀ q, (refusable s).find? (answersTo p) = some q → exec (.busyRelay p) s = .next { s with flume.resend := s.flume.resend ++ [q] }) ∧
    ((refusable s).find? (answersTo p) = none →
      (s.flume.bulks.find? (fun b => b.group == d.group) = none → exec (.busyRelay p) s = .next s) ∧
      (∀ (b : Bulk) (c : BChunk), s.flume.bulks.find? (fun b => b.group == d.group) = some b →
        b.chunks.find? (fun c => c.chunk == d.seq.toNat && c.st == 1) = some c → ∃ (u : State) (q : Packet), exec (.busyRelay p) s = .next u ∧
          u = { s with flume.resend := s.flume.resend ++ [q] } ∧ q.opcode = 0x84 ∧ q.seq = p.seq ∧ q.plane = p.plane ∧ q.dst = p.src ∧
          q.addr = p.addr)) ∧
    (∀ (q : Packet) (rest : List Packet), s.flume.resend = q :: rest → isFA s = false →
      exec (.relayResend q.seq) s = .next { s with flume.resend := rest, out := s.out ++ [.packet q] }) ∧
    (∀ (q : Packet) (rest : List Packet), s.flume.resend = q :: rest → isFA s = true →
      let way := (List.range 144).find? fun l => isUpLane s l && partnerOf s l == q.dst && carries s l
      (way = none → exec (.relayResend q.seq) s = .next { s with flume.resend := rest }) ∧
      (∀ l, way = some l → replayRoom l ≤ (link s l).replay.length → ∃ u, exec (.relayResend q.seq) s = .next u ∧ u.flume.resend = rest ∧
        (queueAt u (linkKey l)).length = (queueAt s (linkKey l)).length + 1)) ∧
    (∀ q : Word, (∀ x ∈ s.flume.resend, x.seq ≠ q) → exec (.relayResend q) s = .next s)

/-- FLUME_DOWN and its timeout. A member takes the first FLUME_DOWN of an operation in flight as its result and discards the second; a packet whose CRC
fails is counted and dropped. With the fail flag it applies no result: ERR_COLL_MISMATCH is recorded, the operation is over and the job stops. A relay
below the top passes the packet on and frees its slot. An operation without a result after T_flume is ERR_FLUME_TIMEOUT and stops the job; one that
has its result changes nothing. Where it meets them it follows the model's choices of log entries 47, 48 (notes/assumptions). (13_flume_relay R588
R591 R593 R598 R599) -/
def Obligations.MembersTakeTheFirstResult : Prop :=
  ∀ (s : State) (l : Lane) (p : Packet), (crcBad p = true → ∃ u, exec (.flumeDown l p) s = .next u ∧ u.flume = s.flume ∧
      (tget u.fabric.ctrs (meshCtr (laneTile l) 4) {}).crcDrops = (tget s.fabric.ctrs (meshCtr (laneTile l) 4) {}).crcDrops + 1) ∧
    (crcBad p = false →
    let d := descOf p
    (∀ x : FOp, isFA s = false → s.flume.ops.find? (fun x => x.group == d.group && x.seq == d.seq) = some x →
      (p.job = s.job.tag → x.result = none → d.fail = false → (x.part = 0 ∨ s.flume.bulks.find? (fun b => b.group == d.group) = none) → ∃ u, exec (.flumeDown l p) s = .next u ∧
        u.flume.ops.find? (fun x => x.group == d.group && x.seq == d.seq) = some { x with result := some (packetValues d p) } ∧
        u.flume.ops.length = s.flume.ops.length ∧ u = { s with flume.ops := u.flume.ops } ∧ exec (.flumeDown l p) u = .next u) ∧
      (p.job = s.job.tag → x.result = none → d.fail = true → ∃ u, exec (.flumeDown l p) s = .next u ∧ Recorded s u errCollMismatch ∧
        u.flume.ops.find? (fun x => x.group == d.group && x.seq == d.seq) = none ∧ (inJob s = true → u.dev.st = .faulted) ∧ u.job = s.job) ∧
      ((p.job ≠ s.job.tag ∨ x.result ≠ none) → exec (.flumeDown l p) s = .next s)) ∧
    (isFA s = false → s.flume.ops.find? (fun x => x.group == d.group && x.seq == d.seq) = none → exec (.flumeDown l p) s = .next s) ∧
    (∀ x : FSlot, isFA s = true → s.flume.slots.find? (slotIs p.job d.group d.seq) = some x → x.job = p.job → x.group = d.group → x.seq = d.seq →
      ∃ u, exec (.flumeDown l p) s = .next u ∧ u.flume.slots.find? (slotIs p.job d.group d.seq) = none ∧ u.faults = s.faults) ∧
    (∀ (g q : Word) (x : FOp), s.flume.ops.find? (fun x => x.group == g && x.seq == q) = some x →
      (x.result = none → ∃ u, exec (.flumeTimeout g q) s = .next u ∧ Recorded s u errFlumeTimeout ∧ (inJob s = true → u.dev.st = .faulted)) ∧
      (x.result ≠ none → exec (.flumeTimeout g q) s = .next s)) ∧
    (∀ g q : Word, s.flume.ops.find? (fun x => x.group == g && x.seq == q) = none → (g ≠ 0 ∨ deviceRound s = false) →
      exec (.flumeTimeout g q) s = .next s))

/-- The chunks of a bulk reduction. A relay at work keeps the first child of a chunk until its other children come; with the last child the top of the
tree folds them in ascending group index and returns the result to every child. A later attempt leaves nothing of an earlier one in the buffers. A
member's piece joins its chunk, which has arrived when every piece is there; BULK_DONE completes it; a chunk that times out is missing. With the last
chunk the members compare the planes on which they missed one: with none the reduction is done, after attempt 3 it ends with ERR_REDUCE_FAILED, and
before that it goes on at the next attempt without those planes, or is left to the copy engines when no plane remains. A chunk that is not out changes
nothing. Discarded buffers are gone. Where it meets them it follows the model's choices of log entry 48 (notes/assumptions). (13_flume_relay R607 R609
R610 R611 R612 R614) -/
def Obligations.BulkChunksArriveOrGoAgain : Prop :=
  ∀ (s : State) (l : Lane) (p : Packet),
    let d := descOf p
    (relaying s = false → exec (.bulkUp l p) s = .next s) ∧
    (relaying s = true → crcBad p = false →
      (s.flume.chunks = [] → 1 < d.kidsAt (relayLevel s) → ∃ (u : State) (x : Chunk),
        exec (.bulkUp l p) s = .next u ∧ u.flume.chunks = [x] ∧ x.job = p.job ∧ x.group = d.group ∧ x.chunk = d.seq.toNat ∧
        x.offset = p.addr.toNat ∧ x.attempt = p.aux.toNat / 2 ^ 24 ∧ x.children = [(d.lowest, l.val, pieceWords d p)] ∧
        u = { s with flume.chunks := u.flume.chunks }) ∧
      (∀ (x : Chunk) (i k : Nat) (ws : List DWord), s.flume.chunks = [x] → chunkIs p.job d.group d.seq.toNat p.addr.toNat x = true →
        x.attempt = p.aux.toNat / 2 ^ 24 → x.children = [(i, k, ws)] → i < d.lowest → k ≠ l → d.kidsAt (relayLevel s) = 2 → d.top ≤ relayLevel s →
        d.mismatch = none32 → linkUp s l = false → linkUp s k = false →
        let data := (foldPiece d.op d.type [(i, k, ws), (d.lowest, l.val, pieceWords d p)]).flatMap fun v => leBytes (typeBytes d.type) v.toNat
        ∃ (u : State) (q : Packet), exec (.bulkUp l p) s = .next u ∧ u.flume.chunks = [] ∧
          queueAt u (linkKey l) = queueAt s (linkKey l) ++ [q] ∧ q.opcode = 0x85 ∧ q.addr = p.addr ∧ (q.payload.drop 32).take data.length = data ∧
          (queueAt u (linkKey k)).length = (queueAt s (linkKey k)).length + 1) ∧
      (∃ u, exec (.bulkUp l p) s = .next u ∧ ∀ y ∈ u.flume.chunks, y.job = p.job → y.group = d.group → y.chunk = d.seq.toNat →
        p.aux.toNat / 2 ^ 24 ≤ y.attempt)) ∧
    (∀ (job : BitVec 16) (g : Word) (c : Nat), ∃ u, exec (.bulkBufferDiscard job g c) s = .next u ∧
      (∀ x, x ∈ u.flume.chunks ↔ x ∈ s.flume.chunks ∧ ¬ (x.job = job ∧ x.group = g ∧ x.chunk = c)) ∧
      u = { s with flume.chunks := u.flume.chunks }) ∧
    (∀ (b : Bulk) (c w : BChunk), s.flume.bulks.find? (fun b => b.group == d.group) = some b → b.stage = 2 → b.chunks = [c, w] → c.st = 1 →
      w.st = 1 → c.chunk = d.seq.toNat → w.chunk ≠ c.chunk → isFA s = false → crcBad p = false → p.job = s.job.tag →
      let c1 : BChunk := { c with pieces := tput c.pieces (p.addr.toNat / 224) (p.payload.drop 32) }
      let others := s.flume.bulks.filter fun x => x.group != b.group
      (chunkWhole b.type c1 = true →
        exec (.bulkDown p) s = .next { s with flume.bulks := others ++ [{ b with chunks := [{ c1 with st := 2 }, w] }] }) ∧
      (chunkWhole b.type c1 = false → exec (.bulkDown p) s = .next { s with flume.bulks := others ++ [{ b with chunks := [c1, w] }] }) ∧
      (∀ q : Packet, crcBad q = false → q.job = s.job.tag → doneGroup q = d.group → doneChunk q = c.chunk →
        exec (.bulkDone q) s = .next { s with flume.bulks := others ++ [{ b with chunks := [{ c with st := 2 }, w] }] }) ∧
      exec (.chunkTimeout d.group c.chunk) s = .next { s with flume.bulks := others ++ [{ b with chunks := [{ c with st := 3 }, w] }] }) ∧
    (∀ (g : Word) (b : Bulk) (c : BChunk), s.flume.bulks.find? (fun b => b.group == g) = some b → b.stage = 2 → b.chunks = [c] → c.st = 1 →
      ∃ u, exec (.chunkTimeout g c.chunk) s = .next u ∧
        u.flume.bulks = (s.flume.bulks.filter fun x => x.group != b.group) ++ [{ b with stage := 3, chunks := [{ c with st := 3 }] }]) ∧
    (∀ (g : Word) (n : Nat), (∀ b ∈ s.flume.bulks, ∀ c ∈ b.chunks, c.st ≠ 1) → exec (.chunkTimeout g n) s = .next s) ∧
    (∀ (b : Bulk) (x : FOp), s.flume.bulks.find? (fun b => b.group == d.group) = some b → b.stage = 3 → s.flume.ops = [x] → x.group = d.group →
      x.seq = d.seq → x.op = b.op → x.part = 3 → x.result = none → p.job = s.job.tag → d.fail = false → isFA s = false → crcBad p = false →
      let gone := wordPlanes (packetValues d p)
      let others := s.flume.bulks.filter fun y => y.group != b.group
      let left := b.planes.filter fun y => !gone.contains y
      (gone = [] → exec (.flumeDown l p) s = .next { s with flume.ops := [], flume.bulks := others ++ [{ b with stage := 5 }] }) ∧
      (gone ≠ [] → 3 ≤ b.attempt → ∃ u, exec (.flumeDown l p) s = .next u ∧ u.flume.bulks = others ∧ Recorded s u errReduceFailed ∧
        u.dev.st = s.dev.st) ∧
      (gone ≠ [] → b.attempt < 3 → ∃ (u : State) (b' : Bulk), exec (.flumeDown l p) s = .next u ∧ u.flume.bulks = others ++ [b'] ∧
        b'.attempt = b.attempt + 1 ∧ b'.planes = left ∧ (left = [] → b'.stage = 4)))

/-- Recovery notices and the end of the collection window. A notice of another job, of an earlier attempt or seen before, and one outside a recovering
state change nothing, but that a module in FAULTED that is named as silently corrupt is quarantined. Any other halts every slot and every copy of the
job and opens the window; a module in its update phase answers step restart with rollback; the subject of a substitution stops in FAULTED, or with the
quarantine flag in RUNNING in QUARANTINED. A notice goes out again until it was sent three times. The window's end takes the highest action: the job's
end, ERR_NO_ROLLBACK with a carried tensor, ERR_RECOVERY_REPEAT for a repeated notice; then the members compare their recovery digests, and with no
slot to fill they take a step restart with the step's work dropped and its first phase's transfers begun again, or a rollback to the snapshot in
force, which ends the job when the keeper does not hold it or its record fails its tests; digests that disagree end the job. Where it meets them it
follows the model's choices of log entries 49, 50 (notes/assumptions). (14_recovery R645 R646 R647 R648 R649 R650 R652 R653 R654 R655 R656,
12_remote_memory R578) -/
def Obligations.RecoveryNoticesAndTheWindow : Prop :=
  ∀ s : State,
    (∀ n : Notice, (n.job ≠ s.job.tag ∨ n.attempt < s.recov.attempt ∨ n ∈ s.recov.notices) → exec (.recoveryNotice n) s = .next s) ∧
    (∀ n : Notice, n.job = s.job.tag → s.recov.attempt ≤ n.attempt → n ∉ s.recov.notices → recovers s = false →
      let named := n.action = 3 ∧ n.subject = ownSlot s ∧ n.flags.getLsbD 0 = true
      (s.dev.st = .faulted → named → ∃ u, exec (.recoveryNotice n) s = .next u ∧ u.dev.st = .quarantined ∧ u.recov.window = s.recov.window) ∧
      ((s.dev.st ≠ .faulted ∨ ¬ named) → exec (.recoveryNotice n) s = .next s)) ∧
    (∀ n : Notice, n.job = s.job.tag → recovers s = true → s.recov.attempt ≤ n.attempt → n ∉ s.recov.notices →
      ∃ u, exec (.recoveryNotice n) s = .next u ∧ u.recov.window = true ∧ u.recov.attempt = n.attempt ∧ n ∈ u.recov.notices ∧
        (∀ j ∈ u.remote.copies, j ∈ s.remote.copies ∧ j.req.keeper = true) ∧
        (∀ t k, (slot (tile u t) k).st ≠ .running ∧ (slot (tile u t) k).st ≠ .waiting) ∧
        (n.action = 3 → n.subject = ownSlot s → u.dev.st = (if n.flags.getLsbD 0 = true ∧ s.dev.st = .running then .quarantined else .faulted)) ∧
        ((n.action ≠ 3 ∨ n.subject ≠ ownSlot s) → u.dev.st = s.dev.st) ∧
        (n.action = 1 → s.job.updateBegun = true → n.step = s.job.step → ∃ m : Notice, u.out = s.out ++ [.notice m (noticePeers s)] ∧ m.action = 2 ∧
          m.attempt = n.attempt ∧ u.recov.notices = s.recov.notices ++ [n, m])) ∧
    (∀ (n : Notice) (k : Nat), s.recov.toSend = some (n, k) → ∃ u, exec .recoveryNoticeResend s = .next u ∧
      u.out = s.out ++ [.notice n (noticePeers s)] ∧ u.recov.toSend = (if 1 < k then some (n, k - 1) else none) ∧
      u = { s with out := u.out, recov.toSend := u.recov.toSend }) ∧
    (s.recov.toSend = none → exec .recoveryNoticeResend s = .next s) ∧
    (s.recov.window = false → ∀ agree spares x, exec (.collectionWindowEnd agree spares x) s = .next s) ∧
    (s.recov.window = true → recovers s = false → ∀ agree spares x,
      exec (.collectionWindowEnd agree spares x) s = .next { s with recov.window := false }) ∧
    (s.recov.window = true → recovers s = true → ∀ (agree : Bool) (spares : List (Nat × Nat)) (x : PlanIn) (im : Image), s.job.image = some im →
      let act := highestAction s.recov.notices
      ((act = 4 ∨ s.dev.st = .planning) → ∃ u, exec (.collectionWindowEnd agree spares x) s = .next u ∧ u.dev.st = .faulted ∧
        u.recov.window = false) ∧
      (act ≠ 4 → s.dev.st ≠ .planning → carried im ≠ none → ∃ u, exec (.collectionWindowEnd agree spares x) s = .next u ∧
        u.dev.st = .faulted ∧ Recorded s u errNoRollback) ∧
      (act ≠ 4 → s.dev.st ≠ .planning → carried im = none → repeatedNotice s ≠ none → ∃ u, exec (.collectionWindowEnd agree spares x) s = .next u ∧
        u.dev.st = .faulted ∧ Recorded s u errRecoveryRepeat) ∧
      (act ≠ 4 → s.dev.st ≠ .planning → carried im = none → repeatedNotice s = none → subjectsOf s.recov.notices = [] → s.recov.unfilled = [] →
        (∀ p, s.job.plan = some p → p.tiles = boundTiles s ∧ ∀ e ∈ x.counts, tget p.counts e.1 e.2 = e.2) →
        let dest := if act = 1 then s.job.step.toNat else s.recov.snapshot.getD (2 ^ 64 - 1)
        let d := recoveryDigest act s.recov.attempt dest []
        let v := deviceFlume 1 3 [d, ~~~ d] { s with recov.window := false, recov.held := false }
        let back := act ≠ 1 ∨ s.recov.rollbackTo ≠ none
        let still := ∀ p m, s.job.plan = some p → ownPlan s = some m → freshList im p m none (firstPhase s.job.inInit im) = []
        (recovers v = false → exec (.collectionWindowEnd agree [] x) s = .next v) ∧
        (recovers v = true → agree = false → ∃ u, exec (.collectionWindowEnd agree [] x) s = .next u ∧ u.dev.st = .faulted ∧
          Recorded s u errRecoveryDisagree) ∧
        (recovers v = true → agree = true → ¬ back → (s.recov.saving = none ∨ keeperNow s = 0xFFFF) → ∃ u,
          exec (.collectionWindowEnd agree [] x) s = .next u ∧
          (still → u.dev.st = s.dev.st ∧ u.remote.pend = [] ∧ u.recov.notices = [] ∧ u.recov.window = false) ∧ u.job.step = s.job.step ∧ u.job.item = 0 ∧ u.job.phase = none ∧ u.job.tallies = [] ∧ u.job.stepOpen = false ∧ u.job.updateBegun = false ∧
          u.job.iters = s.job.iters - s.job.loopIter ∧ u.remote.wins = [] ∧ (∀ k, (ctr u k).value = 0) ∧
          u.job.pairIndex = s.job.pairIndex + 1 ∧ u.recov.attempt = s.recov.attempt + 1 ∧ u.recov.replays = s.recov.replays + 1 ∧
          u.recov.held = false ∧ u.mem = s.mem) ∧
        (∀ n : Nat, recovers v = true → agree = true → back → s.recov.snapshot = some n → s.recov.keeperOk = true → slotHolding s n ≠ none →
          (heldSkew n s = none → ∃ u, exec (.collectionWindowEnd agree [] x) s = .next u ∧ u.recov.rollbackTo = some n ∧ u.recov.restored = [] ∧
            u.job.replayTo = some (max s.job.step.toNat (s.job.replayTo.getD 0)) ∧
            (u.recov.notices = [] → u.dev.st = s.dev.st ∧ u.recov.window = false)) ∧
          (heldSkew n s ≠ none → ∃ u, exec (.collectionWindowEnd agree [] x) s = .next u ∧ u.recov.rollbackTo = none ∧ u.dev.st = .faulted ∧
            ∃ f rest, u.faults = f :: rest ∧ f.code.toNat = errJournalSkew)) ∧
        (recovers v = true → agree = true → back → (s.recov.keeperOk = false ∨ ∀ n, s.recov.snapshot = some n → slotHolding s n = none) → ∃ u,
          exec (.collectionWindowEnd agree [] x) s = .next u ∧ u.dev.st = .faulted ∧ Recorded s u errHeartwoodLost)))

/-- Chunks of a restore, a spare's fill and repair. A chunk of the snapshot that matches its digest is kept until the restore is whole; one that does not
match goes back to the previous snapshot held, or ends the job with ERR_HEARTWOOD_LOST when there is none. A spare in RELAYING with no quadrant lost
takes a module slot: FILLING, its image and the replay's end in place, its plans computed and compared; then it takes part in the recovery digest, and
the restore of the slot's snapshot begins, unless the digests disagree, no snapshot is there or the snapshot's record fails its tests; a shape that
cannot be planned ends it in FAULTED. In another state, or with a quadrant lost, the assignment is rejected. A repair puts the endpoint of the tray's
spare in the rank map and the device set, and in the keeper's place where the lost module was the keeper; at the limit the job ends with
ERR_REPAIR_TIMEOUT. Where it meets them it follows the model's choices of log entries 41, 51 (notes/assumptions). (14_recovery R634 R656 R657 R658
R663 R664 R667 R668, 12_remote_memory R519 R559, 09_stack_links R410) -/
def Obligations.RestoresFillsAndRepairs : Prop :=
  ∀ s : State,
    (∀ (c : Nat) (data : List Byte), s.recov.rollbackTo = none → exec (.snapshotChunkLand c data) s = .next s) ∧
    (∀ (c n b : Nat) (data : List Byte) (k : KeepSlot) (g : List Byte), s.recov.rollbackTo = some n → slotHolding s n = some (b, k) →
      k.digests[c]? = some g →
      (sha256 data = g → s.recov.restored = [] → 2 ≤ k.digests.length → ∃ u, exec (.snapshotChunkLand c data) s = .next u ∧
        u.recov.restored = [(c, data)] ∧ u.recov.rollbackTo = some n ∧ (s.recov.toPull = [] → u = { s with recov.restored := u.recov.restored })) ∧
      (sha256 data ≠ g → s.recov.previous = none → ∃ u, exec (.snapshotChunkLand c data) s = .next u ∧
        (∃ a b : FaultRec, u.faults = (b :: a :: s.faults).take 256 ∧ a.code.toNat = errDigestMismatch ∧ b.code.toNat = errHeartwoodLost) ∧
        (inJob s = true → u.dev.st = .faulted)) ∧
      (∀ m, sha256 data ≠ g → s.recov.previous = some m → m ≠ n → slotHolding s m ≠ none → ∃ u v : State,
        exec (.snapshotChunkLand c data) s = .next u ∧ OnlyRecorded s v errDigestMismatch ∧
        u = beginRestore m { v with recov.snapshot := some m, recov.previous := none, recov.replays := 1 } ∧ u.recov.snapshot = some m ∧
        (heldSkew m s = none → u.recov.rollbackTo = some m ∧ u.recov.restored = []) ∧
        (heldSkew m s ≠ none → u.recov.rollbackTo = none ∧ (inJob s = true → u.dev.st = .faulted)))) ∧
    (∀ f : FillIn,
      let s1 := endExerciser s
      let t := enter .filling (fillJob f s1)
      let im := parseImage f.image
      (s.dev.qLost ≠ 0 → ∃ u, exec (.fillAssign f) s = .next u ∧ OnlyRecorded s1 u errQuadrantLost) ∧
      (s.dev.qLost = 0 → (s.dev.st ≠ .relaying ∨ s.dev.role ≠ some .spare) → ∃ u, exec (.fillAssign f) s = .next u ∧
        OnlyRecorded s1 u errStateConflict) ∧
      (s.dev.st = .relaying → s.dev.role = some .spare → s.dev.qLost = 0 →
        (∀ u y, planRounds f.plan { t with job.planFrom := t.time } = (some u, y) → exec (.fillAssign f) s = .next u) ∧
        (∀ t1, planRounds f.plan { t with job.planFrom := t.time } = (none, t1) →
          (∀ e, shapePlan t1 im = .error e → ∃ u, exec (.fillAssign f) s = .next u ∧ u.dev.st = .faulted ∧ Recorded t1 u errPlanShape) ∧
          (∀ t2, planNow f.plan im (firstPhase false im) t1 = (none, t2) →
            let d := recoveryDigest 3 f.attempt f.snapshot f.slots
            let t3 := deviceFlume 1 3 [d, ~~~ d] t2
            (f.digests = [] → ∃ u, exec (.fillAssign f) s = .next u ∧ Recorded t2 u errHeartwoodLost) ∧
            (f.digests ≠ [] → t3.dev.st = .faulted → exec (.fillAssign f) s = .next t3) ∧
            (f.digests ≠ [] → t3.dev.st ≠ .faulted → f.agree = false → ∃ u, exec (.fillAssign f) s = .next u ∧ Recorded t3 u errRecoveryDisagree) ∧
            (f.digests ≠ [] → t3.dev.st ≠ .faulted → f.agree = true → heldSkew f.snapshot t3 ≠ none → ∃ u, exec (.fillAssign f) s = .next u ∧ Recorded t3 u errJournalSkew) ∧
            (f.digests ≠ [] → t3.dev.st ≠ .faulted → f.agree = true → heldSkew f.snapshot t3 = none → ∃ u, exec (.fillAssign f) s = .next u ∧
              u.job.image = some im ∧ u.job.replayTo = some f.replayTo ∧ u.job.rankMap = lset f.rankMap f.slot (ownEndpoint s) ∧
              u.remote.deviceSet = lset f.rankMap f.slot (ownEndpoint s) ∧ u.recov.rollbackTo = some f.snapshot ∧
              u.recov.snapshot = some f.snapshot ∧ u.recov.restored = [] ∧ u.recov.keeper = some f.keeper ∧ u.recov.kept = some f.kept ∧
              (u.recov.notices = s.recov.notices → u.dev.st = .filling)))))) ∧
    (∀ (m : Nat) (e : BitVec 16) (n : Nat) (x : PlanIn), s.recov.held = true → m ∈ s.recov.unfilled → spareFor s m = some e →
      m < s.job.rankMap.length → ∃ u, exec (.spareAvailable m e n x) s = .next u ∧ u.recov.unfilled = s.recov.unfilled.filter (· != m) ∧
        nth u.job.rankMap m 0xFFFF = e ∧ e ∈ u.remote.deviceSet ∧ (keeperNow s = nth s.job.rankMap m 0xFFFF → keeperNow u = e) ∧
        (u.recov.notices = s.recov.notices → recovers s = true → s.recov.rollbackTo = none → (u.recov.held = true ↔ u.recov.unfilled ≠ []))) ∧
    (∀ (m : Nat) (e : BitVec 16) (n : Nat) (x : PlanIn), (s.recov.held = false ∨ m ∉ s.recov.unfilled ∨ spareFor s m ≠ some e) →
      exec (.spareAvailable m e n x) s = .next s) ∧
    (s.recov.held = true → ∃ u, exec .repairTimeout s = .next u ∧ u.recov.held = false ∧ Recorded s u errRepairTimeout ∧
      (inJob s = true → u.dev.st = .faulted)) ∧
    (s.recov.held = false → exec .repairTimeout s = .next s)

/-- Who may command: states of the Hauler requests, peers of the Warden protocol, and the test access port. A Hauler request on no open connection, or
while a whole request of a lower message ID waits on it, changes nothing. In a state that Table 17-6a does not accept it is refused with
ERR_STATE_CONFLICT: one record, the reply, no other change (a LOAD_PROGRAM has ended the exerciser), and the request is not performed again; of a
request on a tensor whose role does not allow it the refusal is ERR_HAULER_INVALID instead, in any state. A Warden-protocol request without its
session, or from a peer that the ring does not list, changes nothing; before a ring is verified the operations that need one are refused with
ERR_STATE_CONFLICT. The test access port answers while the lookout domain runs; SAMPLE and EXTEST capture the lands, and under EXTEST the boundary
register drives the outputs, which HIGHZ releases; an instruction that would disturb the module is BYPASS outside LOOKOUT with HOLD_N low. Where it
meets them it follows the model's choices of log entries 13, 55, 58, 63 (notes/assumptions). (17_host_port R789 R790 R791 R796 R807, 15_start_rings
R700, 18_module R838 R839, 01_overview R34) -/
def Obligations.HostAndManagementGates : Prop :=
  ∀ s : State,
    (∀ (r : Req) (t : Target) (bytes body : List Byte) (h n : Nat) (tag : BitVec 16) (nonce : BitVec 256) (addr : Word) (values : List Word),
      let awake : List DevState := [.ready, .loading, .planning, .running, .draining, .filling, .relaying, .faulted, .quarantined]
      let input : List DevState := [.loading, .planning, .running, .filling]
      let signal : List DevState := [.planning, .running, .filling]
      let job : List DevState := [.loading, .planning, .running, .draining] ++ if isFA s then [] else [.faulted]
      ∀ e ∈ ([(.writeTensor r t bytes, [.loading]), (.writeInput r t bytes, input), (.writeMarkWritten r t bytes, input),
          (.writeRelease r t, awake), (.writeSnapshotSlot r t bytes, awake), (.writeJournalRing r t bytes, awake),
          (.writeFaultDump r t bytes, awake),
          (.readTensor r t, [.loading, .planning, .running, .faulted] ++ if s.job.drainHold then [.draining] else []),
          (.readSnapshotSlot r t, awake), (.readJournalRing r t, awake), (.readFaultDump r t, awake), (.haulerSignal r h n, signal),
          (.setWatch r h n, signal), (.clearWatch r h, signal),
          (.loadProgram r body, if s.dev.qLost ≠ 0 then awake else if s.job.arriving = some r.conn then [.ready, .loading] else [.ready]),
          (.startJob r body, if s.job.image.isSome then [.loading] else []), (.stopJob r tag, job), (.queryStatus r, .starting :: awake),
          (.queryPlanReport r, .starting :: awake), (.queryFaultRecords r n, .starting :: awake), (.queryQuote r nonce, .starting :: awake),
          (.queryReducedTally r n, .starting :: awake), (.readReg r addr n, awake), (.writeReg r addr values, awake)] :
            List (Instr × List DevState)),
        (inTurn r s = false → exec e.1 s = .next s) ∧
        (inTurn r s = true → s.dev.st ∉ e.2 → roleRefuses true t s = false → roleRefuses false t s = false → ∃ u, exec e.1 s = .next u ∧
          OnlyRecorded (if e.1 = .loadProgram r body then endExerciser s else s) u errStateConflict ∧
          Replied s u r errStateConflict [] ∧ ∀ d ∈ (tget u.hauler.conns r.conn {}).done, d.1 ≠ r.msg.toNat)) ∧
    (∀ (r : WReq) (n m : Nat) (k : Stack) (ring : Ring) (f : FloorRec) (keys : List OwnerKey) (a b : Bool) (nonce : BitVec 256) (i : Fin 64)
        (w : WinEntry) (addr : Word) (values : List Word),
      let late : List Instr := [.telemetrySubscribe r n, .telemetryBufferRead r n m, .stageRing r ring, .writeFloorRecord r f,
        .runtimePowerLimit r n, .ieee1500Read r k, .memoryBist r k, .softPpr r k n, .hardPpr r k n, .listPageRetirement r k n,
        .idleTimeExerciser r, .releaseQuarantined r, .windowEntries r i w, .wardenRegAccess r a addr n values]
      let early : List Instr := [.wardenStatus r false, .wardenLedgerRead r n m, .enrolOwnerKeys r keys, .updateOwnerKeys r keys n a b,
        .wardenQuote r nonce]
      (∀ c ∈ late ++ early, (lookoutUp s = false ∨ s.dev.startStep < 2 ∨ r.session ∉ s.hauler.sessions ∨
        (∃ g, s.dev.ring = some g ∧ r.peer ∉ g.peers)) → exec c s = .next s) ∧
      (∀ c ∈ late, lookoutUp s = true → 2 ≤ s.dev.startStep → r.session ∈ s.hauler.sessions → s.dev.ring = none →
        WardenRefused c s r errStateConflict)) ∧
    (∀ (lines : BitVec 19) (cells : BitVec 25) (dr : BitVec 81) (n : Nat),
      let lands := boundaryCells s lines
      (lookoutUp s = false → ∀ c ∈ ([.bypass, .idcode, .samplePreload lines cells, .extest lines cells, .clamp, .highz, .ctrlAccess dr, .ledgerRead n,
        .jtagTestLogicReset] : List Instr), exec c s = .next s) ∧
      (lands.getLsbD 24 = readyLand s ∧ lands.getLsbD 23 = s.pins.thermTripN ∧ lands.getLsbD 22 = faultNLand s ∧ lands.getLsbD 21 = s.pins.holdN ∧
        lands.getLsbD 20 = s.pins.modRstN ∧ lands.getLsbD 19 = s.pins.auxRstN ∧ lands.setWidth 19 = lines) ∧
      (lookoutUp s = true →
        exec .bypass s = .next { s with jtag.ir := .bypass } ∧
        exec .idcode s = .next { s with jtag.ir := .idcode, jtag.capture := 0x196405C3 } ∧
        exec (.samplePreload lines cells) s = .next { s with jtag.ir := .sample, jtag.sampled := lands, jtag.boundary := cells } ∧
        exec (.ledgerRead n) s = .next { s with jtag.ir := .ledger, jtag.ledger := ledgerBytes s n 4 } ∧
        (∃ u, exec .jtagTestLogicReset s = .next u ∧ u = { s with jtag.ir := .idcode, regs.views := u.regs.views } ∧
          ViewSet s u .jtag { faultRec := s.faults.head? }) ∧
        ((s.dev.st ≠ .lookout ∨ s.pins.holdN = true) → ∀ c ∈ ([.extest lines cells, .clamp, .highz] : List Instr),
          exec c s = .next { s with jtag.ir := .bypass }) ∧
        (s.dev.st = .lookout → s.pins.holdN = false →
          (∃ u, exec (.extest lines cells) s = .next u ∧ u = { s with jtag.ir := .extest, jtag.sampled := lands, jtag.boundary := cells } ∧
            statusLands u = [some (cells.getLsbD 22), some (cells.getLsbD 23), some (cells.getLsbD 24)]) ∧
          exec .clamp s = .next { s with jtag.ir := .clamp } ∧
          (∃ u, exec .highz s = .next u ∧ u = { s with jtag.ir := .highz } ∧ statusLands u = [none, none, none]))))

/-- Opening and ending connections, DATA, acknowledgement and retransmission. OPEN reaches the module at an address of its host port on UDP port 47600, or
of a management port on 47601; any other changes nothing. It takes a free ID for a connection while the host port is up and fewer than 64 are open, or
for a session while fewer than 8 are, else it is answered with RESET. CLOSE, RESET and a timeout remove the connection, its watches and its register
copies; a LOAD_PROGRAM still arriving on it goes back to READY. A DATA packet seen before delivers nothing; the next one in order moves the expected
number on and a whole message becomes a request, but for one that has no form of Table 17-3, which is answered with ERR_HAULER_INVALID at once and
takes a module that it had brought to LOADING back to READY; the first segment of a LOAD_PROGRAM takes READY to LOADING. Fewer than 16 packets stay
unacknowledged. An acknowledgement frees what it covers and widens the window by one a round trip, up to 4,096. A retransmission doubles that packet's
timeout up to 100 ms and halves the window, to 8 at the least. Where it meets them it follows the model's choices of log entry 57 (notes/assumptions).
(17_host_port R782 R784 R785 R786 R787 R788 R789 R790 R791 R793 R807 R808) -/
def Obligations.ConnectionsAndTheirTransport : Prop :=
  ∀ s : State,
    (∀ (x : Udp) (w : Bool),
      (listens s x = false → exec (.hauOpen x w) s = .next s) ∧
      (∀ g, s.dev.ring = some g → (listens s x = true ↔
        (x.port = .host ∧ x.udpPort = 47600 ∧ (x.dst = .v6 g.hostV6 ∨ ∃ a, g.hostV4 = some a ∧ x.dst = .v4 a)) ∨
        (x.port = .mgmtA ∧ x.udpPort = 47601 ∧ (x.dst = linkLocal s.bark.made.macA ∨ x.dst ∈ g.mgmtA)) ∨
        (x.port = .mgmtB ∧ x.udpPort = 47601 ∧ (x.dst = linkLocal s.bark.made.macB ∨ x.dst ∈ g.mgmtB)))) ∧
      (s.dev.ring = none → (listens s x = true ↔ x.udpPort = 47601 ∧
        ((x.port = .mgmtA ∧ x.dst = linkLocal s.bark.made.macA) ∨ (x.port = .mgmtB ∧ x.dst = linkLocal s.bark.made.macB)))) ∧
      (listens s x = true → x.port = .host →
        (s.optics.hostUp = false → exec (.hauOpen x w) s = .next s) ∧
        (s.optics.hostUp = true → 64 ≤ s.hauler.conns.length →
          exec (.hauOpen x w) s = .next { s with out := s.out ++ [.hauler 5 0 0 0 0] }) ∧
        (s.optics.hostUp = true → s.hauler.conns.length < 64 → s.hauler.sessions.length ≤ 8 → ∃ u k, exec (.hauOpen x w) s = .next u ∧
          0 < k ∧ thas s.hauler.conns k = false ∧ k ∉ s.hauler.sessions ∧ u.hauler.conns = tput s.hauler.conns k { notices := w } ∧
          ViewSet s u (.hauler k) { faultRec := s.faults.head? } ∧
          u = { s with hauler.conns := u.hauler.conns, hauler.nextConn := u.hauler.nextConn, regs.views := u.regs.views,
                       out := s.out ++ [.openOk k 8192 w] })) ∧
      (listens s x = true → x.port ≠ .host →
        ((lookoutUp s = false ∨ s.dev.startStep < 2) → exec (.hauOpen x w) s = .next s) ∧
        (lookoutUp s = true → 2 ≤ s.dev.startStep → 8 ≤ s.hauler.sessions.length →
          exec (.hauOpen x w) s = .next { s with out := s.out ++ [.hauler 5 0 0 0 0] }) ∧
        (lookoutUp s = true → 2 ≤ s.dev.startStep → s.hauler.sessions.length < 8 → s.hauler.conns.length ≤ 64 →
          ∃ u k, exec (.hauOpen x w) s = .next u ∧ 0 < k ∧ thas s.hauler.conns k = false ∧ k ∉ s.hauler.sessions ∧
          u = { s with hauler.sessions := s.hauler.sessions ++ [k], hauler.nextConn := u.hauler.nextConn, regs.views := u.regs.views,
                       out := s.out ++ [.openOk k 8192 false] }))) ∧
    (∀ k : Nat, ∀ e ∈ ([(.close k, []), (.haulerReset k, []), (.connectionTimeout k, [.hauler 5 k 0 0 0])] : List (Instr × List Out)),
      (thas s.hauler.conns k = true → (s.job.arriving ≠ some k ∨ s.dev.st ≠ .loading) →
        exec e.1 s = .next { s with out := s.out ++ e.2, hauler.conns := tdel s.hauler.conns k,
                                    remote.watches := s.remote.watches.filter (fun w => w.2.1 != k),
                                    regs.views := s.regs.views.filter (fun v => v.1 != .hauler k) }) ∧
      (thas s.hauler.conns k = true → s.job.arriving = some k → s.dev.st = .loading → ∃ u, exec e.1 s = .next u ∧ u.dev.st = .ready ∧
        u.job = {} ∧ thas u.hauler.conns k = false) ∧
      (thas s.hauler.conns k = false → k ∈ s.hauler.sessions →
        exec e.1 s = .next { s with out := s.out ++ e.2, hauler.sessions := s.hauler.sessions.filter (· != k) }) ∧
      (thas s.hauler.conns k = false → k ∉ s.hauler.sessions → exec e.1 s = .next s)) ∧
    (∀ g : HSeg, let c := tget s.hauler.conns g.conn {}
      (thas s.hauler.conns g.conn = false → exec (.data g) s = .next s ∧ exec (.haulerAck g) s = .next s) ∧
      (thas s.hauler.conns g.conn = true → ∃ u, exec (.data g) s = .next u ∧
        (let d := tget u.hauler.conns g.conn {}
         let old := seqBefore g.seq c.rxNext = true ∨ g.seq.toNat ∈ c.rxSeen
         let loads := ¬ old ∧ g.flags.getLsbD 0 = true ∧ field g.payload 0 1 = 4 ∧ s.dev.st = .ready ∧ s.dev.qLost = 0
         d.unackedRx < 16 ∧
         (old → d.rxNext = c.rxNext ∧ d.rxSeen = c.rxSeen ∧ d.parts = c.parts ∧ d.done = c.done) ∧
         (g.seq = c.rxNext → c.rxSeen = [] → g.offset = 0 → (∀ p ∈ c.parts, p.1 ≠ g.msg.toNat) → d.rxNext = c.rxNext + 1 ∧ d.rxSeen = [] ∧
           (g.flags.getLsbD 1 = true → requestFault g.payload = none → d.parts = c.parts ∧ d.done = insertDone g.msg.toNat g.payload c.done) ∧
           (∀ off, g.flags.getLsbD 1 = true → requestFault g.payload = some off → (∀ e ∈ c.done, e.1 ≠ g.msg.toNat) → d.parts = c.parts ∧
             d.done = c.done ∧ Recorded s u errHaulerInvalid) ∧
           (g.flags.getLsbD 1 = false → d.parts = c.parts ++ [(g.msg.toNat, [(0, g.payload)], none)] ∧ d.done = c.done)) ∧
         (loads → badWhole g c = none → u.dev.st = .loading ∧ u.job.arriving = some g.conn) ∧
         (loads → badWhole g c ≠ none → u.dev.st = .ready ∧ u.job = {} ∧ Recorded s u errHaulerInvalid) ∧
         (¬ loads → old ∨ badWhole g c = none → OnlySent s u))) ∧
      (thas s.hauler.conns g.conn = true → g.sack = 0 → c.queue = [] → ∃ u, exec (.haulerAck g) s = .next u ∧ u.out = s.out ∧
        u = { s with hauler.conns := u.hauler.conns } ∧ (∀ j, j ≠ g.conn → tget u.hauler.conns j {} = tget s.hauler.conns j {}) ∧
        (tget u.hauler.conns g.conn {}).unacked = c.unacked.filter (fun e => !seqBefore (BitVec.ofNat 32 e.1) g.ack) ∧
        (tget u.hauler.conns g.conn {}).window =
          (if c.unacked ≠ [] ∧ seqBefore g.ack c.roundEnd = false then min 4096 (c.window + 1) else c.window))) ∧
    (∀ k : Nat, let c := tget s.hauler.conns k {}
      (thas s.hauler.conns k = true → c.unackedRx ≠ 0 → ∃ u, exec (.haulerAckTimer k) s = .next u ∧
        u = { s with hauler.conns := u.hauler.conns, out := s.out ++ [.hauler 3 k c.rxNext (sackOf c) 0] } ∧
        tget u.hauler.conns k {} = { c with unackedRx := 0 } ∧ ∀ j, j ≠ k → tget u.hauler.conns j {} = tget s.hauler.conns j {}) ∧
      ((thas s.hauler.conns k = false ∨ c.unackedRx = 0) → exec (.haulerAckTimer k) s = .next s) ∧
      (∀ q : Word, (∀ e ∈ c.unacked, e.1 ≠ q.toNat) → exec (.haulerRetransmitTimeout k q) s = .next s) ∧
      (∀ (q : Word) (e : Nat × Nat × Bool), thas s.hauler.conns k = true → e ∈ c.unacked → e.1 = q.toNat →
        ∃ u, exec (.haulerRetransmitTimeout k q) s = .next u ∧
          u = { s with hauler.conns := u.hauler.conns, out := s.out ++ [.hauler 2 k c.rxNext (sackOf c) q] } ∧
          (tget u.hauler.conns k {}).window = max 8 (c.window / 2) ∧
          (e.1, min 100000 (2 * e.2.1), e.2.2) ∈ (tget u.hauler.conns k {}).unacked ∧
          (∀ x ∈ c.unacked, x.1 ≠ q.toNat → x ∈ (tget u.hauler.conns k {}).unacked) ∧
          ∀ j, j ≠ k → tget u.hauler.conns j {} = tget s.hauler.conns j {}))

/-- WRITE and READ of tensors, snapshot slots, the journal ring and the fault dumps. A WRITE of a parameter or optimizer-state tensor puts its bytes into
the copies that they reach and into no other; a bad target is refused with ERR_HAULER_INVALID, and so is, in every state, a WRITE of a tensor that
only ops write or a READ of an input or scratch tensor. A WRITE of an input instance is accepted for the iteration that it expects and not yet marked,
and WRITE_MARK_WRITTEN marks it; any other is refused with ERR_INSTANCE_BUSY. A READ of an input or scratch tensor is refused; that of another answers
its generation, whether it is ready and, when it is, its bytes, and changes nothing. WRITE_RELEASE turns a host-held slot into an ordinary committed
one; a write of a slot changes its own bytes alone and a read answers them. What is written into the journal ring or a fault dump is what is read
there, and other bytes stay. Where it meets them it follows the model's choices of log entries 58, 60 (notes/assumptions). (17_host_port R796 R799
R800 R801 R802 R804 R806 R883, 05_tally R188 R191, 08_memory R335) -/
def Obligations.TensorsAndAreasOverTheHostPort : Prop :=
  ∀ (s : State) (r : Req) (t : Target) (bytes : List Byte), inTurn r s = true →
    (roleRefuses true t s = true → ∀ c ∈ ([.writeTensor r t bytes, .writeInput r t bytes, .writeMarkWritten r t bytes] : List Instr),
      HaulerRefused c s r errHaulerInvalid) ∧
    (roleRefuses false t s = true → HaulerRefused (.readTensor r t) s r errHaulerInvalid) ∧
    (∀ im : Image, s.job.image = some im →
      (s.dev.st = .loading →
        ((targetFault s im t ≠ none ∨ 2 ≤ (tensorOf im t.id).role ∨ t.generation ≠ 0 ∨ bytes.length ≠ t.length) →
          HaulerRefused (.writeTensor r t bytes) s r errHaulerInvalid) ∧
        (targetFault s im t = none → (tensorOf im t.id).role < 2 → t.generation = 0 → bytes.length = t.length →
          ∃ u, exec (.writeTensor r t bytes) s = .next u ∧ Replied s u r 0 [] ∧
            u = { s with out := u.out, hauler.conns := u.hauler.conns, job.tensors := u.job.tensors } ∧
            (∀ k, (∀ p, k ≠ tensKey p t.id 0) → tens u k = tens s k) ∧
            ∀ p, let size := placeLength s im t.id
              p < targetPositions s im → bytes ≠ [] → p * size ≤ t.offset → t.offset + t.length ≤ (p + 1) * size →
                (∀ k, k ≠ tensKey p t.id 0 → tens u k = tens s k) ∧
                HoldsStored u (tensKey p t.id 0) (parseStored (dimsOf im t.id) (fmtNow s im t.id) (geoTens im t.id (fmtNow s im t.id))
                  (splice (pad64 (storedForm s im (tensKey p t.id 0))) (t.offset - p * size) bytes)))) ∧
      (s.dev.st ∈ ([.loading, .planning, .running, .filling] : List DevState) → ∀ e ∈ ([(.writeInput r t bytes, false),
          (.writeMarkWritten r t bytes, true)] : List (Instr × Bool)),
        let key := tensKey 0 t.id t.inst
        ((targetFault s im t ≠ none ∨ (tensorOf im t.id).role ≠ 4 ∨ t.inst ≠ t.generation.toNat % (tensorOf im t.id).depth ∨
          bytes.length ≠ t.length) → HaulerRefused e.1 s r errHaulerInvalid) ∧
        (targetFault s im t = none → (tensorOf im t.id).role = 4 → t.inst = t.generation.toNat % (tensorOf im t.id).depth →
          bytes.length = t.length →
          (((tens s key).marked ≠ none ∨ t.generation.toNat ≠ expectedIter s im t.id t.inst) → HaulerRefused e.1 s r errInstanceBusy) ∧
          ((tens s key).marked = none → t.generation.toNat = expectedIter s im t.id t.inst → ∃ u, exec e.1 s = .next u ∧ Replied s u r 0 [] ∧
            u = { s with out := u.out, hauler.conns := u.hauler.conns, job.tensors := u.job.tensors } ∧
            (tens u key).marked = (if e.2 then some t.generation.toNat else none) ∧
            ∀ k, (∀ p, k ≠ tensKey p t.id t.inst) → tens u k = tens s k))) ∧
      ((s.dev.st ∈ ([.loading, .planning, .running, .faulted] : List DevState) ∨ (s.dev.st = .draining ∧ s.job.drainHold = true)) →
        ((targetFault s im t ≠ none ∨ (tensorOf im t.id).role = 4 ∨ (tensorOf im t.id).role = 6 ∨ t.generation ≠ 0) → HaulerRefused (.readTensor r t) s r errHaulerInvalid) ∧
        (targetFault s im t = none → (tensorOf im t.id).role ≠ 4 → (tensorOf im t.id).role ≠ 6 → t.generation = 0 → HaulerAnswered (.readTensor r t) s r 0
          (leBytes 8 (tens s (tensKey 0 t.id t.inst)).generation.toNat ++ [if tensorReady s im t.id t.inst then 0 else 1] ++
            List.replicate 7 (0 : Byte) ++ (if tensorReady s im t.id t.inst then
              slice ((List.range (targetPositions s im)).flatMap fun k => pad64 (storedForm s im (tensKey k t.id t.inst))) t.offset t.length
            else []))))) ∧
    (s.dev.st ≠ .lookout → s.dev.st ≠ .starting →
      (∀ off, slotTarget s t = .inl off → t.length = 0 → HaulerRefused (.writeRelease r t) s r errHaulerInvalid) ∧
      (∀ off, slotTarget s t = .inl off → HaulerRefused (.writeSnapshotSlot r t bytes) s r errHaulerInvalid ∧
        HaulerRefused (.readSnapshotSlot r t) s r errHaulerInvalid) ∧
      (∀ a, slotTarget s t = .inr a →
        (∀ k b, keptSlot s t = some (k, b) → t.length = 0 → headerState s k b = 3 → ∃ u, exec (.writeRelease r t) s = .next u ∧
          Replied s u r 0 [] ∧ Written s u (headerAddr s k b) (leBytes 8 2) ∧
          u = { s with out := u.out, hauler.conns := u.hauler.conns, mem := u.mem }) ∧
        (∀ k b, keptSlot s t = some (k, b) → headerState s k b ≠ 3 → HaulerRefused (.writeRelease r t) s r errHaulerInvalid) ∧
        (bytes.length ≠ t.length → HaulerRefused (.writeSnapshotSlot r t bytes) s r errHaulerInvalid) ∧
        (bytes.length = t.length → ∃ u, exec (.writeSnapshotSlot r t bytes) s = .next u ∧ Replied s u r 0 [] ∧ Written s u a bytes ∧
          u = { s with out := u.out, hauler.conns := u.hauler.conns, mem := u.mem }) ∧
        (∃ u, exec (.readSnapshotSlot r t) s = .next u ∧ u = { s with out := u.out, hauler.conns := u.hauler.conns, mem.hbms := u.mem.hbms } ∧
          Replied s u r 0 (leBytes 8 t.generation.toNat ++ [0] ++ List.replicate 7 (0 : Byte) ++ readBytes s.mem a t.length))) ∧
      (areaFault t ≠ none → ∀ c ∈ ([.writeJournalRing r t bytes, .writeFaultDump r t bytes, .readJournalRing r t, .readFaultDump r t] : List Instr),
        HaulerRefused c s r errHaulerInvalid) ∧
      (areaFault t = none → bytes.length = t.length →
        (∃ u, exec (.writeJournalRing r t bytes) s = .next u ∧ Replied s u r 0 [] ∧
          u = { s with out := u.out, hauler.conns := u.hauler.conns, recov.journal := u.recov.journal } ∧
          recordBytes u.mem u.recov.journal journalBase 1024 t.offset t.length = bytes ∧
          ∀ x, (x < t.offset ∨ t.offset + t.length ≤ x) →
            recordBytes u.mem u.recov.journal journalBase 1024 x 1 = recordBytes s.mem s.recov.journal journalBase 1024 x 1) ∧
        (∃ u, exec (.writeFaultDump r t bytes) s = .next u ∧ Replied s u r 0 [] ∧
          u = { s with out := u.out, hauler.conns := u.hauler.conns, recov.dumps := u.recov.dumps } ∧
          recordBytes u.mem u.recov.dumps dumpBase dumpSize t.offset t.length = bytes ∧
          ∀ x, (x < t.offset ∨ t.offset + t.length ≤ x) →
            recordBytes u.mem u.recov.dumps dumpBase dumpSize x 1 = recordBytes s.mem s.recov.dumps dumpBase dumpSize x 1)) ∧
      (areaFault t = none →
        HaulerAnswered (.readJournalRing r t) s r 0 (List.replicate 8 (0 : Byte) ++ [0] ++ List.replicate 7 (0 : Byte) ++
          recordBytes s.mem s.recov.journal journalBase 1024 t.offset t.length) ∧
        HaulerAnswered (.readFaultDump r t) s r 0 (List.replicate 8 (0 : Byte) ++ [0] ++ List.replicate 7 (0 : Byte) ++
          recordBytes s.mem s.recov.dumps dumpBase dumpSize t.offset t.length)))

/-- Host counters, their watches, queries and quotes. A SIGNAL raises its host counter by its amount; one that fails is answered with its code and leaves
the counter and the job as they are. SET_WATCH puts one watch on a host counter in place of the earlier one, CLEAR_WATCH removes it. A number outside
its range is refused. The queries answer the status, the plan report, the newest fault records and the reduced tally, and change nothing. A quote is
refused without permission, without an identity or while one is being signed, else its body is fixed at once; its signature sends body and signatures
to the requester. Where it meets them it follows the model's choices of log entries 58, 59 (notes/assumptions). (12_remote_memory R570 R574 R575,
17_host_port R791 R792, 06_placement R306, 04_narrow_training R134, 15_start_rings R717 R718 R719) -/
def Obligations.SignalsWatchesAndQueries : Prop :=
  ∀ s : State,
    (∀ (r : Req) (h n : Nat), inTurn r s = true → s.dev.st ∈ ([.planning, .running, .filling] : List DevState) →
      ((16 ≤ h ∨ n = 0 ∨ ctrMax < n) → HaulerRefused (.haulerSignal r h n) s r errHaulerInvalid ∧
        HaulerRefused (.setWatch r h n) s r errHaulerInvalid) ∧
      (16 ≤ h → HaulerRefused (.clearWatch r h) s r errHaulerInvalid) ∧
      (h < 16 → 0 < n → n ≤ ctrMax →
        (signalFault (ctr s (hostCtr h)) n ≠ 0 → HaulerRefused (.haulerSignal r h n) s r (signalFault (ctr s (hostCtr h)) n)) ∧
        (signalFault (ctr s (hostCtr h)) n = 0 → (ctr s (hostCtr h)).waiters = [] → ∃ u, exec (.haulerSignal r h n) s = .next u ∧
          Replied s u r 0 [] ∧ (ctr u (hostCtr h)).value = (ctr s (hostCtr h)).value + n ∧ (∀ k, k ≠ hostCtr h → ctr u k = ctr s k) ∧
          u = { s with out := u.out, hauler.conns := u.hauler.conns, remote.ctrs := u.remote.ctrs }) ∧
        (∃ u, exec (.setWatch r h n) s = .next u ∧ Replied s u r 0 [] ∧
          u = { s with out := u.out, hauler.conns := u.hauler.conns,
                       remote.watches := (s.remote.watches.filter fun w => w.1 != h) ++ [(h, r.conn, n)] })) ∧
      (h < 16 → ∃ u, exec (.clearWatch r h) s = .next u ∧ Replied s u r 0 [] ∧
        u = { s with out := u.out, hauler.conns := u.hauler.conns, remote.watches := s.remote.watches.filter fun w => w.1 != h })) ∧
    (∀ r : Req, inTurn r s = true → s.dev.st ≠ .lookout →
      HaulerAnswered (.queryStatus r) s r 0 (leBytes 2 (stCode s.dev.st) ++ leBytes 2 s.job.tag.toNat ++ leBytes 8 s.job.step.toNat ++
        leBytes 8 (heldImage s).toNat ++ leBytes 4 s.faults.length) ∧
      (∀ (im : Image) (p : Plan), s.job.image = some im → s.job.plan = some p → HaulerAnswered (.queryPlanReport r) s r 0 (planReport s im p)) ∧
      ((s.job.image = none ∨ s.job.plan = none) → HaulerAnswered (.queryPlanReport r) s r 0 []) ∧
      (∀ n : Nat, (0 < n → n ≤ 256 → HaulerAnswered (.queryFaultRecords r n) s r 0 ((s.faults.take n).flatMap recBytes)) ∧
        ((n = 0 ∨ 256 < n) → HaulerRefused (.queryFaultRecords r n) s r errHaulerInvalid)) ∧
      (∀ (im : Image) (n : Nat), s.job.image = some im →
        (n < im.tensors.length → (tensorOf im n).rule ≠ 0xFFFF → HaulerAnswered (.queryReducedTally r n) s r 0
          (let x := tallyOf s.job.reduced n
           leBytes 8 x.converted ++ leBytes 8 x.saturated ++ leBytes 8 x.underflowed ++ leBytes 4 x.maxAbs)) ∧
        ((im.tensors.length ≤ n ∨ (tensorOf im n).rule = 0xFFFF) → HaulerRefused (.queryReducedTally r n) s r errHaulerInvalid)) ∧
      (∀ n : Nat, s.job.image = none → HaulerRefused (.queryReducedTally r n) s r errHaulerInvalid) ∧
      (∀ nonce : BitVec 256,
        (orDefault (policy s).haulerQuotes 2 ≠ 2 → HaulerRefused (.queryQuote r nonce) s r errHaulerDenied) ∧
        (orDefault (policy s).haulerQuotes 2 = 2 →
          (s.dev.identityOk = false → HaulerAnswered (.queryQuote r nonce) s r errIdentity []) ∧
          (s.dev.identityOk = true → s.dev.quote ≠ none → HaulerRefused (.queryQuote r nonce) s r errQuoteBusy) ∧
          (s.dev.identityOk = true → s.dev.quote = none → ∃ u, exec (.queryQuote r nonce) s = .next u ∧ u.out = s.out ∧
            u = { s with hauler.conns := u.hauler.conns, dev.quote := some (1, r.conn, r.msg, quoteBody s nonce) })))) ∧
    (s.dev.quote = none → exec .quoteSigned s = .next s) ∧
    (∀ (id : Nat) (msg : Word) (body : List Byte),
      (s.dev.quote = some (0, id, msg, body) → exec .quoteSigned s =
        .next { s with dev.quote := none, out := s.out ++ [.wardenReply id msg 0 (body ++ Config.quoteSignatures body)] }) ∧
      (s.dev.quote = some (1, id, msg, body) → thas s.hauler.conns id = true → ∃ u, exec .quoteSigned s = .next u ∧
        Replied s u ⟨id, msg⟩ 0 (body ++ Config.quoteSignatures body) ∧
        u = { s with out := u.out, hauler.conns := u.hauler.conns, dev.quote := none }))

/-- LOAD_PROGRAM, START_JOB, planning and STOP_JOB. LOAD_PROGRAM is refused with ERR_QUADRANT_LOST while a quadrant is lost, in every state past STARTING;
an image of fewer than 64 bytes or that fails a check is answered with its code and the device is READY again with no job; else the image is held and
the device stays in LOADING. START_JOB with a bad body is refused; else its rank map stands in module-slot order, the device set is that map, and
planning begins. Planning ends in FAULTED with ERR_START_DISAGREE when the modules hold different requests, with ERR_PLAN_SHAPE when the grid does not
cut, with ERR_PLAN_DISAGREE when the plan digests differ; else the plan is bound, the slots of its tiles start their programs and the job begins at
its first step. STOP_JOB with another job's tag is refused; else the job stops and drains, and in DRAINING the end hold ends. Where it meets them it
follows the model's choices of log entries 30, 36 (notes/assumptions). (17_host_port R793 R794 R795 R796 R798, 05_tally R200 R262, 06_placement R272
R274 R299 R300 R301, 09_stack_links R410) -/
def Obligations.JobsAreLoadedPlannedAndStopped : Prop :=
  ∀ s : State,
    (∀ (r : Req) (image : List Byte), inTurn r s = true → s.dev.st ≠ .lookout → s.dev.st ≠ .starting → s.dev.qLost ≠ 0 →
      ∃ u, exec (.loadProgram r image) s = .next u ∧ OnlyRecorded (endExerciser s) u errQuadrantLost ∧ Replied s u r errQuadrantLost []) ∧
    (∀ (r : Req) (image : List Byte), inTurn r s = true → (s.dev.st = .ready ∨ (s.dev.st = .loading ∧ s.job.arriving = some r.conn)) →
      let s1 := endExerciser s
      (s.dev.qLost = 0 → image.length < 64 → ∃ u, exec (.loadProgram r image) s = .next u ∧ u.dev.st = .ready ∧
        u.job = {} ∧ Recorded s u errHaulerInvalid ∧ Replied s u r errHaulerInvalid []) ∧
      (s.dev.qLost = 0 → 64 ≤ image.length →
        let v := if s.dev.st = .ready then beginLoad r.conn (takeDone r s1) else takeDone r s1
        (checkImage v image = none → ∃ u, exec (.loadProgram r image) s = .next u ∧ u.dev.st = .loading ∧ Replied s u r 0 [] ∧
          u.job = { ({} : Job) with bytes := image, image := some (parseImage image) } ∧ u.mem = s.mem ∧ u.faults = s.faults) ∧
        (∀ x : Reject, checkImage v image = some x → ∃ u, exec (.loadProgram r image) s = .next u ∧ u.dev.st = .ready ∧ u.job = {} ∧
          Recorded s u (x.code % 65536) ∧ Replied s u r x.code []) ∧
        (2 ^ 31 < image.length → checkImage v image ≠ none))) ∧
    (∀ (r : Req) (body : List Byte) (im : Image), inTurn r s = true → s.dev.st = .loading → s.job.image = some im →
      (startFault s body ≠ none → HaulerRefused (.startJob r body) s r errHaulerInvalid) ∧
      (startFault s body = none → ∃ u, exec (.startJob r body) s = .next u ∧ Replied s u r 0 [] ∧ u.dev.st = .planning ∧
        u.job.tag.toNat = field body 0 2 ∧ u.job.started = true ∧ u.job.body = body ∧ u.job.image = some im ∧ u.remote.deviceSet = u.job.rankMap ∧
        (u.job.rankMap.map (posKey s)).Pairwise (· ≤ ·) ∧
        u.job.rankMap.Perm ((List.range (field body 40 4)).map fun i => BitVec.ofNat 16 (field body (44 + 2 * i) 2)) ∧
        u.faults = s.faults ∧ u.mem = s.mem)) ∧
    (∀ x : PlanIn, (s.dev.st ≠ .planning ∨ s.job.image = none) → exec (.planCompute x) s = .next s) ∧
    (∀ (x : PlanIn) (im : Image), s.dev.st = .planning → s.job.image = some im →
      let d := digest8 s.job.body
      ((∃ e ∈ x.starts, e.2 ≠ d) → ∃ u, exec (.planCompute x) s = .next u ∧ u.dev.st = .faulted ∧
        Recorded (sendRounds (ownSlot s) d x.starts s) u errStartDisagree ∧ u.job = s.job) ∧
      (∀ u v, planRounds x s = (some u, v) → exec (.planCompute x) s = .next u ∧ u.dev.st = .faulted) ∧
      (∀ t, planRounds x s = (none, t) → s.job.restore = false → t.dev.st = .planning ∧ t.job = s.job ∧ t.mem = s.mem ∧
        (∀ e, shapePlan t im = .error e → ∃ u, exec (.planCompute x) s = .next u ∧ u.dev.st = .faulted ∧ Recorded t u errPlanShape ∧
          u.job = s.job) ∧
        (∀ (p : Plan) (ignored : Bool), shapePlan t im = .ok (p, ignored) → groupsFault im t = none →
          let q := { bindPlan t im (countMaskOf (usableTiles t :: x.counts.map (·.2))) ignored p with counts := x.counts }
          fitFault im q t = none →
          let w := (comparePlans x.plans (installOwn im q (firstPhase im.initPhase.isSome im) t)).2
          ((∃ e ∈ x.plans, e.2 ≠ q.digest) → ∃ u, exec (.planCompute x) s = .next u ∧ u.dev.st = .faulted ∧ Recorded w u errPlanDisagree) ∧
          ((∀ e ∈ x.plans, e.2 = q.digest) → if w.dev.st = .faulted then exec (.planCompute x) s = .next w else
            ∃ (u : State) (p' : Plan), exec (.planCompute x) s = .next u ∧ u.dev.st = .running ∧ u.job.plan = some p' ∧ p'.digest = q.digest ∧ p'.tiles = q.tiles ∧ p'.mods = q.mods ∧
            u.job.step = s.job.firstStep ∧ u.job.mb = im.safe.mbInit ∧ u.flume.seqs = [] ∧ u.mem = w.mem ∧
            ((∀ m, q.own = some m → freshList im q m none (firstPhase im.initPhase.isSome im) = []) → u.faults = w.faults ∧
              (q.own ≠ none → ∀ t' ∈ q.tiles, ∀ k, k < 8 → slot (tile u t') k = startSlot (program (tile u t') k) ∨
                (slot (tile u t') k).st = .idle)))))) ∧
    (∀ (r : Req) (tag : BitVec 16), inTurn r s = true → (s.dev.st = .faulted → isFA s = false) →
      (s.dev.st ∈ ([.loading, .planning, .running, .faulted, .draining] : List DevState) → tag ≠ s.job.tag →
        HaulerRefused (.stopJob r tag) s r errHaulerInvalid) ∧
      (s.dev.st = .draining → ∃ u, exec (.stopJob r s.job.tag) s = .next u ∧ Replied s u r 0 [] ∧
        u = { s with out := u.out, hauler.conns := u.hauler.conns, job.drainHold := false }) ∧
      (s.dev.st ∈ ([.loading, .planning, .running, .faulted] : List DevState) → ∃ u, exec (.stopJob r s.job.tag) s = .next u ∧
        Replied s u r 0 [] ∧ u.dev.st = .draining ∧ u.job.drainHold = false ∧ (∀ j ∈ u.remote.copies, j ∈ s.remote.copies ∧ j.req.keeper = true) ∧
        u.recov.window = false ∧
        u.recov.held = false ∧ u.recov.rollbackTo = none ∧ (∀ t k, (slot (tile u t) k).st ≠ .running ∧ (slot (tile u t) k).st ≠ .waiting) ∧
        u.mem = s.mem ∧ u.faults = s.faults))

/-- Warden protocol: status, ledger, telemetry, rings, floor records, owner keys and quotes. An all-nodes status request is answered with serial, state
and addresses while the lookout runs; a status request of a session with the status and every fault record; a ledger read with the region's bytes.
Owner keys are enrolled only in LOOKOUT with HOLD_N low and replaced only outside STARTING under both signatures of a listed key; else
ERR_RING_SIGNATURE and no change. A quote's body is fixed at once unless the identity is missing or one is being signed. At most 4 peers subscribe, at
1 to 1,000 ticks. A ring that verifies is written to the slot that is not active and staged, and the other slot, the floor and the ring in force stay;
one that does not is refused with its code. A floor record that R702 does not accept is refused with ERR_RING_FLOOR. Where it meets them it follows
the model's choices of log entries 14, 55 (notes/assumptions). (17_host_port R807 R809, 15_start_rings R702 R703 R704 R717 R718 R720,
16_warden_power_thermal R773 R774 R781) -/
def Obligations.WardenStatusRingsKeysAndQuotes : Prop :=
  ∀ (s : State) (r : WReq),
    (lookoutUp s = true → 2 ≤ s.dev.startStep → exec (.wardenStatus r true) s = .next (wardenDone s r
      (leBytes 16 s.bark.made.serial.toNat ++ leBytes 1 (stCode s.dev.st) ++ leBytes 6 s.bark.made.macHost.toNat ++
        leBytes 6 s.bark.made.macA.toNat ++ leBytes 6 s.bark.made.macB.toNat))) ∧
    ((lookoutUp s = false ∨ s.dev.startStep < 2) → exec (.wardenStatus r true) s = .next s) ∧
    (WardenOpen s r true →
      exec (.wardenStatus r false) s = .next (wardenDone s r (leBytes 2 (stCode s.dev.st) ++ leBytes 2 s.job.tag.toNat ++
        leBytes 8 s.job.step.toNat ++ leBytes 8 (heldImage s).toNat ++ leBytes 4 s.faults.length ++ s.faults.flatMap recBytes)) ∧
      (∀ off n : Nat, exec (.wardenLedgerRead r off n) s = .next (wardenDone s r (ledgerBytes s off n)) ∧
        (ledgerBytes s off n).length = min n (31981568 - off)) ∧
      (∀ keys : List OwnerKey,
        (s.dev.st = .lookout → s.pins.holdN = false → keys.length ≤ 4 → ∃ u, exec (.enrolOwnerKeys r keys) s = .next u ∧
          u.bark.ownerKeys = keys ∧ regionLost u 4 = false ∧
          u = { wardenDone s r [] with bark.ownerKeys := u.bark.ownerKeys, bark.regions := u.bark.regions }) ∧
        ((s.dev.st ≠ .lookout ∨ s.pins.holdN = true ∨ 4 < keys.length) → WardenRefused (.enrolOwnerKeys r keys) s r errRingSignature) ∧
        (∀ (i : Nat) (rsa slh : Bool),
          (s.dev.st ≠ .starting → regionLost s 4 = false → i < s.bark.ownerKeys.length → keys.length ≤ 4 →
            exec (.updateOwnerKeys r keys i true true) s = .next { wardenDone s r [] with bark.ownerKeys := keys }) ∧
          ((s.dev.st = .starting ∨ regionLost s 4 = true ∨ s.bark.ownerKeys.length ≤ i ∨ rsa = false ∨ slh = false ∨ 4 < keys.length) →
            WardenRefused (.updateOwnerKeys r keys i rsa slh) s r errRingSignature))) ∧
      (∀ nonce : BitVec 256,
        (s.dev.identityOk = false → exec (.wardenQuote r nonce) s =
          .next { s with out := s.out ++ [.wardenReply r.session r.msg (BitVec.ofNat 16 errIdentity) []] }) ∧
        (s.dev.identityOk = true → s.dev.quote ≠ none → WardenRefused (.wardenQuote r nonce) s r errQuoteBusy) ∧
        (s.dev.identityOk = true → s.dev.quote = none → exec (.wardenQuote r nonce) s =
          .next { s with dev.quote := some (0, r.session, r.msg, quoteBody s nonce) }))) ∧
    (WardenOpen s r false →
      (∀ n : Nat,
        (1000 < n → WardenRefused (.telemetrySubscribe r n) s r errHaulerInvalid) ∧
        ((∀ u ∈ s.heat.subs, u.peer ≠ r.peer) → 4 ≤ s.heat.subs.length → WardenRefused (.telemetrySubscribe r n) s r errHaulerInvalid) ∧
        (n ≤ 1000 → (∀ u ∈ s.heat.subs, u.peer ≠ r.peer) → s.heat.subs.length < 4 → exec (.telemetrySubscribe r n) s =
          .next { wardenDone s r [] with heat.subs := s.heat.subs ++ [{ peer := r.peer, period := if n = 0 then 100 else n, sentAt := s.heat.tick }] }) ∧
        (n ≤ 1000 → (∃ u ∈ s.heat.subs, u.peer = r.peer) → ∃ u, exec (.telemetrySubscribe r n) s = .next u ∧
          u = { wardenDone s r [] with heat.subs := u.heat.subs } ∧ u.heat.subs.length = s.heat.subs.length ∧
          (∀ x ∈ s.heat.subs, x.peer ≠ r.peer → x ∈ u.heat.subs) ∧
          ∀ x ∈ u.heat.subs, x.peer = r.peer → x.period = if n = 0 then 100 else n)) ∧
      (∀ first n : Nat, exec (.telemetryBufferRead r first n) s =
        .next (wardenDone s r (((s.heat.telemetry.drop first).take n).flatMap telBytes))) ∧
      (∀ ring : Ring,
        (s.dev.st = .starting → WardenRefused (.stageRing r ring) s r errStateConflict) ∧
        (s.dev.st ≠ .starting → ∀ f, verifyRing s ring (effectiveFloor s) = some f → WardenRefused (.stageRing r ring) s r (ringFailCode f)) ∧
        (s.dev.st ≠ .starting → verifyRing s ring (effectiveFloor s) = none → ∃ u, exec (.stageRing r ring) s = .next u ∧
          u = { wardenDone s r [] with stump := u.stump } ∧
          (let b := decide (s.stump.stateA = .active)
           slotRing u.stump b = some ring ∧ slotState u.stump b = .staged ∧ slotFails u.stump b = 0 ∧
           slotRing u.stump (!b) = slotRing s.stump (!b) ∧ slotState u.stump (!b) = slotState s.stump (!b) ∧
           slotFails u.stump (!b) = slotFails s.stump (!b)) ∧
          u.stump.controlFloor = s.stump.controlFloor ∧ u.stump.floorRec = s.stump.floorRec ∧ u.stump.log = s.stump.log ∧
          u.stump.startCount = s.stump.startCount ∧ u.stump.clock = (if s.stump.clock = 0 then min 200 s.stump.part else s.stump.clock))) ∧
      (∀ f : FloorRec,
        (floorOk s f = true → exec (.writeFloorRecord r f) s = .next { wardenDone s r [] with
          stump.floorRec := some f, stump.clock := if s.stump.clock = 0 then min 200 s.stump.part else s.stump.clock }) ∧
        (floorOk s f = false → WardenRefused (.writeFloorRecord r f) s r errRingFloor)))

/-- Warden protocol: power limit, stacks, the idle-time exerciser, quarantine and window entries. A run-time power limit outside 1,000 W to the ring's
limit is refused. A stack's registers are read in the states of Table 08-5. A self-test loses its stack's contents alone, with the job region's share
zero; a soft repair lasts in the stack, a hard repair and a page retirement are recorded in the Bark, and each counts a repair in the die's summary
and queues one ledger event. The exerciser runs 60 tests one after another, in READY or QUARANTINED; the crowns that a test drives run and the others
are gated; each result goes to the ledger under the four crowns. A release from quarantine clears the job and leads to READY, or RELAYING on a spare.
A window entry is replaced whole in READY and LOADING. In any other state each is refused with ERR_STATE_CONFLICT, a release after it has ended the
exerciser. Where it meets them it follows the model's choices of log entries 54, 56 (notes/assumptions). (16_warden_power_thermal R736 R776 R777,
08_memory R361 R368 R369, 14_recovery R671 R673 R674 R675, 02_tile R88, 12_remote_memory R562) -/
def Obligations.WardenPowerMemoryAndQuarantine : Prop :=
  ∀ s : State,
    (∀ (r : WReq) (m : Stack) (n : Nat), WardenOpen s r false →
      ((n = 0 ∨ (1000 ≤ n ∧ n ≤ ringLimit s)) →
        exec (.runtimePowerLimit r n) s = .next { wardenDone s r [] with heat.runtimeNext := n }) ∧
      ((n ≠ 0 ∧ (n < 1000 ∨ ringLimit s < n)) → WardenRefused (.runtimePowerLimit r n) s r errHaulerInvalid) ∧
      (isFA s = false → s.dev.st ∈ ([.ready, .loading, .planning, .running, .draining, .faulted, .filling, .quarantined] : List DevState) →
        exec (.ieee1500Read r m) s = .next (wardenDone s r (leBytes 4 (Config.ieee1500 m.val 0).toNat ++
          leBytes 4 (match (tget s.heat.hbms m.val {}).reading with | some v => s16 (v / 4) | none => 0x8000) ++
          leBytes 4 (Config.ieee1500 m.val 1).toNat ++ leBytes 4 (Config.ieee1500 m.val 2).toNat))) ∧
      ((isFA s = true ∨ s.dev.st ∈ ([.lookout, .starting, .relaying] : List DevState)) →
        WardenRefused (.ieee1500Read r m) s r errStateConflict) ∧
      ((isFA s = true ∨ s.dev.st ∉ ([.ready, .quarantined] : List DevState)) → ∀ c ∈ ([.memoryBist r m, .softPpr r m n, .hardPpr r m n,
        .idleTimeExerciser r] : List Instr), WardenRefused c s r errStateConflict) ∧
      (isFA s = false → s.dev.st ∈ ([.ready, .quarantined] : List DevState) →
        (∃ u, exec (.memoryBist r m) s = .next u ∧
          u = { wardenDone s r [] with mem := u.mem, recov.journal := u.recov.journal, recov.dumps := u.recov.dumps, draws := u.draws } ∧
          (∀ a, (hbmEnd ≤ a ∨ hbmStack a ≠ m.val) → readByte u.mem a = readByte s.mem a) ∧
          ∀ a, a < hbmEnd → a < jobEnd s → hbmStack a = m.val → readByte u.mem a = 0) ∧
        (∃ u, exec (.softPpr r m n) s = .next u ∧ n ∈ (hbm u m.val).softRows ∧ (∀ j, j ≠ m.val → hbm u j = hbm s j) ∧
          u = { wardenDone s r [] with mem.hbms := u.mem.hbms, bark.summaries := u.bark.summaries, bark.queued := u.bark.queued,
                                       bark.eventSeq := u.bark.eventSeq } ∧
          (tget u.bark.summaries (12 + m.val) {}).repairs = satInc none32 (tget s.bark.summaries (12 + m.val) {}).repairs ∧
          ∃ e, u.bark.queued = s.bark.queued ++ [e] ∧ e.die = 12 + m.val ∧ e.kind = 2) ∧
        (∃ u, exec (.hardPpr r m n) s = .next u ∧
          u = { wardenDone s r [] with bark.ppr := s.bark.ppr ++ [(m.val, n)], bark.summaries := u.bark.summaries,
                                       bark.queued := u.bark.queued, bark.eventSeq := u.bark.eventSeq } ∧
          (tget u.bark.summaries (12 + m.val) {}).repairs = satInc none32 (tget s.bark.summaries (12 + m.val) {}).repairs ∧
          ∃ e, u.bark.queued = s.bark.queued ++ [e] ∧ e.die = 12 + m.val ∧ e.kind = 2) ∧
        (∃ u, exec (.idleTimeExerciser r) s = .next u ∧ u.heat.exerciser.length = 60 ∧ u.heat.exerciser.head? = some (0, 0, 1) ∧
          u.heat.exerciser.Nodup ∧
          u = { wardenDone s r [] with heat.exerciser := u.heat.exerciser, heat.notches := u.heat.notches, tiles := u.tiles } ∧
          (s.heat.crownsOff = false → ∀ t ∈ drivenTiles u, (tile u t).crownGated = false) ∧
          (∀ t, t ∉ drivenTiles u → tile u t = tile { s with tiles := gateTiles s.dev.st s.tiles } t) ∧
          ∀ q, q < 4 → notch u q =
            { notch s q with crownK := (Config.exerciserSetting 0 0 1).1, requested := some (Config.exerciserSetting 0 0 1).2 })) ∧
      ((isFA s = true ∨ s.dev.st ∈ ([.lookout, .starting] : List DevState)) →
        WardenRefused (.listPageRetirement r m n) s r errStateConflict) ∧
      (isFA s = false → s.dev.st ∉ ([.lookout, .starting] : List DevState) →
        (stackPages ≤ n → WardenRefused (.listPageRetirement r m n) s r errHaulerInvalid) ∧
        (n < stackPages → ∃ u, exec (.listPageRetirement r m n) s = .next u ∧
          u = { wardenDone s r [] with bark.retire := u.bark.retire, bark.summaries := u.bark.summaries, bark.queued := u.bark.queued,
                                       bark.eventSeq := u.bark.eventSeq } ∧
          (∀ e, e ∈ u.bark.retire ↔ e ∈ s.bark.retire ∨ e = (m.val, n)) ∧
          ∃ e, u.bark.queued = s.bark.queued ++ [e] ∧ e.die = 12 + m.val ∧ e.kind = 2)) ∧
      (s.dev.st ≠ .quarantined → ∃ u, exec (.releaseQuarantined r) s = .next u ∧
        OnlyRecorded (endExerciser s) u errStateConflict ∧ WardenReplied s u r errStateConflict []) ∧
      (s.dev.st = .quarantined → ∃ u, exec (.releaseQuarantined r) s = .next u ∧ WardenReplied s u r 0 [] ∧
        u.dev.st = (if s.dev.role = some .spare then .relaying else .ready) ∧ u.job = {} ∧ u.remote.deviceSet = [] ∧ u.remote.ctrs = [] ∧
        u.remote.pend = [] ∧ u.flume = {} ∧ u.heat.exerciser = [] ∧ u.recov.journal = s.recov.journal ∧ u.recov.dumps = s.recov.dumps ∧
        u.faults = s.faults ∧ u.bark = s.bark ∧ u.stump = s.stump) ∧
      (∀ (i : Fin 64) (w : WinEntry),
        (s.dev.st ∉ ([.ready, .loading] : List DevState) → WardenRefused (.windowEntries r i w) s r errStateConflict) ∧
        (s.dev.st ∈ ([.ready, .loading] : List DevState) → 32 ≤ w.perm.toNat → WardenRefused (.windowEntries r i w) s r errHaulerInvalid) ∧
        (s.dev.st ∈ ([.ready, .loading] : List DevState) → w.perm.toNat < 32 → ∃ u, exec (.windowEntries r i w) s = .next u ∧
          tget u.remote.windows i.val ⟨0, 0, 0, 0⟩ = w ∧
          (∀ j, j ≠ i.val → tget u.remote.windows j ⟨0, 0, 0, 0⟩ = tget s.remote.windows j ⟨0, 0, 0, 0⟩) ∧
          tget u.remote.staged i.val noWindow = winBytes w ∧
          (∀ j, j ≠ i.val → tget u.remote.staged j noWindow = tget s.remote.staged j noWindow) ∧
          u = { wardenDone s r [] with remote.windows := u.remote.windows, remote.staged := u.remote.staged }))) ∧
    (∀ (digest : DWord) (band : Nat) (reached : Bool),
      (s.heat.exerciser = [] → exec (.exerciserTestEnd digest band reached) s = .next s) ∧
      (∀ (t : Nat × Nat × Nat) (rest : List (Nat × Nat × Nat)), s.heat.exerciser = t :: rest →
        (s.dev.st ∉ ([.ready, .quarantined] : List DevState) → ∃ u, exec (.exerciserTestEnd digest band reached) s = .next u ∧
          u.heat.exerciser = [] ∧ u = { s with heat.exerciser := u.heat.exerciser, heat.notches := u.heat.notches, tiles := gateTiles s.dev.st s.tiles }) ∧
        (s.dev.st ∈ ([.ready, .quarantined] : List DevState) → ∃ u, exec (.exerciserTestEnd digest band reached) s = .next u ∧
          u.heat.exerciser = rest ∧ u = { s with heat.exerciser := u.heat.exerciser, heat.notches := u.heat.notches, tiles := u.tiles,
                                                 bark.queued := u.bark.queued, bark.eventSeq := u.bark.eventSeq } ∧
          (rest = [] → u.tiles = gateTiles s.dev.st s.tiles) ∧
          (s.heat.crownsOff = false → ∀ t ∈ drivenTiles u, (tile u t).crownGated = false) ∧
          (∀ t, t ∉ drivenTiles u → tile u t = tile { s with tiles := gateTiles s.dev.st s.tiles } t) ∧
          ∃ es : List Event, u.bark.queued = s.bark.queued ++ es ∧ es.map (·.die) = [0, 1, 2, 3] ∧ ∀ e ∈ es, e.kind = 4 ∧
            e.band = (if reached then band else t.1) ∧
            e.record.obj = (if reached = false then 2 else if digest = Config.exerciserDigest t.1 t.2.1 t.2.2 then 0 else 1))))

/-- Register accesses on the three paths: refusals, effects, path copies, whole requests. An access on a path that does not reach the map changes nothing;
one that a check refuses is noted, answered with its code and changes nothing else, and of a request of several words none is performed. A write of a
read-only register is ignored. DEV_SCRATCH, DEV_EVENTS, FAULT_SEL, FAULT_NEW, WIN, FT_DATA, FT_COMMIT, PWR_RUNTIME, DLINK_SEL and TEL_SEL have the
effects of Chapter 19, the selectors on their path's copy alone. A read of a _LO word latches the _HI word for its path, a selected depth_hw clears
with TEL_DATA_LO, and a broadcast read is the OR over its members. Beside a hardware update in the same root cycle a write of DEV_EVENTS leaves the
bits set that the update sets, a read of FAULT_NEW returns the count before it, and a written word stands. Requests of the Hauler, the Warden protocol
and CTRL_ACCESS read and write the same registers. Where it meets them it follows the model's choices of log entries 61, 62, 63, 64
(notes/assumptions). (19_registers R850 R851 R853 R855 R856 R857 R858 R861 R862 R865 R866 R869 R871) -/
def Obligations.RegisterAccessOnEachPath : Prop :=
  ∀ (s : State) (p : Path) (a v : Word) (e : Fin 64) (k : Fin 4),
    let out := fun (xs : List Word) => s.out ++ [Out.register p 0 xs]
    let w := viewOf s p
    (∀ x ∈ ([(.registerWrite p a v, true, a.toNat), (.devEvents p v, true, 0x28), (.faultSel p v, true, 0x30),
        (.win p e k v, true, 0x400 + 16 * e.val + 4 * k.val), (.ftData p v, true, 0x06000008), (.ftCommit p v, true, 0x06000014),
        (.pwrRuntime p v, true, 0x09000008), (.dlinkSel p v, true, 0x05001000), (.telSel p v, true, 0x08000000), (.faultNew p, false, 0x34),
        (.telDataLo p, false, 0x08000004), (.pairLoRead p a, false, a.toNat), (.broadcastRead p a, false, a.toNat)] : List (Instr × Bool × Nat)),
      (pathReaches s x.2.1 p = false → exec x.1 s = .next s) ∧
      (pathReaches s x.2.1 p = true → ∀ f, checkAccess s p x.2.2 (if x.2.1 then some v else none) = .inl f → RegRefused x.1 s p f.code)) ∧
    (pathReaches s true p = true →
      (windowOf s a.toNat = none → RegRefused (.registerWrite p a v) s p errRegUnmapped) ∧
      exec (.registerWrite p 0x00 v) s = .next { s with out := out [] } ∧
      exec (.registerWrite p 0x80 v) s = .next { s with regs.scratch := v, out := out [] } ∧
      (p ≠ .jtag → exec (.devEvents p v) s = .next { s with regs.events := s.regs.events &&& ~~~v, out := out [] }) ∧
      (p = .jtag → RegRefused (.devEvents p v) s p errRegPath) ∧
      (v.toNat < 256 → ∃ u, exec (.faultSel p v) s = .next u ∧ ViewSet s u p { w with faultSel := v, faultRec := s.faults[v.toNat]? } ∧
        u = { s with regs.views := u.regs.views, out := out [] }) ∧
      (256 ≤ v.toNat → RegRefused (.faultSel p v) s p errRegValue) ∧
      (p ≠ .jtag → s.dev.st ≠ .ready → s.dev.st ≠ .loading → RegRefused (.win p e k v) s p errStateConflict) ∧
      (p ≠ .jtag → (s.dev.st = .ready ∨ s.dev.st = .loading) → (k.val = 3 → v.toNat < 2 ^ 21) →
        (tget s.remote.staged e.val noWindow).length = 16 → ∃ u, exec (.win p e k v) s = .next u ∧
          (∀ j : Fin 4, field (tget u.remote.staged e.val noWindow) (4 * j.val) 4 =
            if j = k then v.toNat else field (tget s.remote.staged e.val noWindow) (4 * j.val) 4) ∧
          (k.val ≠ 3 → u.remote.windows = s.remote.windows) ∧
          (k.val = 3 → tget u.remote.windows e.val ⟨0, 0, 0, 0⟩ = winOf (tget u.remote.staged e.val noWindow)) ∧
          u = { s with remote.staged := u.remote.staged, remote.windows := u.remote.windows, out := out [] }) ∧
      (V48Up s →
        (p ≠ .jtag → s.dev.st ≠ .starting → (s.fabric.oldValid = true ∨ s.fabric.armed = true) → RegRefused (.ftData p v) s p errTableBusy) ∧
        (p ≠ .jtag → s.dev.st ≠ .starting → s.fabric.oldValid = false → s.fabric.armed = false → v.toNat < 2 ^ 16 →
          let i := w.ftSel.toNat % 2 ^ 16
          let put := putEntry (w.ftSel.toNat / 2 ^ 16 % 4) i v.toNat
          ∃ u, exec (.ftData p v) s = .next u ∧
            u.fabric.copy0 = (if s.fabric.epoch = true then put s.fabric.copy0 else s.fabric.copy0) ∧
            u.fabric.copy1 = (if s.fabric.epoch = true then s.fabric.copy1 else put s.fabric.copy1) ∧
            (viewOf u p).ftSel.toNat = w.ftSel.toNat / 2 ^ 16 * 2 ^ 16 + (i + 1) % 2 ^ 16 ∧
            u = { s with fabric.copy0 := u.fabric.copy0, fabric.copy1 := u.fabric.copy1, fabric.changing := true,
                         regs.views := u.regs.views, out := out [] }) ∧
        (p ≠ .jtag → s.dev.st ≠ .starting → (v ≠ 1 ∨ switchTime s < s.mtc.value.toNat + 10000000) →
          RegRefused (.ftCommit p v) s p errRegValue) ∧
        (p ≠ .jtag → s.dev.st ≠ .starting → s.mtc.value.toNat + 10000000 ≤ switchTime s → exec (.ftCommit p 1) s =
          .next { s with fabric.inactiveComplete := true, fabric.armed := true, fabric.changing := true,
                         fabric.switchTime := BitVec.ofNat 64 (switchTime s), out := out [] }) ∧
        (v.toNat < 2 ^ 14 → hasLink s (selLink v) = true → ∃ u, exec (.dlinkSel p v) s = .next u ∧ ViewSet s u p { w with dlinkSel := v } ∧
          u = { s with regs.views := u.regs.views, out := out [] }) ∧
        (telOk s v = true → ∃ u, exec (.telSel p v) s = .next u ∧ ViewSet s u p { w with telSel := v } ∧
          u = { s with regs.views := u.regs.views, out := out [] }) ∧
        (telOk s v = false → RegRefused (.telSel p v) s p errRegValue)) ∧
      ((∃ n, p = .warden n) → s.dev.st ≠ .lookout →
        ((v = 0 ∨ (1000 ≤ v.toNat ∧ v.toNat ≤ ringLimit s)) →
          exec (.pwrRuntime p v) s = .next { s with heat.runtimeNext := v.toNat, out := out [] }) ∧
        (v ≠ 0 → (v.toNat < 1000 ∨ ringLimit s < v.toNat) → RegRefused (.pwrRuntime p v) s p errRegValue)) ∧
      ((∀ n, p ≠ .warden n) → RegRefused (.pwrRuntime p v) s p errRegPath)) ∧
    (pathReaches s false p = true →
      (∃ u, exec (.faultNew p) s = .next u ∧ ViewSet s u p { w with latch := none } ∧
        u = { s with regs.views := u.regs.views, regs.faultNew := 0, out := out [BitVec.ofNat 32 s.regs.faultNew] }) ∧
      (V48Up s → let n := telValue s w.telSel
        ∃ u, exec (.telDataLo p) s = .next u ∧ ViewSet s u p { w with latch := some (0x08000004, BitVec.ofNat 32 (n / 2 ^ 32)) } ∧
          (telCounter w.telSel = 2 → tget (tget u.fabric.ctrs (telPort w.telSel) {}).depthHw (telVc w.telSel) 0 = 0) ∧
          (telCounter w.telSel ≠ 2 → u.fabric.ctrs = s.fabric.ctrs) ∧
          u = { s with regs.views := u.regs.views, fabric.ctrs := u.fabric.ctrs, out := out [BitVec.ofNat 32 n] }) ∧
      (∀ (x : Window) (r : Reg), checkAccess s p a.toNat none = .inr (x, r, .lo) → members s x = none → r ≠ .telData → r ≠ .faultNew →
        let n := regValue s w (windowIndex x) r
        ∃ u, exec (.pairLoRead p a) s = .next u ∧ ViewSet s u p { w with latch := some (a.toNat, BitVec.ofNat 32 (n / 2 ^ 32)) } ∧
          u = { s with regs.views := u.regs.views, out := out [BitVec.ofNat 32 n] }) ∧
      (∀ (x : Window) (r : Reg) (h : Half) (ms : List Nat), checkAccess s p a.toNat none = .inr (x, r, h) → members s x = some ms →
        ∃ u, exec (.broadcastRead p a) s = .next u ∧ ViewSet s u p { w with latch := none } ∧
          u = { s with regs.views := u.regs.views, out := out [BitVec.ofNat 32 (ms.foldl (fun y i => y ||| regValue s w i r) 0)] })) ∧
    (∀ (b : Word) (f : State → State),
      (sameCycle w .devEvents (fun t => { t with regs.events := t.regs.events &&& ~~~v }) (fun t => { t with regs.events := t.regs.events ||| b }) s).regs.events
        = (s.regs.events &&& ~~~v) ||| b ∧
      (sameCycle w .faultNew (fun t => { t with regs.faultNew := 0, out := t.out ++ [.register p 0 [BitVec.ofNat 32 t.regs.faultNew]] })
        (fun t => { t with regs.faultNew := satInc none32 t.regs.faultNew }) s) = { s with regs.faultNew := satInc none32 0, out := out [BitVec.ofNat 32 s.regs.faultNew] } ∧
      (sameCycle w .devScratch (fun t => { t with regs.scratch := v }) f s).regs.scratch = v) ∧
    (∀ r : Req, inTurn r s = true → s.dev.st ≠ .lookout → s.dev.st ≠ .starting →
      (orDefault (policy s).haulerRegisters 2 < 3 → HaulerRefused (.writeReg r a [v]) s r errHaulerDenied) ∧
      (orDefault (policy s).haulerRegisters 2 < 2 → HaulerRefused (.readReg r a 1) s r errHaulerDenied) ∧
      (∀ n : Nat, (n = 0 ∨ 64 < n) → HaulerRefused (.readReg r a n) s r errHaulerInvalid) ∧
      (2 ≤ orDefault (policy s).haulerRegisters 2 → ∃ u, exec (.readReg r 0x80 1) s = .next u ∧
        Replied s u r 0 (leBytes 4 s.regs.scratch.toNat) ∧
        u = { s with regs.views := u.regs.views, out := u.out, hauler.conns := u.hauler.conns }) ∧
      (3 ≤ orDefault (policy s).haulerRegisters 2 → ∃ u, exec (.writeReg r 0x80 [v]) s = .next u ∧ Replied s u r 0 [] ∧
        u = { s with regs.scratch := v, out := u.out, hauler.conns := u.hauler.conns })) ∧
    (∀ (r : WReq) (vs : List Word), WardenOpen s r false →
      exec (.wardenRegAccess r true 0x80 1 [v]) s = .next { wardenDone s r [] with regs.scratch := v } ∧
      (∃ u, exec (.wardenRegAccess r false 0x80 1 []) s = .next u ∧
        u = { wardenDone s r (leBytes 4 s.regs.scratch.toNat) with regs.views := u.regs.views }) ∧
      (∀ f, vs ≠ [] → vs.length ≤ 64 → writeMany (.warden r.session) vs a.toNat s = .inl f →
        ∃ u, exec (.wardenRegAccess r true a vs.length vs) s = .next u ∧ WardenReplied s u r f.code [] ∧
          u = { s with out := u.out, regs.refused := u.regs.refused })) ∧
    (lookoutUp s = true →
      (∃ u, exec (.ctrlAccess (ctrlWord true 0x80 v 0)) s = .next u ∧ u.jtag.capture = ctrlWord true 0x80 v 0 ∧
        u = { s with regs.scratch := v, jtag.ir := .ctrl, jtag.capture := u.jtag.capture }) ∧
      (∃ u, exec (.ctrlAccess (ctrlWord false 0x80 0 0)) s = .next u ∧ u.jtag.capture = ctrlWord false 0x80 s.regs.scratch 0 ∧
        u = { s with regs.views := u.regs.views, jtag.ir := .ctrl, jtag.capture := u.jtag.capture }) ∧
      (∃ u, exec (.ctrlAccess (ctrlWord true 0x28 v 0)) s = .next u ∧ u.jtag.capture = ctrlWord true 0x28 v (BitVec.ofNat 16 errRegPath) ∧
        u = { s with regs.refused := u.regs.refused, jtag.ir := .ctrl, jtag.capture := u.jtag.capture }))

/-- ring_fold returns the root of R223. Wherever the member's own block starts, folding the states of the key leaves with attention_combine in their order
of arrival gives the root that R223's canonical tree over the leaves in key order has, bit for bit, and at every moment at most 2·7·D + 1 states are
held, the state of the leaf being formed among them, with D = ⌈log8 n⌉. The leaves arrive as two ascending runs, and n stays within the levels that
the fold's fuel covers. (R320) -/
def Obligations.RingFoldGivesTheRoot : Prop :=
  ∀ (n a : Nat) (leaf : Nat → AttState), 0 < n → n ≤ 8 ^ 16 → a < n →
    let order := (List.range (n - a)).map (a + ·) ++ List.range a
    (ringTake n leaf order {}).root = canonicalTree attentionCombine ((List.range n).map leaf) ∧
    n ≤ 8 ^ topOf n ∧ (∀ d, d < topOf n → 8 ^ d < n) ∧
    ∀ k, k ≤ n → (ringTake n leaf (order.take k) {}).held.length + 1 ≤ 2 * 7 * topOf n + 1
end

