-- ==== Sys2Proof/Laws/Tables.lean ====
section
/-! SUPPORT. Sparse tables: what a put, a set or a delete reads as, and that rising keys stay rising; the records of numbered parts. -/
namespace Sys2Proof.Machine
open Sys2Proof

theorem pw_tdel {α : Type} (m : Table α) (k : Nat) (h : (m.map (·.1)).Pairwise (· < ·)) : ((tdel m k).map (·.1)).Pairwise (· < ·) ∧ ∀ j ∈ (tdel m k).map (·.1), j ∈ m.map (·.1) := by
  induction m with
  | nil => simp [tdel]
  | cons e m ih =>
    obtain ⟨j, v⟩ := e
    simp only [List.map_cons, List.pairwise_cons] at h
    obtain ⟨h1, h2⟩ := ih h.2
    unfold tdel; split
    · exact ⟨h1, fun x hx => List.mem_cons_of_mem _ (h2 x hx)⟩
    · refine ⟨?_, ?_⟩
      · simp only [List.map_cons, List.pairwise_cons]; exact ⟨fun x hx => h.1 x (h2 x hx), h1⟩
      · intro x hx; simp only [List.map_cons, List.mem_cons] at hx ⊢
        rcases hx with hx | hx
        · exact .inl hx
        · exact .inr (h2 x hx)
theorem length_tdel {α : Type} (m : Table α) (k) : (tdel m k).length ≤ m.length := by
  induction m with
  | nil => simp [tdel]
  | cons e m ih => obtain ⟨j, v⟩ := e; unfold tdel; split <;> simp <;> omega
theorem mem_tput {α : Type} (m : Table α) (k : Nat) (v : α) : ∀ j ∈ (tput m k v).map (·.1), j = k ∨ j ∈ m.map (·.1) := by
  induction m with
  | nil => simp [tput]
  | cons e m ih =>
    obtain ⟨j, u⟩ := e
    unfold tput; split
    · intro x hx; simp only [List.map_cons, List.mem_cons] at hx ⊢
      rcases hx with hx | hx
      · exact .inr (.inl hx)
      · rcases ih x hx with h | h
        · exact .inl h
        · exact .inr (.inr h)
    · split
      · intro x hx; simp only [List.map_cons, List.mem_cons] at hx ⊢; tauto
      · intro x hx; simp only [List.map_cons, List.mem_cons] at hx ⊢; tauto
theorem pw_tput {α : Type} (m : Table α) (k : Nat) (v : α) (h : (m.map (·.1)).Pairwise (· < ·)) : ((tput m k v).map (·.1)).Pairwise (· < ·) := by
  induction m with
  | nil => simp [tput]
  | cons e m ih =>
    obtain ⟨j, u⟩ := e
    simp only [List.map_cons, List.pairwise_cons] at h
    unfold tput; split
    · rename_i hj
      simp only [List.map_cons, List.pairwise_cons]
      refine ⟨fun x hx => ?_, ih h.2⟩
      rcases mem_tput m k v x hx with hx | hx
      · omega
      · exact h.1 x hx
    · split
      · rename_i hj; subst hj; simp only [List.map_cons, List.pairwise_cons]; exact h
      · simp only [List.map_cons, List.pairwise_cons]
        refine ⟨fun x hx => ?_, h⟩
        simp only [List.mem_cons] at hx
        rcases hx with hx | hx
        · omega
        · have := h.1 x hx; omega
theorem length_tput {α : Type} (m : Table α) (k) (v : α) : (tput m k v).length ≤ m.length + 1 := by
  induction m with
  | nil => simp [tput]
  | cons e m ih => obtain ⟨j, u⟩ := e; unfold tput; split <;> (try split) <;> simp <;> omega
theorem length_tput_has {α : Type} (m : Table α) (k) (v : α) (p : (m.map (·.1)).Pairwise (· < ·)) (h : thas m k = true) : (tput m k v).length ≤ m.length := by
  induction m with
  | nil => simp [thas] at h
  | cons e m ih =>
    obtain ⟨j, u⟩ := e
    simp only [List.map_cons, List.pairwise_cons] at p
    unfold tput; split
    · rename_i hj; simp only [thas, List.any_cons, Bool.or_eq_true, beq_iff_eq] at h
      have := ih p.2 (by simpa [thas] using h.resolve_left (by omega))
      simp; omega
    · split
      · simp
      · exfalso
        simp only [thas, List.any_cons, Bool.or_eq_true, beq_iff_eq, List.any_eq_true] at h
        rcases h with h | ⟨x, hx, h⟩
        · omega
        · have := p.1 x.1 (List.mem_map_of_mem hx); omega
theorem ok_tdel {α : Type} {n} (m : Table α) (k : Nat) (h : tableOk n m) : tableOk n (tdel m k) :=
  ⟨(pw_tdel m k h.1).1, le_trans (length_tdel m k) h.2⟩
theorem ok_tput {α : Type} {n} (m : Table α) (k : Nat) (v : α) (g : thas m k = true) (h : tableOk n m) : tableOk n (tput m k v) :=
  ⟨pw_tput m k v h.1, le_trans (length_tput_has m k v h.1 g) h.2⟩
theorem thas_tput {α : Type} (m : Table α) (k : Nat) (v : α) : thas (tput m k v) k = true := by
  induction m with
  | nil => simp [tput, thas]
  | cons e m ih => obtain ⟨j, u⟩ := e; unfold tput; split <;> (try split) <;> simp_all [thas]
theorem tset_mem {α : Type} [DecidableEq α] (m : Table α) (k : Nat) (v d : α) : ∀ e ∈ tset m k v d, e ∈ m ∨ (e = (k, v) ∧ v ≠ d) := by
  unfold tset; split
  · intro e he; left
    induction m with
    | nil => simp [tdel] at he
    | cons x m ih =>
      obtain ⟨j, u⟩ := x; unfold tdel at he; split at he
      · exact List.mem_cons_of_mem _ (ih he)
      · rcases List.mem_cons.mp he with h | h
        · rw [h]; exact List.mem_cons_self
        · exact List.mem_cons_of_mem _ (ih h)
  · rename_i hv
    intro e he
    induction m with
    | nil => simp [tput] at he; exact .inr ⟨he, hv⟩
    | cons x m ih =>
      obtain ⟨j, u⟩ := x; unfold tput at he; split at he
      · rcases List.mem_cons.mp he with h | h
        · left; rw [h]; exact List.mem_cons_self
        · rcases ih h with h | h
          · exact .inl (List.mem_cons_of_mem _ h)
          · exact .inr h
      · split at he
        · rcases List.mem_cons.mp he with h | h
          · exact .inr ⟨h, hv⟩
          · exact .inl (List.mem_cons_of_mem _ h)
        · rcases List.mem_cons.mp he with h | h
          · exact .inr ⟨h, hv⟩
          · exact .inl h
theorem pw_tset {α : Type} [DecidableEq α] (m : Table α) (k : Nat) (v d : α) (h : (m.map (·.1)).Pairwise (· < ·)) : ((tset m k v d).map (·.1)).Pairwise (· < ·) := by
  unfold tset; split
  · exact (pw_tdel m k h).1
  · exact pw_tput m k v h

/-- Reading the key just set. -/
@[simp] theorem tget_tput_self {α : Type} (m : Table α) (k : Nat) (v d : α) : tget (tput m k v) k d = v := by
  induction m with
  | nil => simp [tput, tget]
  | cons e m ih =>
    obtain ⟨i, u⟩ := e
    unfold tput; split
    · rename_i h; have : i ≠ k := by omega
      simp only [tget, this, if_false, ih]
    · split <;> simp [tget]
/-- A key that is not the one put reads as before. -/
theorem tget_tput_ne {α : Type} (m : Table α) (k j : Nat) (v d : α) (h : j ≠ k) : tget (tput m k v) j d = tget m j d := by
  induction m with
  | nil => simp [tput, tget, Ne.symm h]
  | cons e m ih =>
    obtain ⟨i, u⟩ := e
    unfold tput; split
    · simp only [tget, ih]
    · split
      · rename_i g; subst g; simp [tget, Ne.symm h]
      · simp [tget, Ne.symm h]
@[simp] theorem tget_tdel_self {α : Type} (m : Table α) (k : Nat) (d : α) : tget (tdel m k) k d = d := by
  induction m with
  | nil => rfl
  | cons e m ih =>
    obtain ⟨i, u⟩ := e
    unfold tdel; split
    · exact ih
    · rename_i h; simp only [tget, h, if_false, ih]
theorem tget_tdel_ne {α : Type} (m : Table α) (k j : Nat) (d : α) (h : j ≠ k) : tget (tdel m k) j d = tget m j d := by
  induction m with
  | nil => rfl
  | cons e m ih =>
    obtain ⟨i, u⟩ := e
    unfold tdel; split
    · rename_i g; subst g; simp only [tget, Ne.symm h, if_false, ih]
    · simp only [tget, ih]
@[simp] theorem tget_tset_self {α : Type} [DecidableEq α] (m : Table α) (k : Nat) (v d : α) : tget (tset m k v d) k d = v := by
  unfold tset; split
  · rename_i h; rw [tget_tdel_self, h]
  · exact tget_tput_self m k v d
theorem tget_tset_ne {α : Type} [DecidableEq α] (m : Table α) (k j : Nat) (v d : α) (h : j ≠ k) : tget (tset m k v d) j d = tget m j d := by
  unfold tset; split
  · exact tget_tdel_ne m k j d h
  · exact tget_tput_ne m k j v d h
/-- Only the tile set changes. -/
theorem tile_setTile (t k : Nat) (r : TileRec) (s : State) : tile (setTile t r s) k = if k = t then r else tile s k := by
  unfold tile setTile; split
  · rename_i h; subst h; exact tget_tset_self _ _ _ _
  · rename_i h; exact tget_tset_ne _ _ _ _ _ h
theorem lane_setLane (l k : Nat) (r : LaneRec) (s : State) : lane (setLane l r s) k = if k = l then r else lane s k := by
  unfold lane setLane; split
  · rename_i h; subst h; exact tget_tset_self _ _ _ _
  · rename_i h; exact tget_tset_ne _ _ _ _ _ h
theorem link_setLink (l k : Nat) (r : Link) (s : State) : link (setLink l r s) k = if k = l then r else link s k := by
  unfold link setLink; split
  · rename_i h; subst h; exact tget_tset_self _ _ _ _
  · rename_i h; exact tget_tset_ne _ _ _ _ _ h
theorem hbm_setHbm (l k : Nat) (r : StackRec) (s : State) : hbm (setHbm l r s) k = if k = l then r else hbm s k := by
  unfold hbm setHbm; split
  · rename_i h; subst h; exact tget_tset_self _ _ _ _
  · rename_i h; exact tget_tset_ne _ _ _ _ _ h
theorem dlink_setDlink (l k : Nat) (r : DLink) (s : State) : dlink (setDlink l r s) k = if k = l then r else dlink s k := by
  unfold dlink setDlink; split
  · rename_i h; subst h; exact tget_tset_self _ _ _ _
  · rename_i h; exact tget_tset_ne _ _ _ _ _ h
theorem notch_setNotch (l k : Nat) (r : Notch) (s : State) : notch (setNotch l r s) k = if k = l then r else notch s k := by
  unfold notch setNotch; split
  · rename_i h; subst h; exact tget_tset_self _ _ _ _
  · rename_i h; exact tget_tset_ne _ _ _ _ _ h

end Sys2Proof.Machine
end

