-- ==== Sys2Proof/Laws/Memory.lean ====
section
/-! SUPPORT. Memory: every operation keeps the canonical form, the reset state has it, and a byte reads as last written. -/
namespace Sys2Proof.Machine
open Sys2Proof

@[simp] theorem writeByte_bist (m a b) : (writeByte m a b).bist = m.bist := rfl
@[simp] theorem writeByte_wf (m : Mem) (a b) (h : cellsWf m.bist m.cells = true) : cellsWf m.bist (writeByte m a b).cells = true := by
  unfold cellsWf at h ⊢
  simp only [Bool.and_eq_true, decide_eq_true_eq, List.all_eq_true, bne_iff_ne] at h ⊢
  refine ⟨pw_tset _ _ _ _ h.1, fun c hc => ?_⟩
  rcases tset_mem _ _ _ _ c hc with g | ⟨g, g'⟩
  · exact h.2 c g
  · rw [g]; exact g'
theorem writeBytes_wf (a : Nat) (bs) : ∀ (m : Mem) (a), (writeBytes m a bs).bist = m.bist ∧ (cellsWf m.bist m.cells = true → cellsWf m.bist (writeBytes m a bs).cells = true) := by
  induction bs with
  | nil => intro m a; exact ⟨rfl, id⟩
  | cons b bs ih =>
    intro m a
    obtain ⟨h, g⟩ := ih (writeByte m a b) (a + 1)
    exact ⟨h, fun w => g (writeByte_wf m a b w)⟩
@[simp] theorem writeMem_wf (m : Mem) (a : Nat) (bs) : (writeMem m a bs).bist = m.bist ∧ (cellsWf m.bist m.cells = true → cellsWf m.bist (writeMem m a bs).cells = true) := writeBytes_wf a bs m a
@[simp] theorem poisonAt_cells (m : Mem) (a : Nat) : (poisonAt m a).bist = m.bist ∧ (poisonAt m a).cells = m.cells := ⟨rfl, rfl⟩
theorem poison_fold (bad : List Nat) (a) : ∀ m : Mem, (bad.foldl (fun m i => poisonAt m (a + i)) m).bist = m.bist ∧ (bad.foldl (fun m i => poisonAt m (a + i)) m).cells = m.cells := by
  induction bad with
  | nil => intro m; exact ⟨rfl, rfl⟩
  | cons b bs ih => intro m; exact ih (poisonAt m (a + b))
@[simp] theorem writePoison_wf (m : Mem) (a : Nat) (bs bad) : (writePoison m a bs bad).bist = m.bist ∧ (cellsWf m.bist m.cells = true → cellsWf m.bist (writePoison m a bs bad).cells = true) := by
  unfold writePoison
  obtain ⟨h, g⟩ := poison_fold bad a (writeMem m a bs)
  rw [h, g]; exact writeMem_wf m a bs
@[simp] theorem copyMem_wf (m : Mem) (a b n : Nat) : (copyMem m a b n).bist = m.bist ∧ (cellsWf m.bist m.cells = true → cellsWf m.bist (copyMem m a b n).cells = true) := writePoison_wf _ _ _ _
theorem filter_wf (b) (l : List Host.Cell) (f) (h : cellsWf b l = true) : cellsWf b (l.filter f) = true := by
  unfold cellsWf at h ⊢
  simp only [Bool.and_eq_true, decide_eq_true_eq, List.all_eq_true, bne_iff_ne] at h ⊢
  exact ⟨h.1.sublist (List.filter_sublist.map _), fun c hc => h.2 c (List.mem_of_mem_filter hc)⟩
@[simp] theorem zeroRange_wf (m : Mem) (a n : Nat) : (zeroRange m a n).bist = m.bist ∧ (cellsWf m.bist m.cells = true → cellsWf m.bist (zeroRange m a n).cells = true) :=
  ⟨rfl, filter_wf _ _ _⟩


/-- The reset state's memory is in canonical form. -/
theorem reset_memory_wf : Memory.wf State.reset.mem = true := rfl
/-- A byte reads as last written. -/
theorem readByte_writeByte (m : Mem) (a b : Nat) (v : Byte) : readByte (writeByte m a v) b = if b = a then v else readByte m b := by
  unfold readByte writeByte; split
  · rename_i h; subst h; exact tget_tset_self _ _ _ _
  · rename_i h; show tget (tset m.cells a v (blankByte m a)) b (blankByte m b) = _
    unfold tset; split
    · exact tget_tdel_ne _ _ _ _ h
    · exact tget_tput_ne _ _ _ _ _ h
end Sys2Proof.Machine
end

