-- ==== Sys2Proof/Laws/State.lean ====
section
/-! SUPPORT. What each update of the state leaves and what it changes, one lemma a field. -/
namespace Sys2Proof.Machine
open Sys2Proof

@[simp] theorem setTile_pending (t : Nat) (r : TileRec) (s : State) : (setTile t r s).pending = s.pending := rfl
@[simp] theorem setTile_time (t : Nat) (r : TileRec) (s : State) : (setTile t r s).time = s.time := rfl
@[simp] theorem setTile_draws (t : Nat) (r : TileRec) (s : State) : (setTile t r s).draws = s.draws := rfl
@[simp] theorem setTile_out (t : Nat) (r : TileRec) (s : State) : (setTile t r s).out = s.out := rfl
@[simp] theorem setTile_faults (t : Nat) (r : TileRec) (s : State) : (setTile t r s).faults = s.faults := rfl
@[simp] theorem setTile_pins (t : Nat) (r : TileRec) (s : State) : (setTile t r s).pins = s.pins := rfl
@[simp] theorem setTile_dev (t : Nat) (r : TileRec) (s : State) : (setTile t r s).dev = s.dev := rfl
@[simp] theorem setTile_heat (t : Nat) (r : TileRec) (s : State) : (setTile t r s).heat = s.heat := rfl
@[simp] theorem setTile_bark (t : Nat) (r : TileRec) (s : State) : (setTile t r s).bark = s.bark := rfl
@[simp] theorem setTile_stump (t : Nat) (r : TileRec) (s : State) : (setTile t r s).stump = s.stump := rfl
@[simp] theorem setTile_optics (t : Nat) (r : TileRec) (s : State) : (setTile t r s).optics = s.optics := rfl
@[simp] theorem setTile_stacking (t : Nat) (r : TileRec) (s : State) : (setTile t r s).stacking = s.stacking := rfl
@[simp] theorem setTile_fabric (t : Nat) (r : TileRec) (s : State) : (setTile t r s).fabric = s.fabric := rfl
@[simp] theorem setTile_remote (t : Nat) (r : TileRec) (s : State) : (setTile t r s).remote = s.remote := rfl
@[simp] theorem setTile_mem (t : Nat) (r : TileRec) (s : State) : (setTile t r s).mem = s.mem := rfl
@[simp] theorem setTile_mtc (t : Nat) (r : TileRec) (s : State) : (setTile t r s).mtc = s.mtc := rfl
@[simp] theorem setTile_job (t : Nat) (r : TileRec) (s : State) : (setTile t r s).job = s.job := rfl
@[simp] theorem setTile_recov (t : Nat) (r : TileRec) (s : State) : (setTile t r s).recov = s.recov := rfl
@[simp] theorem setTile_flume (t : Nat) (r : TileRec) (s : State) : (setTile t r s).flume = s.flume := rfl
@[simp] theorem setTile_hauler (t : Nat) (r : TileRec) (s : State) : (setTile t r s).hauler = s.hauler := rfl
@[simp] theorem setTile_regs (t : Nat) (r : TileRec) (s : State) : (setTile t r s).regs = s.regs := rfl
@[simp] theorem setTile_jtag (t : Nat) (r : TileRec) (s : State) : (setTile t r s).jtag = s.jtag := rfl
@[simp] theorem setLane_pending (l : Nat) (r : LaneRec) (s : State) : (setLane l r s).pending = s.pending := rfl
@[simp] theorem setLane_time (l : Nat) (r : LaneRec) (s : State) : (setLane l r s).time = s.time := rfl
@[simp] theorem setLane_draws (l : Nat) (r : LaneRec) (s : State) : (setLane l r s).draws = s.draws := rfl
@[simp] theorem setLane_out (l : Nat) (r : LaneRec) (s : State) : (setLane l r s).out = s.out := rfl
@[simp] theorem setLane_faults (l : Nat) (r : LaneRec) (s : State) : (setLane l r s).faults = s.faults := rfl
@[simp] theorem setLane_pins (l : Nat) (r : LaneRec) (s : State) : (setLane l r s).pins = s.pins := rfl
@[simp] theorem setLane_dev (l : Nat) (r : LaneRec) (s : State) : (setLane l r s).dev = s.dev := rfl
@[simp] theorem setLane_heat (l : Nat) (r : LaneRec) (s : State) : (setLane l r s).heat = s.heat := rfl
@[simp] theorem setLane_bark (l : Nat) (r : LaneRec) (s : State) : (setLane l r s).bark = s.bark := rfl
@[simp] theorem setLane_stump (l : Nat) (r : LaneRec) (s : State) : (setLane l r s).stump = s.stump := rfl
@[simp] theorem setLane_stacking (l : Nat) (r : LaneRec) (s : State) : (setLane l r s).stacking = s.stacking := rfl
@[simp] theorem setLane_fabric (l : Nat) (r : LaneRec) (s : State) : (setLane l r s).fabric = s.fabric := rfl
@[simp] theorem setLane_remote (l : Nat) (r : LaneRec) (s : State) : (setLane l r s).remote = s.remote := rfl
@[simp] theorem setLane_tiles (l : Nat) (r : LaneRec) (s : State) : (setLane l r s).tiles = s.tiles := rfl
@[simp] theorem setLane_mem (l : Nat) (r : LaneRec) (s : State) : (setLane l r s).mem = s.mem := rfl
@[simp] theorem setLane_mtc (l : Nat) (r : LaneRec) (s : State) : (setLane l r s).mtc = s.mtc := rfl
@[simp] theorem setLane_job (l : Nat) (r : LaneRec) (s : State) : (setLane l r s).job = s.job := rfl
@[simp] theorem setLane_recov (l : Nat) (r : LaneRec) (s : State) : (setLane l r s).recov = s.recov := rfl
@[simp] theorem setLane_flume (l : Nat) (r : LaneRec) (s : State) : (setLane l r s).flume = s.flume := rfl
@[simp] theorem setLane_hauler (l : Nat) (r : LaneRec) (s : State) : (setLane l r s).hauler = s.hauler := rfl
@[simp] theorem setLane_regs (l : Nat) (r : LaneRec) (s : State) : (setLane l r s).regs = s.regs := rfl
@[simp] theorem setLane_jtag (l : Nat) (r : LaneRec) (s : State) : (setLane l r s).jtag = s.jtag := rfl
@[simp] theorem setLink_pending (k : Nat) (r : Link) (s : State) : (setLink k r s).pending = s.pending := rfl
@[simp] theorem setLink_time (k : Nat) (r : Link) (s : State) : (setLink k r s).time = s.time := rfl
@[simp] theorem setLink_draws (k : Nat) (r : Link) (s : State) : (setLink k r s).draws = s.draws := rfl
@[simp] theorem setLink_out (k : Nat) (r : Link) (s : State) : (setLink k r s).out = s.out := rfl
@[simp] theorem setLink_faults (k : Nat) (r : Link) (s : State) : (setLink k r s).faults = s.faults := rfl
@[simp] theorem setLink_pins (k : Nat) (r : Link) (s : State) : (setLink k r s).pins = s.pins := rfl
@[simp] theorem setLink_dev (k : Nat) (r : Link) (s : State) : (setLink k r s).dev = s.dev := rfl
@[simp] theorem setLink_heat (k : Nat) (r : Link) (s : State) : (setLink k r s).heat = s.heat := rfl
@[simp] theorem setLink_bark (k : Nat) (r : Link) (s : State) : (setLink k r s).bark = s.bark := rfl
@[simp] theorem setLink_stump (k : Nat) (r : Link) (s : State) : (setLink k r s).stump = s.stump := rfl
@[simp] theorem setLink_stacking (k : Nat) (r : Link) (s : State) : (setLink k r s).stacking = s.stacking := rfl
@[simp] theorem setLink_fabric (k : Nat) (r : Link) (s : State) : (setLink k r s).fabric = s.fabric := rfl
@[simp] theorem setLink_remote (k : Nat) (r : Link) (s : State) : (setLink k r s).remote = s.remote := rfl
@[simp] theorem setLink_tiles (k : Nat) (r : Link) (s : State) : (setLink k r s).tiles = s.tiles := rfl
@[simp] theorem setLink_mem (k : Nat) (r : Link) (s : State) : (setLink k r s).mem = s.mem := rfl
@[simp] theorem setLink_mtc (k : Nat) (r : Link) (s : State) : (setLink k r s).mtc = s.mtc := rfl
@[simp] theorem setLink_job (k : Nat) (r : Link) (s : State) : (setLink k r s).job = s.job := rfl
@[simp] theorem setLink_recov (k : Nat) (r : Link) (s : State) : (setLink k r s).recov = s.recov := rfl
@[simp] theorem setLink_flume (k : Nat) (r : Link) (s : State) : (setLink k r s).flume = s.flume := rfl
@[simp] theorem setLink_hauler (k : Nat) (r : Link) (s : State) : (setLink k r s).hauler = s.hauler := rfl
@[simp] theorem setLink_regs (k : Nat) (r : Link) (s : State) : (setLink k r s).regs = s.regs := rfl
@[simp] theorem setLink_jtag (k : Nat) (r : Link) (s : State) : (setLink k r s).jtag = s.jtag := rfl
@[simp] theorem setHbm_pending (m : Nat) (r : StackRec) (s : State) : (setHbm m r s).pending = s.pending := rfl
@[simp] theorem setHbm_time (m : Nat) (r : StackRec) (s : State) : (setHbm m r s).time = s.time := rfl
@[simp] theorem setHbm_draws (m : Nat) (r : StackRec) (s : State) : (setHbm m r s).draws = s.draws := rfl
@[simp] theorem setHbm_out (m : Nat) (r : StackRec) (s : State) : (setHbm m r s).out = s.out := rfl
@[simp] theorem setHbm_faults (m : Nat) (r : StackRec) (s : State) : (setHbm m r s).faults = s.faults := rfl
@[simp] theorem setHbm_pins (m : Nat) (r : StackRec) (s : State) : (setHbm m r s).pins = s.pins := rfl
@[simp] theorem setHbm_dev (m : Nat) (r : StackRec) (s : State) : (setHbm m r s).dev = s.dev := rfl
@[simp] theorem setHbm_heat (m : Nat) (r : StackRec) (s : State) : (setHbm m r s).heat = s.heat := rfl
@[simp] theorem setHbm_bark (m : Nat) (r : StackRec) (s : State) : (setHbm m r s).bark = s.bark := rfl
@[simp] theorem setHbm_stump (m : Nat) (r : StackRec) (s : State) : (setHbm m r s).stump = s.stump := rfl
@[simp] theorem setHbm_optics (m : Nat) (r : StackRec) (s : State) : (setHbm m r s).optics = s.optics := rfl
@[simp] theorem setHbm_stacking (m : Nat) (r : StackRec) (s : State) : (setHbm m r s).stacking = s.stacking := rfl
@[simp] theorem setHbm_fabric (m : Nat) (r : StackRec) (s : State) : (setHbm m r s).fabric = s.fabric := rfl
@[simp] theorem setHbm_remote (m : Nat) (r : StackRec) (s : State) : (setHbm m r s).remote = s.remote := rfl
@[simp] theorem setHbm_tiles (m : Nat) (r : StackRec) (s : State) : (setHbm m r s).tiles = s.tiles := rfl
@[simp] theorem setHbm_mtc (m : Nat) (r : StackRec) (s : State) : (setHbm m r s).mtc = s.mtc := rfl
@[simp] theorem setHbm_job (m : Nat) (r : StackRec) (s : State) : (setHbm m r s).job = s.job := rfl
@[simp] theorem setHbm_recov (m : Nat) (r : StackRec) (s : State) : (setHbm m r s).recov = s.recov := rfl
@[simp] theorem setHbm_flume (m : Nat) (r : StackRec) (s : State) : (setHbm m r s).flume = s.flume := rfl
@[simp] theorem setHbm_hauler (m : Nat) (r : StackRec) (s : State) : (setHbm m r s).hauler = s.hauler := rfl
@[simp] theorem setHbm_regs (m : Nat) (r : StackRec) (s : State) : (setHbm m r s).regs = s.regs := rfl
@[simp] theorem setHbm_jtag (m : Nat) (r : StackRec) (s : State) : (setHbm m r s).jtag = s.jtag := rfl
@[simp] theorem setDlink_pending (k : Nat) (r : DLink) (s : State) : (setDlink k r s).pending = s.pending := rfl
@[simp] theorem setDlink_time (k : Nat) (r : DLink) (s : State) : (setDlink k r s).time = s.time := rfl
@[simp] theorem setDlink_draws (k : Nat) (r : DLink) (s : State) : (setDlink k r s).draws = s.draws := rfl
@[simp] theorem setDlink_out (k : Nat) (r : DLink) (s : State) : (setDlink k r s).out = s.out := rfl
@[simp] theorem setDlink_faults (k : Nat) (r : DLink) (s : State) : (setDlink k r s).faults = s.faults := rfl
@[simp] theorem setDlink_pins (k : Nat) (r : DLink) (s : State) : (setDlink k r s).pins = s.pins := rfl
@[simp] theorem setDlink_dev (k : Nat) (r : DLink) (s : State) : (setDlink k r s).dev = s.dev := rfl
@[simp] theorem setDlink_heat (k : Nat) (r : DLink) (s : State) : (setDlink k r s).heat = s.heat := rfl
@[simp] theorem setDlink_bark (k : Nat) (r : DLink) (s : State) : (setDlink k r s).bark = s.bark := rfl
@[simp] theorem setDlink_stump (k : Nat) (r : DLink) (s : State) : (setDlink k r s).stump = s.stump := rfl
@[simp] theorem setDlink_optics (k : Nat) (r : DLink) (s : State) : (setDlink k r s).optics = s.optics := rfl
@[simp] theorem setDlink_fabric (k : Nat) (r : DLink) (s : State) : (setDlink k r s).fabric = s.fabric := rfl
@[simp] theorem setDlink_remote (k : Nat) (r : DLink) (s : State) : (setDlink k r s).remote = s.remote := rfl
@[simp] theorem setDlink_tiles (k : Nat) (r : DLink) (s : State) : (setDlink k r s).tiles = s.tiles := rfl
@[simp] theorem setDlink_mem (k : Nat) (r : DLink) (s : State) : (setDlink k r s).mem = s.mem := rfl
@[simp] theorem setDlink_mtc (k : Nat) (r : DLink) (s : State) : (setDlink k r s).mtc = s.mtc := rfl
@[simp] theorem setDlink_job (k : Nat) (r : DLink) (s : State) : (setDlink k r s).job = s.job := rfl
@[simp] theorem setDlink_recov (k : Nat) (r : DLink) (s : State) : (setDlink k r s).recov = s.recov := rfl
@[simp] theorem setDlink_flume (k : Nat) (r : DLink) (s : State) : (setDlink k r s).flume = s.flume := rfl
@[simp] theorem setDlink_hauler (k : Nat) (r : DLink) (s : State) : (setDlink k r s).hauler = s.hauler := rfl
@[simp] theorem setDlink_regs (k : Nat) (r : DLink) (s : State) : (setDlink k r s).regs = s.regs := rfl
@[simp] theorem setDlink_jtag (k : Nat) (r : DLink) (s : State) : (setDlink k r s).jtag = s.jtag := rfl
@[simp] theorem setNotch_pending (q : Nat) (r : Notch) (s : State) : (setNotch q r s).pending = s.pending := rfl
@[simp] theorem setNotch_time (q : Nat) (r : Notch) (s : State) : (setNotch q r s).time = s.time := rfl
@[simp] theorem setNotch_draws (q : Nat) (r : Notch) (s : State) : (setNotch q r s).draws = s.draws := rfl
@[simp] theorem setNotch_out (q : Nat) (r : Notch) (s : State) : (setNotch q r s).out = s.out := rfl
@[simp] theorem setNotch_faults (q : Nat) (r : Notch) (s : State) : (setNotch q r s).faults = s.faults := rfl
@[simp] theorem setNotch_pins (q : Nat) (r : Notch) (s : State) : (setNotch q r s).pins = s.pins := rfl
@[simp] theorem setNotch_dev (q : Nat) (r : Notch) (s : State) : (setNotch q r s).dev = s.dev := rfl
@[simp] theorem setNotch_bark (q : Nat) (r : Notch) (s : State) : (setNotch q r s).bark = s.bark := rfl
@[simp] theorem setNotch_stump (q : Nat) (r : Notch) (s : State) : (setNotch q r s).stump = s.stump := rfl
@[simp] theorem setNotch_optics (q : Nat) (r : Notch) (s : State) : (setNotch q r s).optics = s.optics := rfl
@[simp] theorem setNotch_stacking (q : Nat) (r : Notch) (s : State) : (setNotch q r s).stacking = s.stacking := rfl
@[simp] theorem setNotch_fabric (q : Nat) (r : Notch) (s : State) : (setNotch q r s).fabric = s.fabric := rfl
@[simp] theorem setNotch_remote (q : Nat) (r : Notch) (s : State) : (setNotch q r s).remote = s.remote := rfl
@[simp] theorem setNotch_tiles (q : Nat) (r : Notch) (s : State) : (setNotch q r s).tiles = s.tiles := rfl
@[simp] theorem setNotch_mem (q : Nat) (r : Notch) (s : State) : (setNotch q r s).mem = s.mem := rfl
@[simp] theorem setNotch_mtc (q : Nat) (r : Notch) (s : State) : (setNotch q r s).mtc = s.mtc := rfl
@[simp] theorem setNotch_job (q : Nat) (r : Notch) (s : State) : (setNotch q r s).job = s.job := rfl
@[simp] theorem setNotch_recov (q : Nat) (r : Notch) (s : State) : (setNotch q r s).recov = s.recov := rfl
@[simp] theorem setNotch_flume (q : Nat) (r : Notch) (s : State) : (setNotch q r s).flume = s.flume := rfl
@[simp] theorem setNotch_hauler (q : Nat) (r : Notch) (s : State) : (setNotch q r s).hauler = s.hauler := rfl
@[simp] theorem setNotch_regs (q : Nat) (r : Notch) (s : State) : (setNotch q r s).regs = s.regs := rfl
@[simp] theorem setNotch_jtag (q : Nat) (r : Notch) (s : State) : (setNotch q r s).jtag = s.jtag := rfl
@[simp] theorem emit_pending (o : Out) (s : State) : (emit o s).pending = s.pending := rfl
@[simp] theorem emit_time (o : Out) (s : State) : (emit o s).time = s.time := rfl
@[simp] theorem emit_draws (o : Out) (s : State) : (emit o s).draws = s.draws := rfl
@[simp] theorem emit_faults (o : Out) (s : State) : (emit o s).faults = s.faults := rfl
@[simp] theorem emit_pins (o : Out) (s : State) : (emit o s).pins = s.pins := rfl
@[simp] theorem emit_dev (o : Out) (s : State) : (emit o s).dev = s.dev := rfl
@[simp] theorem emit_heat (o : Out) (s : State) : (emit o s).heat = s.heat := rfl
@[simp] theorem emit_bark (o : Out) (s : State) : (emit o s).bark = s.bark := rfl
@[simp] theorem emit_stump (o : Out) (s : State) : (emit o s).stump = s.stump := rfl
@[simp] theorem emit_optics (o : Out) (s : State) : (emit o s).optics = s.optics := rfl
@[simp] theorem emit_stacking (o : Out) (s : State) : (emit o s).stacking = s.stacking := rfl
@[simp] theorem emit_fabric (o : Out) (s : State) : (emit o s).fabric = s.fabric := rfl
@[simp] theorem emit_remote (o : Out) (s : State) : (emit o s).remote = s.remote := rfl
@[simp] theorem emit_tiles (o : Out) (s : State) : (emit o s).tiles = s.tiles := rfl
@[simp] theorem emit_mem (o : Out) (s : State) : (emit o s).mem = s.mem := rfl
@[simp] theorem emit_mtc (o : Out) (s : State) : (emit o s).mtc = s.mtc := rfl
@[simp] theorem emit_job (o : Out) (s : State) : (emit o s).job = s.job := rfl
@[simp] theorem emit_recov (o : Out) (s : State) : (emit o s).recov = s.recov := rfl
@[simp] theorem emit_flume (o : Out) (s : State) : (emit o s).flume = s.flume := rfl
@[simp] theorem emit_hauler (o : Out) (s : State) : (emit o s).hauler = s.hauler := rfl
@[simp] theorem emit_regs (o : Out) (s : State) : (emit o s).regs = s.regs := rfl
@[simp] theorem emit_jtag (o : Out) (s : State) : (emit o s).jtag = s.jtag := rfl
@[simp] theorem withConns_pending (r : Table Conn × List Out) (s : State) : (withConns r s).pending = s.pending := rfl
@[simp] theorem withConns_time (r : Table Conn × List Out) (s : State) : (withConns r s).time = s.time := rfl
@[simp] theorem withConns_draws (r : Table Conn × List Out) (s : State) : (withConns r s).draws = s.draws := rfl
@[simp] theorem withConns_faults (r : Table Conn × List Out) (s : State) : (withConns r s).faults = s.faults := rfl
@[simp] theorem withConns_pins (r : Table Conn × List Out) (s : State) : (withConns r s).pins = s.pins := rfl
@[simp] theorem withConns_dev (r : Table Conn × List Out) (s : State) : (withConns r s).dev = s.dev := rfl
@[simp] theorem withConns_heat (r : Table Conn × List Out) (s : State) : (withConns r s).heat = s.heat := rfl
@[simp] theorem withConns_bark (r : Table Conn × List Out) (s : State) : (withConns r s).bark = s.bark := rfl
@[simp] theorem withConns_stump (r : Table Conn × List Out) (s : State) : (withConns r s).stump = s.stump := rfl
@[simp] theorem withConns_optics (r : Table Conn × List Out) (s : State) : (withConns r s).optics = s.optics := rfl
@[simp] theorem withConns_stacking (r : Table Conn × List Out) (s : State) : (withConns r s).stacking = s.stacking := rfl
@[simp] theorem withConns_fabric (r : Table Conn × List Out) (s : State) : (withConns r s).fabric = s.fabric := rfl
@[simp] theorem withConns_remote (r : Table Conn × List Out) (s : State) : (withConns r s).remote = s.remote := rfl
@[simp] theorem withConns_tiles (r : Table Conn × List Out) (s : State) : (withConns r s).tiles = s.tiles := rfl
@[simp] theorem withConns_mem (r : Table Conn × List Out) (s : State) : (withConns r s).mem = s.mem := rfl
@[simp] theorem withConns_mtc (r : Table Conn × List Out) (s : State) : (withConns r s).mtc = s.mtc := rfl
@[simp] theorem withConns_job (r : Table Conn × List Out) (s : State) : (withConns r s).job = s.job := rfl
@[simp] theorem withConns_recov (r : Table Conn × List Out) (s : State) : (withConns r s).recov = s.recov := rfl
@[simp] theorem withConns_flume (r : Table Conn × List Out) (s : State) : (withConns r s).flume = s.flume := rfl
@[simp] theorem withConns_regs (r : Table Conn × List Out) (s : State) : (withConns r s).regs = s.regs := rfl
@[simp] theorem withConns_jtag (r : Table Conn × List Out) (s : State) : (withConns r s).jtag = s.jtag := rfl
@[simp] theorem writeRec_pending (f : FaultRec) (s : State) : (writeRec f s).pending = s.pending := rfl
@[simp] theorem writeRec_time (f : FaultRec) (s : State) : (writeRec f s).time = s.time := rfl
@[simp] theorem writeRec_draws (f : FaultRec) (s : State) : (writeRec f s).draws = s.draws := rfl
@[simp] theorem writeRec_out (f : FaultRec) (s : State) : (writeRec f s).out = s.out := rfl
@[simp] theorem writeRec_pins (f : FaultRec) (s : State) : (writeRec f s).pins = s.pins := rfl
@[simp] theorem writeRec_heat (f : FaultRec) (s : State) : (writeRec f s).heat = s.heat := rfl
@[simp] theorem writeRec_bark (f : FaultRec) (s : State) : (writeRec f s).bark = s.bark := rfl
@[simp] theorem writeRec_stump (f : FaultRec) (s : State) : (writeRec f s).stump = s.stump := rfl
@[simp] theorem writeRec_optics (f : FaultRec) (s : State) : (writeRec f s).optics = s.optics := rfl
@[simp] theorem writeRec_stacking (f : FaultRec) (s : State) : (writeRec f s).stacking = s.stacking := rfl
@[simp] theorem writeRec_fabric (f : FaultRec) (s : State) : (writeRec f s).fabric = s.fabric := rfl
@[simp] theorem writeRec_remote (f : FaultRec) (s : State) : (writeRec f s).remote = s.remote := rfl
@[simp] theorem writeRec_tiles (f : FaultRec) (s : State) : (writeRec f s).tiles = s.tiles := rfl
@[simp] theorem writeRec_mem (f : FaultRec) (s : State) : (writeRec f s).mem = s.mem := rfl
@[simp] theorem writeRec_mtc (f : FaultRec) (s : State) : (writeRec f s).mtc = s.mtc := rfl
@[simp] theorem writeRec_job (f : FaultRec) (s : State) : (writeRec f s).job = s.job := rfl
@[simp] theorem writeRec_recov (f : FaultRec) (s : State) : (writeRec f s).recov = s.recov := rfl
@[simp] theorem writeRec_flume (f : FaultRec) (s : State) : (writeRec f s).flume = s.flume := rfl
@[simp] theorem writeRec_hauler (f : FaultRec) (s : State) : (writeRec f s).hauler = s.hauler := rfl
@[simp] theorem writeRec_jtag (f : FaultRec) (s : State) : (writeRec f s).jtag = s.jtag := rfl
@[simp] theorem ledgerEvent_pending (die kind band fp : Nat) (f : FaultRec) (s : State) : (ledgerEvent die kind band fp f s).pending = s.pending := rfl
@[simp] theorem ledgerEvent_time (die kind band fp : Nat) (f : FaultRec) (s : State) : (ledgerEvent die kind band fp f s).time = s.time := rfl
@[simp] theorem ledgerEvent_draws (die kind band fp : Nat) (f : FaultRec) (s : State) : (ledgerEvent die kind band fp f s).draws = s.draws := rfl
@[simp] theorem ledgerEvent_out (die kind band fp : Nat) (f : FaultRec) (s : State) : (ledgerEvent die kind band fp f s).out = s.out := rfl
@[simp] theorem ledgerEvent_faults (die kind band fp : Nat) (f : FaultRec) (s : State) : (ledgerEvent die kind band fp f s).faults = s.faults := rfl
@[simp] theorem ledgerEvent_pins (die kind band fp : Nat) (f : FaultRec) (s : State) : (ledgerEvent die kind band fp f s).pins = s.pins := rfl
@[simp] theorem ledgerEvent_dev (die kind band fp : Nat) (f : FaultRec) (s : State) : (ledgerEvent die kind band fp f s).dev = s.dev := rfl
@[simp] theorem ledgerEvent_heat (die kind band fp : Nat) (f : FaultRec) (s : State) : (ledgerEvent die kind band fp f s).heat = s.heat := rfl
@[simp] theorem ledgerEvent_stump (die kind band fp : Nat) (f : FaultRec) (s : State) : (ledgerEvent die kind band fp f s).stump = s.stump := rfl
@[simp] theorem ledgerEvent_optics (die kind band fp : Nat) (f : FaultRec) (s : State) : (ledgerEvent die kind band fp f s).optics = s.optics := rfl
@[simp] theorem ledgerEvent_stacking (die kind band fp : Nat) (f : FaultRec) (s : State) : (ledgerEvent die kind band fp f s).stacking = s.stacking := rfl
@[simp] theorem ledgerEvent_fabric (die kind band fp : Nat) (f : FaultRec) (s : State) : (ledgerEvent die kind band fp f s).fabric = s.fabric := rfl
@[simp] theorem ledgerEvent_remote (die kind band fp : Nat) (f : FaultRec) (s : State) : (ledgerEvent die kind band fp f s).remote = s.remote := rfl
@[simp] theorem ledgerEvent_tiles (die kind band fp : Nat) (f : FaultRec) (s : State) : (ledgerEvent die kind band fp f s).tiles = s.tiles := rfl
@[simp] theorem ledgerEvent_mem (die kind band fp : Nat) (f : FaultRec) (s : State) : (ledgerEvent die kind band fp f s).mem = s.mem := rfl
@[simp] theorem ledgerEvent_mtc (die kind band fp : Nat) (f : FaultRec) (s : State) : (ledgerEvent die kind band fp f s).mtc = s.mtc := rfl
@[simp] theorem ledgerEvent_job (die kind band fp : Nat) (f : FaultRec) (s : State) : (ledgerEvent die kind band fp f s).job = s.job := rfl
@[simp] theorem ledgerEvent_recov (die kind band fp : Nat) (f : FaultRec) (s : State) : (ledgerEvent die kind band fp f s).recov = s.recov := rfl
@[simp] theorem ledgerEvent_flume (die kind band fp : Nat) (f : FaultRec) (s : State) : (ledgerEvent die kind band fp f s).flume = s.flume := rfl
@[simp] theorem ledgerEvent_hauler (die kind band fp : Nat) (f : FaultRec) (s : State) : (ledgerEvent die kind band fp f s).hauler = s.hauler := rfl
@[simp] theorem ledgerEvent_regs (die kind band fp : Nat) (f : FaultRec) (s : State) : (ledgerEvent die kind band fp f s).regs = s.regs := rfl
@[simp] theorem ledgerEvent_jtag (die kind band fp : Nat) (f : FaultRec) (s : State) : (ledgerEvent die kind band fp f s).jtag = s.jtag := rfl
@[simp] theorem updSummary_pending (die : Nat) (f : Summary → Summary) (s : State) : (updSummary die f s).pending = s.pending := rfl
@[simp] theorem updSummary_time (die : Nat) (f : Summary → Summary) (s : State) : (updSummary die f s).time = s.time := rfl
@[simp] theorem updSummary_draws (die : Nat) (f : Summary → Summary) (s : State) : (updSummary die f s).draws = s.draws := rfl
@[simp] theorem updSummary_out (die : Nat) (f : Summary → Summary) (s : State) : (updSummary die f s).out = s.out := rfl
@[simp] theorem updSummary_faults (die : Nat) (f : Summary → Summary) (s : State) : (updSummary die f s).faults = s.faults := rfl
@[simp] theorem updSummary_pins (die : Nat) (f : Summary → Summary) (s : State) : (updSummary die f s).pins = s.pins := rfl
@[simp] theorem updSummary_dev (die : Nat) (f : Summary → Summary) (s : State) : (updSummary die f s).dev = s.dev := rfl
@[simp] theorem updSummary_heat (die : Nat) (f : Summary → Summary) (s : State) : (updSummary die f s).heat = s.heat := rfl
@[simp] theorem updSummary_stump (die : Nat) (f : Summary → Summary) (s : State) : (updSummary die f s).stump = s.stump := rfl
@[simp] theorem updSummary_optics (die : Nat) (f : Summary → Summary) (s : State) : (updSummary die f s).optics = s.optics := rfl
@[simp] theorem updSummary_stacking (die : Nat) (f : Summary → Summary) (s : State) : (updSummary die f s).stacking = s.stacking := rfl
@[simp] theorem updSummary_fabric (die : Nat) (f : Summary → Summary) (s : State) : (updSummary die f s).fabric = s.fabric := rfl
@[simp] theorem updSummary_remote (die : Nat) (f : Summary → Summary) (s : State) : (updSummary die f s).remote = s.remote := rfl
@[simp] theorem updSummary_tiles (die : Nat) (f : Summary → Summary) (s : State) : (updSummary die f s).tiles = s.tiles := rfl
@[simp] theorem updSummary_mem (die : Nat) (f : Summary → Summary) (s : State) : (updSummary die f s).mem = s.mem := rfl
@[simp] theorem updSummary_mtc (die : Nat) (f : Summary → Summary) (s : State) : (updSummary die f s).mtc = s.mtc := rfl
@[simp] theorem updSummary_job (die : Nat) (f : Summary → Summary) (s : State) : (updSummary die f s).job = s.job := rfl
@[simp] theorem updSummary_recov (die : Nat) (f : Summary → Summary) (s : State) : (updSummary die f s).recov = s.recov := rfl
@[simp] theorem updSummary_flume (die : Nat) (f : Summary → Summary) (s : State) : (updSummary die f s).flume = s.flume := rfl
@[simp] theorem updSummary_hauler (die : Nat) (f : Summary → Summary) (s : State) : (updSummary die f s).hauler = s.hauler := rfl
@[simp] theorem updSummary_regs (die : Nat) (f : Summary → Summary) (s : State) : (updSummary die f s).regs = s.regs := rfl
@[simp] theorem updSummary_jtag (die : Nat) (f : Summary → Summary) (s : State) : (updSummary die f s).jtag = s.jtag := rfl
@[simp] theorem haltJob_pending (s : State) : (haltJob s).pending = s.pending := rfl
@[simp] theorem haltJob_time (s : State) : (haltJob s).time = s.time := rfl
@[simp] theorem haltJob_draws (s : State) : (haltJob s).draws = s.draws := rfl
@[simp] theorem haltJob_out (s : State) : (haltJob s).out = s.out := rfl
@[simp] theorem haltJob_faults (s : State) : (haltJob s).faults = s.faults := rfl
@[simp] theorem haltJob_pins (s : State) : (haltJob s).pins = s.pins := rfl
@[simp] theorem haltJob_dev (s : State) : (haltJob s).dev = s.dev := rfl
@[simp] theorem haltJob_heat (s : State) : (haltJob s).heat = s.heat := rfl
@[simp] theorem haltJob_bark (s : State) : (haltJob s).bark = s.bark := rfl
@[simp] theorem haltJob_stump (s : State) : (haltJob s).stump = s.stump := rfl
@[simp] theorem haltJob_optics (s : State) : (haltJob s).optics = s.optics := rfl
@[simp] theorem haltJob_stacking (s : State) : (haltJob s).stacking = s.stacking := rfl
@[simp] theorem haltJob_fabric (s : State) : (haltJob s).fabric = s.fabric := rfl
@[simp] theorem haltJob_mem (s : State) : (haltJob s).mem = s.mem := rfl
@[simp] theorem haltJob_mtc (s : State) : (haltJob s).mtc = s.mtc := rfl
@[simp] theorem haltJob_job (s : State) : (haltJob s).job = s.job := rfl
@[simp] theorem haltJob_recov (s : State) : (haltJob s).recov = s.recov := rfl
@[simp] theorem haltJob_flume (s : State) : (haltJob s).flume = s.flume := rfl
@[simp] theorem haltJob_hauler (s : State) : (haltJob s).hauler = s.hauler := rfl
@[simp] theorem haltJob_regs (s : State) : (haltJob s).regs = s.regs := rfl
@[simp] theorem haltJob_jtag (s : State) : (haltJob s).jtag = s.jtag := rfl
@[simp] theorem sendNotice_pending (n : Notice) (s : State) : (sendNotice n s).pending = s.pending := rfl
@[simp] theorem sendNotice_time (n : Notice) (s : State) : (sendNotice n s).time = s.time := rfl
@[simp] theorem sendNotice_draws (n : Notice) (s : State) : (sendNotice n s).draws = s.draws := rfl
@[simp] theorem sendNotice_faults (n : Notice) (s : State) : (sendNotice n s).faults = s.faults := rfl
@[simp] theorem sendNotice_pins (n : Notice) (s : State) : (sendNotice n s).pins = s.pins := rfl
@[simp] theorem sendNotice_dev (n : Notice) (s : State) : (sendNotice n s).dev = s.dev := rfl
@[simp] theorem sendNotice_heat (n : Notice) (s : State) : (sendNotice n s).heat = s.heat := rfl
@[simp] theorem sendNotice_bark (n : Notice) (s : State) : (sendNotice n s).bark = s.bark := rfl
@[simp] theorem sendNotice_stump (n : Notice) (s : State) : (sendNotice n s).stump = s.stump := rfl
@[simp] theorem sendNotice_optics (n : Notice) (s : State) : (sendNotice n s).optics = s.optics := rfl
@[simp] theorem sendNotice_stacking (n : Notice) (s : State) : (sendNotice n s).stacking = s.stacking := rfl
@[simp] theorem sendNotice_fabric (n : Notice) (s : State) : (sendNotice n s).fabric = s.fabric := rfl
@[simp] theorem sendNotice_mem (n : Notice) (s : State) : (sendNotice n s).mem = s.mem := rfl
@[simp] theorem sendNotice_mtc (n : Notice) (s : State) : (sendNotice n s).mtc = s.mtc := rfl
@[simp] theorem sendNotice_job (n : Notice) (s : State) : (sendNotice n s).job = s.job := rfl
@[simp] theorem sendNotice_flume (n : Notice) (s : State) : (sendNotice n s).flume = s.flume := rfl
@[simp] theorem sendNotice_hauler (n : Notice) (s : State) : (sendNotice n s).hauler = s.hauler := rfl
@[simp] theorem sendNotice_regs (n : Notice) (s : State) : (sendNotice n s).regs = s.regs := rfl
@[simp] theorem sendNotice_jtag (n : Notice) (s : State) : (sendNotice n s).jtag = s.jtag := rfl

@[simp] theorem setTile_tiles (t : Nat) (r : TileRec) (s : State) : (setTile t r s).tiles = tset s.tiles t r {} := rfl
@[simp] theorem setLane_optics (l : Nat) (r : LaneRec) (s : State) : (setLane l r s).optics = { s.optics with lanes := tset s.optics.lanes l r {} } := rfl
@[simp] theorem setLink_optics (k : Nat) (r : Link) (s : State) : (setLink k r s).optics = { s.optics with links := tset s.optics.links k r {} } := rfl
@[simp] theorem setHbm_mem (m : Nat) (r : StackRec) (s : State) : (setHbm m r s).mem = { s.mem with hbms := tset s.mem.hbms m r {} } := rfl
@[simp] theorem setDlink_stacking (k : Nat) (r : DLink) (s : State) :
    (setDlink k r s).stacking = { s.stacking with links := tset s.stacking.links k r {} } := rfl
@[simp] theorem setNotch_heat (q : Nat) (r : Notch) (s : State) : (setNotch q r s).heat = { s.heat with notches := tset s.heat.notches q r {} } := rfl
@[simp] theorem emit_out (o : Out) (s : State) : (emit o s).out = s.out ++ [o] := rfl
@[simp] theorem withConns_out (r : Table Conn × List Out) (s : State) : (withConns r s).out = s.out ++ r.2 := rfl
@[simp] theorem withConns_hauler (r : Table Conn × List Out) (s : State) : (withConns r s).hauler = { s.hauler with conns := r.1 } := rfl
@[simp] theorem writeRec_faults (f : FaultRec) (s : State) : (writeRec f s).faults = (f :: s.faults).take 256 := rfl
@[simp] theorem writeRec_regs (f : FaultRec) (s : State) :
    (writeRec f s).regs = { s.regs with events := s.regs.events ||| 1 ||| eventBit f.code, faultNew := satInc none32 s.regs.faultNew } := rfl
@[simp] theorem writeRec_dev (f : FaultRec) (s : State) :
    (writeRec f s).dev = { s.dev with startFault := if s.dev.startFault = 0 && s.dev.st == .starting then f.code else s.dev.startFault } := rfl

end Sys2Proof.Machine
end

