-- ==== Sys2Proof/Laws/Ops.lean ====
section
/-! SUPPORT. What the shared operations of Ops.lean (replies, notices, fault records, refusals, transitions) leave and what they change. -/
namespace Sys2Proof.Machine
open Sys2Proof

@[simp] theorem pump_pending (k : Nat) (s : State) : (pump k s).pending = s.pending := rfl
@[simp] theorem pump_time (k : Nat) (s : State) : (pump k s).time = s.time := rfl
@[simp] theorem pump_draws (k : Nat) (s : State) : (pump k s).draws = s.draws := rfl
@[simp] theorem pump_faults (k : Nat) (s : State) : (pump k s).faults = s.faults := rfl
@[simp] theorem pump_pins (k : Nat) (s : State) : (pump k s).pins = s.pins := rfl
@[simp] theorem pump_dev (k : Nat) (s : State) : (pump k s).dev = s.dev := rfl
@[simp] theorem pump_heat (k : Nat) (s : State) : (pump k s).heat = s.heat := rfl
@[simp] theorem pump_bark (k : Nat) (s : State) : (pump k s).bark = s.bark := rfl
@[simp] theorem pump_stump (k : Nat) (s : State) : (pump k s).stump = s.stump := rfl
@[simp] theorem pump_optics (k : Nat) (s : State) : (pump k s).optics = s.optics := rfl
@[simp] theorem pump_stacking (k : Nat) (s : State) : (pump k s).stacking = s.stacking := rfl
@[simp] theorem pump_fabric (k : Nat) (s : State) : (pump k s).fabric = s.fabric := rfl
@[simp] theorem pump_remote (k : Nat) (s : State) : (pump k s).remote = s.remote := rfl
@[simp] theorem pump_tiles (k : Nat) (s : State) : (pump k s).tiles = s.tiles := rfl
@[simp] theorem pump_mem (k : Nat) (s : State) : (pump k s).mem = s.mem := rfl
@[simp] theorem pump_mtc (k : Nat) (s : State) : (pump k s).mtc = s.mtc := rfl
@[simp] theorem pump_job (k : Nat) (s : State) : (pump k s).job = s.job := rfl
@[simp] theorem pump_recov (k : Nat) (s : State) : (pump k s).recov = s.recov := rfl
@[simp] theorem pump_flume (k : Nat) (s : State) : (pump k s).flume = s.flume := rfl
@[simp] theorem pump_regs (k : Nat) (s : State) : (pump k s).regs = s.regs := rfl
@[simp] theorem pump_jtag (k : Nat) (s : State) : (pump k s).jtag = s.jtag := rfl
@[simp] theorem sendOn_pending (k : Nat) (o : Out) (s : State) : (sendOn k o s).pending = s.pending := rfl
@[simp] theorem sendOn_time (k : Nat) (o : Out) (s : State) : (sendOn k o s).time = s.time := rfl
@[simp] theorem sendOn_draws (k : Nat) (o : Out) (s : State) : (sendOn k o s).draws = s.draws := rfl
@[simp] theorem sendOn_faults (k : Nat) (o : Out) (s : State) : (sendOn k o s).faults = s.faults := rfl
@[simp] theorem sendOn_pins (k : Nat) (o : Out) (s : State) : (sendOn k o s).pins = s.pins := rfl
@[simp] theorem sendOn_dev (k : Nat) (o : Out) (s : State) : (sendOn k o s).dev = s.dev := rfl
@[simp] theorem sendOn_heat (k : Nat) (o : Out) (s : State) : (sendOn k o s).heat = s.heat := rfl
@[simp] theorem sendOn_bark (k : Nat) (o : Out) (s : State) : (sendOn k o s).bark = s.bark := rfl
@[simp] theorem sendOn_stump (k : Nat) (o : Out) (s : State) : (sendOn k o s).stump = s.stump := rfl
@[simp] theorem sendOn_optics (k : Nat) (o : Out) (s : State) : (sendOn k o s).optics = s.optics := rfl
@[simp] theorem sendOn_stacking (k : Nat) (o : Out) (s : State) : (sendOn k o s).stacking = s.stacking := rfl
@[simp] theorem sendOn_fabric (k : Nat) (o : Out) (s : State) : (sendOn k o s).fabric = s.fabric := rfl
@[simp] theorem sendOn_remote (k : Nat) (o : Out) (s : State) : (sendOn k o s).remote = s.remote := rfl
@[simp] theorem sendOn_tiles (k : Nat) (o : Out) (s : State) : (sendOn k o s).tiles = s.tiles := rfl
@[simp] theorem sendOn_mem (k : Nat) (o : Out) (s : State) : (sendOn k o s).mem = s.mem := rfl
@[simp] theorem sendOn_mtc (k : Nat) (o : Out) (s : State) : (sendOn k o s).mtc = s.mtc := rfl
@[simp] theorem sendOn_job (k : Nat) (o : Out) (s : State) : (sendOn k o s).job = s.job := rfl
@[simp] theorem sendOn_recov (k : Nat) (o : Out) (s : State) : (sendOn k o s).recov = s.recov := rfl
@[simp] theorem sendOn_flume (k : Nat) (o : Out) (s : State) : (sendOn k o s).flume = s.flume := rfl
@[simp] theorem sendOn_regs (k : Nat) (o : Out) (s : State) : (sendOn k o s).regs = s.regs := rfl
@[simp] theorem sendOn_jtag (k : Nat) (o : Out) (s : State) : (sendOn k o s).jtag = s.jtag := rfl
@[simp] theorem reply_pending (r : Req) (status : Nat) (body : List Byte) (s : State) : (reply r status body s).pending = s.pending := rfl
@[simp] theorem reply_time (r : Req) (status : Nat) (body : List Byte) (s : State) : (reply r status body s).time = s.time := rfl
@[simp] theorem reply_draws (r : Req) (status : Nat) (body : List Byte) (s : State) : (reply r status body s).draws = s.draws := rfl
@[simp] theorem reply_faults (r : Req) (status : Nat) (body : List Byte) (s : State) : (reply r status body s).faults = s.faults := rfl
@[simp] theorem reply_pins (r : Req) (status : Nat) (body : List Byte) (s : State) : (reply r status body s).pins = s.pins := rfl
@[simp] theorem reply_dev (r : Req) (status : Nat) (body : List Byte) (s : State) : (reply r status body s).dev = s.dev := rfl
@[simp] theorem reply_heat (r : Req) (status : Nat) (body : List Byte) (s : State) : (reply r status body s).heat = s.heat := rfl
@[simp] theorem reply_bark (r : Req) (status : Nat) (body : List Byte) (s : State) : (reply r status body s).bark = s.bark := rfl
@[simp] theorem reply_stump (r : Req) (status : Nat) (body : List Byte) (s : State) : (reply r status body s).stump = s.stump := rfl
@[simp] theorem reply_optics (r : Req) (status : Nat) (body : List Byte) (s : State) : (reply r status body s).optics = s.optics := rfl
@[simp] theorem reply_stacking (r : Req) (status : Nat) (body : List Byte) (s : State) : (reply r status body s).stacking = s.stacking := rfl
@[simp] theorem reply_fabric (r : Req) (status : Nat) (body : List Byte) (s : State) : (reply r status body s).fabric = s.fabric := rfl
@[simp] theorem reply_remote (r : Req) (status : Nat) (body : List Byte) (s : State) : (reply r status body s).remote = s.remote := rfl
@[simp] theorem reply_tiles (r : Req) (status : Nat) (body : List Byte) (s : State) : (reply r status body s).tiles = s.tiles := rfl
@[simp] theorem reply_mem (r : Req) (status : Nat) (body : List Byte) (s : State) : (reply r status body s).mem = s.mem := rfl
@[simp] theorem reply_mtc (r : Req) (status : Nat) (body : List Byte) (s : State) : (reply r status body s).mtc = s.mtc := rfl
@[simp] theorem reply_job (r : Req) (status : Nat) (body : List Byte) (s : State) : (reply r status body s).job = s.job := rfl
@[simp] theorem reply_recov (r : Req) (status : Nat) (body : List Byte) (s : State) : (reply r status body s).recov = s.recov := rfl
@[simp] theorem reply_flume (r : Req) (status : Nat) (body : List Byte) (s : State) : (reply r status body s).flume = s.flume := rfl
@[simp] theorem reply_regs (r : Req) (status : Nat) (body : List Byte) (s : State) : (reply r status body s).regs = s.regs := rfl
@[simp] theorem reply_jtag (r : Req) (status : Nat) (body : List Byte) (s : State) : (reply r status body s).jtag = s.jtag := rfl
@[simp] theorem wardenReply_pending (r : WReq) (status : Nat) (body : List Byte) (s : State) : (wardenReply r status body s).pending = s.pending := rfl
@[simp] theorem wardenReply_time (r : WReq) (status : Nat) (body : List Byte) (s : State) : (wardenReply r status body s).time = s.time := rfl
@[simp] theorem wardenReply_draws (r : WReq) (status : Nat) (body : List Byte) (s : State) : (wardenReply r status body s).draws = s.draws := rfl
@[simp] theorem wardenReply_faults (r : WReq) (status : Nat) (body : List Byte) (s : State) : (wardenReply r status body s).faults = s.faults := rfl
@[simp] theorem wardenReply_pins (r : WReq) (status : Nat) (body : List Byte) (s : State) : (wardenReply r status body s).pins = s.pins := rfl
@[simp] theorem wardenReply_dev (r : WReq) (status : Nat) (body : List Byte) (s : State) : (wardenReply r status body s).dev = s.dev := rfl
@[simp] theorem wardenReply_heat (r : WReq) (status : Nat) (body : List Byte) (s : State) : (wardenReply r status body s).heat = s.heat := rfl
@[simp] theorem wardenReply_bark (r : WReq) (status : Nat) (body : List Byte) (s : State) : (wardenReply r status body s).bark = s.bark := rfl
@[simp] theorem wardenReply_stump (r : WReq) (status : Nat) (body : List Byte) (s : State) : (wardenReply r status body s).stump = s.stump := rfl
@[simp] theorem wardenReply_optics (r : WReq) (status : Nat) (body : List Byte) (s : State) : (wardenReply r status body s).optics = s.optics := rfl
@[simp] theorem wardenReply_stacking (r : WReq) (status : Nat) (body : List Byte) (s : State) : (wardenReply r status body s).stacking = s.stacking := rfl
@[simp] theorem wardenReply_fabric (r : WReq) (status : Nat) (body : List Byte) (s : State) : (wardenReply r status body s).fabric = s.fabric := rfl
@[simp] theorem wardenReply_remote (r : WReq) (status : Nat) (body : List Byte) (s : State) : (wardenReply r status body s).remote = s.remote := rfl
@[simp] theorem wardenReply_tiles (r : WReq) (status : Nat) (body : List Byte) (s : State) : (wardenReply r status body s).tiles = s.tiles := rfl
@[simp] theorem wardenReply_mem (r : WReq) (status : Nat) (body : List Byte) (s : State) : (wardenReply r status body s).mem = s.mem := rfl
@[simp] theorem wardenReply_mtc (r : WReq) (status : Nat) (body : List Byte) (s : State) : (wardenReply r status body s).mtc = s.mtc := rfl
@[simp] theorem wardenReply_job (r : WReq) (status : Nat) (body : List Byte) (s : State) : (wardenReply r status body s).job = s.job := rfl
@[simp] theorem wardenReply_recov (r : WReq) (status : Nat) (body : List Byte) (s : State) : (wardenReply r status body s).recov = s.recov := rfl
@[simp] theorem wardenReply_flume (r : WReq) (status : Nat) (body : List Byte) (s : State) : (wardenReply r status body s).flume = s.flume := rfl
@[simp] theorem wardenReply_hauler (r : WReq) (status : Nat) (body : List Byte) (s : State) : (wardenReply r status body s).hauler = s.hauler := rfl
@[simp] theorem wardenReply_regs (r : WReq) (status : Nat) (body : List Byte) (s : State) : (wardenReply r status body s).regs = s.regs := rfl
@[simp] theorem wardenReply_jtag (r : WReq) (status : Nat) (body : List Byte) (s : State) : (wardenReply r status body s).jtag = s.jtag := rfl
@[simp] theorem notifyConn_pending (k kind value : Nat) (payload : List Byte) (s : State) : (notifyConn k kind value payload s).pending = s.pending := rfl
@[simp] theorem notifyConn_time (k kind value : Nat) (payload : List Byte) (s : State) : (notifyConn k kind value payload s).time = s.time := rfl
@[simp] theorem notifyConn_draws (k kind value : Nat) (payload : List Byte) (s : State) : (notifyConn k kind value payload s).draws = s.draws := rfl
@[simp] theorem notifyConn_faults (k kind value : Nat) (payload : List Byte) (s : State) : (notifyConn k kind value payload s).faults = s.faults := rfl
@[simp] theorem notifyConn_pins (k kind value : Nat) (payload : List Byte) (s : State) : (notifyConn k kind value payload s).pins = s.pins := rfl
@[simp] theorem notifyConn_dev (k kind value : Nat) (payload : List Byte) (s : State) : (notifyConn k kind value payload s).dev = s.dev := rfl
@[simp] theorem notifyConn_heat (k kind value : Nat) (payload : List Byte) (s : State) : (notifyConn k kind value payload s).heat = s.heat := rfl
@[simp] theorem notifyConn_bark (k kind value : Nat) (payload : List Byte) (s : State) : (notifyConn k kind value payload s).bark = s.bark := rfl
@[simp] theorem notifyConn_stump (k kind value : Nat) (payload : List Byte) (s : State) : (notifyConn k kind value payload s).stump = s.stump := rfl
@[simp] theorem notifyConn_optics (k kind value : Nat) (payload : List Byte) (s : State) : (notifyConn k kind value payload s).optics = s.optics := rfl
@[simp] theorem notifyConn_stacking (k kind value : Nat) (payload : List Byte) (s : State) : (notifyConn k kind value payload s).stacking = s.stacking := rfl
@[simp] theorem notifyConn_fabric (k kind value : Nat) (payload : List Byte) (s : State) : (notifyConn k kind value payload s).fabric = s.fabric := rfl
@[simp] theorem notifyConn_remote (k kind value : Nat) (payload : List Byte) (s : State) : (notifyConn k kind value payload s).remote = s.remote := rfl
@[simp] theorem notifyConn_tiles (k kind value : Nat) (payload : List Byte) (s : State) : (notifyConn k kind value payload s).tiles = s.tiles := rfl
@[simp] theorem notifyConn_mem (k kind value : Nat) (payload : List Byte) (s : State) : (notifyConn k kind value payload s).mem = s.mem := rfl
@[simp] theorem notifyConn_mtc (k kind value : Nat) (payload : List Byte) (s : State) : (notifyConn k kind value payload s).mtc = s.mtc := rfl
@[simp] theorem notifyConn_job (k kind value : Nat) (payload : List Byte) (s : State) : (notifyConn k kind value payload s).job = s.job := rfl
@[simp] theorem notifyConn_recov (k kind value : Nat) (payload : List Byte) (s : State) : (notifyConn k kind value payload s).recov = s.recov := rfl
@[simp] theorem notifyConn_flume (k kind value : Nat) (payload : List Byte) (s : State) : (notifyConn k kind value payload s).flume = s.flume := rfl
@[simp] theorem notifyConn_regs (k kind value : Nat) (payload : List Byte) (s : State) : (notifyConn k kind value payload s).regs = s.regs := rfl
@[simp] theorem notifyConn_jtag (k kind value : Nat) (payload : List Byte) (s : State) : (notifyConn k kind value payload s).jtag = s.jtag := rfl
@[simp] theorem notifyAll_pending (kind value : Nat) (payload : List Byte) (s : State) : (notifyAll kind value payload s).pending = s.pending := rfl
@[simp] theorem notifyAll_time (kind value : Nat) (payload : List Byte) (s : State) : (notifyAll kind value payload s).time = s.time := rfl
@[simp] theorem notifyAll_draws (kind value : Nat) (payload : List Byte) (s : State) : (notifyAll kind value payload s).draws = s.draws := rfl
@[simp] theorem notifyAll_faults (kind value : Nat) (payload : List Byte) (s : State) : (notifyAll kind value payload s).faults = s.faults := rfl
@[simp] theorem notifyAll_pins (kind value : Nat) (payload : List Byte) (s : State) : (notifyAll kind value payload s).pins = s.pins := rfl
@[simp] theorem notifyAll_dev (kind value : Nat) (payload : List Byte) (s : State) : (notifyAll kind value payload s).dev = s.dev := rfl
@[simp] theorem notifyAll_heat (kind value : Nat) (payload : List Byte) (s : State) : (notifyAll kind value payload s).heat = s.heat := rfl
@[simp] theorem notifyAll_bark (kind value : Nat) (payload : List Byte) (s : State) : (notifyAll kind value payload s).bark = s.bark := rfl
@[simp] theorem notifyAll_stump (kind value : Nat) (payload : List Byte) (s : State) : (notifyAll kind value payload s).stump = s.stump := rfl
@[simp] theorem notifyAll_optics (kind value : Nat) (payload : List Byte) (s : State) : (notifyAll kind value payload s).optics = s.optics := rfl
@[simp] theorem notifyAll_stacking (kind value : Nat) (payload : List Byte) (s : State) : (notifyAll kind value payload s).stacking = s.stacking := rfl
@[simp] theorem notifyAll_fabric (kind value : Nat) (payload : List Byte) (s : State) : (notifyAll kind value payload s).fabric = s.fabric := rfl
@[simp] theorem notifyAll_remote (kind value : Nat) (payload : List Byte) (s : State) : (notifyAll kind value payload s).remote = s.remote := rfl
@[simp] theorem notifyAll_tiles (kind value : Nat) (payload : List Byte) (s : State) : (notifyAll kind value payload s).tiles = s.tiles := rfl
@[simp] theorem notifyAll_mem (kind value : Nat) (payload : List Byte) (s : State) : (notifyAll kind value payload s).mem = s.mem := rfl
@[simp] theorem notifyAll_mtc (kind value : Nat) (payload : List Byte) (s : State) : (notifyAll kind value payload s).mtc = s.mtc := rfl
@[simp] theorem notifyAll_job (kind value : Nat) (payload : List Byte) (s : State) : (notifyAll kind value payload s).job = s.job := rfl
@[simp] theorem notifyAll_recov (kind value : Nat) (payload : List Byte) (s : State) : (notifyAll kind value payload s).recov = s.recov := rfl
@[simp] theorem notifyAll_flume (kind value : Nat) (payload : List Byte) (s : State) : (notifyAll kind value payload s).flume = s.flume := rfl
@[simp] theorem notifyAll_regs (kind value : Nat) (payload : List Byte) (s : State) : (notifyAll kind value payload s).regs = s.regs := rfl
@[simp] theorem notifyAll_jtag (kind value : Nat) (payload : List Byte) (s : State) : (notifyAll kind value payload s).jtag = s.jtag := rfl
@[simp] theorem enter_pending (st : DevState) (s : State) : (enter st s).pending = s.pending := rfl
@[simp] theorem enter_time (st : DevState) (s : State) : (enter st s).time = s.time := rfl
@[simp] theorem enter_draws (st : DevState) (s : State) : (enter st s).draws = s.draws := rfl
@[simp] theorem enter_faults (st : DevState) (s : State) : (enter st s).faults = s.faults := rfl
@[simp] theorem enter_pins (st : DevState) (s : State) : (enter st s).pins = s.pins := rfl
@[simp] theorem enter_heat (st : DevState) (s : State) : (enter st s).heat = s.heat := rfl
@[simp] theorem enter_bark (st : DevState) (s : State) : (enter st s).bark = s.bark := rfl
@[simp] theorem enter_stump (st : DevState) (s : State) : (enter st s).stump = s.stump := rfl
@[simp] theorem enter_optics (st : DevState) (s : State) : (enter st s).optics = s.optics := rfl
@[simp] theorem enter_stacking (st : DevState) (s : State) : (enter st s).stacking = s.stacking := rfl
@[simp] theorem enter_fabric (st : DevState) (s : State) : (enter st s).fabric = s.fabric := rfl
@[simp] theorem enter_remote (st : DevState) (s : State) : (enter st s).remote = s.remote := rfl
@[simp] theorem enter_mem (st : DevState) (s : State) : (enter st s).mem = s.mem := rfl
@[simp] theorem enter_mtc (st : DevState) (s : State) : (enter st s).mtc = s.mtc := rfl
@[simp] theorem enter_job (st : DevState) (s : State) : (enter st s).job = s.job := rfl
@[simp] theorem enter_recov (st : DevState) (s : State) : (enter st s).recov = s.recov := rfl
@[simp] theorem enter_flume (st : DevState) (s : State) : (enter st s).flume = s.flume := rfl
@[simp] theorem enter_regs (st : DevState) (s : State) : (enter st s).regs = s.regs := rfl
@[simp] theorem enter_jtag (st : DevState) (s : State) : (enter st s).jtag = s.jtag := rfl
@[simp] theorem raise_pending (code kind unit obj peer : Nat) (det : List Byte) (s : State) : (raise code kind unit obj peer det s).pending = s.pending := rfl
@[simp] theorem raise_time (code kind unit obj peer : Nat) (det : List Byte) (s : State) : (raise code kind unit obj peer det s).time = s.time := rfl
@[simp] theorem raise_draws (code kind unit obj peer : Nat) (det : List Byte) (s : State) : (raise code kind unit obj peer det s).draws = s.draws := rfl
@[simp] theorem raise_pins (code kind unit obj peer : Nat) (det : List Byte) (s : State) : (raise code kind unit obj peer det s).pins = s.pins := rfl
@[simp] theorem raise_heat (code kind unit obj peer : Nat) (det : List Byte) (s : State) : (raise code kind unit obj peer det s).heat = s.heat := rfl
@[simp] theorem raise_bark (code kind unit obj peer : Nat) (det : List Byte) (s : State) : (raise code kind unit obj peer det s).bark = s.bark := rfl
@[simp] theorem raise_stump (code kind unit obj peer : Nat) (det : List Byte) (s : State) : (raise code kind unit obj peer det s).stump = s.stump := rfl
@[simp] theorem raise_optics (code kind unit obj peer : Nat) (det : List Byte) (s : State) : (raise code kind unit obj peer det s).optics = s.optics := rfl
@[simp] theorem raise_stacking (code kind unit obj peer : Nat) (det : List Byte) (s : State) : (raise code kind unit obj peer det s).stacking = s.stacking := rfl
@[simp] theorem raise_fabric (code kind unit obj peer : Nat) (det : List Byte) (s : State) : (raise code kind unit obj peer det s).fabric = s.fabric := rfl
@[simp] theorem raise_remote (code kind unit obj peer : Nat) (det : List Byte) (s : State) : (raise code kind unit obj peer det s).remote = s.remote := rfl
@[simp] theorem raise_tiles (code kind unit obj peer : Nat) (det : List Byte) (s : State) : (raise code kind unit obj peer det s).tiles = s.tiles := rfl
@[simp] theorem raise_mem (code kind unit obj peer : Nat) (det : List Byte) (s : State) : (raise code kind unit obj peer det s).mem = s.mem := rfl
@[simp] theorem raise_mtc (code kind unit obj peer : Nat) (det : List Byte) (s : State) : (raise code kind unit obj peer det s).mtc = s.mtc := rfl
@[simp] theorem raise_job (code kind unit obj peer : Nat) (det : List Byte) (s : State) : (raise code kind unit obj peer det s).job = s.job := rfl
@[simp] theorem raise_recov (code kind unit obj peer : Nat) (det : List Byte) (s : State) : (raise code kind unit obj peer det s).recov = s.recov := rfl
@[simp] theorem raise_flume (code kind unit obj peer : Nat) (det : List Byte) (s : State) : (raise code kind unit obj peer det s).flume = s.flume := rfl
@[simp] theorem raise_jtag (code kind unit obj peer : Nat) (det : List Byte) (s : State) : (raise code kind unit obj peer det s).jtag = s.jtag := rfl
@[simp] theorem refuse_pending (r : Req) (code obj : Nat) (det : List Byte) (s : State) : (refuse r code obj det s).pending = s.pending := rfl
@[simp] theorem refuse_time (r : Req) (code obj : Nat) (det : List Byte) (s : State) : (refuse r code obj det s).time = s.time := rfl
@[simp] theorem refuse_draws (r : Req) (code obj : Nat) (det : List Byte) (s : State) : (refuse r code obj det s).draws = s.draws := rfl
@[simp] theorem refuse_pins (r : Req) (code obj : Nat) (det : List Byte) (s : State) : (refuse r code obj det s).pins = s.pins := rfl
@[simp] theorem refuse_heat (r : Req) (code obj : Nat) (det : List Byte) (s : State) : (refuse r code obj det s).heat = s.heat := rfl
@[simp] theorem refuse_bark (r : Req) (code obj : Nat) (det : List Byte) (s : State) : (refuse r code obj det s).bark = s.bark := rfl
@[simp] theorem refuse_stump (r : Req) (code obj : Nat) (det : List Byte) (s : State) : (refuse r code obj det s).stump = s.stump := rfl
@[simp] theorem refuse_optics (r : Req) (code obj : Nat) (det : List Byte) (s : State) : (refuse r code obj det s).optics = s.optics := rfl
@[simp] theorem refuse_stacking (r : Req) (code obj : Nat) (det : List Byte) (s : State) : (refuse r code obj det s).stacking = s.stacking := rfl
@[simp] theorem refuse_fabric (r : Req) (code obj : Nat) (det : List Byte) (s : State) : (refuse r code obj det s).fabric = s.fabric := rfl
@[simp] theorem refuse_remote (r : Req) (code obj : Nat) (det : List Byte) (s : State) : (refuse r code obj det s).remote = s.remote := rfl
@[simp] theorem refuse_tiles (r : Req) (code obj : Nat) (det : List Byte) (s : State) : (refuse r code obj det s).tiles = s.tiles := rfl
@[simp] theorem refuse_mem (r : Req) (code obj : Nat) (det : List Byte) (s : State) : (refuse r code obj det s).mem = s.mem := rfl
@[simp] theorem refuse_mtc (r : Req) (code obj : Nat) (det : List Byte) (s : State) : (refuse r code obj det s).mtc = s.mtc := rfl
@[simp] theorem refuse_job (r : Req) (code obj : Nat) (det : List Byte) (s : State) : (refuse r code obj det s).job = s.job := rfl
@[simp] theorem refuse_recov (r : Req) (code obj : Nat) (det : List Byte) (s : State) : (refuse r code obj det s).recov = s.recov := rfl
@[simp] theorem refuse_flume (r : Req) (code obj : Nat) (det : List Byte) (s : State) : (refuse r code obj det s).flume = s.flume := rfl
@[simp] theorem refuse_jtag (r : Req) (code obj : Nat) (det : List Byte) (s : State) : (refuse r code obj det s).jtag = s.jtag := rfl
@[simp] theorem refuseState_pending (r : Req) (op : Nat) (s : State) : (refuseState r op s).pending = s.pending := rfl
@[simp] theorem refuseState_time (r : Req) (op : Nat) (s : State) : (refuseState r op s).time = s.time := rfl
@[simp] theorem refuseState_draws (r : Req) (op : Nat) (s : State) : (refuseState r op s).draws = s.draws := rfl
@[simp] theorem refuseState_pins (r : Req) (op : Nat) (s : State) : (refuseState r op s).pins = s.pins := rfl
@[simp] theorem refuseState_heat (r : Req) (op : Nat) (s : State) : (refuseState r op s).heat = s.heat := rfl
@[simp] theorem refuseState_bark (r : Req) (op : Nat) (s : State) : (refuseState r op s).bark = s.bark := rfl
@[simp] theorem refuseState_stump (r : Req) (op : Nat) (s : State) : (refuseState r op s).stump = s.stump := rfl
@[simp] theorem refuseState_optics (r : Req) (op : Nat) (s : State) : (refuseState r op s).optics = s.optics := rfl
@[simp] theorem refuseState_stacking (r : Req) (op : Nat) (s : State) : (refuseState r op s).stacking = s.stacking := rfl
@[simp] theorem refuseState_fabric (r : Req) (op : Nat) (s : State) : (refuseState r op s).fabric = s.fabric := rfl
@[simp] theorem refuseState_remote (r : Req) (op : Nat) (s : State) : (refuseState r op s).remote = s.remote := rfl
@[simp] theorem refuseState_tiles (r : Req) (op : Nat) (s : State) : (refuseState r op s).tiles = s.tiles := rfl
@[simp] theorem refuseState_mem (r : Req) (op : Nat) (s : State) : (refuseState r op s).mem = s.mem := rfl
@[simp] theorem refuseState_mtc (r : Req) (op : Nat) (s : State) : (refuseState r op s).mtc = s.mtc := rfl
@[simp] theorem refuseState_job (r : Req) (op : Nat) (s : State) : (refuseState r op s).job = s.job := rfl
@[simp] theorem refuseState_recov (r : Req) (op : Nat) (s : State) : (refuseState r op s).recov = s.recov := rfl
@[simp] theorem refuseState_flume (r : Req) (op : Nat) (s : State) : (refuseState r op s).flume = s.flume := rfl
@[simp] theorem refuseState_jtag (r : Req) (op : Nat) (s : State) : (refuseState r op s).jtag = s.jtag := rfl
@[simp] theorem refuseInvalid_pending (r : Req) (op off : Nat) (s : State) : (refuseInvalid r op off s).pending = s.pending := rfl
@[simp] theorem refuseInvalid_time (r : Req) (op off : Nat) (s : State) : (refuseInvalid r op off s).time = s.time := rfl
@[simp] theorem refuseInvalid_draws (r : Req) (op off : Nat) (s : State) : (refuseInvalid r op off s).draws = s.draws := rfl
@[simp] theorem refuseInvalid_pins (r : Req) (op off : Nat) (s : State) : (refuseInvalid r op off s).pins = s.pins := rfl
@[simp] theorem refuseInvalid_heat (r : Req) (op off : Nat) (s : State) : (refuseInvalid r op off s).heat = s.heat := rfl
@[simp] theorem refuseInvalid_bark (r : Req) (op off : Nat) (s : State) : (refuseInvalid r op off s).bark = s.bark := rfl
@[simp] theorem refuseInvalid_stump (r : Req) (op off : Nat) (s : State) : (refuseInvalid r op off s).stump = s.stump := rfl
@[simp] theorem refuseInvalid_optics (r : Req) (op off : Nat) (s : State) : (refuseInvalid r op off s).optics = s.optics := rfl
@[simp] theorem refuseInvalid_stacking (r : Req) (op off : Nat) (s : State) : (refuseInvalid r op off s).stacking = s.stacking := rfl
@[simp] theorem refuseInvalid_fabric (r : Req) (op off : Nat) (s : State) : (refuseInvalid r op off s).fabric = s.fabric := rfl
@[simp] theorem refuseInvalid_remote (r : Req) (op off : Nat) (s : State) : (refuseInvalid r op off s).remote = s.remote := rfl
@[simp] theorem refuseInvalid_tiles (r : Req) (op off : Nat) (s : State) : (refuseInvalid r op off s).tiles = s.tiles := rfl
@[simp] theorem refuseInvalid_mem (r : Req) (op off : Nat) (s : State) : (refuseInvalid r op off s).mem = s.mem := rfl
@[simp] theorem refuseInvalid_mtc (r : Req) (op off : Nat) (s : State) : (refuseInvalid r op off s).mtc = s.mtc := rfl
@[simp] theorem refuseInvalid_job (r : Req) (op off : Nat) (s : State) : (refuseInvalid r op off s).job = s.job := rfl
@[simp] theorem refuseInvalid_recov (r : Req) (op off : Nat) (s : State) : (refuseInvalid r op off s).recov = s.recov := rfl
@[simp] theorem refuseInvalid_flume (r : Req) (op off : Nat) (s : State) : (refuseInvalid r op off s).flume = s.flume := rfl
@[simp] theorem refuseInvalid_jtag (r : Req) (op off : Nat) (s : State) : (refuseInvalid r op off s).jtag = s.jtag := rfl
@[simp] theorem refuseWarden_pending (r : WReq) (op : Nat) (s : State) : (refuseWarden r op s).pending = s.pending := rfl
@[simp] theorem refuseWarden_time (r : WReq) (op : Nat) (s : State) : (refuseWarden r op s).time = s.time := rfl
@[simp] theorem refuseWarden_draws (r : WReq) (op : Nat) (s : State) : (refuseWarden r op s).draws = s.draws := rfl
@[simp] theorem refuseWarden_pins (r : WReq) (op : Nat) (s : State) : (refuseWarden r op s).pins = s.pins := rfl
@[simp] theorem refuseWarden_heat (r : WReq) (op : Nat) (s : State) : (refuseWarden r op s).heat = s.heat := rfl
@[simp] theorem refuseWarden_bark (r : WReq) (op : Nat) (s : State) : (refuseWarden r op s).bark = s.bark := rfl
@[simp] theorem refuseWarden_stump (r : WReq) (op : Nat) (s : State) : (refuseWarden r op s).stump = s.stump := rfl
@[simp] theorem refuseWarden_optics (r : WReq) (op : Nat) (s : State) : (refuseWarden r op s).optics = s.optics := rfl
@[simp] theorem refuseWarden_stacking (r : WReq) (op : Nat) (s : State) : (refuseWarden r op s).stacking = s.stacking := rfl
@[simp] theorem refuseWarden_fabric (r : WReq) (op : Nat) (s : State) : (refuseWarden r op s).fabric = s.fabric := rfl
@[simp] theorem refuseWarden_remote (r : WReq) (op : Nat) (s : State) : (refuseWarden r op s).remote = s.remote := rfl
@[simp] theorem refuseWarden_tiles (r : WReq) (op : Nat) (s : State) : (refuseWarden r op s).tiles = s.tiles := rfl
@[simp] theorem refuseWarden_mem (r : WReq) (op : Nat) (s : State) : (refuseWarden r op s).mem = s.mem := rfl
@[simp] theorem refuseWarden_mtc (r : WReq) (op : Nat) (s : State) : (refuseWarden r op s).mtc = s.mtc := rfl
@[simp] theorem refuseWarden_job (r : WReq) (op : Nat) (s : State) : (refuseWarden r op s).job = s.job := rfl
@[simp] theorem refuseWarden_recov (r : WReq) (op : Nat) (s : State) : (refuseWarden r op s).recov = s.recov := rfl
@[simp] theorem refuseWarden_flume (r : WReq) (op : Nat) (s : State) : (refuseWarden r op s).flume = s.flume := rfl
@[simp] theorem refuseWarden_jtag (r : WReq) (op : Nat) (s : State) : (refuseWarden r op s).jtag = s.jtag := rfl

/-- Without connections nobody is notified. -/
@[simp] theorem noticeAll_nil (kind : Nat) (job : BitVec 16) (mtc : DWord) (value : Nat) (payload : List Byte) :
    noticeAll kind job mtc value payload [] = ([], []) := rfl
@[simp] theorem raise_hauler_sessions (code kind unit obj peer : Nat) (det : List Byte) (s : State) :
    (raise code kind unit obj peer det s).hauler.sessions = s.hauler.sessions := rfl
@[simp] theorem raise_hauler_nextConn (code kind unit obj peer : Nat) (det : List Byte) (s : State) :
    (raise code kind unit obj peer det s).hauler.nextConn = s.hauler.nextConn := rfl
/-- Without connections a fault record reaches no host. -/
theorem raise_hauler_nil (code kind unit obj peer : Nat) (det : List Byte) (s : State) (h : s.hauler.conns = []) :
    (raise code kind unit obj peer det s).hauler = s.hauler := by
  show { s.hauler with conns := (noticeAll 5 s.job.tag s.mtc.value 0 (recBytes (mkRec s code kind unit obj peer det)) s.hauler.conns).1 } = _
  rw [h, noticeAll_nil]; cases g : s.hauler; simp_all
@[simp] theorem notifyAll_hauler (kind value : Nat) (payload : List Byte) (s : State) :
    (notifyAll kind value payload s).hauler = { s.hauler with conns := (noticeAll kind s.job.tag s.mtc.value value payload s.hauler.conns).1 } := rfl
@[simp] theorem enter_dev (st : DevState) (s : State) : (enter st s).dev = { s.dev with prev := s.dev.st, st := st } := rfl
@[simp] theorem raise_dev (code kind unit obj peer : Nat) (det : List Byte) (s : State) :
    (raise code kind unit obj peer det s).dev =
      { s.dev with startFault := if s.dev.startFault = 0 && s.dev.st == .starting then BitVec.ofNat 16 code else s.dev.startFault } := rfl
@[simp] theorem raise_faults (code kind unit obj peer : Nat) (det : List Byte) (s : State) :
    (raise code kind unit obj peer det s).faults = (mkRec s code kind unit obj peer det :: s.faults).take 256 := rfl
@[simp] theorem reply_hauler (r : Req) (status : Nat) (body : List Byte) (s : State) :
    (reply r status body s).hauler =
      { s.hauler with conns := (sendTable r.conn (.reply r.conn r.msg (BitVec.ofNat 16 status) body) s.hauler.conns).1 } := rfl
@[simp] theorem wardenReply_out (r : WReq) (status : Nat) (body : List Byte) (s : State) :
    (wardenReply r status body s).out = s.out ++ [.wardenReply r.session r.msg (BitVec.ofNat 16 status) body] := rfl

end Sys2Proof.Machine
end

