-- ==== Sys2Proof/Laws/PerInstr.lean ====
section
/-! SUPPORT. One lemma per command: each answers a next state in every state. No command ends in a fault or a refusal. -/
namespace Sys2Proof.Laws.Answers
open Sys2Proof Sys2Proof.Machine

/-- The command answers a next state, whatever the state. -/
def Statement (i : Instr) : Prop := ∀ s, ∃ t, exec i s = .next t

theorem vauxOn (holdN modRstN puf unwrap) : Statement (.vauxOn holdN modRstN puf unwrap) := fun _ => ⟨_, rfl⟩
theorem vauxLoss : Statement .vauxLoss := fun _ => ⟨_, rfl⟩
theorem auxRstNAssert : Statement .auxRstNAssert := fun _ => ⟨_, rfl⟩
theorem auxRstNRelease (holdN modRstN puf unwrap) : Statement (.auxRstNRelease holdN modRstN puf unwrap) := fun _ => ⟨_, rfl⟩
theorem modRstNAssert : Statement .modRstNAssert := fun _ => ⟨_, rfl⟩
theorem modRstNRelease : Statement .modRstNRelease := fun _ => ⟨_, rfl⟩
theorem holdNRise : Statement .holdNRise := fun _ => ⟨_, rfl⟩
theorem wardenSelfTestPass : Statement .wardenSelfTestPass := fun _ => ⟨_, rfl⟩
theorem v48InRange (v48 obs) : Statement (.v48InRange v48 obs) := fun _ => ⟨_, rfl⟩
theorem startChecks : Statement .startChecks := fun _ => ⟨_, rfl⟩
theorem startHoldRetry : Statement .startHoldRetry := fun _ => ⟨_, rfl⟩
theorem ringTrialRestart : Statement .ringTrialRestart := fun _ => ⟨_, rfl⟩
theorem holdLimitExpire : Statement .holdLimitExpire := fun _ => ⟨_, rfl⟩
theorem q0Loss : Statement .q0Loss := fun _ => ⟨_, rfl⟩
theorem refclkLoss : Statement .refclkLoss := fun _ => ⟨_, rfl⟩
theorem auxclkLoss : Statement .auxclkLoss := fun _ => ⟨_, rfl⟩
theorem auxclkReturn : Statement .auxclkReturn := fun _ => ⟨_, rfl⟩
theorem v48Shutdown (v48) : Statement (.v48Shutdown v48) := fun _ => ⟨_, rfl⟩
theorem thermTripComparator (t value) : Statement (.thermTripComparator t value) := fun _ => ⟨_, rfl⟩
theorem thermTripRelease : Statement .thermTripRelease := fun _ => ⟨_, rfl⟩
theorem managementTick (r) : Statement (.managementTick r) := fun _ => ⟨_, rfl⟩
theorem notchRaise (q) : Statement (.notchRaise q) := fun _ => ⟨_, rfl⟩
theorem notchFloor (q) : Statement (.notchFloor q) := fun _ => ⟨_, rfl⟩
theorem sensorSuspect (k sensor) : Statement (.sensorSuspect k sensor) := fun _ => ⟨_, rfl⟩
theorem refreshRateApply (m) : Statement (.refreshRateApply m) := fun _ => ⟨_, rfl⟩
theorem wardenCoreReset (pc) : Statement (.wardenCoreReset pc) := fun _ => ⟨_, rfl⟩
theorem ledgerSummaryFlush : Statement .ledgerSummaryFlush := fun _ => ⟨_, rfl⟩
theorem ledgerEventWrite : Statement .ledgerEventWrite := fun _ => ⟨_, rfl⟩
theorem telemetryDatagram (sub) : Statement (.telemetryDatagram sub) := fun _ => ⟨_, rfl⟩
theorem laneTrainingAttempt (l) : Statement (.laneTrainingAttempt l) := fun _ => ⟨_, rfl⟩
theorem codewordLock (l w words) : Statement (.codewordLock l w words) := fun _ => ⟨_, rfl⟩
theorem trainingTimeout (l) : Statement (.trainingTimeout l) := fun _ => ⟨_, rfl⟩
theorem initFrame (l f rtt) : Statement (.initFrame l f rtt) := fun _ => ⟨_, rfl⟩
theorem discoveryRecord (l d) : Statement (.discoveryRecord l d) := fun _ => ⟨_, rfl⟩
theorem laneExtraLight (l powA powB) : Statement (.laneExtraLight l powA powB) := fun _ => ⟨_, rfl⟩
theorem laneRetrain (l cause) : Statement (.laneRetrain l cause) := fun _ => ⟨_, rfl⟩
theorem retrainComplete (l) : Statement (.retrainComplete l) := fun _ => ⟨_, rfl⟩
theorem retrainTimeout (l) : Statement (.retrainTimeout l) := fun _ => ⟨_, rfl⟩
theorem frameReceive (l f) : Statement (.frameReceive l f) := fun _ => ⟨_, rfl⟩
theorem frameReplayTimeout (l) : Statement (.frameReplayTimeout l) := fun _ => ⟨_, rfl⟩
theorem hostPortDown (lanes cause) : Statement (.hostPortDown lanes cause) := fun _ => ⟨_, rfl⟩
theorem ethernetPauseReceive (frame) : Statement (.ethernetPauseReceive frame) := fun _ => ⟨_, rfl⟩
theorem dieLinkTransfer (link dir segs) : Statement (.dieLinkTransfer link dir segs) := fun _ => ⟨_, rfl⟩
theorem dieLinkReplayTimeout (link dir) : Statement (.dieLinkReplayTimeout link dir) := fun _ => ⟨_, rfl⟩
theorem relinkStart (link dir) : Statement (.relinkStart link dir) := fun _ => ⟨_, rfl⟩
theorem relinkComplete (link fails codes) : Statement (.relinkComplete link fails codes) := fun _ => ⟨_, rfl⟩
theorem missingClock (k fromQuad) : Statement (.missingClock k fromQuad) := fun _ => ⟨_, rfl⟩
theorem quadrantResetSeen (q powerGood) : Statement (.quadrantResetSeen q powerGood) := fun _ => ⟨_, rfl⟩
theorem routerPacketArrive (t port vc p) : Statement (.routerPacketArrive t port vc p) := fun _ => ⟨_, rfl⟩
theorem meshEscape (t vc) : Statement (.meshEscape t vc) := fun _ => ⟨_, rfl⟩
theorem escapeTableInstall : Statement .escapeTableInstall := fun _ => ⟨_, rfl⟩
theorem relayForward (l vc p) : Statement (.relayForward l vc p) := fun _ => ⟨_, rfl⟩
theorem reach (sub restoral mtc) : Statement (.reach sub restoral mtc) := fun _ => ⟨_, rfl⟩
theorem trayState (slot live ports) : Statement (.trayState slot live ports) := fun _ => ⟨_, rfl⟩
theorem tableDigest (l digest) : Statement (.tableDigest l digest) := fun _ => ⟨_, rfl⟩
theorem mtcSyncSend : Statement .mtcSyncSend := fun _ => ⟨_, rfl⟩
theorem mtcSync (m) : Statement (.mtcSync m) := fun _ => ⟨_, rfl⟩
theorem mtcHoldover : Statement .mtcHoldover := fun _ => ⟨_, rfl⟩
theorem epochSwitch : Statement .epochSwitch := fun _ => ⟨_, rfl⟩
theorem oldEpochRetire : Statement .oldEpochRetire := fun _ => ⟨_, rfl⟩
theorem load (p ecc) : Statement (.load p ecc) := fun _ => ⟨_, rfl⟩
theorem store (p) : Statement (.store p) := fun _ => ⟨_, rfl⟩
theorem storeFlag (p) : Statement (.storeFlag p) := fun _ => ⟨_, rfl⟩
theorem storeFlagPerform (src) : Statement (.storeFlagPerform src) := fun _ => ⟨_, rfl⟩
theorem atomic (p) : Statement (.atomic p) := fun _ => ⟨_, rfl⟩
theorem atomicGroupClose (line ecc) : Statement (.atomicGroupClose line ecc) := fun _ => ⟨_, rfl⟩
theorem atomicResultExpire (src seq) : Statement (.atomicResultExpire src seq) := fun _ => ⟨_, rfl⟩
theorem signal (p) : Statement (.signal p) := fun _ => ⟨_, rfl⟩
theorem copyPull (p ecc) : Statement (.copyPull p ecc) := fun _ => ⟨_, rfl⟩
theorem loadData (p) : Statement (.loadData p) := fun _ => ⟨_, rfl⟩
theorem ack (p) : Statement (.ack p) := fun _ => ⟨_, rfl⟩
theorem atomicData (p) : Statement (.atomicData p) := fun _ => ⟨_, rfl⟩
theorem busy (p) : Statement (.busy p) := fun _ => ⟨_, rfl⟩
theorem busyResend (k) : Statement (.busyResend k) := fun _ => ⟨_, rfl⟩
theorem error (p) : Statement (.error p) := fun _ => ⟨_, rfl⟩
theorem retransmit (k) : Statement (.retransmit k) := fun _ => ⟨_, rfl⟩
theorem tDeadExpire (k) : Statement (.tDeadExpire k) := fun _ => ⟨_, rfl⟩
theorem seqSignal (iss dst tile ctr n) : Statement (.seqSignal iss dst tile ctr n) := fun _ => ⟨_, rfl⟩
theorem seqWait (iss ctr th timeout) : Statement (.seqWait iss ctr th timeout) := fun _ => ⟨_, rfl⟩
theorem seqTake (iss ctr n) : Statement (.seqTake iss ctr n) := fun _ => ⟨_, rfl⟩
theorem waitTimeout (ctr place) : Statement (.waitTimeout ctr place) := fun _ => ⟨_, rfl⟩
theorem deviceWatchdog : Statement .deviceWatchdog := fun _ => ⟨_, rfl⟩
theorem copyEngineCopy (iss c ecc) : Statement (.copyEngineCopy iss c ecc) := fun _ => ⟨_, rfl⟩
theorem teeForward (ring step ecc) : Statement (.teeForward ring step ecc) := fun _ => ⟨_, rfl⟩
theorem cornerTurnRead (t base pitch rows cols width scales ecc) : Statement (.cornerTurnRead t base pitch rows cols width scales ecc) := fun _ => ⟨_, rfl⟩
theorem scrubWalk (t bank ecc) : Statement (.scrubWalk t bank ecc) := fun _ => ⟨_, rfl⟩
theorem hbmPatrolScrub (m ecc) : Statement (.hbmPatrolScrub m ecc) := fun _ => ⟨_, rfl⟩
theorem hbmSelfRefreshEntry (m) : Statement (.hbmSelfRefreshEntry m) := fun _ => ⟨_, rfl⟩
theorem hbmPatrolBurst (m ecc) : Statement (.hbmPatrolBurst m ecc) := fun _ => ⟨_, rfl⟩
theorem arrayStream (iss acc rows newSet parityOk) : Statement (.arrayStream iss acc rows newSet parityOk) := fun _ => ⟨_, rfl⟩
theorem stationaryLoad (iss cols) : Statement (.stationaryLoad iss cols) := fun _ => ⟨_, rfl⟩
theorem stationaryLoadComplete (t parityOk) : Statement (.stationaryLoadComplete t parityOk) := fun _ => ⟨_, rfl⟩
theorem leafArrive (t src ecc) : Statement (.leafArrive t src ecc) := fun _ => ⟨_, rfl⟩
theorem nodeStoreDrain (t toFmt stochastic ecc) : Statement (.nodeStoreDrain t toFmt stochastic ecc) := fun _ => ⟨_, rfl⟩
theorem thinPathPass (iss acc vecs weights parityOk ecc) : Statement (.thinPathPass iss acc vecs weights parityOk ecc) := fun _ => ⟨_, rfl⟩
theorem vectorOp (iss op parityOk ecc) : Statement (.vectorOp iss op parityOk ecc) := fun _ => ⟨_, rfl⟩
theorem leafReduce (iss kind acc inputs) : Statement (.leafReduce iss kind acc inputs) := fun _ => ⟨_, rfl⟩
theorem combine (t issue kind dest node n idx value poisoned ecc) : Statement (.combine t issue kind dest node n idx value poisoned ecc) := fun _ => ⟨_, rfl⟩
theorem unitClockGate (t u) : Statement (.unitClockGate t u) := fun _ => ⟨_, rfl⟩
theorem crownClockGate (t) : Statement (.crownClockGate t) := fun _ => ⟨_, rfl⟩
theorem crownWake (t why) : Statement (.crownWake t why) := fun _ => ⟨_, rfl⟩
theorem shadowCompare (t a b) : Statement (.shadowCompare t a b) := fun _ => ⟨_, rfl⟩
theorem thirdTileRecompute (t a b) : Statement (.thirdTileRecompute t a b) := fun _ => ⟨_, rfl⟩
theorem phaseBoundary (phase) : Statement (.phaseBoundary phase) := fun _ => ⟨_, rfl⟩
theorem contract (pos op) : Statement (.contract pos op) := fun _ => ⟨_, rfl⟩
theorem map (pos op) : Statement (.map pos op) := fun _ => ⟨_, rfl⟩
theorem reduceSum (pos op) : Statement (.reduceSum pos op) := fun _ => ⟨_, rfl⟩
theorem reduceSumOfSquares (pos op) : Statement (.reduceSumOfSquares pos op) := fun _ => ⟨_, rfl⟩
theorem reduceMax (pos op) : Statement (.reduceMax pos op) := fun _ => ⟨_, rfl⟩
theorem reduceMin (pos op) : Statement (.reduceMin pos op) := fun _ => ⟨_, rfl⟩
theorem attendForward (pos op) : Statement (.attendForward pos op) := fun _ => ⟨_, rfl⟩
theorem attendBackward (pos op) : Statement (.attendBackward pos op) := fun _ => ⟨_, rfl⟩
theorem normaliseRms (pos op) : Statement (.normaliseRms pos op) := fun _ => ⟨_, rfl⟩
theorem normaliseLayer (pos op) : Statement (.normaliseLayer pos op) := fun _ => ⟨_, rfl⟩
theorem gather (pos op) : Statement (.gather pos op) := fun _ => ⟨_, rfl⟩
theorem scatterAdd (pos op) : Statement (.scatterAdd pos op) := fun _ => ⟨_, rfl⟩
theorem scatterReplace (pos op) : Statement (.scatterReplace pos op) := fun _ => ⟨_, rfl⟩
theorem cast (pos op) : Statement (.cast pos op) := fun _ => ⟨_, rfl⟩
theorem drawBits (pos op) : Statement (.drawBits pos op) := fun _ => ⟨_, rfl⟩
theorem drawUniform (pos op) : Statement (.drawUniform pos op) := fun _ => ⟨_, rfl⟩
theorem drawBernoulli (pos op) : Statement (.drawBernoulli pos op) := fun _ => ⟨_, rfl⟩
theorem collectiveReduce (pos op members) : Statement (.collectiveReduce pos op members) := fun _ => ⟨_, rfl⟩
theorem collectiveReduceScatter (pos op members) : Statement (.collectiveReduceScatter pos op members) := fun _ => ⟨_, rfl⟩
theorem collectiveGather (pos op members) : Statement (.collectiveGather pos op members) := fun _ => ⟨_, rfl⟩
theorem collectiveAllToAll (pos op members) : Statement (.collectiveAllToAll pos op members) := fun _ => ⟨_, rfl⟩
theorem collectiveBroadcast (pos op members) : Statement (.collectiveBroadcast pos op members) := fun _ => ⟨_, rfl⟩
theorem collectiveScalarReduce (pos op members) : Statement (.collectiveScalarReduce pos op members) := fun _ => ⟨_, rfl⟩
theorem collectiveBarrier (pos op members) : Statement (.collectiveBarrier pos op members) := fun _ => ⟨_, rfl⟩
theorem copyBox (pos op) : Statement (.copyBox pos op) := fun _ => ⟨_, rfl⟩
theorem copyReshape (pos op) : Statement (.copyReshape pos op) := fun _ => ⟨_, rfl⟩
theorem hostSignalNotify (pos op) : Statement (.hostSignalNotify pos op) := fun _ => ⟨_, rfl⟩
theorem hostSignalAwait (pos op) : Statement (.hostSignalAwait pos op) := fun _ => ⟨_, rfl⟩
theorem run (phase n2) : Statement (.run phase n2) := fun _ => ⟨_, rfl⟩
theorem loop : Statement .loop := fun _ => ⟨_, rfl⟩
theorem endLoop : Statement .endLoop := fun _ => ⟨_, rfl⟩
theorem ifItem (cond) : Statement (.ifItem cond) := fun _ => ⟨_, rfl⟩
theorem elseItem : Statement .elseItem := fun _ => ⟨_, rfl⟩
theorem endIf : Statement .endIf := fun _ => ⟨_, rfl⟩
theorem stepBoundary (b) : Statement (.stepBoundary b) := fun _ => ⟨_, rfl⟩
theorem snapshotBegin (mtc released) : Statement (.snapshotBegin mtc released) := fun _ => ⟨_, rfl⟩
theorem drainComplete : Statement .drainComplete := fun _ => ⟨_, rfl⟩
theorem endHoldExpire : Statement .endHoldExpire := fun _ => ⟨_, rfl⟩
theorem flumeUp (l p) : Statement (.flumeUp l p) := fun _ => ⟨_, rfl⟩
theorem flumeDown (l p) : Statement (.flumeDown l p) := fun _ => ⟨_, rfl⟩
theorem busyRelay (p) : Statement (.busyRelay p) := fun _ => ⟨_, rfl⟩
theorem relayResend (seq) : Statement (.relayResend seq) := fun _ => ⟨_, rfl⟩
theorem flumeTimeout (group seq) : Statement (.flumeTimeout group seq) := fun _ => ⟨_, rfl⟩
theorem flumeSlotDiscard (job group seq) : Statement (.flumeSlotDiscard job group seq) := fun _ => ⟨_, rfl⟩
theorem bulkUp (l p) : Statement (.bulkUp l p) := fun _ => ⟨_, rfl⟩
theorem bulkDown (p) : Statement (.bulkDown p) := fun _ => ⟨_, rfl⟩
theorem bulkDone (p) : Statement (.bulkDone p) := fun _ => ⟨_, rfl⟩
theorem chunkTimeout (group chunk) : Statement (.chunkTimeout group chunk) := fun _ => ⟨_, rfl⟩
theorem bulkBufferDiscard (job group chunk) : Statement (.bulkBufferDiscard job group chunk) := fun _ => ⟨_, rfl⟩
theorem recoveryNotice (n) : Statement (.recoveryNotice n) := fun _ => ⟨_, rfl⟩
theorem recoveryNoticeResend : Statement .recoveryNoticeResend := fun _ => ⟨_, rfl⟩
theorem collectionWindowEnd (recoveryDigestsAgree spares plan) : Statement (.collectionWindowEnd recoveryDigestsAgree spares plan) := fun _ => ⟨_, rfl⟩
theorem snapshotChunkLand (chunk data) : Statement (.snapshotChunkLand chunk data) := fun _ => ⟨_, rfl⟩
theorem fillAssign (f) : Statement (.fillAssign f) := fun _ => ⟨_, rfl⟩
theorem spareAvailable (slot endpoint tiles plan) : Statement (.spareAvailable slot endpoint tiles plan) := fun _ => ⟨_, rfl⟩
theorem repairTimeout : Statement .repairTimeout := fun _ => ⟨_, rfl⟩
theorem hauOpen (u wantsNotices) : Statement (.hauOpen u wantsNotices) := fun _ => ⟨_, rfl⟩
theorem data (g) : Statement (.data g) := fun _ => ⟨_, rfl⟩
theorem haulerAck (g) : Statement (.haulerAck g) := fun _ => ⟨_, rfl⟩
theorem close (conn) : Statement (.close conn) := fun _ => ⟨_, rfl⟩
theorem haulerReset (conn) : Statement (.haulerReset conn) := fun _ => ⟨_, rfl⟩
theorem haulerAckTimer (conn) : Statement (.haulerAckTimer conn) := fun _ => ⟨_, rfl⟩
theorem haulerRetransmitTimeout (conn seq) : Statement (.haulerRetransmitTimeout conn seq) := fun _ => ⟨_, rfl⟩
theorem connectionTimeout (conn) : Statement (.connectionTimeout conn) := fun _ => ⟨_, rfl⟩
theorem writeTensor (r t bytes) : Statement (.writeTensor r t bytes) := fun _ => ⟨_, rfl⟩
theorem writeInput (r t bytes) : Statement (.writeInput r t bytes) := fun _ => ⟨_, rfl⟩
theorem writeMarkWritten (r t bytes) : Statement (.writeMarkWritten r t bytes) := fun _ => ⟨_, rfl⟩
theorem writeRelease (r t) : Statement (.writeRelease r t) := fun _ => ⟨_, rfl⟩
theorem writeSnapshotSlot (r t bytes) : Statement (.writeSnapshotSlot r t bytes) := fun _ => ⟨_, rfl⟩
theorem writeJournalRing (r t bytes) : Statement (.writeJournalRing r t bytes) := fun _ => ⟨_, rfl⟩
theorem writeFaultDump (r t bytes) : Statement (.writeFaultDump r t bytes) := fun _ => ⟨_, rfl⟩
theorem readTensor (r t) : Statement (.readTensor r t) := fun _ => ⟨_, rfl⟩
theorem readSnapshotSlot (r t) : Statement (.readSnapshotSlot r t) := fun _ => ⟨_, rfl⟩
theorem readJournalRing (r t) : Statement (.readJournalRing r t) := fun _ => ⟨_, rfl⟩
theorem readFaultDump (r t) : Statement (.readFaultDump r t) := fun _ => ⟨_, rfl⟩
theorem haulerSignal (r h n) : Statement (.haulerSignal r h n) := fun _ => ⟨_, rfl⟩
theorem setWatch (r h threshold) : Statement (.setWatch r h threshold) := fun _ => ⟨_, rfl⟩
theorem clearWatch (r h) : Statement (.clearWatch r h) := fun _ => ⟨_, rfl⟩
theorem loadProgram (r image) : Statement (.loadProgram r image) := fun _ => ⟨_, rfl⟩
theorem startJob (r body) : Statement (.startJob r body) := fun _ => ⟨_, rfl⟩
theorem planCompute (p) : Statement (.planCompute p) := fun _ => ⟨_, rfl⟩
theorem stopJob (r tag) : Statement (.stopJob r tag) := fun _ => ⟨_, rfl⟩
theorem queryStatus (r) : Statement (.queryStatus r) := fun _ => ⟨_, rfl⟩
theorem queryPlanReport (r) : Statement (.queryPlanReport r) := fun _ => ⟨_, rfl⟩
theorem queryFaultRecords (r count) : Statement (.queryFaultRecords r count) := fun _ => ⟨_, rfl⟩
theorem queryQuote (r nonce) : Statement (.queryQuote r nonce) := fun _ => ⟨_, rfl⟩
theorem queryReducedTally (r tensor) : Statement (.queryReducedTally r tensor) := fun _ => ⟨_, rfl⟩
theorem readReg (r addr count) : Statement (.readReg r addr count) := fun _ => ⟨_, rfl⟩
theorem writeReg (r addr values) : Statement (.writeReg r addr values) := fun _ => ⟨_, rfl⟩
theorem wardenStatus (r multicast) : Statement (.wardenStatus r multicast) := fun s => by
  cases multicast <;> exact ⟨_, rfl⟩
theorem wardenLedgerRead (r offset length) : Statement (.wardenLedgerRead r offset length) := fun _ => ⟨_, rfl⟩
theorem telemetrySubscribe (r period) : Statement (.telemetrySubscribe r period) := fun _ => ⟨_, rfl⟩
theorem telemetryBufferRead (r first count) : Statement (.telemetryBufferRead r first count) := fun _ => ⟨_, rfl⟩
theorem stageRing (r ring) : Statement (.stageRing r ring) := fun _ => ⟨_, rfl⟩
theorem writeFloorRecord (r f) : Statement (.writeFloorRecord r f) := fun _ => ⟨_, rfl⟩
theorem enrolOwnerKeys (r keys) : Statement (.enrolOwnerKeys r keys) := fun _ => ⟨_, rfl⟩
theorem updateOwnerKeys (r keys keyIndex rsaOk slhOk) : Statement (.updateOwnerKeys r keys keyIndex rsaOk slhOk) := fun _ => ⟨_, rfl⟩
theorem wardenQuote (r nonce) : Statement (.wardenQuote r nonce) := fun _ => ⟨_, rfl⟩
theorem runtimePowerLimit (r watts) : Statement (.runtimePowerLimit r watts) := fun _ => ⟨_, rfl⟩
theorem ieee1500Read (r m) : Statement (.ieee1500Read r m) := fun _ => ⟨_, rfl⟩
theorem memoryBist (r m) : Statement (.memoryBist r m) := fun _ => ⟨_, rfl⟩
theorem softPpr (r m row) : Statement (.softPpr r m row) := fun _ => ⟨_, rfl⟩
theorem hardPpr (r m row) : Statement (.hardPpr r m row) := fun _ => ⟨_, rfl⟩
theorem listPageRetirement (r m page) : Statement (.listPageRetirement r m page) := fun _ => ⟨_, rfl⟩
theorem idleTimeExerciser (r) : Statement (.idleTimeExerciser r) := fun _ => ⟨_, rfl⟩
theorem exerciserTestEnd (digest band reached) : Statement (.exerciserTestEnd digest band reached) := fun _ => ⟨_, rfl⟩
theorem releaseQuarantined (r) : Statement (.releaseQuarantined r) := fun _ => ⟨_, rfl⟩
theorem windowEntries (r e entry) : Statement (.windowEntries r e entry) := fun _ => ⟨_, rfl⟩
theorem wardenRegAccess (r write addr count values) : Statement (.wardenRegAccess r write addr count values) := fun _ => ⟨_, rfl⟩
theorem registerWrite (p addr value) : Statement (.registerWrite p addr value) := fun _ => ⟨_, rfl⟩
theorem devEvents (p value) : Statement (.devEvents p value) := fun _ => ⟨_, rfl⟩
theorem faultSel (p value) : Statement (.faultSel p value) := fun _ => ⟨_, rfl⟩
theorem faultNew (p) : Statement (.faultNew p) := fun _ => ⟨_, rfl⟩
theorem win (p e k value) : Statement (.win p e k value) := fun _ => ⟨_, rfl⟩
theorem ftData (p value) : Statement (.ftData p value) := fun _ => ⟨_, rfl⟩
theorem ftCommit (p value) : Statement (.ftCommit p value) := fun _ => ⟨_, rfl⟩
theorem pwrRuntime (p value) : Statement (.pwrRuntime p value) := fun _ => ⟨_, rfl⟩
theorem dlinkSel (p value) : Statement (.dlinkSel p value) := fun _ => ⟨_, rfl⟩
theorem telSel (p value) : Statement (.telSel p value) := fun _ => ⟨_, rfl⟩
theorem telDataLo (p) : Statement (.telDataLo p) := fun _ => ⟨_, rfl⟩
theorem pairLoRead (p addr) : Statement (.pairLoRead p addr) := fun _ => ⟨_, rfl⟩
theorem broadcastRead (p addr) : Statement (.broadcastRead p addr) := fun _ => ⟨_, rfl⟩
theorem bypass : Statement .bypass := fun _ => ⟨_, rfl⟩
theorem idcode : Statement .idcode := fun _ => ⟨_, rfl⟩
theorem samplePreload (lines shifted) : Statement (.samplePreload lines shifted) := fun _ => ⟨_, rfl⟩
theorem extest (lines shifted) : Statement (.extest lines shifted) := fun _ => ⟨_, rfl⟩
theorem clamp : Statement .clamp := fun _ => ⟨_, rfl⟩
theorem highz : Statement .highz := fun _ => ⟨_, rfl⟩
theorem ctrlAccess (dr) : Statement (.ctrlAccess dr) := fun _ => ⟨_, rfl⟩
theorem ledgerRead (offset) : Statement (.ledgerRead offset) := fun _ => ⟨_, rfl⟩
theorem jtagTestLogicReset : Statement .jtagTestLogicReset := fun _ => ⟨_, rfl⟩
theorem q0DomainStable : Statement .q0DomainStable := fun _ => ⟨_, rfl⟩
theorem refclkReturn : Statement .refclkReturn := fun _ => ⟨_, rfl⟩
theorem hostPortUp : Statement .hostPortUp := fun _ => ⟨_, rfl⟩
theorem quoteSigned : Statement .quoteSigned := fun _ => ⟨_, rfl⟩

/-- Every command answers a next state. -/
theorem all (i : Instr) : Statement i := by
  cases i with
  | vauxOn holdN modRstN puf unwrap => exact vauxOn holdN modRstN puf unwrap
  | vauxLoss => exact vauxLoss
  | auxRstNAssert => exact auxRstNAssert
  | auxRstNRelease holdN modRstN puf unwrap => exact auxRstNRelease holdN modRstN puf unwrap
  | modRstNAssert => exact modRstNAssert
  | modRstNRelease => exact modRstNRelease
  | holdNRise => exact holdNRise
  | wardenSelfTestPass => exact wardenSelfTestPass
  | v48InRange v48 obs => exact v48InRange v48 obs
  | startChecks => exact startChecks
  | startHoldRetry => exact startHoldRetry
  | ringTrialRestart => exact ringTrialRestart
  | holdLimitExpire => exact holdLimitExpire
  | q0Loss => exact q0Loss
  | refclkLoss => exact refclkLoss
  | auxclkLoss => exact auxclkLoss
  | auxclkReturn => exact auxclkReturn
  | v48Shutdown v48 => exact v48Shutdown v48
  | thermTripComparator t value => exact thermTripComparator t value
  | thermTripRelease => exact thermTripRelease
  | managementTick r => exact managementTick r
  | notchRaise q => exact notchRaise q
  | notchFloor q => exact notchFloor q
  | sensorSuspect k sensor => exact sensorSuspect k sensor
  | refreshRateApply m => exact refreshRateApply m
  | wardenCoreReset pc => exact wardenCoreReset pc
  | ledgerSummaryFlush => exact ledgerSummaryFlush
  | ledgerEventWrite => exact ledgerEventWrite
  | telemetryDatagram sub => exact telemetryDatagram sub
  | laneTrainingAttempt l => exact laneTrainingAttempt l
  | codewordLock l w words => exact codewordLock l w words
  | trainingTimeout l => exact trainingTimeout l
  | initFrame l f rtt => exact initFrame l f rtt
  | discoveryRecord l d => exact discoveryRecord l d
  | laneExtraLight l powA powB => exact laneExtraLight l powA powB
  | laneRetrain l cause => exact laneRetrain l cause
  | retrainComplete l => exact retrainComplete l
  | retrainTimeout l => exact retrainTimeout l
  | frameReceive l f => exact frameReceive l f
  | frameReplayTimeout l => exact frameReplayTimeout l
  | hostPortDown lanes cause => exact hostPortDown lanes cause
  | ethernetPauseReceive frame => exact ethernetPauseReceive frame
  | dieLinkTransfer link dir segs => exact dieLinkTransfer link dir segs
  | dieLinkReplayTimeout link dir => exact dieLinkReplayTimeout link dir
  | relinkStart link dir => exact relinkStart link dir
  | relinkComplete link fails codes => exact relinkComplete link fails codes
  | missingClock k fromQuad => exact missingClock k fromQuad
  | quadrantResetSeen q powerGood => exact quadrantResetSeen q powerGood
  | routerPacketArrive t port vc p => exact routerPacketArrive t port vc p
  | meshEscape t vc => exact meshEscape t vc
  | escapeTableInstall => exact escapeTableInstall
  | relayForward l vc p => exact relayForward l vc p
  | reach sub restoral mtc => exact reach sub restoral mtc
  | trayState slot live ports => exact trayState slot live ports
  | tableDigest l digest => exact tableDigest l digest
  | mtcSyncSend => exact mtcSyncSend
  | mtcSync m => exact mtcSync m
  | mtcHoldover => exact mtcHoldover
  | epochSwitch => exact epochSwitch
  | oldEpochRetire => exact oldEpochRetire
  | load p ecc => exact load p ecc
  | store p => exact store p
  | storeFlag p => exact storeFlag p
  | storeFlagPerform src => exact storeFlagPerform src
  | atomic p => exact atomic p
  | atomicGroupClose line ecc => exact atomicGroupClose line ecc
  | atomicResultExpire src seq => exact atomicResultExpire src seq
  | signal p => exact signal p
  | copyPull p ecc => exact copyPull p ecc
  | loadData p => exact loadData p
  | ack p => exact ack p
  | atomicData p => exact atomicData p
  | busy p => exact busy p
  | busyResend k => exact busyResend k
  | error p => exact error p
  | retransmit k => exact retransmit k
  | tDeadExpire k => exact tDeadExpire k
  | seqSignal iss dst tile ctr n => exact seqSignal iss dst tile ctr n
  | seqWait iss ctr th timeout => exact seqWait iss ctr th timeout
  | seqTake iss ctr n => exact seqTake iss ctr n
  | waitTimeout ctr place => exact waitTimeout ctr place
  | deviceWatchdog => exact deviceWatchdog
  | copyEngineCopy iss c ecc => exact copyEngineCopy iss c ecc
  | teeForward ring step ecc => exact teeForward ring step ecc
  | cornerTurnRead t base pitch rows cols width scales ecc => exact cornerTurnRead t base pitch rows cols width scales ecc
  | scrubWalk t bank ecc => exact scrubWalk t bank ecc
  | hbmPatrolScrub m ecc => exact hbmPatrolScrub m ecc
  | hbmSelfRefreshEntry m => exact hbmSelfRefreshEntry m
  | hbmPatrolBurst m ecc => exact hbmPatrolBurst m ecc
  | arrayStream iss acc rows newSet parityOk => exact arrayStream iss acc rows newSet parityOk
  | stationaryLoad iss cols => exact stationaryLoad iss cols
  | stationaryLoadComplete t parityOk => exact stationaryLoadComplete t parityOk
  | leafArrive t src ecc => exact leafArrive t src ecc
  | nodeStoreDrain t toFmt stochastic ecc => exact nodeStoreDrain t toFmt stochastic ecc
  | thinPathPass iss acc vecs weights parityOk ecc => exact thinPathPass iss acc vecs weights parityOk ecc
  | vectorOp iss op parityOk ecc => exact vectorOp iss op parityOk ecc
  | leafReduce iss kind acc inputs => exact leafReduce iss kind acc inputs
  | combine t issue kind dest node n idx value poisoned ecc => exact combine t issue kind dest node n idx value poisoned ecc
  | unitClockGate t u => exact unitClockGate t u
  | crownClockGate t => exact crownClockGate t
  | crownWake t why => exact crownWake t why
  | shadowCompare t a b => exact shadowCompare t a b
  | thirdTileRecompute t a b => exact thirdTileRecompute t a b
  | phaseBoundary phase => exact phaseBoundary phase
  | contract pos op => exact contract pos op
  | map pos op => exact map pos op
  | reduceSum pos op => exact reduceSum pos op
  | reduceSumOfSquares pos op => exact reduceSumOfSquares pos op
  | reduceMax pos op => exact reduceMax pos op
  | reduceMin pos op => exact reduceMin pos op
  | attendForward pos op => exact attendForward pos op
  | attendBackward pos op => exact attendBackward pos op
  | normaliseRms pos op => exact normaliseRms pos op
  | normaliseLayer pos op => exact normaliseLayer pos op
  | gather pos op => exact gather pos op
  | scatterAdd pos op => exact scatterAdd pos op
  | scatterReplace pos op => exact scatterReplace pos op
  | cast pos op => exact cast pos op
  | drawBits pos op => exact drawBits pos op
  | drawUniform pos op => exact drawUniform pos op
  | drawBernoulli pos op => exact drawBernoulli pos op
  | collectiveReduce pos op members => exact collectiveReduce pos op members
  | collectiveReduceScatter pos op members => exact collectiveReduceScatter pos op members
  | collectiveGather pos op members => exact collectiveGather pos op members
  | collectiveAllToAll pos op members => exact collectiveAllToAll pos op members
  | collectiveBroadcast pos op members => exact collectiveBroadcast pos op members
  | collectiveScalarReduce pos op members => exact collectiveScalarReduce pos op members
  | collectiveBarrier pos op members => exact collectiveBarrier pos op members
  | copyBox pos op => exact copyBox pos op
  | copyReshape pos op => exact copyReshape pos op
  | hostSignalNotify pos op => exact hostSignalNotify pos op
  | hostSignalAwait pos op => exact hostSignalAwait pos op
  | run phase n2 => exact run phase n2
  | loop => exact loop
  | endLoop => exact endLoop
  | ifItem cond => exact ifItem cond
  | elseItem => exact elseItem
  | endIf => exact endIf
  | stepBoundary b => exact stepBoundary b
  | snapshotBegin mtc released => exact snapshotBegin mtc released
  | drainComplete => exact drainComplete
  | endHoldExpire => exact endHoldExpire
  | flumeUp l p => exact flumeUp l p
  | flumeDown l p => exact flumeDown l p
  | busyRelay p => exact busyRelay p
  | relayResend seq => exact relayResend seq
  | flumeTimeout group seq => exact flumeTimeout group seq
  | flumeSlotDiscard job group seq => exact flumeSlotDiscard job group seq
  | bulkUp l p => exact bulkUp l p
  | bulkDown p => exact bulkDown p
  | bulkDone p => exact bulkDone p
  | chunkTimeout group chunk => exact chunkTimeout group chunk
  | bulkBufferDiscard job group chunk => exact bulkBufferDiscard job group chunk
  | recoveryNotice n => exact recoveryNotice n
  | recoveryNoticeResend => exact recoveryNoticeResend
  | collectionWindowEnd recoveryDigestsAgree spares plan => exact collectionWindowEnd recoveryDigestsAgree spares plan
  | snapshotChunkLand chunk data => exact snapshotChunkLand chunk data
  | fillAssign f => exact fillAssign f
  | spareAvailable slot endpoint tiles plan => exact spareAvailable slot endpoint tiles plan
  | repairTimeout => exact repairTimeout
  | hauOpen u wantsNotices => exact hauOpen u wantsNotices
  | data g => exact data g
  | haulerAck g => exact haulerAck g
  | close conn => exact close conn
  | haulerReset conn => exact haulerReset conn
  | haulerAckTimer conn => exact haulerAckTimer conn
  | haulerRetransmitTimeout conn seq => exact haulerRetransmitTimeout conn seq
  | connectionTimeout conn => exact connectionTimeout conn
  | writeTensor r t bytes => exact writeTensor r t bytes
  | writeInput r t bytes => exact writeInput r t bytes
  | writeMarkWritten r t bytes => exact writeMarkWritten r t bytes
  | writeRelease r t => exact writeRelease r t
  | writeSnapshotSlot r t bytes => exact writeSnapshotSlot r t bytes
  | writeJournalRing r t bytes => exact writeJournalRing r t bytes
  | writeFaultDump r t bytes => exact writeFaultDump r t bytes
  | readTensor r t => exact readTensor r t
  | readSnapshotSlot r t => exact readSnapshotSlot r t
  | readJournalRing r t => exact readJournalRing r t
  | readFaultDump r t => exact readFaultDump r t
  | haulerSignal r h n => exact haulerSignal r h n
  | setWatch r h threshold => exact setWatch r h threshold
  | clearWatch r h => exact clearWatch r h
  | loadProgram r image => exact loadProgram r image
  | startJob r body => exact startJob r body
  | planCompute p => exact planCompute p
  | stopJob r tag => exact stopJob r tag
  | queryStatus r => exact queryStatus r
  | queryPlanReport r => exact queryPlanReport r
  | queryFaultRecords r count => exact queryFaultRecords r count
  | queryQuote r nonce => exact queryQuote r nonce
  | queryReducedTally r tensor => exact queryReducedTally r tensor
  | readReg r addr count => exact readReg r addr count
  | writeReg r addr values => exact writeReg r addr values
  | wardenStatus r multicast => exact wardenStatus r multicast
  | wardenLedgerRead r offset length => exact wardenLedgerRead r offset length
  | telemetrySubscribe r period => exact telemetrySubscribe r period
  | telemetryBufferRead r first count => exact telemetryBufferRead r first count
  | stageRing r ring => exact stageRing r ring
  | writeFloorRecord r f => exact writeFloorRecord r f
  | enrolOwnerKeys r keys => exact enrolOwnerKeys r keys
  | updateOwnerKeys r keys keyIndex rsaOk slhOk => exact updateOwnerKeys r keys keyIndex rsaOk slhOk
  | wardenQuote r nonce => exact wardenQuote r nonce
  | runtimePowerLimit r watts => exact runtimePowerLimit r watts
  | ieee1500Read r m => exact ieee1500Read r m
  | memoryBist r m => exact memoryBist r m
  | softPpr r m row => exact softPpr r m row
  | hardPpr r m row => exact hardPpr r m row
  | listPageRetirement r m page => exact listPageRetirement r m page
  | idleTimeExerciser r => exact idleTimeExerciser r
  | exerciserTestEnd digest band reached => exact exerciserTestEnd digest band reached
  | releaseQuarantined r => exact releaseQuarantined r
  | windowEntries r e entry => exact windowEntries r e entry
  | wardenRegAccess r write addr count values => exact wardenRegAccess r write addr count values
  | registerWrite p addr value => exact registerWrite p addr value
  | devEvents p value => exact devEvents p value
  | faultSel p value => exact faultSel p value
  | faultNew p => exact faultNew p
  | win p e k value => exact win p e k value
  | ftData p value => exact ftData p value
  | ftCommit p value => exact ftCommit p value
  | pwrRuntime p value => exact pwrRuntime p value
  | dlinkSel p value => exact dlinkSel p value
  | telSel p value => exact telSel p value
  | telDataLo p => exact telDataLo p
  | pairLoRead p addr => exact pairLoRead p addr
  | broadcastRead p addr => exact broadcastRead p addr
  | bypass => exact bypass
  | idcode => exact idcode
  | samplePreload lines shifted => exact samplePreload lines shifted
  | extest lines shifted => exact extest lines shifted
  | clamp => exact clamp
  | highz => exact highz
  | ctrlAccess dr => exact ctrlAccess dr
  | ledgerRead offset => exact ledgerRead offset
  | jtagTestLogicReset => exact jtagTestLogicReset
  | q0DomainStable => exact q0DomainStable
  | refclkReturn => exact refclkReturn
  | hostPortUp => exact hostPortUp
  | quoteSigned => exact quoteSigned

end Sys2Proof.Laws.Answers
end

