-- ==== Sys2Proof/Laws/Updates.lean ====
section
/-! SUPPORT. What the updates of counters, queues, windows, tensor copies, path copies and formats leave, one lemma a field, and what they read back. -/
namespace Sys2Proof.Machine
open Sys2Proof

@[simp] theorem setCtr_pending (k : Nat) (c : Ctr) (s : State) : (setCtr k c s).pending = s.pending := rfl
@[simp] theorem setCtr_time (k : Nat) (c : Ctr) (s : State) : (setCtr k c s).time = s.time := rfl
@[simp] theorem setCtr_draws (k : Nat) (c : Ctr) (s : State) : (setCtr k c s).draws = s.draws := rfl
@[simp] theorem setCtr_out (k : Nat) (c : Ctr) (s : State) : (setCtr k c s).out = s.out := rfl
@[simp] theorem setCtr_faults (k : Nat) (c : Ctr) (s : State) : (setCtr k c s).faults = s.faults := rfl
@[simp] theorem setCtr_pins (k : Nat) (c : Ctr) (s : State) : (setCtr k c s).pins = s.pins := rfl
@[simp] theorem setCtr_dev (k : Nat) (c : Ctr) (s : State) : (setCtr k c s).dev = s.dev := rfl
@[simp] theorem setCtr_heat (k : Nat) (c : Ctr) (s : State) : (setCtr k c s).heat = s.heat := rfl
@[simp] theorem setCtr_bark (k : Nat) (c : Ctr) (s : State) : (setCtr k c s).bark = s.bark := rfl
@[simp] theorem setCtr_stump (k : Nat) (c : Ctr) (s : State) : (setCtr k c s).stump = s.stump := rfl
@[simp] theorem setCtr_optics (k : Nat) (c : Ctr) (s : State) : (setCtr k c s).optics = s.optics := rfl
@[simp] theorem setCtr_stacking (k : Nat) (c : Ctr) (s : State) : (setCtr k c s).stacking = s.stacking := rfl
@[simp] theorem setCtr_fabric (k : Nat) (c : Ctr) (s : State) : (setCtr k c s).fabric = s.fabric := rfl
@[simp] theorem setCtr_tiles (k : Nat) (c : Ctr) (s : State) : (setCtr k c s).tiles = s.tiles := rfl
@[simp] theorem setCtr_mem (k : Nat) (c : Ctr) (s : State) : (setCtr k c s).mem = s.mem := rfl
@[simp] theorem setCtr_mtc (k : Nat) (c : Ctr) (s : State) : (setCtr k c s).mtc = s.mtc := rfl
@[simp] theorem setCtr_job (k : Nat) (c : Ctr) (s : State) : (setCtr k c s).job = s.job := rfl
@[simp] theorem setCtr_recov (k : Nat) (c : Ctr) (s : State) : (setCtr k c s).recov = s.recov := rfl
@[simp] theorem setCtr_flume (k : Nat) (c : Ctr) (s : State) : (setCtr k c s).flume = s.flume := rfl
@[simp] theorem setCtr_hauler (k : Nat) (c : Ctr) (s : State) : (setCtr k c s).hauler = s.hauler := rfl
@[simp] theorem setCtr_regs (k : Nat) (c : Ctr) (s : State) : (setCtr k c s).regs = s.regs := rfl
@[simp] theorem setCtr_jtag (k : Nat) (c : Ctr) (s : State) : (setCtr k c s).jtag = s.jtag := rfl
@[simp] theorem setQueue_pending (k : Nat) (q : List Queued) (s : State) : (setQueue k q s).pending = s.pending := rfl
@[simp] theorem setQueue_time (k : Nat) (q : List Queued) (s : State) : (setQueue k q s).time = s.time := rfl
@[simp] theorem setQueue_draws (k : Nat) (q : List Queued) (s : State) : (setQueue k q s).draws = s.draws := rfl
@[simp] theorem setQueue_out (k : Nat) (q : List Queued) (s : State) : (setQueue k q s).out = s.out := rfl
@[simp] theorem setQueue_faults (k : Nat) (q : List Queued) (s : State) : (setQueue k q s).faults = s.faults := rfl
@[simp] theorem setQueue_pins (k : Nat) (q : List Queued) (s : State) : (setQueue k q s).pins = s.pins := rfl
@[simp] theorem setQueue_dev (k : Nat) (q : List Queued) (s : State) : (setQueue k q s).dev = s.dev := rfl
@[simp] theorem setQueue_heat (k : Nat) (q : List Queued) (s : State) : (setQueue k q s).heat = s.heat := rfl
@[simp] theorem setQueue_bark (k : Nat) (q : List Queued) (s : State) : (setQueue k q s).bark = s.bark := rfl
@[simp] theorem setQueue_stump (k : Nat) (q : List Queued) (s : State) : (setQueue k q s).stump = s.stump := rfl
@[simp] theorem setQueue_optics (k : Nat) (q : List Queued) (s : State) : (setQueue k q s).optics = s.optics := rfl
@[simp] theorem setQueue_stacking (k : Nat) (q : List Queued) (s : State) : (setQueue k q s).stacking = s.stacking := rfl
@[simp] theorem setQueue_remote (k : Nat) (q : List Queued) (s : State) : (setQueue k q s).remote = s.remote := rfl
@[simp] theorem setQueue_tiles (k : Nat) (q : List Queued) (s : State) : (setQueue k q s).tiles = s.tiles := rfl
@[simp] theorem setQueue_mem (k : Nat) (q : List Queued) (s : State) : (setQueue k q s).mem = s.mem := rfl
@[simp] theorem setQueue_mtc (k : Nat) (q : List Queued) (s : State) : (setQueue k q s).mtc = s.mtc := rfl
@[simp] theorem setQueue_job (k : Nat) (q : List Queued) (s : State) : (setQueue k q s).job = s.job := rfl
@[simp] theorem setQueue_recov (k : Nat) (q : List Queued) (s : State) : (setQueue k q s).recov = s.recov := rfl
@[simp] theorem setQueue_flume (k : Nat) (q : List Queued) (s : State) : (setQueue k q s).flume = s.flume := rfl
@[simp] theorem setQueue_hauler (k : Nat) (q : List Queued) (s : State) : (setQueue k q s).hauler = s.hauler := rfl
@[simp] theorem setQueue_regs (k : Nat) (q : List Queued) (s : State) : (setQueue k q s).regs = s.regs := rfl
@[simp] theorem setQueue_jtag (k : Nat) (q : List Queued) (s : State) : (setQueue k q s).jtag = s.jtag := rfl
@[simp] theorem setWin_pending (x : BitVec 16) (w : Win) (s : State) : (setWin x w s).pending = s.pending := rfl
@[simp] theorem setWin_time (x : BitVec 16) (w : Win) (s : State) : (setWin x w s).time = s.time := rfl
@[simp] theorem setWin_draws (x : BitVec 16) (w : Win) (s : State) : (setWin x w s).draws = s.draws := rfl
@[simp] theorem setWin_out (x : BitVec 16) (w : Win) (s : State) : (setWin x w s).out = s.out := rfl
@[simp] theorem setWin_faults (x : BitVec 16) (w : Win) (s : State) : (setWin x w s).faults = s.faults := rfl
@[simp] theorem setWin_pins (x : BitVec 16) (w : Win) (s : State) : (setWin x w s).pins = s.pins := rfl
@[simp] theorem setWin_dev (x : BitVec 16) (w : Win) (s : State) : (setWin x w s).dev = s.dev := rfl
@[simp] theorem setWin_heat (x : BitVec 16) (w : Win) (s : State) : (setWin x w s).heat = s.heat := rfl
@[simp] theorem setWin_bark (x : BitVec 16) (w : Win) (s : State) : (setWin x w s).bark = s.bark := rfl
@[simp] theorem setWin_stump (x : BitVec 16) (w : Win) (s : State) : (setWin x w s).stump = s.stump := rfl
@[simp] theorem setWin_optics (x : BitVec 16) (w : Win) (s : State) : (setWin x w s).optics = s.optics := rfl
@[simp] theorem setWin_stacking (x : BitVec 16) (w : Win) (s : State) : (setWin x w s).stacking = s.stacking := rfl
@[simp] theorem setWin_fabric (x : BitVec 16) (w : Win) (s : State) : (setWin x w s).fabric = s.fabric := rfl
@[simp] theorem setWin_tiles (x : BitVec 16) (w : Win) (s : State) : (setWin x w s).tiles = s.tiles := rfl
@[simp] theorem setWin_mem (x : BitVec 16) (w : Win) (s : State) : (setWin x w s).mem = s.mem := rfl
@[simp] theorem setWin_mtc (x : BitVec 16) (w : Win) (s : State) : (setWin x w s).mtc = s.mtc := rfl
@[simp] theorem setWin_job (x : BitVec 16) (w : Win) (s : State) : (setWin x w s).job = s.job := rfl
@[simp] theorem setWin_recov (x : BitVec 16) (w : Win) (s : State) : (setWin x w s).recov = s.recov := rfl
@[simp] theorem setWin_flume (x : BitVec 16) (w : Win) (s : State) : (setWin x w s).flume = s.flume := rfl
@[simp] theorem setWin_hauler (x : BitVec 16) (w : Win) (s : State) : (setWin x w s).hauler = s.hauler := rfl
@[simp] theorem setWin_regs (x : BitVec 16) (w : Win) (s : State) : (setWin x w s).regs = s.regs := rfl
@[simp] theorem setWin_jtag (x : BitVec 16) (w : Win) (s : State) : (setWin x w s).jtag = s.jtag := rfl
@[simp] theorem setTens_pending (k : Nat) (t : Tens) (s : State) : (setTens k t s).pending = s.pending := rfl
@[simp] theorem setTens_time (k : Nat) (t : Tens) (s : State) : (setTens k t s).time = s.time := rfl
@[simp] theorem setTens_draws (k : Nat) (t : Tens) (s : State) : (setTens k t s).draws = s.draws := rfl
@[simp] theorem setTens_out (k : Nat) (t : Tens) (s : State) : (setTens k t s).out = s.out := rfl
@[simp] theorem setTens_faults (k : Nat) (t : Tens) (s : State) : (setTens k t s).faults = s.faults := rfl
@[simp] theorem setTens_pins (k : Nat) (t : Tens) (s : State) : (setTens k t s).pins = s.pins := rfl
@[simp] theorem setTens_dev (k : Nat) (t : Tens) (s : State) : (setTens k t s).dev = s.dev := rfl
@[simp] theorem setTens_heat (k : Nat) (t : Tens) (s : State) : (setTens k t s).heat = s.heat := rfl
@[simp] theorem setTens_bark (k : Nat) (t : Tens) (s : State) : (setTens k t s).bark = s.bark := rfl
@[simp] theorem setTens_stump (k : Nat) (t : Tens) (s : State) : (setTens k t s).stump = s.stump := rfl
@[simp] theorem setTens_optics (k : Nat) (t : Tens) (s : State) : (setTens k t s).optics = s.optics := rfl
@[simp] theorem setTens_stacking (k : Nat) (t : Tens) (s : State) : (setTens k t s).stacking = s.stacking := rfl
@[simp] theorem setTens_fabric (k : Nat) (t : Tens) (s : State) : (setTens k t s).fabric = s.fabric := rfl
@[simp] theorem setTens_remote (k : Nat) (t : Tens) (s : State) : (setTens k t s).remote = s.remote := rfl
@[simp] theorem setTens_tiles (k : Nat) (t : Tens) (s : State) : (setTens k t s).tiles = s.tiles := rfl
@[simp] theorem setTens_mem (k : Nat) (t : Tens) (s : State) : (setTens k t s).mem = s.mem := rfl
@[simp] theorem setTens_mtc (k : Nat) (t : Tens) (s : State) : (setTens k t s).mtc = s.mtc := rfl
@[simp] theorem setTens_recov (k : Nat) (t : Tens) (s : State) : (setTens k t s).recov = s.recov := rfl
@[simp] theorem setTens_flume (k : Nat) (t : Tens) (s : State) : (setTens k t s).flume = s.flume := rfl
@[simp] theorem setTens_hauler (k : Nat) (t : Tens) (s : State) : (setTens k t s).hauler = s.hauler := rfl
@[simp] theorem setTens_regs (k : Nat) (t : Tens) (s : State) : (setTens k t s).regs = s.regs := rfl
@[simp] theorem setTens_jtag (k : Nat) (t : Tens) (s : State) : (setTens k t s).jtag = s.jtag := rfl
@[simp] theorem setView_pending (p : Path) (v : View) (s : State) : (setView p v s).pending = s.pending := rfl
@[simp] theorem setView_time (p : Path) (v : View) (s : State) : (setView p v s).time = s.time := rfl
@[simp] theorem setView_draws (p : Path) (v : View) (s : State) : (setView p v s).draws = s.draws := rfl
@[simp] theorem setView_out (p : Path) (v : View) (s : State) : (setView p v s).out = s.out := rfl
@[simp] theorem setView_faults (p : Path) (v : View) (s : State) : (setView p v s).faults = s.faults := rfl
@[simp] theorem setView_pins (p : Path) (v : View) (s : State) : (setView p v s).pins = s.pins := rfl
@[simp] theorem setView_dev (p : Path) (v : View) (s : State) : (setView p v s).dev = s.dev := rfl
@[simp] theorem setView_heat (p : Path) (v : View) (s : State) : (setView p v s).heat = s.heat := rfl
@[simp] theorem setView_bark (p : Path) (v : View) (s : State) : (setView p v s).bark = s.bark := rfl
@[simp] theorem setView_stump (p : Path) (v : View) (s : State) : (setView p v s).stump = s.stump := rfl
@[simp] theorem setView_optics (p : Path) (v : View) (s : State) : (setView p v s).optics = s.optics := rfl
@[simp] theorem setView_stacking (p : Path) (v : View) (s : State) : (setView p v s).stacking = s.stacking := rfl
@[simp] theorem setView_fabric (p : Path) (v : View) (s : State) : (setView p v s).fabric = s.fabric := rfl
@[simp] theorem setView_remote (p : Path) (v : View) (s : State) : (setView p v s).remote = s.remote := rfl
@[simp] theorem setView_tiles (p : Path) (v : View) (s : State) : (setView p v s).tiles = s.tiles := rfl
@[simp] theorem setView_mem (p : Path) (v : View) (s : State) : (setView p v s).mem = s.mem := rfl
@[simp] theorem setView_mtc (p : Path) (v : View) (s : State) : (setView p v s).mtc = s.mtc := rfl
@[simp] theorem setView_job (p : Path) (v : View) (s : State) : (setView p v s).job = s.job := rfl
@[simp] theorem setView_recov (p : Path) (v : View) (s : State) : (setView p v s).recov = s.recov := rfl
@[simp] theorem setView_flume (p : Path) (v : View) (s : State) : (setView p v s).flume = s.flume := rfl
@[simp] theorem setView_hauler (p : Path) (v : View) (s : State) : (setView p v s).hauler = s.hauler := rfl
@[simp] theorem setView_jtag (p : Path) (v : View) (s : State) : (setView p v s).jtag = s.jtag := rfl
@[simp] theorem setFormat_pending (im : Image) (tid f : Nat) (s : State) : (setFormat im tid f s).pending = s.pending := rfl
@[simp] theorem setFormat_time (im : Image) (tid f : Nat) (s : State) : (setFormat im tid f s).time = s.time := rfl
@[simp] theorem setFormat_draws (im : Image) (tid f : Nat) (s : State) : (setFormat im tid f s).draws = s.draws := rfl
@[simp] theorem setFormat_out (im : Image) (tid f : Nat) (s : State) : (setFormat im tid f s).out = s.out := rfl
@[simp] theorem setFormat_faults (im : Image) (tid f : Nat) (s : State) : (setFormat im tid f s).faults = s.faults := rfl
@[simp] theorem setFormat_pins (im : Image) (tid f : Nat) (s : State) : (setFormat im tid f s).pins = s.pins := rfl
@[simp] theorem setFormat_dev (im : Image) (tid f : Nat) (s : State) : (setFormat im tid f s).dev = s.dev := rfl
@[simp] theorem setFormat_heat (im : Image) (tid f : Nat) (s : State) : (setFormat im tid f s).heat = s.heat := rfl
@[simp] theorem setFormat_bark (im : Image) (tid f : Nat) (s : State) : (setFormat im tid f s).bark = s.bark := rfl
@[simp] theorem setFormat_stump (im : Image) (tid f : Nat) (s : State) : (setFormat im tid f s).stump = s.stump := rfl
@[simp] theorem setFormat_optics (im : Image) (tid f : Nat) (s : State) : (setFormat im tid f s).optics = s.optics := rfl
@[simp] theorem setFormat_stacking (im : Image) (tid f : Nat) (s : State) : (setFormat im tid f s).stacking = s.stacking := rfl
@[simp] theorem setFormat_fabric (im : Image) (tid f : Nat) (s : State) : (setFormat im tid f s).fabric = s.fabric := rfl
@[simp] theorem setFormat_remote (im : Image) (tid f : Nat) (s : State) : (setFormat im tid f s).remote = s.remote := rfl
@[simp] theorem setFormat_tiles (im : Image) (tid f : Nat) (s : State) : (setFormat im tid f s).tiles = s.tiles := rfl
@[simp] theorem setFormat_mem (im : Image) (tid f : Nat) (s : State) : (setFormat im tid f s).mem = s.mem := rfl
@[simp] theorem setFormat_mtc (im : Image) (tid f : Nat) (s : State) : (setFormat im tid f s).mtc = s.mtc := rfl
@[simp] theorem setFormat_recov (im : Image) (tid f : Nat) (s : State) : (setFormat im tid f s).recov = s.recov := rfl
@[simp] theorem setFormat_flume (im : Image) (tid f : Nat) (s : State) : (setFormat im tid f s).flume = s.flume := rfl
@[simp] theorem setFormat_hauler (im : Image) (tid f : Nat) (s : State) : (setFormat im tid f s).hauler = s.hauler := rfl
@[simp] theorem setFormat_regs (im : Image) (tid f : Nat) (s : State) : (setFormat im tid f s).regs = s.regs := rfl
@[simp] theorem setFormat_jtag (im : Image) (tid f : Nat) (s : State) : (setFormat im tid f s).jtag = s.jtag := rfl

theorem ctr_setCtr (k j : Nat) (c : Ctr) (s : State) : ctr (setCtr k c s) j = if j = k then c else ctr s j := by
  unfold ctr setCtr; split
  · next h => subst h; simp
  · next h => exact tget_tset_ne _ _ _ _ _ h

theorem tens_setTens (k j : Nat) (t : Tens) (s : State) : tens (setTens k t s) j = if j = k then t else tens s j := by
  unfold tens setTens; split
  · next h => subst h; simp
  · next h => exact tget_tset_ne _ _ _ _ _ h

end Sys2Proof.Machine
end

