-- ==== Sys2Proof/WellFormed.lean ====
section
/-! DEFINITION. Well-formed commands: the sizes that the spec's own tables fix for what a command carries. The meanings are total and do not
ask for well-formedness; it says which terms stand for something that the wires can carry. -/
namespace Sys2Proof

/-- A packet's payload is what its header states: 0 to 8 whole flits (R463, Table 11-1). -/
def Packet.wf (p : Packet) : Bool := decide (p.len.toNat ≤ 8) && decide (p.payload.length = 32 * p.len.toNat)

/-- A frame is sixteen flit slots of 32 B (R436). -/
def Frame.wf (f : Frame) : Bool := decide (f.flits.length = 512)

/-- Each segment of a transfer stands once, with 512 B of data (R377, R378). -/
def segmentsWf (segs : List Segment) : Bool :=
  decide (segs.length ≤ 16) && decide ((segs.map (·.seg)).Nodup) && segs.all fun g => decide (g.data.length = 512)

/-- One reading for each sensor, quadrant and laser supply of the module (R745, R749). -/
def TickReadings.wf (r : TickReadings) : Bool :=
  decide (r.root.length = 256) && decide (r.crown.length = 256) && decide (r.stack.length = 16) && decide (r.crownAmps.length = 4) &&
  decide (r.laser.length = 13)

/-- A run holds up to 256 elements (R45). -/
def Run.wf (r : Run) : Bool := decide (r.codes.length ≤ 256)

/-- Packed elements in tile SRAM are a run (R45). -/
def RunRef.wf (r : RunRef) : Bool := decide (r.count ≤ 256)

/-- An operation names at least one child of its sum (R54). -/
def AccSpec.wf (a : AccSpec) : Bool := decide (0 < a.n) && decide (a.first + a.n ≤ a.total)

/-- A leaf of the leaf reducer takes up to 256 inputs (R66). -/
def ReduceIn.wf : ReduceIn → Bool
  | .values xs => decide (xs.length ≤ 256)
  | .products a b => a.wf && b.wf

/-- An epilogue's operand is of up to 64 entries, one to a lane (R67). -/
def VecArg.wf : VecArg → Bool
  | .reg _ => true
  | .entries _ count => decide (count ≤ 64)
def VecInstr.wf : VecInstr → Bool
  | .lanes _ _ d a b c => d.wf && a.wf && b.wf && c.wf
  | .convert _ _ _ a => a.wf

/-- The wires that fail a link's training are wires that the segments have (Table 09-2). -/
def TrainObs.wf (o : TrainObs) : Bool := o.wires.all fun e => e.2.real

/-- A DATA segment carries at most 8,192 B (R784). -/
def HSeg.wf (g : HSeg) : Bool := decide (g.payload.length ≤ 8192)

/-- Members are named once each, in ascending group index (R231). -/
def membersWf (ms : List MemberX) : Bool := decide ((ms.map (·.index)).Pairwise (· < ·))

/-- Well-formed commands; an arm without a check is one whose operands' types alone fix their sizes. -/
def Instr.wf (i : Instr) : Bool :=
  match i with
  | .vauxOn _ _ _ _ => true
  | .vauxLoss => true
  | .auxRstNAssert => true
  | .auxRstNRelease _ _ _ _ => true
  | .modRstNAssert => true
  | .modRstNRelease => true
  | .holdNRise => true
  | .wardenSelfTestPass => true
  | .v48InRange _ obs => obs.wf
  | .startChecks => true
  | .startHoldRetry => true
  | .ringTrialRestart => true
  | .holdLimitExpire => true
  | .q0Loss => true
  | .refclkLoss => true
  | .auxclkLoss => true
  | .auxclkReturn => true
  | .v48Shutdown _ => true
  | .thermTripComparator _ _ => true
  | .thermTripRelease => true
  | .managementTick r => r.wf
  | .notchRaise _ => true
  | .notchFloor _ => true
  | .sensorSuspect _ _ => true
  | .refreshRateApply _ => true
  | .wardenCoreReset _ => true
  | .ledgerSummaryFlush => true
  | .ledgerEventWrite => true
  | .telemetryDatagram _ => true
  | .laneTrainingAttempt _ => true
  | .codewordLock _ _ _ => true
  | .trainingTimeout _ => true
  | .initFrame _ _ _ => true
  | .discoveryRecord _ _ => true
  | .laneExtraLight _ _ _ => true
  | .laneRetrain _ _ => true
  | .retrainComplete _ => true
  | .retrainTimeout _ => true
  | .frameReceive _ f => f.wf
  | .frameReplayTimeout _ => true
  | .hostPortDown _ _ => true
  | .ethernetPauseReceive _ => true
  | .dieLinkTransfer _ _ segs => segmentsWf segs
  | .dieLinkReplayTimeout _ _ => true
  | .relinkStart _ _ => true
  | .relinkComplete _ fails _ => fails.all WireFail.real
  | .missingClock _ _ => true
  | .quadrantResetSeen _ _ => true
  | .routerPacketArrive _ _ _ p => p.wf
  | .meshEscape _ _ => true
  | .escapeTableInstall => true
  | .relayForward _ _ p => p.wf
  | .reach _ _ _ => true
  | .trayState _ _ _ => true
  | .tableDigest _ _ => true
  | .mtcSyncSend => true
  | .mtcSync _ => true
  | .mtcHoldover => true
  | .epochSwitch => true
  | .oldEpochRetire => true
  | .load p _ => p.wf
  | .store p => p.wf
  | .storeFlag p => p.wf
  | .storeFlagPerform _ => true
  | .atomic p => p.wf
  | .atomicGroupClose _ _ => true
  | .atomicResultExpire _ _ => true
  | .signal p => p.wf
  | .copyPull p _ => p.wf
  | .loadData p => p.wf
  | .ack p => p.wf
  | .atomicData p => p.wf
  | .busy p => p.wf
  | .busyResend _ => true
  | .error p => p.wf
  | .retransmit _ => true
  | .tDeadExpire _ => true
  | .seqSignal _ _ _ _ _ => true
  | .seqWait _ _ _ _ => true
  | .seqTake _ _ _ => true
  | .waitTimeout _ _ => true
  | .deviceWatchdog => true
  | .copyEngineCopy _ _ _ => true
  | .teeForward _ _ _ => true
  | .cornerTurnRead _ _ _ _ _ _ _ _ => true
  | .scrubWalk _ _ _ => true
  | .hbmPatrolScrub _ _ => true
  | .hbmSelfRefreshEntry _ => true
  | .hbmPatrolBurst _ _ => true
  | .arrayStream _ acc rows _ _ => acc.wf && rows.all Run.wf
  | .stationaryLoad _ cols => cols.all Run.wf
  | .stationaryLoadComplete _ _ => true
  | .leafArrive _ _ _ => true
  | .nodeStoreDrain _ _ _ _ => true
  | .thinPathPass _ acc vecs weights _ _ => acc.wf && (vecs.getD []).all (·.all Run.wf) && weights.all RunRef.wf
  | .vectorOp _ op _ _ => op.wf
  | .leafReduce _ _ acc inputs => acc.wf && inputs.wf
  | .combine _ _ _ _ _ n idx _ _ _ => decide (idx < n)
  | .unitClockGate _ _ => true
  | .crownClockGate _ => true
  | .crownWake _ _ => true
  | .shadowCompare _ a b => a.wf && b.wf
  | .thirdTileRecompute _ a b => a.wf && b.wf
  | .phaseBoundary _ => true
  | .contract _ _ => true
  | .map _ _ => true
  | .reduceSum _ _ => true
  | .reduceSumOfSquares _ _ => true
  | .reduceMax _ _ => true
  | .reduceMin _ _ => true
  | .attendForward _ _ => true
  | .attendBackward _ _ => true
  | .normaliseRms _ _ => true
  | .normaliseLayer _ _ => true
  | .gather _ _ => true
  | .scatterAdd _ _ => true
  | .scatterReplace _ _ => true
  | .cast _ _ => true
  | .drawBits _ _ => true
  | .drawUniform _ _ => true
  | .drawBernoulli _ _ => true
  | .collectiveReduce _ _ members => membersWf members
  | .collectiveReduceScatter _ _ members => membersWf members
  | .collectiveGather _ _ members => membersWf members
  | .collectiveAllToAll _ _ members => membersWf members
  | .collectiveBroadcast _ _ members => membersWf members
  | .collectiveScalarReduce _ _ members => membersWf members
  | .collectiveBarrier _ _ _ => true
  | .copyBox _ _ => true
  | .copyReshape _ _ => true
  | .hostSignalNotify _ _ => true
  | .hostSignalAwait _ _ => true
  | .run _ _ => true
  | .loop => true
  | .endLoop => true
  | .ifItem _ => true
  | .elseItem => true
  | .endIf => true
  | .stepBoundary _ => true
  | .snapshotBegin _ _ => true
  | .drainComplete => true
  | .endHoldExpire => true
  | .flumeUp _ p => p.wf
  | .flumeDown _ p => p.wf
  | .busyRelay p => p.wf
  | .relayResend _ => true
  | .flumeTimeout _ _ => true
  | .flumeSlotDiscard _ _ _ => true
  | .bulkUp _ p => p.wf
  | .bulkDown p => p.wf
  | .bulkDone p => p.wf
  | .chunkTimeout _ _ => true
  | .bulkBufferDiscard _ _ _ => true
  | .recoveryNotice _ => true
  | .recoveryNoticeResend => true
  | .collectionWindowEnd _ _ _ => true
  | .snapshotChunkLand _ bytes => decide (bytes.length ≤ 1048576)
  | .fillAssign _ => true
  | .spareAvailable _ _ _ _ => true
  | .repairTimeout => true
  | .hauOpen u _ => decide (u.udpPort < 65536)
  | .data g => g.wf
  | .haulerAck g => g.wf
  | .close _ => true
  | .haulerReset _ => true
  | .haulerAckTimer _ => true
  | .haulerRetransmitTimeout _ _ => true
  | .connectionTimeout _ => true
  | .writeTensor _ _ _ => true
  | .writeInput _ _ _ => true
  | .writeMarkWritten _ _ _ => true
  | .writeRelease _ _ => true
  | .writeSnapshotSlot _ _ _ => true
  | .writeJournalRing _ _ _ => true
  | .writeFaultDump _ _ _ => true
  | .readTensor _ _ => true
  | .readSnapshotSlot _ _ => true
  | .readJournalRing _ _ => true
  | .readFaultDump _ _ => true
  | .haulerSignal _ _ _ => true
  | .setWatch _ _ _ => true
  | .clearWatch _ _ => true
  | .loadProgram _ _ => true
  | .startJob _ _ => true
  | .planCompute _ => true
  | .stopJob _ _ => true
  | .queryStatus _ => true
  | .queryPlanReport _ => true
  | .queryFaultRecords _ _ => true
  | .queryQuote _ _ => true
  | .queryReducedTally _ _ => true
  | .readReg _ _ _ => true
  | .writeReg _ _ _ => true
  | .wardenStatus _ _ => true
  | .wardenLedgerRead _ _ _ => true
  | .telemetrySubscribe _ _ => true
  | .telemetryBufferRead _ _ _ => true
  | .stageRing _ _ => true
  | .writeFloorRecord _ _ => true
  | .enrolOwnerKeys _ _ => true
  | .updateOwnerKeys _ _ _ _ _ => true
  | .wardenQuote _ _ => true
  | .runtimePowerLimit _ _ => true
  | .ieee1500Read _ _ => true
  | .memoryBist _ _ => true
  | .softPpr _ _ _ => true
  | .hardPpr _ _ _ => true
  | .listPageRetirement _ _ _ => true
  | .idleTimeExerciser _ => true
  | .exerciserTestEnd _ _ _ => true
  | .releaseQuarantined _ => true
  | .windowEntries _ _ _ => true
  | .wardenRegAccess _ _ _ _ _ => true
  | .registerWrite _ _ _ => true
  | .devEvents _ _ => true
  | .faultSel _ _ => true
  | .faultNew _ => true
  | .win _ _ _ _ => true
  | .ftData _ _ => true
  | .ftCommit _ _ => true
  | .pwrRuntime _ _ => true
  | .dlinkSel _ _ => true
  | .telSel _ _ => true
  | .telDataLo _ => true
  | .pairLoRead _ _ => true
  | .broadcastRead _ _ => true
  | .bypass => true
  | .idcode => true
  | .samplePreload _ _ => true
  | .extest _ _ => true
  | .clamp => true
  | .highz => true
  | .ctrlAccess _ => true
  | .ledgerRead _ => true
  | .jtagTestLogicReset => true
  | .q0DomainStable => true
  | .refclkReturn => true
  | .hostPortUp => true
  | .quoteSigned => true

end Sys2Proof
end

