-- ==== Sys2Proof/Tests/Slice0.lean ====
section
/-! SUPPORT. Tests of the model: ill-formed commands that WellFormed refuses, expected results worked by hand from the spec's tables, and, for every
statement with hypotheses, concrete states and operands that meet them. -/
namespace Sys2Proof.Tests
open Sys2Proof Sys2Proof.Machine

/- One theorem after another: elaborating them side by side takes a thread each. -/
set_option Elab.async false

/-! ### Small states and operands -/

/-- A packet of opcode `op` without payload. -/
def pkt (op : BitVec 8) : Packet := ⟨0, 1, 0, 0, 0xFE, 0, 7, op, 0, 0, 0, 0, 0, 0, 0, [], false⟩

/-- A ring of a compute module in slot 0 of its tray, endpoint 5, time root, with one management peer, every policy field at its default. -/
def aRing : Ring :=
  { formOk := true, digestOk := true, rsaOk := true, slhOk := true, major := 1, imageLength := 1024, generation := 3, floor := 2, keyIndex := 0,
    role := .working, relay := false, machineId := 9, bodyDigest := 0, ident := 5, pod := 0, rack := 0, tray := 0, slot := 0, plane := 0, level := 0,
    index := 0, machine := [], machineBytes := [], levels := 1, wiring := [], tables := ⟨[], [], []⟩, epoch := false, flumeSlots := 0,
    bulkBuffers := 0, power := ⟨0, 0, 0, []⟩, clock := ⟨[], [], true, []⟩, hostV6 := 6, hostV4 := some 4, mgmtA := [.v4 10], mgmtB := [.v4 11],
    peers := [.v4 7], keeper := ⟨5, 0, 0, 0, 0, []⟩,
    policy := ⟨0, 0, 0, 0, 0, 0, 0, 0, 0, 0, 0, 0, 0, 0, 0⟩, keys := [] }

/-- A compute module in state `st` with its ring in force and V48 on. -/
def inState (st : DevState) : State :=
  { State.reset with
    dev := { st := st, startStep := 10, ring := some aRing, role := some .working, identityOk := true }
    pins := { v48On := true, v48 := 4800 } }

/-- A relay module in state `st` as a leaf. -/
def relayIn (st : DevState) : State :=
  { inState st with
    bark := { made := { variant := .fa } }
    dev := { st := st, startStep := 10, ring := some { aRing with role := .leaf, relay := true }, role := some .leaf } }

/-- A module in LOOKOUT with step `n` complete. -/
def lookoutAt (n : Nat) (h m : Bool) : State :=
  { State.reset with dev := { startStep := n }, pins := { holdN := h, modRstN := m } }

/-- A module in STARTING with step `n` complete under ring `r`, V48 at 48 V and enough lanes and ports up. -/
def startingAt (n : Nat) (r : Ring) : State :=
  { inState .starting with
    dev := { st := .starting, startStep := n, ring := some r }
    optics := { lanes := (List.range 144).map fun l => (l, { st := .up, discovered := true }) } }

def req : Req := ⟨1, 0⟩
def wreq : WReq := ⟨2, 0, .v4 7⟩

/-- `s` with Hauler connection 1 and Warden session 2 open. -/
def withPeers (s : State) : State := { s with hauler := { conns := [(1, {})], nextConn := 3, sessions := [2] } }

/-! ### Well-formedness -/

theorem test_wf_packet : (Instr.store { pkt 2 with len := 1 }).wf = false ∧ (Instr.store (pkt 2)).wf = true := by decide
theorem test_wf_packet_long : (Instr.ack { pkt 0x42 with len := 9, payload := List.replicate 288 0 }).wf = false := by decide +kernel
theorem test_wf_frame : (Instr.frameReceive 0 ⟨[0], 0⟩).wf = false ∧ (Instr.frameReceive 0 ⟨List.replicate 512 0, 0⟩).wf = true := by decide +kernel
theorem test_wf_segments : (Instr.dieLinkTransfer 0 0 [⟨3, List.replicate 512 0, 0⟩, ⟨3, List.replicate 512 0, 0⟩]).wf = false ∧
    (Instr.dieLinkTransfer 0 0 [⟨3, [], 0⟩]).wf = false := by decide +kernel
theorem test_wf_tick : (Instr.managementTick ⟨[], [], [], 0, 0, 0, [], [], [], [], true⟩).wf = false := by decide
/-- Slot 0 of tile 0 issues, and the fetch finds no error. -/
def iss : Issue := ⟨0, 0, []⟩
/-- One output with `n` children from `first` on of a sum of `total`. -/
def accOf (first n total : Nat) : AccSpec := ⟨0, 1, first, n, total, 0, first, 0, 0, 0⟩
theorem test_wf_run : (Instr.stationaryLoad iss [⟨0, List.replicate 257 0, [], 0⟩]).wf = false ∧
    (Instr.stationaryLoad iss [⟨0, List.replicate 256 0, [], 0⟩]).wf = true := by decide +kernel
/-- Children 64 to 99 of 100 are a part of a sum (R54, R120). -/
theorem test_wf_acc : (Instr.arrayStream iss (accOf 0 0 8) [] false true).wf = false ∧ (Instr.arrayStream iss (accOf 64 37 100) [] false true).wf = false ∧
    (Instr.arrayStream iss (accOf 64 36 100) [] false true).wf = true := by decide
theorem test_wf_thin : (Instr.thinPathPass iss (accOf 0 1 1) none [⟨0, 257, 0, 0, 0⟩] true []).wf = false ∧
    (Instr.thinPathPass iss (accOf 0 1 1) none [⟨0, 256, 0, 0, 0⟩] true []).wf = true := by decide
theorem test_wf_reduce : (Instr.leafReduce iss .sum (accOf 0 1 1) (.values (List.replicate 257 0))).wf = false ∧
    (Instr.leafReduce iss .sum (accOf 0 1 1) (.values [])).wf = true := by decide +kernel
theorem test_wf_combine : (Instr.combine 0 none .fp32 .add 0 4 4 0 false []).wf = false ∧ (Instr.combine 0 none .fp32 .add 0 4 3 0 false []).wf = true := by
  decide
theorem test_wf_vector : (Instr.vectorOp iss (.lanes .add false (.reg 0) (.entries 0 65) (.reg 0) (.reg 0)) true .ok).wf = false ∧
    (Instr.vectorOp iss (.lanes .add false (.reg 0) (.entries 0 64) (.reg 0) (.reg 0)) true .ok).wf = true := by decide
/-- The control group has 6 wires and 2 spares (Table 09-2). -/
theorem test_wf_wires : (Instr.relinkComplete 0 [⟨0, 0, 16, 6⟩] []).wf = false ∧ (Instr.relinkComplete 0 [⟨0, 0, 16, 5⟩, ⟨0, 0, 16, 32⟩] []).wf = true ∧
    (Instr.v48InRange 4800 ⟨[], [(0, ⟨0, 0, 16, 31⟩)], []⟩).wf = false := by decide
theorem test_wf_shadow : (Instr.shadowCompare 0 ⟨0, List.replicate 257 0, [], 0⟩ ⟨0, [], [], 0⟩).wf = false ∧
    (Instr.thirdTileRecompute 0 ⟨0, [], [], 0⟩ ⟨0, List.replicate 257 0, [], 0⟩).wf = false := by decide +kernel
theorem test_wf_members : (Instr.collectiveReduce 0 0 [⟨2, [], [], []⟩, ⟨1, [], [], []⟩]).wf = false ∧
    (Instr.collectiveReduce 0 0 [⟨1, [], [], []⟩, ⟨2, [], [], []⟩]).wf = true := by decide
theorem test_wf_data : (Instr.data ⟨1, 0, 0, 0, 0, 0, 0, List.replicate 8193 0⟩).wf = false := by decide +kernel
theorem test_wf_chunk : (Instr.snapshotChunkLand 0 []).wf = true := by decide
theorem test_wf_open : (Instr.hauOpen ⟨.host, .v4 4, 65536⟩ true).wf = false ∧ (Instr.hauOpen ⟨.host, .v4 4, 47600⟩ true).wf = true := by decide

/-! ### Expected results from the spec -/

/-- No word spells a command (the table gives no bits). -/
theorem test_no_word : decodeTableWord 16 0 = none := by decide
theorem test_canonical_sum : canonicalSum [0x4B800000, 0x3F800000, 0x3F800000] = 0x4B800000 := by decide +kernel
theorem test_crc32c : crc32c ([0x31, 0x32, 0x33, 0x34, 0x35, 0x36, 0x37, 0x38, 0x39] : List Byte) = 0xE3069283 := by decide +kernel
/-- The state after a command. -/
def after (c : Instr) (s : State) : State := match exec c s with | .next t => t | .fault _ => s | .refused _ => s

/-- Worked example of Chapter 00: T137, L077 and L106. -/
theorem test_names : quadOf 137 = 3 ∧ planeOf (inState .ready) 77 = some 69 ∧ linkOf (inState .ready) 106 = 146 := by decide
/-- Worked example of R353: address 0x12_3456_7890 and the next page. -/
theorem test_hbm_map : hbmStack 0x1234567890 = 0 ∧ hbmStack 0x1234568000 = 15 := by decide +kernel
/-- Worked example of R109: 100 leaves have depth 3, and 13 nodes at level 1. -/
theorem test_tree_shape : topOf 100 = 3 ∧ (nextLevel (fun a b : Nat => a + b) (List.range 100)).length = 13 := by decide +kernel
/-- Worked example after R105: a group of an N4 tensor. -/
theorem test_quantise_n4 : (quantiseN 8 (([63 / 2] ++ List.replicate 15 0 ++ [23 / 8, -21 / 16, 11 / 16, 3 / 32] : List Rat).map
    fun q => (Machine.Num.ofRat false q, Rnd.rne))) =
    { codes := [7, 0, 0, 0, 0, 0, 0, 0, 0, 0, 0, 0, 0, 0, 0, 0, 7, 13, 3, 0], bscales := [0xFA, 0xDF], tscale := 121, sat := 0, under := 1 } := by
  decide +kernel
/-- Worked example of R274: data 64, sequence 8 and tensor 4 on 512 modules and on 256. -/
theorem test_cut_axes : let im : Image := { machine := [(64, 0), (8, 2), (4, 1)] }
    cutAxes im 4 8 64 false = .ok [1, 1, 4] [1, 8, 1] [64, 1, 1] ∧ cutAxes im 8 8 32 false = .ok [1, 2, 4] [2, 4, 1] [32, 1, 1] := by
  decide +kernel
/-- Worked example of R751: the neighbours of T000. -/
theorem test_neighbours : (tileNeighbours [] 0).length = 4 ∧ ∀ n ∈ tileNeighbours [] 0, n ∈ [16, 32, 1, 2] := by decide +kernel
/-- Worked example of Chapter 15: a staged ring of generation 42 under an effective floor of 38 is chosen on trial, and its first failure is counted
without touching the floor. -/
theorem test_trial_ring : let b := { aRing with generation := 42, floor := 41, slot := 8 }
    let s := { startingAt 5 b with
      bark.ownerKeys := [⟨[], []⟩]
      stump := { stateA := .active, stateB := .staged, slotA := some { aRing with generation := 41, floor := 38 }, slotB := some b, controlFloor := 38 } }
    effectiveFloor s = 38 ∧ (chooseRing 38 ringOrder s).1 = some (true, b, true) ∧ failingRow s b = 1 ∧
      (after .startChecks { s with dev := { s.dev with startStep := 7, trial := true, ringSlotB := true } }).stump.failsB = 1 ∧
      (after .startChecks { s with dev := { s.dev with startStep := 7, trial := true, ringSlotB := true } }).stump.controlFloor = 38 := by decide +kernel
/-- Worked example of R861: the group read of TILE_FLAGS over 15 members, and the direct read of fenced T137. -/
theorem test_group_read : let slots : Table Slot := [(0, { st := .running }), (1, { st := .waiting })]
    let s := { inState .running with
      bark := { made := { variant := .cb } }
      stacking := { fenced := BitVec.ofNat 256 (2 ^ 137) }
      tiles := ((List.range 16).map fun i => (128 + i, { slots := if i = 14 then slots ++ [(2, { st := .halted })] else slots, crownGated := i = 9 }))
      regs := { groupMask := [(3, BitVec.ofNat 256 (0xFFFF * 2 ^ 128))] } }
    (members s (.group 3)).map List.length = some 15 ∧
    ((members s (.group 3)).getD []).foldl (fun y i => y ||| regValue s (viewOf s .jtag) i .tileFlags) 0 = 0x61 ∧
    regValue s (viewOf s .jtag) 137 .tileFlags = 0xC := by decide +kernel
/-- Worked example of R215: SiLU at +0, +∞ and −∞. -/
theorem test_silu : let prog := [0x01100000, 0x16210000, 0x1A220000, 0x02300000, 0x10223000, 0x18220000, 0x12012000]
    let f := fun x : Word => mapRun ⟨[x], [0x3F800000], [], 0, 0⟩ prog
    f 0 = 0 ∧ f 0x7F800000 = 0x7F800000 ∧ f 0xFF800000 = 0x7FC00000 := by decide +kernel
/-- Worked example of Chapter 12: the flag of sequence number 1,003 is held while 1,001 is missing, and performed once 1,001 is. -/
theorem test_flag_waits : let f : Packet := { pkt 3 with seq := 1003, len := 1, aux := 1, payload := leBytes 6 (ctrAddr (tileCtr 200 5)) ++ List.replicate 26 0 }
    let s := { inState .running with remote := { wins := [(1, { base := 1001, done := [1002] })], heldFlags := [⟨1, f⟩] } }
    let u := after (.store { pkt 2 with seq := 1001, len := 1, aux := 8, payload := List.replicate 32 1 }) s
    (after (.storeFlagPerform 1) s).remote = s.remote ∧ (win u 1).base = 1003 ∧ (ctr (after (.storeFlagPerform 1) u) (tileCtr 200 5)).value = 1 := by
  decide +kernel
/-- 01_overview's example: a thermal trip outranks STOP_JOB, which is then judged in FAULTED and drains. -/
theorem test_trip_then_stop : let s := withPeers { inState .running with job := { tag := 7 } }
    let u := after (.thermTripComparator 0 440) s
    (atOnce [.stopJob req 7, .thermTripComparator 0 440] s).pending = [.thermTripComparator 0 440, .stopJob req 7] ∧
    u.dev.st = .faulted ∧ u.heat.crownsOff = true ∧ (after (.stopJob req 7) u).dev.st = .draining := by decide +kernel

/-! ### Witnesses: states and operands that meet the hypotheses of the statements, clause by clause -/

theorem witness_StepRunsTheFrontCommand : ({ State.reset with pending := [.vauxLoss, .loop] } : State).pending = .vauxLoss :: [.loop] := rfl
theorem witness_EmptyQueueLetsTimePass : State.reset.pending = [] ∧ State.reset.mtc.everLocked = false ∧
    (State.reset.time + 1) % 128 ≠ 0 ∧ (({ State.reset with time := 127 } : State).time + 1) % 128 = 0 ∧
    (([(0, 1), (3, 20)] : Table Nat).map (·.1)).Pairwise (· < ·) ∧
    (let s : State := { State.reset with mtc := { value := BitVec.ofNat 64 (2 ^ 64 - 3), rate := -2 ^ 31 + 1, frac := 2 ^ 32 - 1 } }
     s.mtc.rate < 2 ^ 31 ∧ -(2 : Int) ^ 31 < s.mtc.rate ∧ s.mtc.value.toNat + 2 < 2 ^ 64 ∧ s.mtc.frac < 2 ^ 32) ∧
    (let s := startingAt 7 aRing; thas s.optics.lanes 5 = true ∧ (lane s 5).st = .up ∧ (lane s 5).sentTill ≤ 100 * (s.time + 1)) := by decide +kernel

/-- A state at its limits: 256 fault records, 4 owner keys, 4 subscribers, 64 connections, and one byte of memory. -/
def full : State :=
  { inState .ready with
    faults := List.replicate 256 {}
    bark := { ownerKeys := List.replicate 4 ⟨[], []⟩ }
    heat := { subs := List.replicate 4 {} }
    hauler := { conns := (List.range 64).map fun k => (k, {}) }
    mem := { cells := [(5, 1)] } }
theorem witness_EveryStepKeepsTheLimits : Limits full :=
  ⟨by decide +kernel, by decide +kernel, by decide +kernel, by decide +kernel, by decide +kernel, by decide +kernel, by decide +kernel,
    by decide +kernel, by decide +kernel⟩
theorem witness_OnlyTheTransitionsOfTable01_5 : ∃ t, exec .vauxLoss (inState .running) = .next t := ⟨_, rfl⟩
theorem witness_SuppliesAndAuxReset : State.reset.pins.auxRstN = true ∧ State.reset.pins.vaux = true ∧
    (let s : State := { State.reset with pins := { auxRstN := false } }; s.pins.vaux = true ∧ s.pins.auxRstN = false) := by decide
theorem witness_StartsBegin :
    (let s := lookoutAt 1 true true
     lookoutUp s = true ∧ s.dev.st = .lookout ∧ s.dev.startStep = 1 ∧ s.pins.holdN = true ∧ s.pins.modRstN = true) ∧
    (let s := lookoutAt 1 false true; lookoutUp s = true ∧ s.dev.st = .lookout ∧ s.dev.startStep = 1 ∧ s.pins.holdN = false) ∧
    (let s := lookoutAt 2 false true; lookoutUp s = true ∧ s.dev.st = .lookout ∧ s.dev.startStep = 2 ∧ s.pins.modRstN = true) ∧
    (inState .ready).dev.st ≠ .lookout ∧
    (let s := lookoutAt 2 true false; lookoutUp s = true ∧ s.dev.st = .lookout ∧ s.dev.startStep = 2 ∧ s.pins.holdN = true) ∧
    (let s : State := { inState .starting with pins := { modRstN := false } }
     lookoutUp s = true ∧ s.dev.st = .starting ∧ s.pins.modRstN = false ∧ s.dev.q0Held = false) ∧
    (let s : State := { inState .starting with dev := { st := .starting, q0Held := true } }
     lookoutUp s = true ∧ s.dev.st = .starting ∧ s.dev.q0Held = true ∧ s.pins.modRstN = true) ∧
    (let s : State := { inState .starting with dev := { st := .starting, restartDue := true } }
     lookoutUp s = true ∧ s.dev.st = .starting ∧ s.dev.restartDue = true ∧ s.pins.modRstN = true) := by decide
theorem witness_ResetsOfTheV48Domain : lookoutUp (inState .running) = true ∧ (inState .running).dev.st ≠ .lookout ∧
    State.reset.dev.st = .lookout ∧ (inState .running).pins.v48On = true ∧ (3599 < 3600 ∨ 6200 < 3599) ∧ (6201 < 3600 ∨ 6200 < 6201) ∧
    (inState .running).pins.internalOsc = false := by decide
theorem witness_StartRunsToItsEnd : (let s := startingAt 5 aRing
     lookoutUp s = true ∧ s.dev.st = .starting ∧ s.dev.ring = some aRing ∧ s.dev.startStep = 5 ∧ s.pins.modRstN = true ∧ s.pins.refclk = true ∧
       4000 ≤ 4000 ∧ 6000 ≤ 6000) ∧
    (let s := startingAt 7 aRing
     lookoutUp s = true ∧ s.dev.st = .starting ∧ s.dev.ring = some aRing ∧ s.dev.startStep = 7 ∧ s.dev.restartDue = false ∧ failingRow s aRing = 0 ∧
       s.pins.modRstN = true ∧ s.dev.q0Held = false) ∧
    failingRow { startingAt 7 aRing with dev := { (startingAt 7 aRing).dev with holdCause := 4 } } aRing = 0 := by decide +kernel
theorem witness_StartRunsToItsEnd_fails : (let r := { aRing with slot := 8 }
     let s := { startingAt 7 r with dev := { (startingAt 7 r).dev with trial := true, holdCause := 6 } }
     1 ≤ failingRow s r ∧ failingRow s r ≤ 4 ∧ s.dev.trial = true ∧ s.dev.restartDue = false ∧ s.dev.holdCause ≠ 0 ∧ s.dev.startStep = 7) ∧
    (let r := { aRing with keeper := ⟨5, 576 * gib, 0, 0, 0, []⟩ }; failingRow (startingAt 7 r) r = 4 ∧ (startingAt 7 r).dev.trial = false) ∧
    (let s := { startingAt 7 aRing with dev := { (startingAt 7 aRing).dev with fingerprintsOk := false, holdsWritten := [1] } }
     5 ≤ failingRow s aRing ∧ (failingRow s aRing - 4) ∈ s.dev.holdsWritten) ∧
    (let s := { startingAt 7 aRing with optics := {} }; failingRow s aRing = 9) := by decide +kernel
theorem witness_RingsCommitAsR696 : (let s := { startingAt 7 aRing with
      dev := { (startingAt 7 aRing).dev with trial := true, ringSlotB := true }, stump := { stateA := .active, stateB := .staged } }
    failingRow s aRing = 0 ∧ s.dev.trial = true ∧ slotState s.stump (!s.dev.ringSlotB) = .active) ∧
    (let s := { startingAt 7 aRing with dev := { (startingAt 7 aRing).dev with trial := true }, stump := { stateB := .failed } }
     failingRow s aRing = 0 ∧ s.dev.trial = true ∧ slotState s.stump (!s.dev.ringSlotB) ≠ .active) ∧
    (startingAt 7 aRing).dev.trial = false := by decide +kernel

/-- A module in LOOKOUT with one owner key and rings `a` and `b` in slots of these states. -/
def slots (x y : SlotState) (a b : Ring) : State :=
  { State.reset with bark := { ownerKeys := [⟨[], []⟩] }, stump := { stateA := x, stateB := y, slotA := some a, slotB := some b } }
theorem witness_RingChoice : (let s := slots .active .staged aRing aRing; (chooseRing (effectiveFloor s) ringOrder s).1 = some (true, aRing, true)) ∧
    (let r := { aRing with rsaOk := false }
     let s := slots .active .staged aRing r
     (chooseRing (effectiveFloor s) ringOrder s).1 = some (false, aRing, false) ∧ slotRing s.stump true = some r ∧ slotState s.stump true = .staged) ∧
    (let r := { aRing with digestOk := false }
     let s := slots .active .previous r aRing
     (chooseRing (effectiveFloor s) ringOrder s).1 = some (true, aRing, false) ∧ slotRing s.stump false = some r ∧
       slotState s.stump false = .active ∧ slotState s.stump true = .previous) := by decide +kernel

/-- A running compute module whose tile 0 has slot 0 running and a woken crown. -/
def withTile (r : TileRec) : State := { inState .running with tiles := [(0, { r with slots := [(0, { st := .running })], crownGated := false })] }
def ones : Run := ⟨1, [0x3F80, 0x3F80], [], 127⟩
/-- `withTile r`, the program of slot 0 standing at an instruction for unit `u`. -/
def issuing (u : Nat) (r : TileRec) : State := withTile { r with imem := [(0, [[⟨u, []⟩]])] }
def thin1 : RunRef := ⟨1, 2, 0, 0, 0⟩
theorem witness_LeavesOfArrayThinPathAndReducer : canIssue (issuing 0 {}) 0 0 0 = true ∧ (tile (issuing 0 {}) 0).stalled = none ∧
    accFits (accOf 64 36 100) 1 = true ∧ ([ones].all fun r => arrayFormat r.fmt) = true ∧ (tile (issuing 0 {}) 0).loaded = false ∧
    (tile (issuing 0 { loaded := true }) 0).loaded = true ∧ chunkInOrder (tile (issuing 1 {}) 0) 0 0 true = true ∧
    (let r : TileRec := { vectors := [[ones]], thinPass := (0, 1, 0) }
     chunkInOrder (tile (issuing 1 r) 0) 0 0 false = true ∧ chunkInOrder (tile (issuing 1 r) 0) 1 0 true = true ∧ 1 ≤ (tile (issuing 1 r) 0).vectors.length) ∧
    canIssue (issuing 1 {}) 0 0 1 = true ∧ 1 ≤ [[ones]].length ∧
    (List.replicate 8 [ones]).length ≤ 8 ∧ (List.replicate 4 thin1).length ≤ 4 ∧ (List.replicate 4 thin1).all refFits = true ∧
    accFits (accOf 0 100 100) (List.replicate 4 thin1).length = true ∧ ([[ones]].all fun v => decide (v.length ≤ 4) && v.all fun r => arrayFormat r.fmt) = true ∧
    canIssue (issuing 2 {}) 0 0 2 = true ∧ reducerLeaf .sum (.values [0x3F800000]) = some 0x3F800000 ∧
    reducerLeaf .sum (.products ones ones) = some (leafProducts (decodeRun ones) (decodeRun ones)) ∧ reducerLeaf .max (.values [1]) = some 1 ∧
    canIssue (issuing 3 {}) 0 0 3 = true ∧ (tile (issuing 3 {}) 0).loading = false ∧ (List.replicate 256 ones).length ≤ 256 ∧
    ((List.replicate 256 ones).all fun c => arrayFormat c.fmt) = true ∧ (tile (withTile { loading := true }) 0).loading = true ∧
    (tile (withTile { loading := true }) 0).crownGated = false ∧ (tile (withTile { loading := true }) 0).stalled = none ∧
    (let st : Stream := ⟨0, accOf 0 1 1, [ones]⟩; (tile (withTile { loading := true, stalled := some st }) 0).stalled = some st) := by decide +kernel
/-- 64 completed entries of outputs 0 to 63. -/
def dones : List Done := (List.range 64).map fun x => ⟨x, 1, 0x3F800000, false, 0, x, 0⟩
theorem witness_VectorOperationsLaneByLane : canIssue (issuing 2 {}) 0 0 2 = true ∧ (∀ x y z, vecPair16 .add x y z ≠ none) ∧
    (∀ x y z, vecPair16 .iadd x y z = none) ∧ (∀ i, i < 64 → ∃ e ∈ (tile (issuing 2 { completed := dones }) 0).completed, e.x = 0 + i) ∧
    (∀ e ∈ (tile (issuing 2 { completed := dones }) 0).completed, e.x ≠ 5 + 63) ∧ convertible 0xA = true ∧ convertible 0x20 = false ∧ (1 : Fin 32) ≠ 2 ∧
    (vecEffect (issuing 2 {}) 0 (.lanes .add false (.reg 1) (.reg 1) (.reg 2) (.reg 3))).isSome = true ∧
    (argLanes (tile (issuing 2 {}) 0) (.reg 1)).isSome = true ∧
    (let r := tile (issuing 2 { completed := dones }) 0
     (argLanes r (.entries 0 64)).isSome = true ∧ (argVals r (.entries 0 64)).isSome = true ∧ entryOf r 5 = some ⟨5, 1, 0x3F800000, false, 0, 5, 0⟩ ∧
       argVals r (.entries 5 64) = none) ∧
    (let o : VecInstr := .lanes .add false (.reg 1) (.entries 0 64) (.entries 0 64) (.reg 3)
     vecReadsStore o = true ∧ (vecEffect (issuing 2 { completed := dones }) 0 o).isSome = true ∧ vecEffect (issuing 2 {}) 0 o = none) := by
  refine ⟨by decide +kernel, fun _ _ _ => by simp [vecPair16, vecLane16], fun _ _ _ => rfl, fun i h => ⟨⟨i, 1, 0x3F800000, false, 0, i, 0⟩, ?_⟩, ?_⟩
  · simpa [issuing, withTile, tile, tget, dones] using h
  · decide +kernel
/-- Both sides of the fetch's clauses: this operation is performed, and that one, which no slot of the tile has, is not. -/
theorem witness_VectorOperationsLaneByLane_fetch :
    (after (.stationaryLoad iss []) (issuing 3 {})).job.progressAt = 0 ∧ (tile (after (.stationaryLoad iss []) (issuing 3 {})) 0).loading = true ∧
    (tile (issuing 3 {}) 0).loading = false ∧ after (.stationaryLoad iss []) (issuing 2 {}) = issuing 2 {} ∧
    settled (tile (issuing 3 {}) 0) 0 = slot (tile (issuing 3 {}) 0) 0 := by decide +kernel
theorem witness_NodeStoreComputesTheCanonicalTree : let c : Child := { x := 3, n := 100, emit := 3, lvl := 1, value := 0 }
    let r : TileRec := {}
    1 ≤ c.n ∧ c.n ≤ 8 ^ 15 ∧ (List.replicate 13 (0x3F800000 : Word)).length = (c.n + 8 ^ c.lvl - 1) / 8 ^ c.lvl ∧ c.lvl ≤ c.emit ∧ c.emit = topOf c.n ∧
    c.poisoned = false ∧ thas r.outs c.x = false ∧ ∀ l, l < 32 → tget r.entries (entryKey c.x l) (0, 0) = (0, 0) := by decide +kernel
theorem witness_NodeStoreComputesTheCanonicalTree_one : let c : Child := { x := 3, n := 1, emit := 0, value := 0 }
    [(0x3F800000 : Word)].length = (c.n + 8 ^ c.lvl - 1) / 8 ^ c.lvl ∧ c.lvl ≤ c.emit ∧ c.emit ≤ topOf c.n := by decide +kernel
theorem witness_PartsOfACanonicalSum : 8 ^ 1 ∣ 8 ∧ 8 ^ 1 ∣ 16 ∧ 8 ≤ 16 ∧ 16 ≤ (List.replicate 17 (0 : Nat)).length ∧
    17 = (List.replicate 17 (0 : Nat)).length := by decide +kernel
def done1 : Done := ⟨3, 1, 0, false, 0, 0, 0⟩
theorem witness_NodeStoreDrainAndCombineUnit : let c : Child := { x := 3, n := 2, emit := 1, value := 0 }
    let s := withTile { children := [(3, [c])] }
    let b := withTile { children := [(3, [c])], completed := [done1], outs := [(3, { n := 2, emit := 1 })] }
    waiting s 0 (sourceKey .rootHalf) = [c] ∧ crownWorks s 0 = true ∧ canTake (tile s 0) c = true ∧ crownWorks (inState .running) 0 = false ∧
    canTake (tile (withTile { children := [(3, [{ c with leaf := 1 }])] }) 0) { c with leaf := 1 } = false ∧ waiting s 0 (sourceKey .array) = [] ∧
    (dlink b 0).paused = false ∧ convertible 0 = true ∧ drainBatch b 0 (tile b 0) = [done1] ∧ drainBatch s 0 (tile s 0) = [] ∧
    0 < 1 ∧ s.pins.v48On = true ∧ s.dev.qLost.getLsbD (quadOf 0) = false ∧ (tget (tile s 0).nodes 4 {}).held = [] ∧
    0 = (tget (tile s 0).nodes 4 {}).next ∧ canIssue (issuing 5 {}) 0 0 5 = true ∧ 0 < 1 ∧ nodesFit { accOf 0 9 9 with emit := 1 } 0 9 = true ∧
    (tget (tile s 0).nodes 4 {}).next < 1 ∧ 0 < (tget (tile (withTile { nodes := [(4, { next := 1 })] }) 0).nodes 4 {}).next := by decide +kernel
def phasedImage : Image := { phases := [⟨1, 0, 0⟩], items := [(1, 0)] }
/-- A running job of one phase under a plan of this module's tile 0 alone. -/
def phased : State :=
  { withTile {} with
    job := { image := some phasedImage, plan := some { tiles := [0], n := 1, mods := [{ n := 1 }] }, stepOpen := true
             started := true } }
theorem witness_GatingWakeShadowChecksAndPhases : slotsQuiet (tile (inState .running) 0) = true ∧ slotsQuiet (tile (issuing 0 {}) 0) = false ∧
    unitIdle (tile (withTile {}) 0) 0 = true ∧ unitIdle (tile (withTile { stalled := some ⟨0, accOf 0 1 1, [ones]⟩ }) 0) 0 = false ∧
    isFA (withTile {}) = false ∧ tileUsable (withTile {}) 0 = true ∧ (withTile {}).heat.crownsOff = false ∧ crownHeld (withTile {}) 0 = false ∧
    crownHeld (inState .ready) 0 = true ∧ (withTile {}).pins.v48On = true ∧ slotReleased (tile (withTile {}) 0) = true ∧
    slotReleased (tile (inState .running) 0) = false ∧ (∀ k, k < 8 → (slot (tile (withTile {}) 0) k).released = false) ∧
    (let x : Sample := ⟨0, 0, 0, 0x40000000, 0, false⟩
     ((tile (withTile { samples := [x] }) 0).samples.find? fun y => !y.drift) = some x ∧
     ((List.zipWith Machine.Num.mul (decodeRun ones) (decodeRun ones)).all Machine.Num.isFinite && (dec32 x.value).isFinite) = true ∧
     drifts (withTile {}) (decodeRun ones) (decodeRun ones) x.value = false ∧ drifts (withTile {}) (decodeRun ones) (decodeRun ones) 0x7F000000 = true) ∧
    (let x : Sample := ⟨0, 0, 0, 0, 0, true⟩
     ((tile (withTile { samples := [x] }) 0).samples.find? fun y => y.drift) = some x ∧ (withTile {}).dev.st = .running) := by decide +kernel
theorem witness_GatingWakeShadowChecksAndPhases_phase : ownPlan phased = some { n := 1 } ∧ jobRunning phased = true ∧ phased.job.phase = none ∧
    comingPhase phased phasedImage = some 0 ∧ phased.job.opened ≠ some 0 ∧ phased.remote.copies = [] := by decide +kernel
theorem witness_ThermalTripAndRelease : (let s := inState .running
     s.pins.v48On = true ∧ s.pins.thermTripN = true ∧ s.dev.st ≠ .lookout ∧ isSuspect (tget s.heat.roots 0 {}) = false ∧ (436 : Int) ≤ 436 ∧
       s.heat.coolTicks < 1000 ∧ isFA s = false) ∧
    isFA (relayIn .relaying) = true ∧
    isSuspect (tget ({ inState .running with heat := { roots := [(0, { suspect := true })] } } : State).heat.roots 0 {}) = true ∧
    (let s : State := { inState .faulted with pins := { thermTripN := false }, heat := { coolTicks := 1000, tickAt := some 0 } }
     s.pins.thermTripN = false ∧ s.heat.tickAt = some s.time ∧ { s with time := 1 }.heat.tickAt ≠ some { s with time := 1 }.time ∧ 1000 ≤ s.heat.coolTicks ∧ isFA s = false) := by decide
/-- Readings of a module at rest. -/
def readings : TickReadings := ⟨List.replicate 256 200, List.replicate 256 200, List.replicate 16 200, 200, 4800, 1000, [0, 0, 0, 0], [], [], [], true⟩
theorem witness_NotchTickAndRaise : (let s := inState .running; lookoutUp s = true ∧ s.dev.st ≠ .lookout ∧ s.pins.v48On = true ∧ isFA s = false) ∧
    (let u : State := { inState .running with heat := { roots := (List.range 256).map fun t => (t, { value := some 300 }), notches := [(0, { notch := 5 })] } }
     hotRoot u 0 < targetHi u - targetWidth u ∧ stackHot u 0 = false ∧ 100 * 4073 < 97 * limitInForce u ∧ ¬ 100 * 4074 < 97 * limitInForce u ∧
       5 < ceilingOf u (hotBand u 0) ∧ ¬ limitInForce u < 4200 ∧ limitInForce u < 4201) ∧
    (let u : State := { inState .running with heat := { roots := [(0, { value := some 369 })] } }; targetHi u < hotRoot u 0) ∧
    (let u : State := { inState .running with heat := { roots := [(0, { value := some 368 })] } }
     ¬ targetHi u < hotRoot u 0 ∧ ¬ hotRoot u 0 < targetHi u - targetWidth u) := by decide +kernel
theorem witness_NotchTickAndRaise_raise : (let s : State := { inState .running with heat := { notches := [(2, { calm := 8, floorTicks := 1000 })] } }
     s.pins.thermTripN = true ∧ (notch s 2).calm = 8 ∧ (notch s 1).calm ≠ 8 ∧ 1000 ≤ (notch s 2).floorTicks ∧ (notch s 2).floorWritten = false ∧
       (notch s 1).floorTicks < 1000) ∧
    ({ inState .running with pins := { thermTripN := false } } : State).pins.thermTripN = false := by decide
theorem witness_BandsMoveAsR748 : (let s : State := { inState .running with heat := { roots := [(0, { value := some 250, band := 1 })] } }
     lookoutUp s = true ∧ s.dev.st ≠ .lookout ∧ s.pins.v48On = true ∧ 256 ≤ readings.root.length ∧ (tget s.heat.roots 0 {}).value ≠ none ∧
       bandOf 300 > 1 ∧ bandOf 240 = 1 ∧ (bandOf 232 < 1 ∧ 232 ≤ bandFloor 1 - 8) ∧ (bandOf 233 < 1 ∧ bandFloor 1 - 8 < 233)) ∧
    (let s : State := { inState .running with heat := { roots := [(0, { count := 4 }), (1, { suspect := true })] } }
     (tget s.heat.roots 0 {}).suspect = false ∧ 4 ≤ (tget s.heat.roots 0 {}).count ∧ (tget (sensorsOf s .root) 1 {}).suspect = true) ∧
    (let m : Table Sensor := (List.range 8 ++ [16]).map fun i => (i, { suspect := true })
     8 ≤ (m.filter fun e => e.1 != 16 && isSuspect e.2 && !e.2.notSubst && quadOf e.1 == quadOf 16).length) := by decide +kernel
theorem witness_LedgerTelemetryAndTheWardenCore : let w : Sub := { peer := .v4 7 }
    let s : State := { inState .ready with
      heat := { tick := 600000, telTick := 100, subs := [w, { w with sentAt := 1 }], missedAcks := 100 }, bark := { queued := List.replicate 64 {} } }
    lookoutUp s = true ∧ s.heat.tick % 600000 = 0 ∧ s.heat.tick ≠ 0 ∧ s.bark.queued.length ≤ 64 ∧ s.heat.subs[0]? = some w ∧
    w.sentAt + w.period ≤ s.heat.telTick ∧ s.heat.subs[1]? = some { w with sentAt := 1 } ∧ s.heat.telTick < 1 + w.period ∧
    100 ≤ s.heat.missedAcks ∧ s.bark.blocks = [] ∧ (after .ledgerSummaryFlush s).bark.blocks ≠ [] := by decide +kernel

/-- A running compute module whose lane 3 has record `r`. -/
def withLane (r : LaneRec) : State := { inState .running with optics := { lanes := [(3, r)], hostUp := true } }
def initF : InitFrame := ⟨0x4B4C, 1, 1, 0, 0, 0, 4, 9, 300⟩
theorem witness_LanesTrainAndComeUp : (withLane { st := .down }).dev.st ≠ .lookout ∧ (lane (withLane { st := .down }) 3).st = .down ∧
    (lane (withLane {}) 3).st ≠ .down ∧ (lane (withLane { st := .training }) 3).st = .training ∧
    (let r := takeWords .b (List.replicate 4 true) (lane (withLane { st := .training, lockA := true }) 3)
     r.st = .training ∧ r.lockA = true ∧ r.lockB = true ∧ r.retraining = false) ∧
    (takeWords .b (List.replicate 4 true) (lane (withLane { st := .training }) 3)).lockA = false ∧
    (lane (withLane { st := .training }) 3).retraining = false ∧
    (let s := withLane { st := .init, token := 9 }
     (lane s 3).st = .init ∧ initF.magic = 0x4B4C ∧ 1 ≤ initF.verMax.toNat ∧ initF.verMin.toNat ≤ 1 ∧ initF.echo = (lane s 3).token ∧
       (initF.turnaround.toNat : Int) + 200 ≤ 2 * 250 ∧ 2 * (1260 : Int) - initF.turnaround.toNat - 200 ≤ 2020 ∧
       2020 < 2 * (1261 : Int) - initF.turnaround.toNat - 200 ∧ { initF with echo := 0 }.echo ≠ (lane s 3).token ∧
       { initF with verMin := 2 }.verMin.toNat > 1 ∧ (lane s 3).retraining = false ∧ isTrayLink (linkOf s 3) = false) := by decide +kernel
theorem witness_LanesTrainAndComeUp_discovery : let w : Wire := ⟨3, 6, 3⟩
    let d : Discovery := ⟨0x4443, 1, 1, 0, 6, 0, 0, 0, 0, 0, 0, 0, 0, 3, 0, 0, 0, 9, 0, 0, 0, 0⟩
    let r := { aRing with wiring := [w] }
    let s := { withLane { st := .up } with dev := { (inState .running).dev with ring := some r } }
    s.dev.ring = some r ∧ r.wiring.find? (fun x => x.lane == 3) = some w ∧ laneUp s 3 = true ∧ isTrayLink (linkOf s 3) = false ∧
    r.policy.treeRemap ≠ 2 ∧ d.magic = 0x4443 ∧ 1 ≤ d.verMax.toNat ∧ d.verMin.toNat ≤ 1 ∧ d.machineId = r.machineId ∧ d.ident = w.partner ∧
    d.lane.toNat = w.partnerLane ∧ d.tableDigest = s.fabric.digest ∧ { d with tableDigest := 1 }.tableDigest ≠ s.fabric.digest ∧ { d with ident := 7 }.ident ≠ w.partner ∧
    (withLane {}).dev.st ≠ .lookout ∧ (lane (withLane {}) 3).st = .disabled ∧ (-120 : Int) < -119 ∧ (lane (withLane {}) 3).extraWritten = false := by
  decide +kernel
/-- A frame of one flit slot of VC 0 with sequence number `q`. -/
def aFrame (q : Nat) : Frame := mkFrame (List.replicate 32 1) [0] q 0 0 false 0
theorem witness_LanesLeaveAndReturn : laneUp (withLane { st := .up }) 3 = true ∧ isTrayLink (linkOf (withLane {}) 3) = false ∧
    isTrayLink (linkOf (withLane {}) 32) = true ∧ (lane (withLane { retraining := true }) 3).retraining = true ∧
    (let s : State := { withLane { st := .up } with optics := { lanes := [(3, { st := .up })], links := [(3, { replay := [⟨[], 0⟩] })] } }
     laneUp s 3 = true ∧ (link s (linkOf s 3)).replay ≠ [] ∧ retrainDue s 3 2 = false ∧ retrainDue s 3 1 = true) ∧
    retrainDue (withLane { st := .up, lockA := true, lockB := true, powA := -121 }) 3 4 = true ∧
    retrainDue (withLane { st := .up, lockA := true, lockB := true, powA := -120, powB := -120 }) 3 4 = false ∧
    (lane (withLane { retraining := true, delay4 := 2020 }) 3).delay4 ≤ 2020 ∧
    (let s := withLane { retraining := true }
     ∀ i ∈ lanesOf (linkOf s 3), ∀ j ∈ lanesOf (linkOf s 3), (i = 3 ∨ laneUp s i = true) → (j = 3 ∨ laneUp s j = true) →
       (lane s i).delay4 ≤ (lane s j).delay4 + 256) ∧
    (let s : State := { withLane {} with optics := { lanes := [(106, { retraining := true, delay4 := 257 }), (107, { st := .up })] } }
     (lane s 106).retraining = true ∧ isTrayLink (linkOf s 106) = true ∧ 107 ∈ lanesOf (linkOf s 106) ∧ laneUp s 107 = true ∧
       (lane s 107).delay4 + 256 < (lane s 106).delay4) ∧
    (let s : State := { withLane { st := .up } with optics := { lanes := [(106, { st := .up }), (107, { st := .up })] } }
     isTrayLink (linkOf s 106) = true ∧ ∃ j ∈ lanesOf (linkOf s 106), j ≠ 106 ∧ laneUp s j = true) := by decide +kernel
set_option maxRecDepth 100000 in
theorem witness_FramesAndTheHostPort : laneUp (withLane { st := .up }) 3 = true ∧ frameGood ⟨[], 0⟩ = false ∧ frameGood (aFrame 0) = true ∧
    ctlField (aFrame 0) 22 20 = 0 ∧
    (let r := link (withLane { st := .up }) 3
     ctlField (aFrame 0) 47 36 = (r.rxLast + 1) % 4096 ∧ overflows 3 (aFrame 0) r = false ∧
       ctlField (aFrame 1) 47 36 ≠ (r.rxLast + 1) % 4096 ∧ r.deskew = [] ∧ early 3 (ctlField (aFrame 1) 47 36) r = false ∧
       early 146 (ctlField (aFrame 1) 47 36) r = true) ∧ ctlField (mkFrame [] [] 0 0 1 false 0) 22 20 = 1 ∧
    overflows 3 { aFrame 0 with flits := List.replicate 512 0 } { ingress := [(0, List.replicate 2048 [])] } = true ∧
    (([⟨[], 0⟩] : List Frame).any fun e => ctlField e 47 36 == ctlField (aFrame 1) 47 36) = false ∧ (withLane {}).optics.hostUp = true ∧ (withLane {}).dev.st ≠ .loading ∧
    (withLane {}).pins.v48On = true ∧ State.reset.dev.st = .lookout ∧ State.reset.optics.hostUp = false := by decide +kernel
/-- A PAUSE frame passes the MAC's checks, and one with another FCS does not. -/
theorem witness_FramesAndTheHostPort_mac : let b : List Byte := List.replicate 12 0 ++ [0x88, 0x08, 0, 1, 0, 9]
    macGood (sealMac b) = true ∧ isPause (sealMac b) = true ∧ macGood (List.replicate 64 1) = false ∧ b.length ≤ 9212 := by decide +kernel

/-- A running compute module whose die link 0 has record `l`. -/
def withDie (l : DLink) : State := { inState .running with stacking := { links := [(0, l), (256, l)] } }
/-- The eight lower segments of a transfer with these control bits. -/
def lower (c : Nat) : List Segment := (List.range 8).map fun i =>
  ⟨Fin.ofNat 16 i, List.replicate 512 0, BitVec.ofNat 48 (65536 * crc32 (List.replicate 512 (0 : Byte) ++ leBytes 2 c) + c)⟩
set_option maxRecDepth 100000 in
theorem witness_DieLinkTransfersAreTakenInOrder : hasLink (withDie {}) 0 = true ∧ (dlink (withDie { width := .lower }) 0).width ≠ .fenced ∧
    (dlink (withDie {}) 0).paused = false ∧ (dirOf (dlink (withDie {}) 0) 1).waiting = [] ∧ (dirOf (dlink (withDie {}) 0) 1).queued = [] ∧
    transferGood .lower [] = false ∧ transferGood .lower (lower 4) = true ∧
    ((lower 4).head?.map ctlBits = some 4 ∧ 4 / 4 % 2 = 1 ∧ 4 / 1024 % 64 = ((dirOf (dlink (withDie {}) 0) 0).rxLast + 1) % 64) ∧
    (dlink (withDie { width := .fenced }) 0).width = .fenced ∧ (dlink (withDie { paused := true }) 0).paused = true := by decide +kernel
set_option maxRecDepth 100000 in
theorem witness_DieLinkTransfers_other : transferGood .lower (lower 0) = true ∧ (lower 0).head?.map ctlBits = some 0 ∧
    transferGood .lower (lower 1036) = true ∧
    ((lower 1036).head?.map ctlBits = some 1036 ∧ 1036 / 4 % 2 = 1 ∧ 1036 / 1024 % 64 ≠ ((dirOf (dlink (withDie {}) 0) 0).rxLast + 1) % 64 ∧
      1036 / 8 % 2 = 1) := by decide +kernel
theorem witness_RelinkRepairsOrFences : (let l : DLink := { toCrown := { again := 4 }, toRoot := { recent := List.replicate 64 0 } }
     hasLink (withDie l) 0 = true ∧ l.width ≠ .fenced ∧ l.paused = false ∧ 4 ≤ (dirOf l 0).again ∧ 64 ≤ recentReplays (withDie l) (dirOf l 1)) ∧
    (let d : DLinkDir := { again := 3, recent := List.replicate 63 0 }; d.again < 4 ∧ recentReplays (withDie {}) d < 64) ∧
    (let l : DLink := { paused := true }
     let f : WireFail := ⟨0, 7, 5, 31⟩
     let g : WireFail := ⟨0, 7, 5, 0⟩
     l.paused = true ∧ l.width = .full ∧ widthAfter l = l.width ∧ f.wire.val < 32 ∧ f.real = true ∧ g.real = true ∧ l.toCrown.waiting = [] ∧
       l.toRoot.queued = [] ∧ parked (withDie l) 5 = [] ∧ (seg (dirOf l f.dir) f.seg).failed = false ∧
       thas (seg (dirOf l f.dir) f.seg).spares f.group = false ∧ (List.replicate 8190 ({} : Repair)).length < 8191 ∧ failedSegs l = [] ∧
       f.dir = g.dir ∧ f.seg = g.seg ∧ f.group = g.group ∧ f.wire ≠ g.wire ∧ g.wire.val < 32 ∧ f.seg.val < 8 ∧
       (List.replicate 8188 ({} : Repair)).length + 2 < 8191) ∧
    (let l : DLink := { paused := true, width := .lower, toCrown := { segs := [(9, { failed := true })] } }
     l.width = .lower ∧ (∀ i, i < 8 → i ∉ failedSegs l) ∧ (0 : Fin 288).val < 256) := by decide +kernel
theorem witness_MissingClocksAndLostQuadrants : (inState .running).pins.v48On = true ∧ (1 : Quad).val = (seamQuads (seamOf (256 + 0))).2 ∧
    (0 : Quad).val = (seamQuads (seamOf (256 + 0))).1 ∧ ((3 : Quad).val ≠ (seamQuads (seamOf (256 + 0))).1 ∧ (3 : Quad).val ≠ (seamQuads (seamOf (256 + 0))).2) ∧
    (3 : Quad).val ≠ 0 ∧ (inState .running).dev.st ≠ .lookout ∧ (inState .running).dev.qLost.getLsbD 3 = false ∧
    isFA (relayIn .relaying) = true ∧ isFA (inState .running) = false ∧ (inState .loading).dev.st = .loading ∧ (0 : Quad).val = 0 ∧
    ({ inState .ready with dev := { st := .ready, qLost := 8 } } : State).dev.qLost.getLsbD 3 = true := by decide +kernel
/-- `s` with packet `p` first in the ingress buffer of lane `l` on VC 0. -/
def ingressOf (l : Nat) (p : Packet) (s : State) : State :=
  { s with optics := { s.optics with links := tput s.optics.links l { ingress := [(0, [(headerBytes p).take 32, (headerBytes p).drop 32])] } } }
theorem witness_RoutersHopAndRoute_lane : (let s := ingressOf 3 (pkt 2) (inState .running)
    (laneTile 3 = 0 ∧ nextIn (link s 3) 0 (pkt 2) = true) ∧ (takeFrom 0 (.lane 3) .req (pkt 2) s).isSome = true ∧
      takeFrom 0 (.lane 3) .req (pkt 3) s = none ∧ takeFrom 0 (.lane 3) .req (pkt 2) (inState .running) = none) := by decide +kernel
theorem witness_RoutersHopAndRoute : (let s := withLane { st := .up, discovered := true }
     s.dev.st ≠ .lookout ∧ s.pins.v48On = true ∧ s.dev.qLost.getLsbD (quadOf 20) = false ∧ { pkt 2 with hops := 254 }.hops = 254 ∧
       (let p := { pkt 2 with dst := 6, plane := 3 }
        p.hops ≠ 254 ∧ p.flags.getLsbD 4 = false ∧ p.dst ≠ ownEndpoint s ∧ p.plane ≠ 0xFE ∧ laneOfPlane s p.plane.toNat = some 3 ∧ laneTile 3 ≠ 20 ∧
          adaptivePort s 20 (laneTile 3) 0 ≠ none ∧ (tget s.stacking.links 0 {}).paused = false) ∧
       (let p := { pkt 2 with dst := 5, addr := BitVec.ofNat 48 (sramBase + 0x1000000 * 20), crc := 1 }
        p.flags.getLsbD 5 = false ∧ p.dst = ownEndpoint s ∧ addrTile p.addr.toNat = 20 ∧ p.crc ≠ packetCrc p ∧ { p with crc := packetCrc p }.crc = packetCrc { p with crc := packetCrc p })) ∧
    (let s : State := { withLane { st := .up, discovered := true } with
       stacking := { links := (List.range 32).map fun k => (256 + k, { paused := true }) } }
     laneTile 3 = 0 ∧ adaptivePort s 8 0 0 = none) ∧
    (let h : Queued := { p := pkt 2 }
     let s : State := { inState .running with fabric := { queues := [(queueKey 20 5 (vcCode .req), [h])] } }
     heldAt s (queueKey 20 5 (vcCode .req)) = [h] ∧ h.since + 32 ≤ { s with time := 32 }.time ∧ s.time < h.since + 32 ∧
       heldAt s (queueKey 21 5 (vcCode .req)) = [] ∧ waitingEscape s = []) ∧
    takeFrom 20 .north .req (pkt 2) (inState .running) = none ∧
    (let s : State := { inState .running with remote := { groups := [⟨(sramBase + 0x1000000 * 20) / 64, List.replicate 64 (pkt 5), []⟩] } }
     ingressFull s 20 = true ∧ ingressFull s 21 = false) ∧
    (reservedOpcode 2 = false ∧ (pkt 2).job = ({ inState .running with job := { tag := 7 } } : State).job.tag) ∧ State.reset.dev.st = .lookout := by decide +kernel
theorem witness_RelaysForwardByTheTables_first : let p := { pkt 2 with dst := 6 }
    let s := ingressOf 2 p { relayIn .relaying with fabric := { copy0 := ⟨[(6, 3)], [], []⟩ } }
    let x := ingressOf 140 p s
    nextIn (link s 2) 0 p = true ∧ laneLost s 2 = false ∧ laneTile 3 = laneTile 2 ∧ laneLost s 3 = false ∧ nextIn (link s 2) 0 (pkt 3) = false ∧
    nextIn (link x 140) 0 p = true ∧ laneTile 3 ≠ laneTile 140 ∧ adaptivePort x (laneTile 140) (laneTile 3) 0 ≠ none ∧
    laneLost { s with dev := { s.dev with qLost := 1 } } 3 = true ∧ laneLost { s with dev := { s.dev with qLost := 1 } } 140 = false ∧
    nextIn (link (ingressOf 2 { p with hops := 254 } s) 2) 0 { p with hops := 254 } = true := by decide +kernel
theorem witness_RelaysForwardByTheTables : let c : Tables := ⟨[(6, 3), (7, 0xFFFF)], [], []⟩
    let s : State := { relayIn .relaying with fabric := { copy0 := c } }
    let up : State := { s with optics := { lanes := [(3, { st := .up, discovered := true })] } }
    let p := { pkt 2 with dst := 6 }
    isFA s = true ∧ s.dev.st = .relaying ∧ s.dev.role = some .leaf ∧ p.hops ≠ 254 ∧ p.flags.getLsbD 5 = false ∧
    copyFor s (p.flags.getLsbD 0) = .ok c ∧ tget c.down p.dst.toNat 0xFFFF = 3 ∧ linkUp s 3 = false ∧ carries up 3 = true ∧ 3 < 144 ∧
    (link up 3).xoffIn = 0 ∧ (link up 3).replay = [] ∧ queueAt up (linkKey 3) = [] ∧ tget c.down 7 0xFFFF = 0xFFFF ∧ (2 : BitVec 8).getLsbD 1 = true ∧
    { pkt 2 with hops := 254 }.hops = 254 ∧ isFA (inState .running) = false ∧ (relayIn .starting).dev.st ≠ .relaying := by decide +kernel
theorem witness_ReachTrayAndTableEpochs : isFA (inState .running) = false ∧ reachTime (inState .running) (.endpoint 3 6) = none ∧
    (let s : State := { inState .running with fabric := { reachTimes := [(.endpoint 3 6, 5)] } }
     reachTime s (.endpoint 3 6) = some 5 ∧ (5 : DWord).toNat < (6 : DWord).toNat ∧ (5 : DWord).toNat ≤ (5 : DWord).toNat) ∧
    laneUp (withLane { st := .up }) 3 = true ∧ laneUp (withLane {}) 3 = false ∧ (1 : DWord) ≠ (withLane {}).fabric.digest ∧
    (let s : State := { inState .running with fabric := { armed := true, switchTime := 9 }, mtc := { value := 9 } }
     s.fabric.armed = true ∧ s.fabric.switchTime.toNat ≤ s.mtc.value.toNat) ∧
    (let s : State := { inState .running with fabric := { armed := true, switchTime := 9, oldValid := true }, mtc := { value := 8 } }
     s.mtc.value.toNat < s.fabric.switchTime.toNat ∧ s.mtc.value.toNat < s.fabric.switchTime.toNat + 100000) ∧
    (let s : State := { inState .running with fabric := { switchTime := 9, oldValid := true }, mtc := { value := 100009 } }
     s.fabric.oldValid = true ∧ (∀ e ∈ s.fabric.queues, ∀ h ∈ e.2, h.p.flags.getLsbD 0 = s.fabric.epoch) ∧
       s.fabric.switchTime.toNat + 100000 ≤ s.mtc.value.toNat) := by decide +kernel
theorem witness_MachineTimeFollowsTheParent : let r := { aRing with clock := ⟨[], [3], false, [3]⟩ }
    let s : State := { withLane { st := .up } with dev := { (inState .running).dev with ring := some r }, mtc := { parent := some 3, locked := true } }
    let lost : State := { inState .running with dev := { (inState .running).dev with ring := some r }, mtc := { everLocked := true } }
    s.mtc.parent = some 3 ∧ (inState .running).mtc.parent = none ∧ (∀ l ∈ timeParents (inState .running), laneUp (inState .running) l = false) ∧
    laneUp s 3 = true ∧ 3 ∈ timeParents s ∧ isTimeRoot s = false ∧
    chooseParent { s with mtc.reports := tput s.mtc.reports 3 (0, 1, true) } = some 3 ∧
    chooseParent { s with mtc.reports := [(3, (0, 1, true))] } = some 3 ∧ s.mtc.locked = true ∧ s.mtc.everLocked = false ∧
    lost.mtc.everLocked = true ∧ isTimeRoot lost = false ∧ chooseParent lost = none ∧ lost.mtc.holdoverWritten = false ∧
    isTimeRoot (inState .running) = true := by decide +kernel

/-- A running compute module with remote-memory state `r`. -/
def withRemote (r : Remote) : State := { inState .running with remote := r }
/-- `s` under a ring whose policy selects window protection. -/
def windowed (s : State) : State := { s with dev := { s.dev with ring := some { aRing with policy := { aRing.policy with protectionMode := 2 } } } }
/-- A request of opcode `op` at tile 0's SRAM, with 32 B of payload. -/
def reqAt (op : BitVec 8) (a : Nat) (n : Word) : Packet :=
  { pkt op with addr := BitVec.ofNat 48 a, len := 1, aux := n, payload := List.replicate 32 0 }
theorem witness_RequestsArePerformedOnce : let s := withRemote {}
    let p := reqAt 2 sramBase 8
    p.opcode.toNat = 2 ∧ s.dev.st ≠ .lookout ∧ requestAddr s p = some sramBase ∧ Fresh s p 2 sramBase ∧ groupAcross s sramBase 8 = none ∧ CanAnswer s p ∧
    placeOf (win s 1) 1024 = .beyond ∧ placeOf (win s 1) 1023 = .fresh ∧ addrFault s (reqAt 2 0xFFFFFFFFFFFF 8) 0xFFFFFFFFFFFF ≠ 0 ∧
    Performed (withRemote { wins := [(1, { base := 1 })] }) p ∧ Fresh s (reqAt 1 sramBase 8) 1 sramBase ∧ Fresh s (reqAt 6 sramBase 8) 6 sramBase := by
  refine ⟨?_, ?_, ?_, ⟨?_, ?_, ?_, ?_, ?_, ?_⟩, ?_, Or.inr (Or.inl rfl), ?_, ?_, ?_, ?_, ⟨?_, ?_, ?_, ?_, ?_, ?_⟩, ⟨?_, ?_, ?_, ?_, ?_, ?_⟩⟩ <;> first | decide +kernel | (unfold Performed; decide +kernel)
theorem witness_RequestsArePerformedOnce_signal : let s := withRemote {}
    let a := ctrAddr (tileCtr 0 5)
    Fresh s (reqAt 5 a 0x7FFFFFFF) 5 a ∧ ctrAt s a = some (tileCtr 0 5) ∧ signalFault (ctr s (tileCtr 0 5)) 0x7FFFFFFF = 0 ∧
    (ctr s (tileCtr 0 5)).waiters = [] ∧ signalFault (ctr s (tileCtr 0 5)) 0x80000000 ≠ 0 ∧ inJob s = true := by
  refine ⟨⟨?_, ?_, ?_, ?_, ?_, ?_⟩, ?_, ?_, ?_, ?_, ?_⟩ <;> decide +kernel
/-- The window mode's refusal: no window entry lets the request in. -/
theorem witness_RequestsArePerformedOnce_window : let s := { withRemote {} with
      dev := { (inState .running).dev with ring := some { aRing with policy := { aRing.policy with protectionMode := 2 } } } }
    requestAddr s (reqAt 2 sramBase 8) = none := by decide +kernel
theorem witness_FlagsAndAtomicsAtTheirTarget : let c := ctrAddr (tileCtr 0 5)
    let p := { reqAt 3 sramBase 1 with payload := leBytes 6 c ++ List.replicate 26 0 }
    let held : Held := ⟨1, { p with seq := 1 }⟩
    Fresh (withRemote {}) p 3 sramBase ∧ (List.replicate 255 held).length < 256 ∧ 256 ≤ (List.replicate 256 held).length ∧
    (∀ h ∈ List.replicate 256 held, h.src = p.src → h.pkt.seq ≠ p.seq) ∧ CanAnswer (withRemote {}) p ∧
    (let s := withRemote { heldFlags := [⟨1, p⟩] }
     (s.remote.heldFlags.find? fun h => h.src == p.src && h.pkt.seq.toNat == (win s p.src).base) = some ⟨p.src, p⟩ ∧ p.opcode = 3 ∧ requestAddr s p = some sramBase ∧ requestBytes p = 0 ∧
       ctrAt s (field p.payload 0 6) = some (tileCtr 0 5) ∧ signalFault (ctr s (tileCtr 0 5)) p.aux.toNat = 0 ∧ (ctr s (tileCtr 0 5)).waiters = []) ∧
    (∀ h ∈ ([held] : List Held), h.src = 1 → h.pkt.seq.toNat ≠ (win (withRemote { heldFlags := [held] }) 1).base) := by
  refine ⟨⟨?_, ?_, ?_, ?_, ?_, ?_⟩, ?_, ?_, ?_, Or.inr (Or.inl rfl), ?_, ?_⟩ <;> decide +kernel
theorem witness_FlagsAndAtomicsAtTheirTarget_atomics : let p := reqAt 4 sramBase 0
    Fresh (withRemote {}) p 4 sramBase ∧ resultsUsed (withRemote { results := List.replicate 16383 (2, 0, 0, false) }) < 16384 ∧
    16384 ≤ resultsUsed (withRemote { results := List.replicate 16384 (2, 0, 0, false) }) ∧ groupOn (withRemote {}) (sramBase / 64) = none ∧
    (let s := withRemote { wins := [(1, { base := 1 })], results := [(1, 0, 9, true)] }
     p.opcode = 4 ∧ requestAddr s p = some sramBase ∧ Performed s p ∧ s.remote.results.find? (fun e => e.1 == p.src && e.2.1 == p.seq) = some (1, 0, 9, true) ∧
       reachesLost s p sramBase = false) ∧
    (let s := withRemote { groups := [⟨sramBase / 64, [p], []⟩] }
     groupOn s (sramBase / 64) = some ⟨sramBase / 64, [p], []⟩ ∧ requestAddr s p = some sramBase ∧ CanAnswer s p ∧
       let lost := { s with dev := { s.dev with qLost := 1 } }
       groupOn lost (sramBase / 64) = some ⟨sramBase / 64, [p], []⟩ ∧ requestAddr lost p = some sramBase ∧ reachesLost lost p sramBase = true) := by
  refine ⟨⟨?_, ?_, ?_, ?_, ?_, ?_⟩, ?_, ?_, ?_, ⟨?_, ?_, ?_, ?_, ?_⟩, ?_, ?_, Or.inr (Or.inl rfl), ?_, ?_, ?_⟩ <;>
    first | decide +kernel | (unfold Performed; decide +kernel)
/-- A held STORE_FLAG whose target lies in a quadrant that is lost. -/
theorem witness_FlagsAndAtomicsAtTheirTarget_lost : let p := { reqAt 3 sramBase 1 with payload := leBytes 6 (ctrAddr (tileCtr 0 5)) ++ List.replicate 26 0 }
    let s : State := { withRemote { heldFlags := [⟨1, p⟩] } with dev := { (inState .running).dev with qLost := 1 } }
    (s.remote.heldFlags.find? fun h => h.src == p.src && h.pkt.seq.toNat == (win s p.src).base) = some ⟨p.src, p⟩ ∧ requestAddr s p = some sramBase ∧
    requestBytes p = 0 ∧ reachesLost s p sramBase = true ∧
    reachesLost { s with dev := { s.dev with qLost := 0 } } p sramBase = false := by decide +kernel
/-- An outstanding request of tile 0 to endpoint 1. -/
def aPend : Pend := ⟨⟨0, 1, 0⟩, { pkt 1 with dst := 1, src := 5, plane := 3, aux := 4 }, sramBase, none, none, 0, 0, 0, [3], false⟩
/-- A running module whose lane 4 serves plane 4, with one outstanding request. -/
def pending1 (e : Pend) : State :=
  { withRemote { pend := [e] } with optics := { lanes := [(4, { st := .up, discovered := true })] }, job := { tDead := 20 } }
theorem witness_ResponsesCompleteRequests : let p := reqAt 0x41 sramBase 0
    p.opcode = 0x41 ∧ pendOf (withRemote {}) p = none ∧ pendOf (pending1 aPend) p = some aPend ∧ (pending1 aPend).remote.copies = [] ∧
    aPend.counter = none ∧ (let e := { aPend with counter := some 7 }
      pendOf (pending1 e) p = some e ∧ e.counter = some 7 ∧ signalFault (ctr (pending1 e) 7) 1 = 0 ∧ (ctr (pending1 e) 7).waiters = []) ∧
    (reqAt 0x45 sramBase 0x0101).aux.toNat % 65536 ≠ errQuadrantLost ∧ inJob (pending1 aPend) = true ∧
    (let e := { aPend with busy := true }
     pendAt (pending1 e) e.key = some e ∧ e.busy = true ∧ e.pkt.plane ≠ 0xFF ∧ e.pkt.plane ≠ 0xFE ∧ choosePlane (pending1 e) e.key.dst [] = some 4) ∧
    aPend.busy = false ∧
    (let e := { aPend with tries := 2 }
     let s := { pending1 e with time := 10000 }
     pendAt s e.key = some e ∧ e.tries < 3 ∧ e.sent + 10000 ≤ s.time ∧ s.time < e.first + 1000 * s.job.tDead ∧
       choosePlane s e.key.dst e.planes = some 4) ∧ { aPend with slot := some 3 }.slot = some 3 ∧
    3 ≤ { aPend with tries := 3 }.tries ∧
    (let s := { pending1 aPend with time := 20000 }; aPend.first + 1000 * s.job.tDead ≤ s.time) ∧
    aPend.pkt.opcode = 1 ∧ 0 < aPend.pkt.aux.toNat ∧ pendAt (withRemote {}) aPend.key = none := by decide +kernel
theorem witness_CountersSignalWaitAndTake : let s := issuing 6 {}
    let key := tileCtr 0 255
    canIssue s 0 0 6 = true ∧ iss.fetch = [] ∧ 255 < 256 ∧ 1 ≤ 1 ∧ ctrMax ≤ ctrMax ∧ signalFault (ctr (takeArrivals 0 s) key) ctrMax = 0 ∧
    destOf s (.endpoint 5) = ownEndpoint s ∧ (1 : Tile) ≠ 0 ∧ hasRoom s 0 (destOf s (.endpoint 5)) = true ∧ destOf s (.endpoint 6) ≠ ownEndpoint s ∧
    hasRoom s 0 (destOf s (.endpoint 6)) = true ∧ (let w := windowed s
      destOf w (.endpoint 6) ≠ ownEndpoint w ∧ hasRoom w 0 (destOf w (.endpoint 6)) = true ∧ canIssue w 0 0 6 = true ∧
        nativeMode w = false ∧ choosePlane w (destOf w (.endpoint 6)) [] = none) ∧ (1000000 : Nat) ≤ 1000000 ∧
    (let v : Ctr := { value := 1 }; signalFault v ctrMax ≠ 0 ∧ 1 ≤ v.value ∧ v.waiters = [] ∧ v.value < 2) ∧
    (let v : Ctr := { isFlag := true, value := 1 }; signalFault v 1 ≠ 0 ∧ (v.isFlag = true → 1 = 1)) ∧
    (let v : Ctr := { waiters := [(0, 0, 1, 2, 5)] }; v.waiters ≠ [] ∧ v.waiters[0]? = some (0, 0, 1, 2, 5) ∧ v.waiters.length ≤ 1) ∧
    canIssue (issuing 0 {}) 0 0 6 = false ∧
    (let s := { s with time := 10000000000 }; s.dev.st = .running ∧ s.job.waitingInput = [] ∧ s.recov.held = false ∧ s.recov.rollbackTo = none ∧
      s.job.progressAt + 10000000000 ≤ s.time) ∧ s.time < s.job.progressAt + 10000000000 ∧ inJob s = true ∧ (inState .ready).dev.st ≠ .running := by
  decide +kernel
/-- A copy of `n` bytes to endpoint 5. -/
def aCopy (n : Nat) : CopyReq := ⟨sramBase, .endpoint 5, sramBase + 4096, n, 7, false, false, 0, false, false⟩
/-- A ring of four members with two receive slots, as its second member sees it. -/
def aRingRec : RingRec := ⟨0, 0, 1, [0, 1, 2, 3], false, 2, 64, sramBase, [sramBase + 64, sramBase + 128], 3, [0, 1], [2, 3], 4, [sramBase, sramBase + 64], 5⟩
/-- A running module that has forwarded the first two blocks of its ring. -/
def inRing (c : Table Ctr) : State :=
  { withRemote { ctrs := c } with job := { plan := some { rings := [aRingRec] }, rankMap := [5, 6, 7, 8], waitTimeout := 9 } }
theorem witness_CopyEnginesAndTees : let s := issuing 4 {}
    canIssue s 0 0 4 = true ∧ Ecc.uncorrectable ∉ iss.fetch ∧ engineCopy s 0 = none ∧
    roomFor { s with remote := { pend := List.replicate 1024 aPend } } 0 (destOf s (aCopy 256).dst) 1 = false ∧
    roomFor (windowed (inRing [])) aRingRec.tile 5 2 = true ∧ { aRingRec with oneTray := true }.oneTray = true ∧
    roomFor { inRing [] with remote := { pend := List.replicate 1024 { aPend with key := ⟨3, 5, 0⟩ } } } aRingRec.tile 5 1 = false ∧
    tileCtr 3 2 ∉ (inRing []).remote.filled ∧ nativeMode (windowed (inRing [])) = false ∧ aRingRec.tile < 256 ∧ 1 ≤ aRingRec.bytes ∧ aRingRec.bytes ≤ 256 ∧
    destOf s (aCopy 256).dst = ownEndpoint s ∧ 1 ≤ (aCopy 1).length ∧ (aCopy 256).length ≤ 256 ∧
    (aCopy 256).digest = false ∧ s.remote.copies = [] ∧ roomFor s 0 (ownEndpoint s) 2 = true ∧ (aCopy 0).length = 0 ∧
    4 * gib < (aCopy (4 * gib + 1)).length ∧ engineCopy { s with remote := { copies := [⟨0, aCopy 9, 0, none, none⟩] } } 0 ≠ none ∧
    (∀ p, s.job.plan = some p → p.rings[0]? = none) ∧ (inRing []).job.plan = some { rings := [aRingRec] } ∧ ([aRingRec])[0]? = some aRingRec ∧
    aRingRec.members.length ≤ 3 + 1 ∧ 2 + 1 < aRingRec.members.length ∧ (inRing []).dev.st = .running ∧ (inRing []).remote.copies = [] ∧
    1 < aRingRec.slots ∧ aRingRec.slots ≤ 2 ∧ (ctr (inRing []) (tileCtr 3 2)).value = 0 ∧
    (let u := inRing [(tileCtr 3 2, { value := 1 })]; 1 ≤ (ctr u (tileCtr 3 2)).value ∧ (ctr u (tileCtr 3 2)).waiters = []) := by
  refine ⟨?_, ?_, ?_, ?_, ?_, ?_, ?_, ?_, ?_, ?_, ?_, ?_, ?_, ?_, ?_, ?_, ?_, ?_, ?_, ?_, ?_, fun p h => absurd (show (none : Option Plan) = some p from h) (by simp), ?_, ?_, ?_, ?_, ?_, ?_, ?_, ?_,
    ?_, ?_⟩ <;> decide +kernel
theorem witness_ScrubsRefreshAndCornerTurn : let s := inState .running
    s.dev.st ≠ .lookout ∧ tileUsable s 0 = true ∧ stackLost s 3 = false ∧ stackLost { s with dev := { s.dev with qLost := 15 } } 3 = true ∧ s.mem.poison = [] ∧ (∀ e ∈ ([.ok] : List Ecc), e = .ok) ∧
    tget ({ s with mem := { scrub := [(scrubKey 0 3, 6143)] } } : State).mem.scrub (scrubKey 0 3) 0 = 6143 ∧
    tileUsable { s with stacking := { fenced := 1 } } 0 = false ∧ (∀ x ∈ [(0, 4), (64, 16)], x.1 + x.2 ≤ 0xC00000) ∧ s.dev.st ≠ .starting ∧ isFA s = false ∧ (hbm s 3).selfRefresh = false ∧
    (hbm { s with mem := { hbms := [(3, { selfRefresh := true, due := 10000 })] } } 3).selfRefresh = true ∧ (inState .quarantined).dev.st = .quarantined ∧
    (inState .filling).dev.st = .filling ∧ blockFits 0 1 1 1 1 = true ∧ blockFits 0 0x8000 256 256 16 = true ∧ 256 ≤ 256 := by decide +kernel
/-- A plan of one rank on tile 0 that holds tensor 0, of 64 bytes, in the tile's SRAM. -/
def oneTile : Plan := { r := 1, n := 1, tiles := [0], tilesPerRank := 1, mods := [{ n := 1, lens := [64], homes := [(0, 0)] }] }
/-- The uncorrectable word of a live tensor, where placement gives the tensor the tile's first address. -/
theorem witness_ScrubsRefreshAndCornerTurn_owned (h : Config.tensorBase 0 1 0 0 0 0 = 0) :
    ownerOf { inState .running with job := { plan := some oneTile } } (sramAddr 0 0) ≠ none := by
  have e : tensorRanges oneTile { n := 1, lens := [64], homes := [(0, 0)] } 0 0 = [(sramAddr 0 (Config.tensorBase 0 1 0 0 0 0), 64)] := by rfl
  rw [h] at e
  intro hn
  simp [ownerOf, ownPlan, oneTile, standsHere] at hn
  simp [oneTile] at e
  simp [e, sramAddr, tget] at hn

/-- An image of one phase of kind `kind` with the one op `o`, over one scratch FP32 tensor of one element. -/
def opImage (kind : Nat) (o : OpRec) : Image :=
  { ops := [o], phases := [⟨kind, 0, 1⟩], tensors := [⟨0, 0, 0, 3, 0xFF, 0, 0xFFFF, [], 1, 0⟩], items := [(1, 0)] }
/-- The op of this opcode and variant that reads and writes tensor 0. -/
def opOf (opcode variant : Nat) : OpRec := ⟨opcode, variant, 0, 0, [0], [0], [0, 0, 0, 0], leBytes 4 1 ++ leBytes 4 1, 0⟩
/-- A job of one rank on this module. -/
def onePlan : Plan := { n := 1, r := 1, w := 1 }
/-- A running job in the one phase of that image, at its first op. -/
def opState (o : OpRec) : State :=
  { inState .running with job := { image := some (opImage 0 o), plan := some onePlan, phase := some 0, opNext := [0] } }
/-- Every op of the table is ready in such a state. -/
theorem witness_ops : ∀ e ∈ ([(1, 0), (2, 0), (3, 0), (3, 1), (3, 2), (3, 3), (4, 0), (4, 1), (5, 0), (5, 1), (6, 0), (7, 0), (7, 1), (8, 0), (9, 0), (9, 1),
      (9, 2), (10, 0), (10, 1), (10, 2), (10, 3), (10, 4), (10, 5), (10, 6), (11, 0), (11, 1), (12, 0), (12, 1)] : List (Nat × Nat)),
    let o := opOf e.1 e.2
    nextOp (opState o) 0 0 e.1 e.2 = some (opImage 0 o, o) ∧ 0 < (opState o).job.opNext.length ∧ inputsReady (opState o) (opImage 0 o) o.ins = true ∧
      o.variant = e.2 := by decide +kernel
theorem witness_ComputingOpsConvertTheirResults : OpReady (opState (opOf 1 0)) 0 0 1 0 (opImage 0 (opOf 1 0)) (opOf 1 0) :=
  ⟨by decide +kernel, by decide, by decide +kernel⟩
theorem witness_AttendAndCopyOps : (opOf 4 0).outs = [out0 (opOf 4 0)] ∧
    (let o := { opOf 4 0 with outs := [0, 1] }
     let im := { opImage 0 o with tensors := List.replicate 3 ⟨0, 0, 0, 3, 0xFF, 0, 0xFFFF, [], 1, 0⟩ }
     let s : State := { opState o with job := { (opState o).job with image := some im } }
     nextOp s 0 0 4 0 = some (im, o) ∧ o.outs = [out0 o, 1] ∧ keyOf s im 0 1 ≠ keyOf s im 0 (out0 o)) ∧
    (let o := { opOf 4 1 with outs := [0, 1, 2] }
     let im := { opImage 0 o with tensors := List.replicate 3 ⟨0, 0, 0, 3, 0xFF, 0, 0xFFFF, [], 1, 0⟩ }
     let s : State := { opState o with job := { (opState o).job with image := some im } }
     nextOp s 0 0 4 1 = some (im, o) ∧ o.outs = [0, 1, 2] ∧ keyOf s im 0 0 ≠ keyOf s im 0 1 ∧ keyOf s im 0 0 ≠ keyOf s im 0 2 ∧
       keyOf s im 0 1 ≠ keyOf s im 0 2) ∧
    (let o := opOf 11 0; fmtNow (opState o) (opImage 0 o) (in0 o) = fmtNow (opState o) (opImage 0 o) (out0 o)) := by decide +kernel
/-- Two gathers over a sequence axis of two and the ATTEND, of this variant, that reads `ins`, in the last of them. -/
def ringImage (v : Nat) (ins : List Nat) : Image :=
  { ops := [{ opOf 10 2 with ins := [1], outs := [3], machine := 1, params := [0, 0] }, { opOf 10 2 with ins := [2], outs := [4], machine := 1, params := [0, 0] },
      { opOf 4 v with ins := ins }]
    phases := [⟨0, 0, 3⟩], items := [(1, 0)], machine := [(2, 2)], axes := [256, 512]
    tensors := [⟨0, 0, 0, 3, 0xFF, 0, 0xFFFF, [], 1, 0⟩, ⟨0, 1, 0, 3, 0xFF, 0, 0xFFFF, [0], 1, 0⟩, ⟨0, 1, 0, 3, 0xFF, 0, 0xFFFF, [0], 1, 0⟩,
      ⟨0, 1, 0, 3, 0xFF, 0, 0xFFFF, [1], 1, 0⟩, ⟨0, 1, 0, 3, 0xFF, 0, 0xFFFF, [1], 1, 0⟩] }
/-- The rings of its gathers on position 0. -/
def ringK : RingRec := { aRingRec with members := [0, 1] }
def ringV : RingRec := { aRingRec with members := [0, 1], op := 1, arrival := [5, 6] }
/-- A running job at the ATTEND of that image, which its plan runs as a rotation, with this much of it done. -/
def ringState (im : Image) (run : RingRun) : State :=
  { inState .running with
    job := { image := some im, phase := some 0, opNext := [2], rotations := [run], rankMap := [5, 6]
             plan := some { onePlan with n := 2, tiles := [0], rings := [ringK, ringV], mods := [{ n := 1, ops := [{ op := 2, unit := 0, rotates := true }] }] } } }
theorem witness_AttendAndCopyOps_rotation : ∀ v ∈ [0, 1], let o := { opOf 4 v with ins := [0, 3, 4] }
    let im := ringImage v o.ins
    let ks := stepWaits [ringK, ringV] 1
    let s := ringState im { pos := 0, op := 2 }
    let a := ringState im { pos := 0, op := 2, step := 1, asked := ks.map (·.1) }
    let b := ringState im { pos := 0, op := 2, step := 1, asked := ks.map (·.1), got := ks.map (·.1) }
    (∀ x ∈ [s, a, b], nextOp x 0 2 4 v = some (im, o) ∧ rotates x 2 = true ∧ inputsReady x im o.ins = true ∧
      (ringsAt x im o 0).map (fun l => l.map (·.2)) = some [ringK, ringV]) ∧ stepWaits [ringK, ringV] (runOf' s 0 2).step = [] ∧ 0 + 1 < ringK.members.length ∧
    (∀ w ∈ ks, w.1 ∈ (runOf' a 0 2).asked ∧ w.1 ∉ (runOf' a 0 2).got) ∧ (∀ w ∈ ks, w.1 ∈ (runOf' b 0 2).asked ∧ w.1 ∈ (runOf' b 0 2).got) ∧
    ringK.members.length ≤ (runOf' b 0 2).step + 1 ∧ o.outs = [out0 o] ∧ nativeMode (windowed b) = false ∧
    (∀ e ∈ [ringK, ringV], nth b.job.rankMap (nth e.members ((e.index + 1) % e.members.length) 0) 0xFFFF = 5) ∧
    ownEndpoint { windowed b with dev := { (windowed b).dev with ring := some { aRing with ident := 6 } } } = 6 ∧ turnedGather s im 0 = true := by
  decide +kernel
/-- A rotation that waits for one block, not asked for yet. -/
theorem witness_AttendAndCopyOps_block : let o := { opOf 4 0 with ins := [0, 3, 3] }
    let s := ringState (ringImage 0 o.ins) { pos := 0, op := 2, step := 1 }
    nextOp s 0 2 4 0 = some (ringImage 0 o.ins, o) ∧ rotates s 2 = true ∧ (ringsAt s (ringImage 0 o.ins) o 0).map (fun l => l.map (·.2)) = some [ringK] ∧
    (∃ w, stepWaits [ringK] (runOf' s 0 2).step = [w] ∧ w.1 ∉ (runOf' s 0 2).asked ∧ w.1 ∉ (runOf' s 0 2).got ∧ (ctr s w.1).value < w.2) := by
  refine ⟨by decide +kernel, by decide +kernel, by decide +kernel, (tileCtr 3 0, 1), ?_⟩
  decide +kernel
theorem witness_CollectivesOverTheirMembers : (let o := opOf 10 2
     (memberCopies (opState o) (opImage 0 o) o 0 0 []).isSome = true ∧ turnedGather (opState o) (opImage 0 o) 0 = false ∧
       inTree (opState o) 0 = false ∧ (opState o).flume.bulks = [] ∧ matesThere (opState o) (opImage 0 o) o 0 0 = true ∧ fmtNow (opState o) (opImage 0 o) (in0 o) = fmtNow (opState o) (opImage 0 o) (out0 o) ∧
       ∀ i, i < groupSize (opImage 0 o) o.machine → i = groupIndex (opImage 0 o) o.machine (rankOf (opState o) (opImage 0 o) 0)) ∧
    (let o := { opOf 10 2 with machine := 1 }
     let im := { opImage 0 o with machine := [(2, 0)] }
     let s : State := { opState o with job := { (opState o).job with image := some im } }
     (memberCopies s im o 0 0 []).isNone = true ∧ (memberCopies s im o 0 0 [⟨0, [], [], []⟩, ⟨1, [], [], []⟩]).isSome = true ∧
       nextOp s 0 0 10 2 = some (im, o)) ∧
    (let o := opOf 10 6
     let s : State := { opState o with job := { (opState o).job with plan := some { onePlan with r := 2 }, opNext := [1, 0] } }
     nextOp s 1 0 10 6 = some (opImage 0 o, o) ∧
       matesThere { s with job.opNext := [1] } { opImage 0 o with machine := [(2, 0)] } { o with machine := 1 } 0 1 = false) := by decide +kernel
theorem witness_OpsRunInOrderAndWaitForInputs_rotation : let o := { opOf 4 0 with ins := [0, 3, 4] }
    let im := { ringImage 0 o.ins with tensors := ⟨0, 0, 0, 4, 0xFF, 0, 0xFFFF, [], 1, 0⟩ :: (ringImage 0 o.ins).tensors.drop 1 }
    let s := ringState im { pos := 0, op := 2 }
    nextOp s 0 2 4 0 = some (im, o) ∧ rotates s 2 = true ∧ (ringsAt s im o 0).map (fun l => l.map (·.2)) = some [ringK, ringV] ∧
    inputsReady s im (o.ins.filter fun t => !([3, 4] : List Nat).any fun e => e == t) = false := by decide +kernel
theorem witness_OpsRunInOrderAndWaitForInputs : nextOp (opState (opOf 2 0)) 0 0 1 0 = none ∧
    (let o := opOf 1 0
     let im := { opImage 0 o with tensors := [⟨0, 0, 0, 4, 0xFF, 0, 0xFFFF, [], 1, 0⟩] }
     let s : State := { opState o with job := { (opState o).job with image := some im } }
     nextOp s 0 0 1 0 = some (im, o) ∧ inputsReady s im o.ins = false) ∧
    (let o := opOf 12 0
     let s := opState o
     hostN o = 1 ∧ (∀ t ∈ tilesAt s 0, (tile s t).awaits = []) ∧ signalFault (ctr s (hostCtr (hostH o))) (hostN o) = 0 ∧ (ctr s (hostCtr (hostH o))).waiters = [] ∧ 0 ∉ s.job.awaitDone ∧
       (ctr s (hostCtr (hostH o))).value < hostN o) ∧
    (let o := opOf 12 1
     let s : State := { opState o with remote := { ctrs := [(hostCtr 1, { value := 1 })] } }
     hostH o = 1 ∧ (∀ t ∈ tilesAt s 0, (tile s t).awaits = []) ∧ hostN o ≤ (ctr s (hostCtr (hostH o))).value) ∧
    (let o := opOf 12 1
     let s : State := { opState o with job := { (opState o).job with plan := some { onePlan with r := 2 }, opNext := [0, 0], awaitDone := [0] } }
     0 ∈ s.job.awaitDone ∧ nextOp s 1 0 12 1 = some (opImage 0 o, o) ∧ nth s.job.opNext 0 0 ≤ 0 ∧
       nextOp { s with job.opNext := [1, 0] } 1 0 12 1 = some (opImage 0 o, o) ∧ 0 < nth [1, 0] 0 0) := by decide +kernel
/-- A running job between phases, at an item of this list, with its step open. -/
def itemState (kind : Nat) (items : List (Nat × Nat)) (at_ : Nat) (j : Job) : State :=
  { inState .running with job := { j with image := some { opImage kind (opOf 1 0) with items := items, conds := [⟨3, 4, 0, 0, 0⟩, ⟨3, 0, 0, 0, 0⟩] }
                                          plan := some onePlan, stepOpen := true, item := at_ } }
theorem witness_StepItemsRunInOrder : (let im := { opImage 0 (opOf 1 0) with initPhase := some 0 }
     let s : State := { inState .running with job := { image := some im, plan := some onePlan, inInit := true } }
     s.job.image = some im ∧ s.job.inInit = true ∧ jobRunning s = true ∧ s.job.phase = none ∧ im.initPhase = some 0 ∧ 0 < positions s ∧
       0 < ((im.phases[0]?).getD (⟨0, 0, 0⟩ : PhaseRec)).count) ∧
    (let s := itemState 0 [(1, 0)] 0 {}
     s.job.inInit = false ∧ (atItem s 1).isSome = true ∧ s.job.stepOpen = true ∧ 0 < positions s ∧ (1 : Nat) ≠ 0 ∧ s.job.opened ≠ some 0 ∧
       (itemState 0 [(1, 0)] 0 { opened := some 0 }).job.opened = some 0 ∧ (atItem (itemState 0 [(1, 0)] 0 { opened := some 0 }) 1).isSome = true) ∧
    ({ itemState 0 [(1, 0)] 0 { opened := some 0 } with recov := {} } : State).job.opened = some 0 ∧
    ((itemState 2 [(1, 0)] 0 {}).recov.triggerDue = none ∧ (itemState 2 [(1, 0)] 0 {}).job.n2Now = none) ∧
    (let s : State := { itemState 2 [(1, 0)] 0 {} with recov := { triggerDue := some 3 } }; s.recov.triggerDue ≠ none) ∧
    (atItem (itemState 0 [(2, 0), (1, 0), (3, 0)] 0 {}) 2).isSome = true ∧
    (let s := itemState 0 [(2, 0), (1, 0), (3, 0)] 2 { mb := 2 }
     (atItem s 3).isSome = true ∧ s.job.loopIter + 1 < s.job.mb ∧ [(2, 0), (1, 0), (3, 0)] = ([] : List (Nat × Nat)) ++ (2, 0) :: [(1, 0), (3, 0)]) ∧
    (let s := itemState 0 [(2, 0), (1, 0), (3, 0)] 2 {}
     (atItem s 3).isSome = true ∧ s.job.mb ≤ s.job.loopIter + 1 ∧ s.job.loopSums = []) ∧
    condTrue (itemState 0 [] 0 {}) { conds := [⟨3, 4, 0, 0, 0⟩, ⟨3, 0, 0, 0, 0⟩] } 0 = true ∧
    condTrue (itemState 0 [] 0 {}) { conds := [⟨3, 4, 0, 0, 0⟩, ⟨3, 0, 0, 0, 0⟩] } 1 = false ∧
    (let l := [(4, 0), (1, 0), (6, 0)]
     (atItem (itemState 0 l 0 {}) 4).isSome = true ∧ l = [] ++ (4, 0) :: [(1, 0)] ++ (6, 0) :: [] ∧ (atItem (itemState 0 l 2 {}) 6).isSome = true) ∧
    (let l := [(4, 0), (1, 0), (5, 0), (1, 0), (6, 0)]
     l = [] ++ (4, 0) :: [(1, 0)] ++ (5, 0) :: [(1, 0), (6, 0)] ∧ (atItem (itemState 0 l 2 {}) 5).isSome = true ∧
       l = [(4, 0), (1, 0)] ++ (5, 0) :: [(1, 0)] ++ (6, 0) :: []) ∧
    (let s := itemState 0 [(1, 0)] 0 {}; atItem s 2 = none ∧ atItem s 3 = none ∧ atItem s 5 = none ∧ atItem s 6 = none) := by decide +kernel
theorem witness_StepItemsRunInOrder_guard : let im := { opImage 2 (opOf 3 1) with tensors := [⟨0, 0, 0, 2, 0xFF, 0, 0xFFFF, [], 1, 0⟩], safe := { normSource := 0 } }
    let s : State := { inState .running with job := { image := some im, plan := some onePlan, stepOpen := true } }
    (atItem s 1).isSome = true ∧ guardSkips im.safe.limit (formN2 s im []) = false ∧ guardSkips im.safe.limit (formN2 s im [(1, 0x7FF8000000000000)]) = true := by
  decide +kernel

/-- `s` with no keeper in its ring. -/
def noKeeper (s : State) : State := { s with recov := { s.recov with keeper := some 0xFFFF } }
theorem witness_StepBoundaryWritesItsRecord : let im := { opImage 0 (opOf 1 0) with items := [] }
    let s := noKeeper (itemState 0 [] 0 { n2Now := some 0 })
    s.job.image = some { im with conds := [⟨3, 4, 0, 0, 0⟩, ⟨3, 0, 0, 0, 0⟩] } ∧ s.job.plan = some onePlan ∧ boundaryReady s im = true ∧
    boundaryReady { s with recov := { s.recov with triggerDue := some 3 } } im = false ∧ s.job.stepOpen = true ∧ im.promos = [] ∧ im.progs = [] ∧
    shardKeys s im = [] ∧ s.job.replayTo = none ∧ s.recov.saving = none ∧ s.job.n2Now = some 0 ∧ s.job.rankMap.length ≤ 1 ∧ keeperNow s = 0xFFFF := by
  decide +kernel
/-- A running job with recovery state `r`. -/
def withRecov (r : Recov) : State := { inState .running with job := { image := some {}, plan := some onePlan, tag := 7 }, recov := r }
theorem witness_SnapshotsAndTheEndOfAJob : let s := withRecov { triggerDue := some 3 }
    s.job.image = some {} ∧ s.recov.triggerDue = some 3 ∧ s.mtc.value < 1 ∧ keeperNow (noKeeper s) = 0xFFFF ∧ jobRunning s = true ∧ (0 : DWord) ≤ s.mtc.value ∧
    writable s (takeRelease [] s.recov.ownA) = true ∧
    (let t := withRecov { ownA := { st := 3 } }; writable t (takeRelease [] t.recov.ownA) = false ∧ writable t (takeRelease [] t.recov.ownB) = true) ∧
    writable s { st := 3 } = false ∧ (withRecov {}).recov.triggerDue = none ∧
    (let d := inState .draining; d.dev.st = .draining ∧ d.job.drainHold = false ∧ d.pins.thermTripN = true ∧ d.mem.bist = [] ∧
      keptNow d = (ringKeeper d).kept) ∧
    (withRecov {}).dev.st ≠ .draining := by decide +kernel
/-- A packet of one element with this descriptor. -/
def flumePkt (d : Desc) : Packet := { pkt 0x80 with job := 7, len := 2, payload := d.bytes ++ List.replicate 32 0 }
/-- An INT32 sum of one element by group 9, sequence number 1, with two children a level and its top at level 1. -/
def aDesc : Desc := ⟨0, 2, 1, 0, 9, 1, 0x020202, 1, 0, 0, none32⟩
/-- The packet with its CRC right. -/
def sealPkt (p : Packet) : Packet := { p with crc := packetCrc p }
/-- A leaf relay at work with these Flume units. -/
def relayWith (f : Flume) : State := { relayIn .relaying with flume := f }
theorem witness_RelaysCombineInTheirSlots : let p := sealPkt (flumePkt aDesc)
    let d := descOf p
    let c : Contrib := ⟨4, 0, 0, none32, 1, [0]⟩
    let x : FSlot := { job := 7, group := 9, seq := 1, op := 0, type := 2, count := 1, kids := 2, top := 1, contribs := [c] }
    let s := relayWith { slots := [x], resend := [p] }
    d = aDesc ∧ relaying (relayIn .starting) = false ∧ relaying s = true ∧ crcBad { p with crc := p.crc + 1 } = true ∧ crcBad p = false ∧
    (relayWith {}).flume.slots.length < slotRoom (relayWith {}) ∧ 1 < d.kidsAt (relayLevel s) ∧
    (let full := List.replicate 1024 { x with seq := 2 }; full.find? (slotIs 7 9 1) = none ∧ slotRoom s ≤ full.length) ∧
    s.flume.slots.find? (slotIs p.job d.group d.seq) = some x ∧ hasPart 4 p x.contribs = true ∧ hasPart 3 p x.contribs = false ∧
    x.contribs = [c] ∧ c.lane ≠ 3 ∧ c.parts ≤ c.got.length ∧ p.aux.toNat / 2 ^ 16 % 256 ≤ 1 ∧ x.kids / 256 ^ (relayLevel s - 1) % 256 = 2 ∧
    x.top ≤ relayLevel s ∧ d.op ≠ 6 ∧ slotMismatch [c, ⟨3, d.lowest, d.digest, d.mismatch, 1, [0]⟩] = none32 ∧ linkUp s 3 = false ∧ linkUp s 4 = false ∧
    (refusable (relayWith { slots := [{ x with sent := [p] }] })).find? (answersTo p) = some p ∧ (refusable s).find? (answersTo p) = none ∧
    s.flume.bulks.find? (fun b => b.group == d.group) = none ∧ isFA (inState .running) = false ∧ (∀ y ∈ s.flume.resend, y.seq ≠ 5) ∧
    s.flume.resend = p :: [] ∧ (relayWith {}).flume.slots.find? (slotIs p.job d.group d.seq) = none ∧
    ((List.range 144).find? fun l => isUpLane s l && partnerOf s l == p.dst && carries s l) = none := by decide +kernel
/-- A relay whose lane 9 leads up to endpoint 0, with a refused piece to send again; and a member's bulk reduction with its chunk out. -/
theorem witness_RelaysCombineInTheirSlots_resend : let p := sealPkt (flumePkt aDesc)
    let s : State := { relayWith { resend := [p] } with
      dev := { (relayIn .relaying).dev with ring := some { aRing with role := .leaf, relay := true, wiring := [⟨9, 0, 0⟩] } }
      optics := { lanes := [(9, { st := .up, discovered := true, partner := 0 })] } }
    isFA s = true ∧ (link s 9).replay = [] ∧ 0 < replayRoom 9 ∧
    (let c : BChunk := { chunk := 1, plane := 3, elems := [0], owner := 0, st := 1 }
     let b : Bulk := { group := 9, seq := 0, op := 0, pos := 0, kind := 0x10, fop := 0, type := 2, lowest := 0, words := [], slices := [], planes := [3] }
     ([{ b with chunks := [c] }] : List Bulk).find? (fun x => x.group == (descOf p).group) = some { b with chunks := [c] } ∧
       [c].find? (fun x => x.chunk == (descOf p).seq.toNat && x.st == 1) = some c) := by decide +kernel
theorem witness_MembersTakeTheFirstResult : let p := sealPkt (flumePkt aDesc)
    let x : FOp := { group := 9, seq := 1, op := 0, part := 0, digest := 0, planes := 1 }
    let s : State := { inState .running with job := { tag := 7 }, flume := { ops := [x] } }
    crcBad p = false ∧ isFA s = false ∧ s.flume.ops.find? (fun y => y.group == 9 && y.seq == 1) = some x ∧ p.job = s.job.tag ∧ x.result = none ∧
    aDesc.fail = false ∧ { aDesc with flags := 4 }.fail = true ∧ crcBad (sealPkt (flumePkt { aDesc with flags := 4 })) = false ∧
    { x with result := some [] }.result ≠ none ∧ p.job ≠ 8 ∧ (inState .running).flume.ops.find? (fun y => y.group == 9 && y.seq == 1) = none ∧
    inJob s = true ∧ isFA (relayIn .relaying) = true ∧ (9 : Word) ≠ 0 ∧ deviceRound (inState .ready) = false := by decide +kernel
theorem witness_BulkChunksArriveOrGoAgain : let p := sealPkt (flumePkt aDesc)
    let c : BChunk := { chunk := 1, plane := 3, elems := [0], owner := 0, st := 1 }
    let w : BChunk := { c with chunk := 2 }
    let b : Bulk := { group := 9, seq := 1, op := 0, pos := 0, kind := 0x10, stage := 2, fop := 0, type := 2, lowest := 0, words := [], slices := []
                      planes := [3, 4], chunks := [c, w] }
    let s : State := { inState .running with job := { tag := 7 }, flume := { bulks := [b] } }
    relaying (relayIn .starting) = false ∧ relaying (relayWith {}) = true ∧ crcBad p = false ∧ (relayWith {}).flume.chunks = [] ∧
    1 < (descOf p).kidsAt (relayLevel (relayWith {})) ∧
    (let x : Chunk := ⟨7, 9, 1, 0, 0, [(0, 4, [1])], []⟩
     let q := sealPkt (flumePkt { aDesc with lowest := 1 })
     chunkIs q.job (descOf q).group (descOf q).seq.toNat q.addr.toNat x = true ∧ x.attempt = q.aux.toNat / 2 ^ 24 ∧ 0 < (descOf q).lowest ∧
       (descOf q).kidsAt (relayLevel (relayWith {})) = 2 ∧ (descOf q).top ≤ relayLevel (relayWith {}) ∧ (descOf q).mismatch = none32 ∧
       linkUp (relayWith {}) 3 = false ∧ linkUp (relayWith {}) 4 = false) ∧
    (let q := sealPkt (donePacket 5 7 224 0 9 1)
     crcBad q = false ∧ q.job = s.job.tag ∧ doneGroup q = (descOf p).group ∧ doneChunk q = c.chunk ∧ doneOffset q = 224 ∧ q.payload = []) ∧
    s.flume.bulks.find? (fun y => y.group == (descOf p).group) = some b ∧ b.stage = 2 ∧ b.chunks = [c, w] ∧ c.st = 1 ∧ w.st = 1 ∧
    c.chunk = (descOf p).seq.toNat ∧ w.chunk ≠ c.chunk ∧ isFA s = false ∧ p.job = s.job.tag ∧ chunkWhole 2 { c with pieces := [(0, [])] } = true ∧
    chunkWhole 2 { c with elems := List.replicate 1000 0, pieces := [(0, [])] } = false ∧ { b with chunks := [c] }.chunks = [c] ∧
    (∀ y ∈ (inState .running).flume.bulks, ∀ z ∈ y.chunks, z.st ≠ 1) ∧
    (let o : FOp := { group := 9, seq := 1, op := 0, part := 3, digest := 0, planes := 1 }
     o.group = (descOf p).group ∧ o.seq = (descOf p).seq ∧ o.op = b.op ∧ o.result = none ∧ (descOf p).fail = false ∧
       { b with stage := 3 }.stage = 3 ∧ wordPlanes (packetValues (descOf p) p) = [] ∧
       (let q := sealPkt { flumePkt aDesc with payload := aDesc.bytes ++ leBytes 32 8 }
        wordPlanes (packetValues (descOf q) q) ≠ [] ∧ crcBad q = false) ∧ 3 ≤ { b with attempt := 3 }.attempt ∧ b.attempt < 3) := by decide +kernel
/-- A recovery notice of this job in attempt 0, for step 0. -/
def aNotice (action : Nat) : Notice := ⟨action, 0, 7, 3, 2, 0x0501, 0, 0, 0⟩
theorem witness_RecoveryNoticesAndTheWindow : let s := withRecov {}
    (aNotice 1).job ≠ (inState .running).job.tag ∧ recovers (inState .ready) = false ∧ recovers (inState .faulted) = false ∧ (inState .faulted).dev.st = .faulted ∧ (aNotice 1).attempt < (withRecov { attempt := 1 }).recov.attempt ∧
    aNotice 1 ∈ (withRecov { notices := [aNotice 1] }).recov.notices ∧
    (aNotice 1).job = s.job.tag ∧ recovers s = true ∧ s.recov.attempt ≤ (aNotice 1).attempt ∧ aNotice 1 ∉ s.recov.notices ∧
    { s with job := { s.job with updateBegun := true } }.job.updateBegun = true ∧ (aNotice 1).step = s.job.step ∧
    (let t := { s with job := { s.job with rankMap := [1, 1, 1, 5] } }; (aNotice 3).action = 3 ∧ (aNotice 3).subject = ownSlot t) ∧
    ({ aNotice 3 with flags := 1 }.flags.getLsbD 0 = true) ∧
    (withRecov { toSend := some (aNotice 1, 3) }).recov.toSend = some (aNotice 1, 3) ∧ s.recov.toSend = none ∧ s.recov.window = false := by decide +kernel
/-- The members' digest round of the window's end: this module is alone in its job. -/
def digestRound (act : Nat) (s : State) : State :=
  let d := recoveryDigest act s.recov.attempt (if act = 1 then s.job.step.toNat else s.recov.snapshot.getD (2 ^ 64 - 1)) []
  deviceFlume 1 3 [d, ~~~ d] { s with recov.window := false, recov.held := false }
/-- A running job of this one module under a plan of its 256 tiles. -/
def alone (r : Recov) : State :=
  { withRecov r with job := { image := some {}, plan := some { onePlan with tiles := List.range 256 }, tag := 7, rankMap := [5] } }
theorem witness_RecoveryNoticesAndTheWindow_end : let s := fun a => alone { window := true, notices := [aNotice a] }
    let im : Image := {}
    (s 1).recov.window = true ∧ recovers (s 1) = true ∧ (s 1).job.image = some im ∧ highestAction (s 4).recov.notices = 4 ∧
    (inState .planning).dev.st = .planning ∧ recovers (inState .planning) = true ∧ highestAction (s 1).recov.notices ≠ 4 ∧ (s 1).dev.st ≠ .planning ∧
    carried { tensors := [⟨0, 0, 0, 3, 0xFF, 0, 0xFFFF, [], 1, 1⟩] } ≠ none ∧ carried im = none ∧ repeatedNotice (s 1) = none ∧
    repeatedNotice (alone { window := true, notices := [aNotice 1], replays := 8 }) ≠ none ∧ subjectsOf (s 1).recov.notices = [] ∧
    (s 1).recov.unfilled = [] ∧ boundTiles (s 1) = List.range 256 ∧ keeperNow (noKeeper (s 1)) = 0xFFFF ∧
    (∀ m, m ∈ ([{ n := 1 }] : List ModPlan) → freshList im { onePlan with tiles := List.range 256 } m none (firstPhase false im) = []) ∧ highestAction (s 1).recov.notices = 1 ∧ (s 1).recov.rollbackTo = none ∧
    (s 1).recov.saving = none ∧ highestAction (s 2).recov.notices = 2 ∧ (s 2).recov.snapshot = none ∧ recovers (digestRound 1 (s 1)) = true ∧
    recovers (digestRound 2 (s 2)) = true ∧
    (let t := alone { window := true, notices := [aNotice 2], snapshot := some 100, ownA := { st := 2, step := 100 } }
     repeatedNotice t = none ∧ subjectsOf t.recov.notices = [] ∧ t.recov.snapshot = some 100 ∧ t.recov.keeperOk = true ∧ heldSkew 100 t = none ∧
       recovers (digestRound 2 t) = true ∧ slotHolding t 100 ≠ none) := by decide +kernel
theorem witness_RestoresFillsAndRepairs : let g := sha256 [1]
    let k : KeepSlot := { st := 2, step := 100, digests := [g, g] }
    let s := withRecov { rollbackTo := some 100, ownA := k, ownB := { st := 2, step := 50 } }
    (withRecov {}).recov.rollbackTo = none ∧ s.recov.rollbackTo = some 100 ∧ slotHolding s 100 = some (0, k) ∧ k.digests[1]? = some g ∧ sha256 [1] = g ∧
    s.recov.restored = [] ∧ s.recov.toPull = [] ∧ 2 ≤ k.digests.length ∧ sha256 [2] ≠ g ∧ s.recov.previous = none ∧ inJob s = true ∧ 50 ≠ 100 ∧
    slotHolding s 50 ≠ none ∧ heldSkew 50 s = none ∧ (withRecov { previous := some 50 }).recov.previous = some 50 ∧ (inState .running).dev.st ≠ .relaying ∧
    (withRecov {}).recov.held = false ∧ 0 ∉ (withRecov { held := true }).recov.unfilled := by decide +kernel
/-- A held job with slot 0 to fill, endpoint 6 the spare of endpoint 5's tray. -/
def held : State :=
  { withRecov { held := true, unfilled := [0] } with
    dev := { (inState .running).dev with ring := some { aRing with machine := [⟨5, 0, 0, 0, 0, 0⟩, ⟨6, 0, 0, 0, 8, 0⟩] } }
    job := { image := some {}, plan := some onePlan, tag := 7, rankMap := [5] } }
theorem witness_RestoresFillsAndRepairs_repair : held.recov.held = true ∧ 0 ∈ held.recov.unfilled ∧ spareFor held 0 = some 6 ∧ 0 < held.job.rankMap.length ∧
    keeperNow held = nth held.job.rankMap 0 0xFFFF ∧ recovers held = true ∧ held.recov.rollbackTo = none ∧ spareFor held 0 ≠ some 7 := by decide +kernel
/-- A spare in RELAYING. -/
def spare (lost : BitVec 4) : State :=
  { inState .relaying with
    dev := { st := .relaying, startStep := 10, role := some .spare, qLost := lost
             ring := some { aRing with role := .spare, slot := 8, machine := [⟨5, 0, 0, 0, 8, 0⟩], keeper := ⟨5, 0, 0, 0x1000000, 0, []⟩ } }
    optics := { lanes := (List.range 144).map fun l => (l, { st := .up, discovered := true }) } }
/-- A fill of slot 0 of a job of these many modules, with the digests of the snapshot of step 3. -/
def aFill (n : Nat) (ds : List (List Byte)) (agree : Bool) : FillIn :=
  ⟨0, [], [], List.replicate n 5, ⟨[], [], [], []⟩, 0, 0, 4, [], 3, ds, false, 0xFFFF, [], [0], agree⟩
/-- The spare as the fill begins. -/
def filling (n : Nat) : State :=
  let t := enter .filling (fillJob (aFill n [[]] true) (endExerciser (spare 0)))
  { t with job.planFrom := t.time }
theorem witness_RestoresFillsAndRepairs_fill : (spare 0).dev.st = .relaying ∧ (spare 0).dev.role = some .spare ∧ (spare 0).dev.qLost = 0 ∧
    (spare 8).dev.qLost ≠ 0 ∧ (aFill 1 [[]] true).digests ≠ [] ∧ (aFill 1 [] true).digests = [] ∧ (aFill 1 [[]] false).agree = false := by decide +kernel
theorem alone_send (k : Nat) (d : DWord) (s : State) : sendRounds k d [] s = deviceFlume 1 3 [d, ~~~ d] s := by simp [sendRounds, disagreement]
theorem alone_digest (c : Nat) (d : DWord) (s : State) : digestFault c d [] s = none := by simp [digestFault, withOwn, disagreement]
theorem alone_rom (s : State) : romFault [] s = none := by simp [romFault]
theorem alone_flume (fop type : Nat) (vs : List DWord) (s : State) (h : s.job.rankMap.length ≤ 1) : deviceFlume fop type vs s = s := by
  simp [deviceFlume, deviceNodes, h]
/-- The rounds of Table 06-6 when the other modules bring nothing. -/
theorem alone_planRounds (s : State) : planRounds ⟨[], [], [], []⟩ s = (let d := digest8 s.job.body
    let s := deviceFlume 1 1 [Config.cruiseRom.setWidth 64, (~~~ Config.cruiseRom).setWidth 64] (deviceFlume 1 3 [d, ~~~ d] s)
    unlessFaulted (deviceFlume 4 1 (countWords (countMaskOf [usableTiles s])) s)) := by
  simp [planRounds, alone_send, alone_digest, alone_rom]
theorem witness_RestoresFillsAndRepairs_rounds : planRounds (aFill 1 [[]] true).plan (filling 1) = (none, filling 1) := by
  rw [show (aFill 1 [[]] true).plan = ⟨[], [], [], []⟩ from rfl, alone_planRounds]
  simp only [alone_flume _ _ _ (filling 1) (by decide +kernel)]
  rw [unlessFaulted, if_neg (by decide +kernel)]
/-- The rounds of a job of nine modules go through, whose shape cannot be planned. -/
theorem witness_RestoresFillsAndRepairs_shape : (planRounds (aFill 9 [[]] true).plan (filling 9)).1.isNone = true ∧
    (match shapePlan (planRounds (aFill 9 [[]] true).plan (filling 9)).2 (parseImage []) with | .ok _ => false | .error _ => true) = true := by
  rw [show (aFill 9 [[]] true).plan = ⟨[], [], [], []⟩ from rfl, alone_planRounds]
  decide +kernel
/-- `s` with the time that its planning took. -/
def timed (s : State) : State := { s with job.plan := s.job.plan.map fun p => { p with planningNs := s.time - s.job.planFrom } }
theorem timed_dev (s : State) : (timed s).dev = s.dev := rfl
theorem timed_ranks (s : State) : (timed s).job.rankMap = s.job.rankMap := rfl
theorem alone_compare (s : State) : comparePlans [] s =
    unlessFaulted (deviceFlume 1 3 [(s.job.plan.getD {}).digest, ~~~ (s.job.plan.getD {}).digest] (timed s)) := by
  simp only [comparePlans, alone_send, alone_digest, timed]
theorem alone_comparePlans (s : State) (h : s.job.rankMap.length ≤ 1) (hd : s.dev.st ≠ .faulted) : comparePlans [] s = (none, timed s) := by
  rw [alone_compare, alone_flume _ _ _ _ (by rw [timed_ranks]; exact h), unlessFaulted, if_neg (by rw [timed_dev]; exact hd)]
theorem elimNone {β : Type} (f : Option State) (g : State → β) (r : β) (hf : f = none) : f.elim r g = r := by subst hf; rfl
theorem installFitting_fits (y : PlanIn) (im : Image) (first : Nat) (s : State) (q : Plan) (hf : fitFault im q s = none) :
    installFitting y im first q s = comparePlans y.plans (installOwn im q first s) := by
  rw [installFitting]
  exact elimNone _ _ _ hf
/-- The bound plan that planning installs. -/
def boundPlan (y : PlanIn) (im : Image) (s : State) (p : Plan) (b : Bool) : Plan :=
  { bindPlan s im (countMaskOf (usableTiles s :: y.counts.map (·.2))) b p with counts := y.counts }
theorem planNow_fits (y : PlanIn) (im : Image) (first : Nat) (s : State) (p : Plan) (b : Bool) (hs : shapePlan s im = .ok (p, b))
    (hg : groupsFault im s = none) : planNow y im first s = installFitting y im first (boundPlan y im s p b) s := by
  rw [planNow, hs]
  dsimp only
  rw [hg]
  rfl
/-- The job plan of the fill of the one-module job, and what the fill installs. -/
def shaped : Plan × Bool := match shapePlan (filling 1) (parseImage []) with | .ok x => x | .error _ => ({}, false)
def bound : Plan := boundPlan (aFill 1 [[]] true).plan (parseImage []) (filling 1) shaped.1 shaped.2
def installed : State := installOwn (parseImage []) bound (firstPhase false (parseImage [])) (filling 1)
theorem shaped_ok : shapePlan (filling 1) (parseImage []) = .ok shaped := by
  have h : (match shapePlan (filling 1) (parseImage []) with | .ok _ => true | .error _ => false) = true := by decide +kernel
  unfold shaped
  cases h' : shapePlan (filling 1) (parseImage []) <;> simp_all
theorem witness_RestoresFillsAndRepairs_planned : planNow (aFill 1 [[]] true).plan (parseImage []) (firstPhase false (parseImage [])) (filling 1) =
      comparePlans [] installed ∧ installed.dev.st = .filling ∧ installed.job.rankMap.length ≤ 1 ∧ heldSkew 3 (comparePlans [] installed).2 = none :=
  have hr : installed.job.rankMap.length ≤ 1 := by decide +kernel
  have hd : installed.dev.st = .filling := by decide +kernel
  ⟨(planNow_fits _ _ _ _ shaped.1 shaped.2 shaped_ok (Option.isNone_iff_eq_none.mp (by decide +kernel))).trans
    (installFitting_fits _ _ _ _ bound (Option.isNone_iff_eq_none.mp (by decide +kernel))), hd, hr, by
    rw [alone_comparePlans _ hr (by rw [hd]; simp)]; decide +kernel⟩

/-- A module in READY whose host port is up, with Hauler connection 1 in state `c`. -/
def withConn (c : Conn) : State := { inState .ready with optics := { hostUp := true }, hauler := { conns := [(1, c)], nextConn := 3, sessions := [2] } }
def aSeg : HSeg := ⟨1, 3, 0, 4, 0, 9, 0, [4]⟩
theorem witness_HostAndManagementGates : (let s := withPeers (inState .running)
     inTurn req (inState .running) = false ∧ inTurn ⟨1, 5⟩ (withConn { done := [(4, [])] }) = false ∧ inTurn ⟨1, 4⟩ (withConn { done := [(4, [])] }) = true ∧
       inTurn req s = true ∧ s.dev.st ∉ ([.loading] : List DevState) ∧
       (inState .starting).dev.st ∉ ([.ready, .loading, .planning, .running, .draining, .filling, .relaying, .faulted, .quarantined] : List DevState) ∧
       (inState .lookout).dev.st ∉ ([.starting, .ready] : List DevState) ∧
       lookoutUp s = true ∧ 2 ≤ s.dev.startStep ∧ wreq.session ∈ s.hauler.sessions ∧ wreq.session ∉ (inState .running).hauler.sessions ∧
       s.dev.ring = some aRing ∧ { wreq with peer := .v4 8 }.peer ∉ aRing.peers) ∧
    (let s := withPeers (lookoutAt 2 true true); lookoutUp s = true ∧ 2 ≤ s.dev.startStep ∧ wreq.session ∈ s.hauler.sessions ∧ s.dev.ring = none) ∧
    lookoutUp { inState .ready with pins := { vaux := false } } = false ∧ (lookoutAt 1 true true).dev.startStep < 2 ∧
    (lookoutAt 2 true true).pins.holdN = true ∧ (lookoutAt 2 false true).dev.st = .lookout ∧ (lookoutAt 2 false true).pins.holdN = false := by
  decide +kernel
theorem witness_ConnectionsAndTheirTransport_ports : let s := withConn {}
    let bare := withConn {}
    let bare := { bare with dev := { bare.dev with ring := none } }
    (listens s ⟨.host, .v6 6, 47600⟩ = true ∧ listens s ⟨.host, .v4 4, 47600⟩ = true ∧ listens s ⟨.host, .v4 5, 47600⟩ = false ∧
      listens s ⟨.host, .v4 4, 47601⟩ = false ∧ listens s ⟨.mgmtA, linkLocal s.bark.made.macA, 47601⟩ = true ∧ listens s ⟨.mgmtA, .v4 10, 47601⟩ = true ∧
      listens s ⟨.mgmtA, .v4 11, 47601⟩ = false ∧ listens s ⟨.mgmtB, .v4 11, 47601⟩ = true) ∧ s.dev.ring = some aRing ∧
    listens bare ⟨.host, .v4 4, 47600⟩ = false ∧ listens bare ⟨.mgmtB, linkLocal s.bark.made.macB, 47601⟩ = true ∧ bare.dev.ring = none := by decide +kernel
theorem witness_ConnectionsAndTheirTransport : (inState .ready).optics.hostUp = false ∧ (withConn {}).optics.hostUp = true ∧
    64 ≤ ((List.range 64).map fun k => (k, ({} : Conn))).length ∧ ((List.range 63).map fun k => (k, ({} : Conn))).length < 64 ∧
    (withConn {}).hauler.sessions.length ≤ 8 ∧ lookoutUp (withConn {}) = true ∧ 2 ≤ (withConn {}).dev.startStep ∧
    8 ≤ (List.replicate 8 2).length ∧ (List.replicate 7 2).length < 8 ∧ (withConn {}).hauler.conns.length ≤ 64 ∧
    thas (withConn {}).hauler.conns 1 = true ∧ (withConn {}).job.arriving ≠ some 1 ∧
    (let s : State := { withConn {} with dev := { st := .loading }, job := { arriving := some 1 } }; s.job.arriving = some 1 ∧ s.dev.st = .loading) ∧
    thas (withConn {}).hauler.conns 2 = false ∧ 2 ∈ (withConn {}).hauler.sessions ∧ 3 ∉ (withConn {}).hauler.sessions ∧
    (aSeg.seq = ({} : Conn).rxNext ∧ ({} : Conn).rxSeen = [] ∧ aSeg.offset = 0 ∧ (∀ p ∈ ({} : Conn).parts, p.1 ≠ aSeg.msg.toNat) ∧
      aSeg.flags.getLsbD 0 = true ∧ aSeg.flags.getLsbD 1 = true ∧ { aSeg with flags := 1 }.flags.getLsbD 1 = false ∧ field aSeg.payload 0 1 = 4 ∧
      (withConn {}).dev.qLost = 0) ∧
    seqBefore aSeg.seq ({ rxNext := 1 } : Conn).rxNext = true ∧ 0 ∈ ({ rxSeen := [0] } : Conn).rxSeen ∧ aSeg.sack = 0 ∧ ({} : Conn).queue = [] ∧
    (let c : Conn := { unacked := [(3, 100000, false)], roundEnd := 4, unackedRx := 15 }
     c.unacked ≠ [] ∧ seqBefore aSeg.ack c.roundEnd = false ∧ c.unackedRx ≠ 0 ∧ (3, 100000, false) ∈ c.unacked ∧ (3 : Nat) = (3 : Word).toNat ∧
       ∀ e ∈ c.unacked, e.1 ≠ (4 : Word).toNat) ∧ ({} : Conn).unackedRx = 0 := by decide +kernel
/-- Requests without a form of Table 17-3 (an unknown opcode, a SIGNAL of action 3, a WRITE of kind 4), and one that has one. -/
theorem witness_ConnectionsAndTheirTransport_bad : let msg := fun (op : Nat) (b : List Byte) => leBytes 8 op ++ leBytes 8 b.length ++ b
    requestFault (msg 11 []) = some 0 ∧ requestFault (msg 3 (leBytes 8 0x300)) = some 1 ∧ requestFault (msg 1 (leBytes 32 4)) = some 0 ∧
    requestFault (msg 6 (leBytes 2 7)) = none ∧ requestFault (msg 4 [1, 2]) = none ∧ badWhole { aSeg with flags := 3, payload := msg 11 [] } {} = some 0 ∧
    badWhole { aSeg with flags := 3, payload := msg 6 (leBytes 2 7) } {} = none ∧ badWhole { aSeg with flags := 1 } {} = none ∧
    (∀ e ∈ ({} : Conn).done, e.1 ≠ aSeg.msg.toNat) := by decide +kernel
/-- An image with one parameter, one input of depth 2 and one scratch tensor, each of one FP32 element, and no axes. -/
def threeTensors : Image := { tensors := [⟨0, 0, 0, 0, 0xFF, 0, 0, [], 1, 0⟩, ⟨0, 0, 0, 4, 0xFF, 0, 0xFFFF, [], 2, 0⟩, ⟨0, 0, 0, 3, 0xFF, 0, 0xFFFF, [], 1, 0⟩] }
def hosted (st : DevState) (j : Job) : State := { withPeers (inState st) with job := { j with image := some threeTensors } }
/-- A WRITE of scratch and a READ of an input are refused for the role, a parameter's are not. -/
theorem witness_TensorsAndAreasOverTheHostPort_roles : let s := hosted .loading {}
    let t : Target := ⟨0, 2, 0, 0, 64⟩
    inTurn req s = true ∧ roleRefuses true t s = true ∧ roleRefuses false { t with id := 1 } s = true ∧ roleRefuses true { t with id := 0 } s = false ∧
    roleRefuses false { t with id := 0 } s = false ∧ (hosted .draining {}).dev.st ∉ ([.loading] : List DevState) ∧
    (withPeers { inState .faulted with dev := { (inState .faulted).dev with qLost := 2 } }).dev.qLost ≠ 0 := by decide +kernel
theorem witness_TensorsAndAreasOverTheHostPort : let s := hosted .loading {}
    let t : Target := ⟨0, 0, 0, 0, 64⟩
    inTurn req s = true ∧ s.dev.st = .loading ∧ targetFault s threeTensors { t with length := 65 } ≠ none ∧
    targetFault s threeTensors t = none ∧ (tensorOf threeTensors 0).role < 2 ∧ 2 ≤ (tensorOf threeTensors 2).role ∧ t.generation = 0 ∧
    (List.replicate 64 (1 : Byte)).length = t.length ∧ 0 < targetPositions s threeTensors ∧ List.replicate 64 (1 : Byte) ≠ [] ∧
    0 * placeLength s threeTensors 0 ≤ t.offset ∧ t.offset + t.length ≤ (0 + 1) * placeLength s threeTensors 0 ∧
    (let i : Target := ⟨1, 1, 1, 0, 64⟩
     targetFault s threeTensors i = none ∧ (tensorOf threeTensors i.id).role = 4 ∧ i.inst = i.generation.toNat % (tensorOf threeTensors i.id).depth ∧
       (tens s (tensKey 0 i.id i.inst)).marked = none ∧ i.generation.toNat = expectedIter s threeTensors i.id i.inst ∧
       (3 : DWord).toNat ≠ expectedIter s threeTensors i.id i.inst ∧ (0 : Nat) ≠ (1 : Nat) % 2) ∧
    (let u := hosted .running { tensors := [(tensKey 0 1 0, { marked := some 0 })] }
     (tens u (tensKey 0 1 0)).marked ≠ none ∧ u.dev.st ∈ ([.loading, .planning, .running, .faulted] : List DevState) ∧
       (hosted .draining { drainHold := true }).job.drainHold = true ∧ u.job.drainHold = false ∧ (tensorOf threeTensors 0).role ≠ 4 ∧
       (tensorOf threeTensors 0).role ≠ 6) := by decide +kernel
/-- A keeper of one endpoint with areas of 1 GiB, and a host-held header for step 3 in its first slot. -/
def keeping : State :=
  let r := { aRing with keeper := ⟨5, gib, gib, 0x1000, 0, [6]⟩ }
  let s : State := { withPeers (inState .ready) with dev := { (inState .ready).dev with ring := some r } }
  { s with mem := { cells := [(headerAddr s 0 0, 3), (headerAddr s 0 0 + 8, 3)] } }
theorem witness_TensorsAndAreasOverTheHostPort_areas : let s := keeping
    let t : Target := ⟨0, 0, 3, 0, 0⟩
    s.dev.st ≠ .lookout ∧ s.dev.st ≠ .starting ∧ (match slotTarget s t with | .inl _ => false | .inr _ => true) = true ∧
    (match slotTarget s { t with id := 1 } with | .inl _ => true | .inr _ => false) = true ∧
    (match slotTarget s { t with length := 0x1000 } with | .inl _ => false | .inr _ => true) = true ∧
    (match slotTarget s { t with length := 0x1001 } with | .inl _ => true | .inr _ => false) = true ∧
    keptSlot s t = some (0, 0) ∧ t.length = 0 ∧ headerState s 0 0 = 3 ∧ areaFault { t with generation := 0, length := 64 } = none ∧
    areaFault { t with generation := 0, offset := areaBytes } = none ∧ areaFault { t with generation := 0, offset := areaBytes, length := 1 } ≠ none ∧
    headerState { s with mem := { cells := [(headerAddr s 0 0, 2), (headerAddr s 0 0 + 8, 3)] } } 0 0 ≠ 3 := by decide +kernel
/-- A module whose ring permits neither quotes nor register accesses of the host. -/
def denied : State :=
  { withPeers (inState .ready) with dev := { (inState .ready).dev with ring := some { aRing with policy := { aRing.policy with haulerQuotes := 1, haulerRegisters := 1 } } } }
theorem witness_SignalsWatchesAndQueries : let s := hosted .running {}
    inTurn req s = true ∧ s.dev.st ∈ ([.planning, .running, .filling] : List DevState) ∧ 16 ≤ 16 ∧ 15 < 16 ∧ 0 < 1 ∧
    ctrMax ≤ ctrMax ∧ ctrMax < ctrMax + 1 ∧ signalFault (ctr s (hostCtr 15)) ctrMax = 0 ∧ (ctr s (hostCtr 15)).waiters = [] ∧
    signalFault (ctr { s with remote := { ctrs := [(hostCtr 15, { value := 1 })] } } (hostCtr 15)) ctrMax ≠ 0 ∧ s.dev.st ≠ .lookout ∧
    s.job.image = some threeTensors ∧ s.job.plan = none ∧ (hosted .running { plan := some onePlan }).job.plan = some onePlan ∧
    0 < threeTensors.tensors.length ∧ (tensorOf threeTensors 0).rule ≠ 0xFFFF ∧ (tensorOf threeTensors 1).rule = 0xFFFF ∧ threeTensors.tensors.length ≤ 3 ∧
    orDefault (policy s).haulerQuotes 2 = 2 ∧ orDefault (policy denied).haulerQuotes 2 ≠ 2 ∧ s.dev.identityOk = true ∧ s.dev.quote = none ∧
    (hosted .running {}).dev.quote = none ∧ ({} : Dev).identityOk = false := by decide +kernel
theorem witness_SignalsWatchesAndQueries_quotes : ({ quote := some (0, 2, 9, []) } : Dev).quote = some (0, 2, 9, []) ∧
    ({ quote := some (1, 1, 9, []) } : Dev).quote = some (1, 1, 9, []) := ⟨rfl, rfl⟩

/-- A ring of one module that lets unsigned images in. -/
def openRing : Ring := { aRing with policy := { aRing.policy with unsignedImages := 2 }, machine := [⟨5, 0, 0, 0, 0, 0⟩], keeper := ⟨5, 0, 0, 2048, 0, []⟩ }
/-- A module in state `st` with job `j` under that ring. -/
def loader (st : DevState) (j : Job) : State := { withPeers (inState st) with dev := { (inState st).dev with ring := some openRing }, job := j }

/-- One entry of a section table. -/
def sec (type offset length : Nat) : List Byte := leBytes 2 type ++ leBytes 2 1 ++ leBytes 4 0 ++ leBytes 8 offset ++ leBytes 8 length
/-- The bytes after the header of the smallest image: no axes, tensors, ops, phases or step items, one machine axis of size 1. -/
def minimalBody : List Byte :=
  sec 1 320 1 ++ sec 2 384 16 ++ sec 3 448 0 ++ sec 4 448 0 ++ sec 5 448 0 ++ sec 6 448 0 ++ sec 7 448 0 ++ sec 8 448 0 ++ sec 9 448 16 ++
  List.replicate 40 0 ++ List.replicate 64 0 ++ leBytes 4 0 ++ leBytes 4 1 ++ List.replicate 56 0 ++ leBytes 2 0xFFFF ++ List.replicate 62 0
/-- Its header with a digest in place (Table 05-3). -/
def minimal (digest : List Byte) : List Byte :=
  leBytes 8 54259601916244 ++ leBytes 2 1 ++ leBytes 2 0 ++ leBytes 4 0 ++ leBytes 8 512 ++ leBytes 4 9 ++ leBytes 4 0 ++ digest ++ minimalBody
set_option maxRecDepth 100000 in
/-- The smallest image is accepted, and with another digest it is not. -/
theorem witness_JobsAreLoadedPlannedAndStopped_image :
    checkImage (beginLoad 1 (takeDone req (endExerciser (loader .ready {})))) (minimal (sha256 minimalBody)) = none ∧
    (minimal (sha256 minimalBody)).length = 512 ∧
    (checkImage (takeDone req (endExerciser (loader .loading { arriving := some 1 }))) (minimal (List.replicate 32 0))).isSome = true := by decide +kernel
theorem witness_JobsAreLoadedPlannedAndStopped_long (n : Nat) (h : 2 ^ 31 < n) : 2 ^ 31 < (List.replicate n (0 : Byte)).length := by
  rwa [List.length_replicate]
/-- A START_JOB body: job 7, one module, endpoint 5. -/
def aStart : List Byte := leBytes 2 7 ++ List.replicate 38 0 ++ leBytes 4 1 ++ leBytes 2 5
/-- A job of endpoint 5 alone in PLANNING. -/
def planning (im : Image) : State := loader .planning { image := some im, rankMap := [5], tag := 7 }
theorem witness_JobsAreLoadedPlannedAndStopped : (let s := loader .ready {}
     inTurn req s = true ∧ s.dev.st = .ready ∧ s.dev.qLost = 0 ∧ (List.replicate 63 (0 : Byte)).length < 64 ∧
       64 ≤ (List.replicate 64 (0 : Byte)).length) ∧
    (let s := loader .loading { arriving := some 1, image := some {} }; s.dev.st = .loading ∧ s.job.arriving = some req.conn ∧ s.job.image = some {} ∧
       inTurn req s = true ∧ startFault s (List.replicate 43 0) ≠ none) ∧
    { (inState .ready) with dev := { qLost := 8 } }.dev.qLost ≠ 0 ∧
    (let s := planning {}
     s.dev.st = .planning ∧ s.job.image = some {} ∧ (∃ e ∈ [(0, (1 : DWord))], e.2 ≠ digest8 s.job.body) ∧ s.job.restore = false ∧
       s.job.rankMap.length ≤ 1 ∧ (planRounds ⟨[(0, 1)], [], [], []⟩ s).1.isSome = true) ∧
    (8 : BitVec 16) ≠ (planning {}).job.tag ∧ inTurn req (loader .draining {}) = true ∧ (loader .draining {}).dev.st = .draining ∧
    (inState .ready).dev.st ≠ .planning := by decide +kernel
/-- The rounds of a module alone in its job go through. -/
theorem witness_JobsAreLoadedPlannedAndStopped_rounds (im : Image) : planRounds ⟨[], [], [], []⟩ (planning im) = (none, planning im) := by
  rw [alone_planRounds]
  simp only [alone_flume _ _ _ (planning im) (Nat.le_refl 1)]
  rw [unlessFaulted, if_neg (by simp [planning, loader, inState])]
/-- The job plan of a job without tensors and phases, and what it binds. -/
def planned : Plan × Bool := match shapePlan (planning {}) {} with | .ok x => x | .error _ => ({}, false)
def plannedOwn : Plan := boundPlan ⟨[], [], [], []⟩ {} (planning {}) planned.1 planned.2
theorem witness_JobsAreLoadedPlannedAndStopped_plan : (match shapePlan (planning {}) {} with | .ok _ => true | .error _ => false) = true ∧
    (groupsFault {} (planning {})).isNone = true ∧ (fitFault {} plannedOwn (planning {})).isNone = true ∧ plannedOwn.own.isSome = true ∧
    plannedOwn.own.map (fun m => (freshList {} plannedOwn m none (firstPhase false {})).isEmpty) = some true ∧ plannedOwn.tiles ≠ [] ∧ (∀ e ∈ ([] : List (Nat × DWord)), e.2 = plannedOwn.digest) := by decide +kernel
/-- The rounds of a job of nine modules in one tray go through, whose shape cannot be planned. -/
theorem witness_JobsAreLoadedPlannedAndStopped_shape :
    let s : State := { loader .planning { image := some {}, rankMap := List.replicate 9 5, tag := 7 } with
      optics := { lanes := (List.range 144).map fun l => (l, { st := .up, discovered := true }) } }
    (planRounds ⟨[], [], [], []⟩ s).1.isNone = true ∧
    (match shapePlan (planRounds ⟨[], [], [], []⟩ s).2 {} with | .ok _ => false | .error _ => true) = true := by
  intro s
  rw [alone_planRounds]
  decide +kernel
theorem witness_JobsAreLoadedPlannedAndStopped_start : startFault (loader .loading { image := some {} }) aStart = none := by decide +kernel
theorem witness_JobsAreLoadedPlannedAndStopped_digests : ∀ q : DWord, ∃ e ∈ [(1, q + 1)], e.2 ≠ q := by
  refine fun q => ⟨(1, q + 1), by simp, ?_⟩
  intro h
  have := congrArg BitVec.toNat h
  simp [BitVec.toNat_add] at this
  omega

theorem witness_WardenStatusRingsKeysAndQuotes : WardenOpen (withPeers (inState .ready)) wreq true ∧ WardenOpen (withPeers (inState .ready)) wreq false ∧
    WardenOpen (withPeers (lookoutAt 2 false true)) wreq true ∧
    (let s := withPeers (lookoutAt 2 false true); s.dev.st = .lookout ∧ s.pins.holdN = false ∧ s.dev.identityOk = false ∧ s.dev.quote = none) ∧
    (List.replicate 4 (⟨[], []⟩ : OwnerKey)).length ≤ 4 ∧ 4 < (List.replicate 5 (⟨[], []⟩ : OwnerKey)).length ∧
    (let s := { withPeers (inState .ready) with bark := { ownerKeys := [⟨[], []⟩] } }
     s.dev.st ≠ .starting ∧ regionLost s 4 = false ∧ 0 < s.bark.ownerKeys.length ∧ s.bark.ownerKeys.length ≤ 1 ∧ s.dev.identityOk = true ∧
       verifyRing s aRing (effectiveFloor s) = none ∧ verifyRing s { aRing with rsaOk := false } (effectiveFloor s) = some (.signature true false) ∧
       floorOk s ⟨2, 0, 0, true, true, true⟩ = true ∧ floorOk s ⟨2, 0, 1, true, true, true⟩ = false) ∧
    regionLost { withPeers (inState .ready) with bark := { regions := [(4, ⟨false, false⟩)] } } 4 = true ∧ (inState .starting).dev.st = .starting ∧
    ({ quote := some (0, 2, 9, []) } : Dev).quote ≠ none ∧ 1000 < 1001 ∧ 1000 ≤ 1000 ∧
    (∀ u ∈ (List.replicate 4 ({ peer := .v4 9 } : Sub)), u.peer ≠ wreq.peer) ∧ 4 ≤ (List.replicate 4 ({ peer := .v4 9 } : Sub)).length ∧
    (List.replicate 3 ({ peer := .v4 9 } : Sub)).length < 4 ∧
    (∃ u ∈ [({ peer := .v4 7 } : Sub)], u.peer = wreq.peer) := by
  refine ⟨⟨?_, ?_, ?_, List.mem_singleton.mpr rfl⟩, ⟨?_, ?_, ?_, List.mem_singleton.mpr rfl⟩, ⟨?_, ?_, ?_, rfl⟩, ?_⟩ <;> decide +kernel
theorem witness_WardenPowerMemoryAndQuarantine : WardenOpen (withPeers (inState .quarantined)) wreq false ∧
    (let s := withPeers (inState .ready)
     1000 ≤ ringLimit s ∧ 4200 ≤ ringLimit s ∧ ringLimit s < 4201 ∧ (999 ≠ 0 ∧ 999 < 1000) ∧ isFA s = false ∧ s.heat.crownsOff = false ∧
       s.dev.st ∈ ([.ready, .quarantined] : List DevState) ∧ s.dev.st ∉ ([.lookout, .starting] : List DevState) ∧ stackPages ≤ stackPages ∧
       stackPages - 1 < stackPages ∧ s.dev.st ≠ .quarantined ∧ s.dev.st ∈ ([.ready, .loading] : List DevState) ∧ (32 : BitVec 8).toNat ≥ 32 ∧
       (31 : BitVec 8).toNat < 32 ∧ s.heat.exerciser = [] ∧ hbmStack 0 = 0 ∧ 0 < hbmEnd ∧ 0 < jobEnd s) ∧
    isFA (relayIn .relaying) = true ∧ (inState .relaying).dev.st ∈ ([.lookout, .starting, .relaying] : List DevState) ∧
    (inState .running).dev.st ∉ ([.ready, .quarantined] : List DevState) ∧ (inState .quarantined).dev.st = .quarantined ∧
    (inState .running).dev.st ∉ ([.ready, .loading] : List DevState) ∧
    ({ inState .ready with heat := { exerciser := [(0, 0, 1)] } } : State).heat.exerciser = (0, 0, 1) :: [] := by
  refine ⟨⟨?_, ?_, ?_, List.mem_singleton.mpr rfl⟩, ?_⟩ <;> decide +kernel
/-- A module in READY whose ring lets the host read and write registers. -/
def writableRegs : State :=
  { withPeers (inState .ready) with dev := { (inState .ready).dev with ring := some { aRing with policy := { aRing.policy with haulerRegisters := 3 } } } }
theorem witness_RegisterAccessOnEachPath : let s := writableRegs
    pathReaches s true (.warden 2) = true ∧ pathReaches s true (.hauler 1) = true ∧ pathReaches s true .jtag = true ∧ pathReaches s false .jtag = true ∧
    pathReaches s true (.warden 3) = false ∧ pathReaches denied false (.hauler 1) = false ∧
    (match checkAccess s .jtag 0x28 (some 1) with | .inl _ => true | .inr _ => false) = true ∧ windowOf s 0x10000 = none ∧
    (255 : Word).toNat < 256 ∧ 256 ≤ (256 : Word).toNat ∧ (inState .running).dev.st ≠ .ready ∧ (inState .running).dev.st ≠ .loading ∧ s.dev.st = .ready ∧
    ((3 : Fin 4).val = 3 → (0x1FFFFF : Word).toNat < 2 ^ 21) ∧ (tget s.remote.staged 5 noWindow).length = 16 ∧
    s.dev.st ≠ .starting ∧ s.fabric.oldValid = false ∧ s.fabric.armed = false ∧ (0xFFFF : Word).toNat < 2 ^ 16 ∧
    switchTime s < s.mtc.value.toNat + 10000000 ∧ (let u := { s with regs := { ftSwitchLo := 10000000 } }; u.mtc.value.toNat + 10000000 ≤ switchTime u) ∧
    ({ armed := true } : Fabric).armed = true ∧ (0x3E1F : Word).toNat < 2 ^ 14 ∧ hasLink s (selLink 0x11F) = true ∧ telOk s 0 = true ∧ telOk s 0x80 = false ∧
    (Path.warden 2 ≠ .jtag) ∧ (1000 ≤ (1000 : Word).toNat ∧ (1000 : Word).toNat ≤ ringLimit s) ∧ ringLimit s < (4201 : Word).toNat ∧
    telCounter 0 ≠ 2 ∧ telCounter 2 = 2 := by decide +kernel
theorem witness_RegisterAccessOnEachPath_reads : let s := writableRegs
    (∃ x r, checkAccess s .jtag 0x10 none = .inr (x, r, .lo) ∧ members s x = none ∧ r ≠ .telData ∧ r ≠ .faultNew) ∧
    (∃ x r h, checkAccess s .jtag 0x02000000 none = .inr (x, r, h) ∧ (members s x).isSome = true) ∧
    inTurn req s = true ∧ s.dev.st ≠ .lookout ∧ s.dev.st ≠ .starting ∧ orDefault (policy denied).haulerRegisters 2 < 2 ∧
    3 ≤ orDefault (policy s).haulerRegisters 2 ∧ 64 < 65 ∧ WardenOpen s wreq false ∧ ([0] : List Word) ≠ [] ∧ (List.replicate 64 (0 : Word)).length ≤ 64 ∧
    (match writeMany (.warden 2) [0] 0x10000 s with | .inl _ => true | .inr _ => false) = true ∧ lookoutUp s = true := by
  refine ⟨⟨.device, .devStep, ?_⟩, ⟨.tiles, .tileFlags, .whole, ?_⟩, ?_, ?_, ?_, ?_, ?_, ?_, ⟨?_, ?_, ?_, List.mem_singleton.mpr rfl⟩, ?_⟩ <;> decide +kernel
theorem witness_RegisterAccessOnEachPath_v48 : V48Up writableRegs := ⟨by decide, by decide, by decide⟩
theorem witness_RingFoldGivesTheRoot : 0 < 16 ∧ 16 ≤ 8 ^ 16 ∧ 15 < 16 := by decide

end Sys2Proof.Tests
end

section
/-! The device state under each operation of the model that leaves it. -/
namespace Sys2Proof.Machine
open Sys2Proof
@[simp] theorem ite_st (c : Prop) [Decidable c] (s t : State) :
    (if c then s else t).dev.st = if c then s.dev.st else t.dev.st := apply_ite (fun u : State => u.dev.st) c s t

/-- What each step of a fold leaves as it is, the fold leaves as it is. -/
theorem foldl_keeps {α β γ : Type} (g : β → γ) {f : β → α → β} (hf : ∀ x e, g (f x e) = g x) (xs : List α) (x : β) :
    g (xs.foldl f x) = g x := by
  induction xs generalizing x with
  | nil => rfl
  | cons e xs ih => rw [List.foldl_cons, ih, hf]

@[simp] theorem foldl_st {α : Type} (f : State → α → State) (hf : ∀ s x, (f s x).dev.st = s.dev.st) (xs : List α) (s : State) :
    (xs.foldl f s).dev.st = s.dev.st := foldl_keeps (fun u : State => u.dev.st) hf xs s
theorem foldl_snd_st {α β : Type} (f : β × State → α → β × State) (hf : ∀ x e, (f x e).2.dev.st = x.2.dev.st) (xs : List α) (x : β × State) :
    (xs.foldl f x).2.dev.st = x.2.dev.st := foldl_keeps (fun x : β × State => x.2.dev.st) hf xs x

/-! ### Shared operations -/

@[simp] theorem updTile_st (t : Nat) (f : TileRec → TileRec) (s : State) :
    (updTile t f s).dev.st = s.dev.st := by simp [updTile]
@[simp] theorem updLane_st (l : Nat) (f : LaneRec → LaneRec) (s : State) :
    (updLane l f s).dev.st = s.dev.st := by simp [updLane]
@[simp] theorem updHbm_st (m : Nat) (f : StackRec → StackRec) (s : State) :
    (updHbm m f s).dev.st = s.dev.st := by simp [updHbm]
@[simp] theorem draw_st (s : State) :
    (draw s).2.dev.st = s.dev.st := by simp [draw]
@[simp] theorem refuse_st (r : Req) (code obj : Nat) (det : List Byte) (s : State) :
    (refuse r code obj det s).dev.st = s.dev.st := by simp [refuse]
@[simp] theorem refuseState_st (r : Req) (op : Nat) (s : State) :
    (refuseState r op s).dev.st = s.dev.st := by simp [refuseState]
@[simp] theorem refuseInvalid_st (r : Req) (op off : Nat) (s : State) :
    (refuseInvalid r op off s).dev.st = s.dev.st := by simp [refuseInvalid]
@[simp] theorem refuseWarden_st (r : WReq) (op : Nat) (s : State) :
    (refuseWarden r op s).dev.st = s.dev.st := by simp [refuseWarden]
@[simp] theorem resetV48_st (s : State) :
    (resetV48 s).dev.st = s.dev.st := by simp [resetV48]
@[simp] theorem passTime_st (s : State) :
    (passTime s).dev.st = s.dev.st := by simp [passTime]

/-! ### Memory (Chapter 08) -/

@[simp] theorem zeroSram_st (s : State) :
    (zeroSram s).dev.st = s.dev.st := by simp [zeroSram]
@[simp] theorem zeroJob_st (s : State) :
    (zeroJob s).dev.st = s.dev.st := by simp [zeroJob]
@[simp] theorem touchHbm_st (a n : Nat) (write : Bool) (s : State) :
    (touchHbm a n write s).dev.st = s.dev.st := by simp [touchHbm]
@[simp] theorem cleanLine_st (a : Nat) (s : State) :
    (cleanLine a s).dev.st = s.dev.st := by simp [cleanLine]
@[simp] theorem cleanPage_st (a : Nat) (s : State) :
    (cleanPage a s).dev.st = s.dev.st := by simp [cleanPage]
@[simp] theorem turnOut_st (t w : Nat) (rows scales : List (List Byte)) (fill : Nat) (bad : Bool) (s : State) :
    (turnOut t w rows scales fill bad s).dev.st = s.dev.st := by simp [turnOut]
@[simp] theorem retireStack_st (m : Nat) (s : State) :
    (retireStack m s).dev.st = s.dev.st := by simp [retireStack]
@[simp] theorem startStacks_st (s : State) :
    (startStacks s).dev.st = s.dev.st := by simp [startStacks]

/-! ### The sending of transfers (Chapter 09) -/

@[simp] theorem sendTransfer_st (k d : Nat) (bs : List Byte) (s : State) :
    (sendTransfer k d bs s).dev.st = s.dev.st := by simp [sendTransfer]
@[simp] theorem resendHeld_st (k d : Nat) (held : List (Nat × List Byte)) (s : State) :
    (resendHeld k d held s).dev.st = s.dev.st := by
  unfold resendHeld; rw [foldl_st]; simp

@[simp] theorem pumpVertical_st (k d : Nat) (fuel : Nat) (s : State) :
    (pumpVertical k d fuel s).dev.st = s.dev.st := by
  induction fuel generalizing s with
  | zero => rfl
  | succ n ih =>
    unfold pumpVertical; dsimp only
    repeat' split
    all_goals simp [ih]

@[simp] theorem crossVertical_st (t d c : Nat) (bs : List Byte) (s : State) :
    (crossVertical t d c bs s).dev.st = s.dev.st := by simp [crossVertical]
@[simp] theorem replayDir_st (k d : Nat) (s : State) :
    (replayDir k d s).dev.st = s.dev.st := by simp [replayDir]

/-! ### Packets, frames and links (Chapters 10 and 11) -/

@[simp] theorem frameOut_st (l : Nat) (f : Frame) (s : State) :
    (frameOut l f s).dev.st = s.dev.st := by simp [frameOut]
@[simp] theorem putFrame_st (k : Nat) (f : Frame) (s : State) :
    (putFrame k f s).dev.st = s.dev.st := by simp [putFrame]
@[simp] theorem putFrames_st (k : Nat) (fs : List Frame) (s : State) :
    (putFrames k fs s).dev.st = s.dev.st := by simp [putFrames]
@[simp] theorem sendIdle_st (k : Nat) (s : State) :
    (sendIdle k s).dev.st = s.dev.st := by simp [sendIdle]
@[simp] theorem sendFrame_st (k kind : Nat) (flits : List Byte) (vcs : List Nat) (s : State) :
    (sendFrame k kind flits vcs s).dev.st = s.dev.st := by simp [sendFrame]
@[simp] theorem sendDiscovery_st (l : Nat) (s : State) :
    (sendDiscovery l s).dev.st = s.dev.st := by simp [sendDiscovery]
@[simp] theorem announce_st (s : State) :
    (announce s).dev.st = s.dev.st := by simp [announce]
@[simp] theorem pushQueue_st (key : Nat) (h : Queued) (s : State) :
    (pushQueue key h s).dev.st = s.dev.st := by simp [pushQueue]
@[simp] theorem countPort_st (key : Nat) (f : PortCtr → PortCtr) (s : State) :
    (countPort key f s).dev.st = s.dev.st := by simp [countPort]
@[simp] theorem countFlits_st (key vc dir n : Nat) (s : State) :
    (countFlits key vc dir n s).dev.st = s.dev.st := by simp [countFlits]
@[simp] theorem countDepth_st (key vc depth : Nat) (s : State) :
    (countDepth key vc depth s).dev.st = s.dev.st := by simp [countDepth]
@[simp] theorem served_st (ctr v : Nat) (h : Queued) (s : State) :
    (served ctr v h s).dev.st = s.dev.st := by simp [served]

@[simp] theorem pumpPackets_st (k : Nat) (fuel : Nat) (s : State) :
    (pumpPackets k fuel s).dev.st = s.dev.st := by
  induction fuel generalizing s with
  | zero => rfl
  | succ n ih =>
    unfold pumpPackets; dsimp only
    repeat' split
    all_goals simp [ih]

@[simp] theorem pumpLink_st (k : Nat) (s : State) :
    (pumpLink k s).dev.st = s.dev.st := by simp [pumpLink]
@[simp] theorem sendHeld_st (k : Nat) (h : Queued) (s : State) :
    (sendHeld k h s).dev.st = s.dev.st := by simp [sendHeld]
@[simp] theorem sendByLink_st (k : Nat) (p : Packet) (s : State) :
    (sendByLink k p s).dev.st = s.dev.st := by simp [sendByLink]
@[simp] theorem countStalls_st (s : State) :
    (countStalls s).dev.st = s.dev.st := by simp [countStalls]
@[simp] theorem fillBuckets_st (s : State) :
    (fillBuckets s).dev.st = s.dev.st := by simp [fillBuckets]
@[simp] theorem lapseDeskew_st (k : Nat) (s : State) :
    (lapseDeskew k s).dev.st = s.dev.st := by simp [lapseDeskew]
@[simp] theorem refreshDepths_st (s : State) :
    (refreshDepths s).dev.st = s.dev.st := by simp [refreshDepths]
@[simp] theorem sendInit_st (l : Nat) (s : State) :
    (sendInit l s).dev.st = s.dev.st := by simp [sendInit]
@[simp] theorem fillLane_st (s : State) (l : Nat) :
    (fillLane s l).dev.st = s.dev.st := by simp [fillLane]
@[simp] theorem idle_st (s : State) :
    (idle s).dev.st = s.dev.st := by simp [idle]
@[simp] theorem raiseDown_st (l cause before frames : Nat) (s : State) :
    (raiseDown l cause before frames s).dev.st = s.dev.st := by simp [raiseDown]
@[simp] theorem dropLink_st (k : Nat) (s : State) :
    (dropLink k s).2.dev.st = s.dev.st := by simp [dropLink]
@[simp] theorem portDown_st (l before : Nat) (s : State) :
    (portDown l before s).dev.st = s.dev.st := by simp [portDown]
@[simp] theorem bumpSeq_st (p : Packet) (s : State) :
    (bumpSeq p s).dev.st = s.dev.st := by simp [bumpSeq]
@[simp] theorem unreachable_st (p : Packet) (s : State) :
    (unreachable p s).dev.st = s.dev.st := by simp [unreachable]

@[simp] theorem injectPacket_st (p : Packet) (tray : Bool) (preset : Option Nat) (s : State) :
    (injectPacket p tray preset s).2.dev.st = s.dev.st := by
  unfold injectPacket; repeat' split
  all_goals simp

@[simp] theorem switchParent_st (s : State) :
    (switchParent s).dev.st = s.dev.st := by
  unfold switchParent; repeat' split
  all_goals simp

@[simp] theorem takeAnswer_st (l : Nat) (t1 t2 t3 t4 : DWord) (rank hops : Nat) (locked : Bool) (s : State) :
    (takeAnswer l t1 t2 t3 t4 rank hops locked s).dev.st = s.dev.st := by simp [takeAnswer]

/-! ### Routing (Chapter 11) -/

@[simp] theorem raiseEpoch_st (t partner table : Nat) (s : State) :
    (raiseEpoch t partner table s).dev.st = s.dev.st := by simp [raiseEpoch]

@[simp] theorem tableEntry_st (pick : Tables → Table Nat) (tableNo t ctr : Nat) (p : Packet) (s : State) :
    (tableEntry pick tableNo t ctr p s).2.dev.st = s.dev.st := by
  unfold tableEntry; dsimp only
  split
  · split <;> simp
  · split <;> simp
  · split <;> simp

@[simp] theorem setHeld_st (key : Nat) (h h' : Queued) (s : State) :
    (setHeld key h h' s).dev.st = s.dev.st := by simp [setHeld]

@[simp] theorem pumpBridge_st (k d : Nat) (fuel : Nat) (s : State) :
    (pumpBridge k d fuel s).dev.st = s.dev.st := by
  induction fuel generalizing s with
  | zero => rfl
  | succ n ih =>
    unfold pumpBridge; dsimp only
    repeat' split
    all_goals simp [ih]

@[simp] theorem pushPort_st (t port : Nat) (vc : VC) (h : Queued) (s : State) :
    (pushPort t port vc h s).dev.st = s.dev.st := by
  unfold pushPort; split <;> simp

@[simp] theorem hopToward_st (t u : Nat) (vc : VC) (descended : Bool) (h : Queued) (s : State) :
    (hopToward t u vc descended h s).dev.st = s.dev.st := by
  unfold hopToward; repeat' split
  all_goals simp

@[simp] theorem dropCrc_st (t : Nat) (p : Packet) (s : State) :
    (dropCrc t p s).dev.st = s.dev.st := by simp [dropCrc]
@[simp] theorem acceptRelay_st (t : Nat) (p : Packet) (s : State) :
    (acceptRelay t p s).dev.st = s.dev.st := by simp [acceptRelay]
@[simp] theorem acceptAt_st (t : Nat) (p : Packet) (s : State) :
    (acceptAt t p s).dev.st = s.dev.st := by simp [acceptAt]
@[simp] theorem arriveAt_st (t : Nat) (vc : VC) (h : Queued) (s : State) :
    (arriveAt t vc h s).dev.st = s.dev.st := by simp [arriveAt]
@[simp] theorem leaveByLane_st (l : Nat) (h : Queued) (s : State) :
    (leaveByLane l h s).dev.st = s.dev.st := by simp [leaveByLane]
@[simp] theorem leaveByTray_st (q : Nat) (h : Queued) (s : State) :
    (leaveByTray q h s).dev.st = s.dev.st := by simp [leaveByTray]
@[simp] theorem detour_st (t : Nat) (vc : VC) (h : Queued) (us : List Nat) (s : State) :
    (detour t vc h us s).dev.st = s.dev.st := by simp [detour]
@[simp] theorem routeMulticast_st (t port : Nat) (vc : VC) (h : Queued) (s : State) :
    (routeMulticast t port vc h s).dev.st = s.dev.st := by simp [routeMulticast]
@[simp] theorem crossTo_st (t l : Nat) (vc : VC) (down : Bool) (h : Queued) (s : State) :
    (crossTo t l vc down h s).dev.st = s.dev.st := by simp [crossTo]
@[simp] theorem routeHeaded_st (x : Heading) (t : Nat) (vc : VC) (down : Bool) (h : Queued) (s : State) :
    (routeHeaded x t vc down h s).dev.st = s.dev.st := by
  unfold routeHeaded; split <;> simp

@[simp] theorem routePacket_st (t port : Nat) (vc : VC) (h : Queued) (s : State) :
    (routePacket t port vc h s).dev.st = s.dev.st := by
  unfold routePacket; dsimp only
  split
  · simp
  · repeat' split
    all_goals simp

theorem takeFrom_st (t : Nat) (port : Port) (vc : VC) (p : Packet) (s : State) {x : Packet × Option Heading} {u : State}
    (h : takeFrom t port vc p s = some (x, u)) : u.dev.st = s.dev.st := by
  unfold takeFrom at h; dsimp only at h
  split at h
  · split at h
    · cases h; simp
    · cases h
  · cases h; rfl
  · cases h; rfl
  · split at h
    · cases h
    · obtain ⟨y, _, hy⟩ := Option.map_eq_some_iff.mp h
      cases hy; simp

@[simp] theorem retryParked_st (kind : Nat) (s : State) :
    (retryParked kind s).dev.st = s.dev.st := by simp -implicitDefEqProofs [retryParked]
@[simp] theorem installEscape_st (e : Option (List Nat × List Nat)) (s : State) :
    (installEscape e s).dev.st = s.dev.st := by simp [installEscape]
@[simp] theorem forwardRelay_st (l : Nat) (vc : VC) (h : Queued) (s : State) :
    (forwardRelay l vc h s).dev.st = s.dev.st := by
  unfold forwardRelay; split <;> simp

@[simp] theorem routeRelay_st (l : Nat) (vc : VC) (h : Queued) (s : State) :
    (routeRelay l vc h s).dev.st = s.dev.st := by
  unfold routeRelay; dsimp only
  grind [acceptRelay_st, forwardRelay_st, tableEntry_st, countPort_st, crossTo_st]

@[simp] theorem applyReach_st (sub : ReachSubject) (restoral : Bool) (s : State) :
    (applyReach sub restoral s).dev.st = s.dev.st := by
  simp only [applyReach]; split <;> simp

/-! ### Die links at work (Chapter 09) -/

@[simp] theorem tellTray_st (s0 s : State) (k : Nat) :
    (tellTray s0 s k).dev.st = s.dev.st := by simp [tellTray]
@[simp] theorem sendReach_st (l : Nat) (restoral : Bool) (s : State) :
    (sendReach l restoral s).dev.st = s.dev.st := by
  unfold sendReach; split <;> simp
@[simp] theorem markTaken_st (k d q : Nat) (s : State) :
    (markTaken k d q s).dev.st = s.dev.st := by simp -implicitDefEqProofs [markTaken]
@[simp] theorem pumpDir_st (k d : Nat) (s : State) :
    (pumpDir k d s).dev.st = s.dev.st := by simp [pumpDir]
@[simp] theorem loseLanes_st (q : Nat) (s : State) :
    (loseLanes q s).dev.st = s.dev.st := by simp [loseLanes]
@[simp] theorem losePackets_st (q : Nat) (s : State) :
    (losePackets q s).dev.st = s.dev.st := by simp [losePackets]
@[simp] theorem addRepair_st (e : Repair) (s : State) :
    (addRepair e s).dev.st = s.dev.st := by simp -implicitDefEqProofs [addRepair]
@[simp] theorem fenceTile_st (t : Nat) (s : State) :
    (fenceTile t s).dev.st = s.dev.st := by simp [fenceTile]
@[simp] theorem reinject_st (k d : Nat) (loss : Bool) (s : State) :
    (reinject k d loss s).dev.st = s.dev.st := by simp -implicitDefEqProofs [reinject]
@[simp] theorem tellAccepted_st (k d : Nat) (s : State) :
    (tellAccepted k d s).dev.st = s.dev.st := by simp [tellAccepted]
@[simp] theorem resumeLink_st (k : Nat) (narrowed : Bool) (s : State) :
    (resumeLink k narrowed s).dev.st = s.dev.st := by simp [resumeLink]
@[simp] theorem applyRepair_st (e : Repair) (s : State) :
    (applyRepair e s).dev.st = s.dev.st := by simp [applyRepair]

/-! ### Lanes and the link layer (Chapter 10) -/

@[simp] theorem rechoose_st (l : Nat) (s : State) :
    (rechoose l s).dev.st = s.dev.st := by
  unfold rechoose; dsimp only
  rw [foldl_st]
  · simp
  · intro s h
    repeat' split
    all_goals simp

@[simp] theorem laneLeavesUp_st (l : Nat) (s0 s : State) :
    (laneLeavesUp l s0 s).dev.st = s.dev.st := by simp [laneLeavesUp]
@[simp] theorem holdLane_st (l cause : Nat) (s : State) :
    (holdLane l cause s).dev.st = s.dev.st := by simp [holdLane]
@[simp] theorem newToken_st (l : Nat) (s : State) :
    (newToken l s).dev.st = s.dev.st := by simp [newToken]
@[simp] theorem enterInit_st (l : Nat) (s : State) :
    (enterInit l s).dev.st = s.dev.st := by simp [enterInit]
@[simp] theorem raiseLong_st (l cause ns limit : Nat) (s : State) :
    (raiseLong l cause ns limit s).dev.st = s.dev.st := by simp [raiseLong]
@[simp] theorem checkSkew_st (k : Nat) (s : State) :
    (checkSkew k s).dev.st = s.dev.st := by simp [checkSkew]
@[simp] theorem laneComesUp_st (l delay4 : Nat) (s : State) :
    (laneComesUp l delay4 s).dev.st = s.dev.st := by simp [laneComesUp]
@[simp] theorem raiseMiswired_st (l cause : Nat) (d : Discovery) (s : State) :
    (raiseMiswired l cause d s).dev.st = s.dev.st := by simp [raiseMiswired]
@[simp] theorem miswire_st (l cause : Nat) (d : Discovery) (s : State) :
    (miswire l cause d s).dev.st = s.dev.st := by simp [miswire]
@[simp] theorem remapLane_st (l p : Nat) (d : Discovery) (s : State) :
    (remapLane l p d s).dev.st = s.dev.st := by
  unfold remapLane; split <;> simp
@[simp] theorem takeDigest_st (l peer : Nat) (digest : DWord) (s : State) :
    (takeDigest l peer digest s).dev.st = s.dev.st := by simp [takeDigest]
@[simp] theorem startRetrain_st (l cause : Nat) (s : State) :
    (startRetrain l cause s).dev.st = s.dev.st := by simp [startRetrain]
@[simp] theorem replayLink_st (k : Nat) (s : State) :
    (replayLink k s).dev.st = s.dev.st := by simp [replayLink]
@[simp] theorem takeControl_st (k : Nat) (f : Frame) (s : State) :
    (takeControl k f s).dev.st = s.dev.st := by simp [takeControl]
@[simp] theorem acceptFrame_st (k : Nat) (f : Frame) (s : State) :
    (acceptFrame k f s).dev.st = s.dev.st := by simp [acceptFrame]

@[simp] theorem drainDeskew_st (k : Nat) (fuel : Nat) (s : State) :
    (drainDeskew k fuel s).dev.st = s.dev.st := by
  induction fuel generalizing s with
  | zero => rfl
  | succ n ih => unfold drainDeskew; dsimp only; split <;> simp [ih]

@[simp] theorem startLanes_st (s : State) :
    (startLanes s).dev.st = s.dev.st := by
  unfold startLanes; split <;> simp

/-! ### The tile sequencer (Chapter 02) -/

@[simp] theorem takeArrivals_st (t : Nat) (s : State) :
    (takeArrivals t s).dev.st = s.dev.st := by simp -implicitDefEqProofs [takeArrivals]
@[simp] theorem retire_st (u t k : Nat) (s : State) :
    (retire u t k s).dev.st = s.dev.st := by simp [retire]
@[simp] theorem haltSlot_st (t k : Nat) (s : State) :
    (haltSlot t k s).dev.st = s.dev.st := by simp [haltSlot]
@[simp] theorem crownCorrected_st (t : Nat) (s : State) :
    (crownCorrected t s).dev.st = s.dev.st := by simp [crownCorrected]
@[simp] theorem reloadTile_st (t : Nat) (s : State) :
    (reloadTile t s).dev.st = s.dev.st := by
  unfold reloadTile; split <;> simp

@[simp] theorem correctedTimes_st (t : Nat) (fuel : Nat) (s : State) :
    (correctedTimes t fuel s).dev.st = s.dev.st := by
  induction fuel generalizing s with
  | zero => rfl
  | succ n ih => simp [correctedTimes, ih]

/-! ### Remote memory and synchronisation (Chapter 12) -/

@[simp] theorem haltIssuer_st (t : Nat) (by' : Option Nat) (s : State) :
    (haltIssuer t by' s).dev.st = s.dev.st := by
  unfold haltIssuer; split <;> simp
@[simp] theorem raiseSignal_st (code k n ep t op : Nat) (s : State) :
    (raiseSignal code k n ep t op s).dev.st = s.dev.st := by simp [raiseSignal]
@[simp] theorem doWait_st (k : Nat) (w : Nat × Nat × Nat × Nat × Nat) (s : State) :
    (doWait k w s).2.dev.st = s.dev.st := by
  simp only [doWait]; split <;> simp
@[simp] theorem markDone_st (x : BitVec 16) (q : Nat) (s : State) :
    (markDone x q s).dev.st = s.dev.st := by simp [markDone]

@[simp] theorem respond_st (p : Packet) (op aux : Nat) (payload : List Byte) (s : State) :
    (respond p op aux payload s).dev.st = s.dev.st := by
  unfold respond; repeat' split
  all_goals simp

@[simp] theorem respondError_st (p : Packet) (code : Nat) (s : State) :
    (respondError p code s).dev.st = s.dev.st := by simp [respondError]
@[simp] theorem refuseAddr_st (p : Packet) (a code : Nat) (s : State) :
    (refuseAddr p a code s).dev.st = s.dev.st := by simp [refuseAddr]
@[simp] theorem waitBehind_st (line : Nat) (p : Packet) (s : State) :
    (waitBehind line p s).dev.st = s.dev.st := by simp [waitBehind]
@[simp] theorem storeData_st (a n : Nat) (bs : List Byte) (poison : Bool) (s : State) :
    (storeData a n bs poison s).dev.st = s.dev.st := by simp [storeData]
@[simp] theorem refuseWindow_st (p : Packet) (s : State) :
    (refuseWindow p s).dev.st = s.dev.st := by simp [refuseWindow]
@[simp] theorem applyAtomic_st (p : Packet) (s : State) :
    (applyAtomic p s).dev.st = s.dev.st := by simp [applyAtomic]
@[simp] theorem sendAgain_st (e : Pend) (plane : Nat) (retry : Bool) (s : State) :
    (sendAgain e plane retry s).dev.st = s.dev.st := by simp [sendAgain]
@[simp] theorem landDead_st (e : Pend) (s : State) :
    (landDead e s).dev.st = s.dev.st := by simp [landDead]
@[simp] theorem clearRemote_st (s : State) :
    (clearRemote s).dev.st = s.dev.st := by simp [clearRemote]

/-! ### Start, rings and identity (Chapter 15) -/

@[simp] theorem useStump_st (s : State) :
    (useStump s).dev.st = s.dev.st := by simp [useStump]
@[simp] theorem writeControl_st (f : Stump → Stump) (s : State) :
    (writeControl f s).dev.st = s.dev.st := by simp [writeControl]
@[simp] theorem appendLog_st (s : State) :
    (appendLog s).dev.st = s.dev.st := by simp [appendLog]
@[simp] theorem updLog_st (f : StartLog → StartLog) (s : State) :
    (updLog f s).dev.st = s.dev.st := by
  unfold updLog; split <;> simp
@[simp] theorem noteInterrupted_st (s : State) :
    (noteInterrupted s).dev.st = s.dev.st := by simp [noteInterrupted]
@[simp] theorem logOutcome_st (outcome : Nat) (s : State) :
    (logOutcome outcome s).dev.st = s.dev.st := by simp [logOutcome]
@[simp] theorem raiseRing_st (slotNo : Nat) (r : Ring) (f : RingFail) (s : State) :
    (raiseRing slotNo r f s).dev.st = s.dev.st := by
  unfold raiseRing; split <;> simp

@[simp] theorem chooseRing_st (eff : Nat) (places : List (SlotState × Bool)) (s : State) :
    (chooseRing eff places s).2.dev.st = s.dev.st := by
  induction places generalizing s with
  | nil => rfl
  | cons p rest ih =>
    unfold chooseRing
    repeat' split
    all_goals simp [ih]

@[simp] theorem hold_st (cause found required : Nat) (s : State) :
    (hold cause found required s).dev.st = s.dev.st := by simp [hold]

@[simp] theorem chooseStep_st (s : State) :
    (chooseStep s).dev.st = s.dev.st := by
  have h := chooseRing_st (effectiveFloor s) ringOrder s
  unfold chooseStep; dsimp only
  split
  · next heq => simpa [heq] using h
  · next heq => simpa [heq] using h

@[simp] theorem raiseIdentity_st (cause : Nat) (s : State) :
    (raiseIdentity cause s).dev.st = s.dev.st := by simp [raiseIdentity]
@[simp] theorem raiseRegion_st (i : Nat) (s : State) :
    (raiseRegion i s).dev.st = s.dev.st := by simp [raiseRegion]
@[simp] theorem readBark_st (s : State) :
    (readBark s).dev.st = s.dev.st := by simp [readBark]
@[simp] theorem pulseStump_st (s : State) :
    (pulseStump s).dev.st = s.dev.st := by simp [pulseStump]
@[simp] theorem firstStep_st (holdN modRstN puf unwrap : Bool) (s : State) :
    (firstStep holdN modRstN puf unwrap s).dev.st = s.dev.st := by simp [firstStep]
@[simp] theorem compareFingerprints_st (found : List DWord) (s : State) :
    (compareFingerprints found s).dev.st = s.dev.st := by
  unfold compareFingerprints; split <;> simp
@[simp] theorem applyRing_st (r : Ring) (s : State) :
    (applyRing r s).dev.st = s.dev.st := by
  unfold applyRing; rw [foldl_st]; simp
@[simp] theorem raiseCheck_st (row : Nat) (r : Ring) (s : State) :
    (raiseCheck row r s).dev.st = s.dev.st := by simp [raiseCheck]
@[simp] theorem trialFail_st (row : Nat) (r : Ring) (s : State) :
    (trialFail row r s).dev.st = s.dev.st := by simp [trialFail]
@[simp] theorem commitRing_st (r : Ring) (s : State) :
    (commitRing r s).dev.st = s.dev.st := by simp [commitRing]
@[simp] theorem repairBark_st (s : State) :
    (repairBark s).dev.st = s.dev.st := by simp [repairBark]
@[simp] theorem savePhases_st (s : State) :
    (savePhases s).dev.st = s.dev.st := by
  unfold savePhases; rw [foldl_st]; simp
@[simp] theorem startNotches_st (s : State) :
    (startNotches s).dev.st = s.dev.st := by simp -implicitDefEqProofs [startNotches]
@[simp] theorem noteDegraded_st (r : Ring) (s : State) :
    (noteDegraded r s).dev.st = s.dev.st := by simp [noteDegraded]
@[simp] theorem noteStart_st (s : State) :
    (noteStart s).dev.st = s.dev.st := by simp [noteStart]

/-! ### The Firewatch and the management tick (Chapter 16) -/

@[simp] theorem setSensor_st (k : SensorKind) (i : Nat) (r : Sensor) (s : State) :
    (setSensor k i r s).dev.st = s.dev.st := by
  unfold setSensor; split <;> simp
@[simp] theorem darkLanes_st (s : State) :
    (darkLanes s).dev.st = s.dev.st := by simp [darkLanes]
@[simp] theorem crownsOff_st (s : State) :
    (crownsOff s).dev.st = s.dev.st := by simp [crownsOff]
@[simp] theorem flushSummaries_st (s : State) :
    (flushSummaries s).dev.st = s.dev.st := by simp [flushSummaries]
@[simp] theorem refreshStep_st (s : State) :
    (refreshStep s).dev.st = s.dev.st := by simp [refreshStep]
@[simp] theorem notchTick_st (q : Nat) (s : State) :
    (notchTick q s).dev.st = s.dev.st := by simp [notchTick]
@[simp] theorem phaseStep_st (s : State) :
    (phaseStep s).dev.st = s.dev.st := by simp [phaseStep]
@[simp] theorem sweepEye_st (e : EyeSample) (s : State) :
    (sweepEye e s).dev.st = s.dev.st := by simp [sweepEye]
@[simp] theorem noteSpareless_st (s : State) :
    (noteSpareless s).dev.st = s.dev.st := by
  unfold noteSpareless; rw [foldl_st]; simp
@[simp] theorem heaterStep_st (s : State) :
    (heaterStep s).dev.st = s.dev.st := by simp [heaterStep]
@[simp] theorem laserStep_st (e : Nat) (pa pb : Int) (s : State) :
    (laserStep e pa pb s).dev.st = s.dev.st := by simp [laserStep]
@[simp] theorem laneStep_st (x : LaneSample) (s : State) :
    (laneStep x s).dev.st = s.dev.st := by simp [laneStep]
@[simp] theorem telemetryStep_st (amps : List Nat) (s : State) :
    (telemetryStep amps s).dev.st = s.dev.st := by simp [telemetryStep]
@[simp] theorem ledgerStep_st (s : State) :
    (ledgerStep s).dev.st = s.dev.st := by
  unfold ledgerStep; rw [foldl_st]; simp
@[simp] theorem v48Step_st (s : State) :
    (v48Step s).dev.st = s.dev.st := by simp [v48Step]
@[simp] theorem perTickRecords_st (s : State) :
    (perTickRecords s).dev.st = s.dev.st := by simp [perTickRecords]

@[simp] theorem setExerciser_st (s : State) :
    (setExerciser s).dev.st = s.dev.st := by
  unfold setExerciser; dsimp only
  rw [foldl_st _ (fun s q => by split <;> simp)]
  split
  · rfl
  · exact foldl_st _ (fun s t => by simp) _ _

@[simp] theorem endExerciser_st (s : State) :
    (endExerciser s).dev.st = s.dev.st := by simp [endExerciser]

/-! ### Tensors -/

@[simp] theorem addTally_st (tid : Nat) (t : Tally) (s : State) :
    (addTally tid t s).dev.st = s.dev.st := by simp [addTally]
@[simp] theorem putStored_st (k : Nat) (c : Stored) (s : State) :
    (putStored k c s).dev.st = s.dev.st := by simp [putStored]
@[simp] theorem convertInto_st (im : Image) (pos tid : Nat) (stochastic : Bool) (vs : List Val) (s : State) :
    (convertInto im pos tid stochastic vs s).dev.st = s.dev.st := by simp [convertInto]

/-! ### The tile's crown half (Chapter 02) -/

@[simp] theorem takeSample_st (t : Nat) (s : State) (c : Child) :
    (takeSample t s c).dev.st = s.dev.st := by simp [takeSample]
@[simp] theorem formed_st (t src : Nat) (cs : List Child) (s : State) :
    (formed t src cs s).dev.st = s.dev.st := by simp [formed]
@[simp] theorem runsDown_st (t c : Nat) (rs : List Run) (s : State) :
    (runsDown t c rs s).dev.st = s.dev.st := by simp [runsDown]
@[simp] theorem combineOne_st (t : Nat) (kind : CombineKind) (dest : CombineTo) (node n idx : Nat) (value : DWord) (bad : Bool) (s : State) :
    (combineOne t kind dest node n idx value bad s).dev.st = s.dev.st := by
  unfold combineOne; split <;> simp

/-! ### The Flume path and bulk reductions (Chapter 13) -/

@[simp] theorem sendAll_st (l : Nat) (ps : List Packet) (s : State) :
    (sendAll l ps s).dev.st = s.dev.st := by simp [sendAll]
@[simp] theorem sendDown_st (x : FSlot) (flags : Nat) (data : List Byte) (s : State) :
    (sendDown x flags data s).dev.st = s.dev.st := by simp [sendDown]
@[simp] theorem dropSlot_st (x : FSlot) (s : State) :
    (dropSlot x s).dev.st = s.dev.st := by simp [dropSlot]
@[simp] theorem putSlot_st (x : FSlot) (s : State) :
    (putSlot x s).dev.st = s.dev.st := by simp [putSlot]

@[simp] theorem finishSlot_st (x : FSlot) (s : State) :
    (finishSlot x s).dev.st = s.dev.st := by
  unfold finishSlot; repeat' split
  all_goals simp

@[simp] theorem countCrc_st (l : Nat) (p : Packet) (s : State) :
    (countCrc l p s).dev.st = s.dev.st := by simp [countCrc]
@[simp] theorem refusePacket_st (l : Nat) (p : Packet) (s : State) :
    (refusePacket l p s).dev.st = s.dev.st := by simp [refusePacket]
@[simp] theorem raiseGroup_st (reporting : Bool) (code obj peer : Nat) (det : List Byte) (s : State) :
    (raiseGroup reporting code obj peer det s).dev.st = s.dev.st := by simp [raiseGroup]

@[simp] theorem sendPlane_st (kind : Nat) (d : Desc) (vals : Option (List DWord)) (ns : List FNode) (x : List Packet × Nat × State) (e : Nat × Nat) :
    (sendPlane kind d vals ns x e).2.2.dev.st = x.2.2.dev.st := by
  unfold sendPlane; dsimp only
  split
  · rfl
  · exact foldl_snd_st _ (fun y p => by simp) _ _

@[simp] theorem takeResult_st (n pos : Nat) (x : FOp) (s : State) :
    (takeResult n pos x s).dev.st = s.dev.st := by simp [takeResult]
@[simp] theorem dropChunk_st (x : Chunk) (s : State) :
    (dropChunk x s).dev.st = s.dev.st := by simp [dropChunk]
@[simp] theorem putChunk_st (x : Chunk) (s : State) :
    (putChunk x s).dev.st = s.dev.st := by simp [putChunk]
@[simp] theorem bulkReturn_st (x : Chunk) (d : Desc) (ws : List DWord) (s : State) :
    (bulkReturn x d ws s).dev.st = s.dev.st := by simp [bulkReturn]
@[simp] theorem sendChunk_st (b : Bulk) (tree : Nat × Nat) (c : BChunk) (s : State) :
    (sendChunk b tree c s).dev.st = s.dev.st := by
  unfold sendChunk; split <;> simp

@[simp] theorem pumpChunks_st (tree : Nat × Nat) (chunks : List BChunk) (done : List BChunk) (b : Bulk) (s : State) :
    (pumpChunks tree chunks done b s).2.dev.st = s.dev.st := by
  induction chunks generalizing done s with
  | nil => rfl
  | cons c cs ih => unfold pumpChunks; dsimp only; split <;> simp [ih]

@[simp] theorem putBulk_st (b : Bulk) (s : State) :
    (putBulk b s).dev.st = s.dev.st := by simp [putBulk]
@[simp] theorem takeBulk_st (n pos : Nat) (b : Bulk) (s : State) :
    (takeBulk n pos b s).dev.st = s.dev.st := by simp [takeBulk]

/-! ### The ops of a Tally program (Chapter 05) -/

@[simp] theorem takeRank_st (pos : Nat) (s : State) :
    (takeRank pos s).dev.st = s.dev.st := by simp [takeRank]
@[simp] theorem noteReads_st (im : Image) (pos : Nat) (ins : List Nat) (s : State) :
    (noteReads im pos ins s).dev.st = s.dev.st := by simp [noteReads]
@[simp] theorem endInit_st (s : State) :
    (endInit s).dev.st = s.dev.st := by simp [endInit]
@[simp] theorem endPhase_st (im : Image) (s : State) :
    (endPhase im s).dev.st = s.dev.st := by
  unfold endPhase; split <;> simp
@[simp] theorem retireOp_st (im : Image) (pos op : Nat) (s : State) :
    (retireOp im pos op s).dev.st = s.dev.st := by simp [retireOp]
@[simp] theorem waitInput_st (pos : Nat) (s : State) :
    (waitInput pos s).dev.st = s.dev.st := by simp [waitInput]
@[simp] theorem writeOut_st (im : Image) (o : OpRec) (pos tid : Nat) (vs : List Val) (s : State) :
    (writeOut im o pos tid vs s).dev.st = s.dev.st := by simp [writeOut]
@[simp] theorem writeRows_st (im : Image) (o : OpRec) (pos : Nat) (rs : List (List Word × Word)) (s : State) :
    (writeRows im o pos rs s).dev.st = s.dev.st := by
  simp only [writeRows]; split <;> simp
@[simp] theorem writeGrads_st (im : Image) (o : OpRec) (pos : Nat) (s : State) :
    (writeGrads im o pos s).dev.st = s.dev.st := by simp [writeGrads]
@[simp] theorem putRun_st (x : RingRun) (s : State) :
    (putRun x s).dev.st = s.dev.st := by simp [putRun]
@[simp] theorem dropRun_st (pos op : Nat) (s : State) :
    (dropRun pos op s).dev.st = s.dev.st := by simp [dropRun]
@[simp] theorem askBlock_st (tile pos op : Nat) (s : State) (w : Nat × Nat) :
    (askBlock tile pos op s w).dev.st = s.dev.st := by simp [askBlock]
@[simp] theorem sendGrads_st (r : RingRec) (op step : Nat) (dk dv : List Word) (s : State) :
    (sendGrads r op step dk dv s).dev.st = s.dev.st := by simp [sendGrads]
@[simp] theorem turnedGrads_st (im : Image) (o : OpRec) (pos : Nat) (run : RingRun) (s : State) :
    (turnedGrads im o pos run s).dev.st = s.dev.st := by simp [turnedGrads]
@[simp] theorem countDrops_st (n : Nat) (s : State) :
    (countDrops n s).dev.st = s.dev.st := by simp [countDrops]
@[simp] theorem moveInto_st (im : Image) (o : OpRec) (pos : Nat) (xf : Nat) (src : List Src) (s : State) :
    (moveInto im o pos xf src s).dev.st = s.dev.st := by simp [moveInto]
@[simp] theorem noteNoise_st (im : Image) (o : OpRec) (pos : Nat) (s : State) :
    (noteNoise im o pos s).dev.st = s.dev.st := by simp [noteNoise]
@[simp] theorem moveBox_st (im : Image) (o : OpRec) (pos : Nat) (s : State) :
    (moveBox im o pos s).dev.st = s.dev.st := by simp [moveBox]
@[simp] theorem moveReshape_st (im : Image) (o : OpRec) (pos : Nat) (s : State) :
    (moveReshape im o pos s).dev.st = s.dev.st := by simp [moveReshape]

/-! ### Phase boundaries (Chapter 06) -/

@[simp] theorem loadMemories_st (p : Plan) (phases phase : Nat) (s : State) :
    (loadMemories p phases phase s).dev.st = s.dev.st := by simp [loadMemories]
@[simp] theorem installPlan_st (im : Image) (p : Plan) (m : ModPlan) (first : Nat) (s : State) :
    (installPlan im p m first s).dev.st = s.dev.st := by simp [installPlan]
@[simp] theorem setKinds_st (flags : List Nat) (s : State) :
    (setKinds flags s).dev.st = s.dev.st := by
  unfold setKinds; rw [foldl_st]; simp
@[simp] theorem startTiles_st (p : Plan) (ts : List Transfer) (phase : Nat) (s : State) :
    (startTiles p ts phase s).dev.st = s.dev.st := by simp [startTiles]
@[simp] theorem replacePrograms_st (p : Plan) (phases phase : Nat) (s : State) :
    (replacePrograms p phases phase s).dev.st = s.dev.st := by simp [replacePrograms]
@[simp] theorem opEffect_st (im : Image) (o : OpRec) (pos op : Nat) (s : State) :
    (opEffect im o pos op s).dev.st = s.dev.st := by
  unfold opEffect; split <;> simp

@[simp] theorem redoOp_st (im : Image) (pos : Nat) (s : State) (op : Nat) :
    (redoOp im pos s op).dev.st = s.dev.st := by
  unfold redoOp
  split
  · rfl
  · dsimp only
    split
    · rfl
    · rw [opEffect_st]; exact foldl_st _ (fun s t => by simp) _ _

@[simp] theorem redoTensor_st (im : Image) (pos : Nat) (s : State) (e : Nat × List Nat) :
    (redoTensor im pos s e).dev.st = s.dev.st := by simp [redoTensor]
@[simp] theorem recompute_st (im : Image) (phase : Nat) (s : State) :
    (recompute im phase s).dev.st = s.dev.st := by
  unfold recompute; split <;> simp

/-! ### Planning (Chapter 06) -/

@[simp] theorem restoreCounters_st (im : Image) (r : List Byte) (s : State) :
    (restoreCounters im r s).dev.st = s.dev.st := by simp [restoreCounters]
@[simp] theorem installOwn_st (im : Image) (p : Plan) (first : Nat) (s : State) :
    (installOwn im p first s).dev.st = s.dev.st := by
  unfold installOwn; split <;> simp
@[simp] theorem beginJob_st (im : Image) (s : State) :
    (beginJob im s).dev.st = s.dev.st := by simp [beginJob]
@[simp] theorem formShards_st (im : Image) (s : State) :
    (formShards im s).dev.st = s.dev.st := by simp [formShards]
@[simp] theorem unlessFaulted_st (s : State) :
    (unlessFaulted s).2.dev.st = s.dev.st := by simp [unlessFaulted]

/-! ### The step program (Chapter 04) -/

@[simp] theorem beginStep_st (im : Image) (s : State) :
    (beginStep im s).dev.st = s.dev.st := by simp -implicitDefEqProofs [beginStep]
@[simp] theorem nextItem_st (s : State) :
    (nextItem s).dev.st = s.dev.st := by simp [nextItem]
@[simp] theorem openPhase_st (im : Image) (phase : Nat) (s : State) :
    (openPhase im phase s).dev.st = s.dev.st := by simp [openPhase]
@[simp] theorem flushLoop_st (im : Image) (s : State) :
    (flushLoop im s).dev.st = s.dev.st := by simp [flushLoop]

@[simp] theorem promoteOne_st (im : Image) (r : PromoRule) (x : List Decision × State) :
    (promoteOne im r x).2.dev.st = x.2.dev.st := by
  unfold promoteOne; dsimp only
  split
  · rfl
  · split <;> simp

@[simp] theorem promoteAll_st (im : Image) (s : State) :
    (promoteAll im s).2.dev.st = s.dev.st :=
  foldl_snd_st _ (fun x r => promoteOne_st im r x) _ _

@[simp] theorem demoteOne_st (im : Image) (promoted : List Nat) (r : ProgRule) (x : List Decision × State) :
    (demoteOne im promoted r x).2.dev.st = x.2.dev.st := by
  unfold demoteOne; dsimp only
  split <;> simp

@[simp] theorem programRules_st (im : Image) (promoted : List Nat) (s : State) :
    (programRules im promoted s).2.1.dev.st = s.dev.st := by
  refine foldl_snd_st _ (fun x e => ?_) _ _
  dsimp only
  repeat' split
  all_goals simp

@[simp] theorem reconvertAll_st (im : Image) (old : Table Nat) (s : State) :
    (reconvertAll im old s).dev.st = s.dev.st := by simp [reconvertAll]
@[simp] theorem putRecord_st (r : List Byte) (s : State) :
    (putRecord r s).dev.st = s.dev.st := by simp [putRecord]
@[simp] theorem dropFrom_st (step : Nat) (s : State) :
    (dropFrom step s).dev.st = s.dev.st := by simp [dropFrom]
@[simp] theorem noteGap_st (s : State) :
    (noteGap s).dev.st = s.dev.st := by simp [noteGap]
@[simp] theorem ledgerReplica_st (s : State) :
    (ledgerReplica s).dev.st = s.dev.st := by
  unfold ledgerReplica; rw [foldl_st]; simp
@[simp] theorem closeStep_st (im : Image) (mbNext : Nat) (s : State) :
    (closeStep im mbNext s).dev.st = s.dev.st := by simp [closeStep]
@[simp] theorem skipSnapshot_st (step : Nat) (s : State) :
    (skipSnapshot step s).dev.st = s.dev.st := by simp [skipSnapshot]
@[simp] theorem freeAreas_st (s : State) :
    (freeAreas s).dev.st = s.dev.st := by simp [freeAreas]
@[simp] theorem clearJob_st (s : State) :
    (clearJob s).dev.st = s.dev.st := by simp [clearJob]

/-! ### Recovery (Chapter 14) -/

@[simp] theorem freshInit_st (s : State) :
    (freshInit s).dev.st = s.dev.st := by
  unfold freshInit; split <;> simp
@[simp] theorem abandonStep_st (s : State) :
    (abandonStep s).dev.st = s.dev.st := by simp [abandonStep]
@[simp] theorem unmarkInputs_st (s : State) :
    (unmarkInputs s).dev.st = s.dev.st := by simp [unmarkInputs]

@[simp] theorem takeTensors_st (im : Image) (step : Nat) (formats : Table Nat) (keys : List Nat) (bs : List Byte) (s : State) :
    (takeTensors im step formats keys bs s).2.dev.st = s.dev.st := by
  induction keys generalizing bs s with
  | nil => rfl
  | cons k ks ih => simp [takeTensors, ih]

@[simp] theorem restoreStep_st (im : Image) (r : List Byte) (s : State) :
    (restoreStep im r s).dev.st = s.dev.st := by simp [restoreStep]
@[simp] theorem raiseLost_st (ns : List Notice) (s : State) (m : Nat) :
    (raiseLost ns s m).dev.st = s.dev.st := by
  unfold raiseLost; split <;> simp
@[simp] theorem substitute_st (m : Nat) (e : BitVec 16) (s : State) :
    (substitute m e s).dev.st = s.dev.st := by simp [substitute]
@[simp] theorem fillJob_st (f : FillIn) (s : State) :
    (fillJob f s).dev.st = s.dev.st := by
  simp only [fillJob]; split <;> simp

/-! ### Register access (Chapter 19) -/

@[simp] theorem beginView_st (p : Path) (s : State) :
    (beginView p s).dev.st = s.dev.st := by simp [beginView]
@[simp] theorem afterRead_st (v : View) (r : Reg) (h : Half) (s : State) :
    (afterRead v r h s).dev.st = s.dev.st := by
  unfold afterRead; split <;> simp
@[simp] theorem readOne_st (p : Path) (a : Nat) (w : Window) (r : Reg) (h : Half) (s : State) :
    (readOne p a w r h s).2.dev.st = s.dev.st := by
  unfold readOne; split <;> simp
@[simp] theorem writeEntry_st (p : Path) (v : Word) (s : State) :
    (writeEntry p v s).dev.st = s.dev.st := by
  simp only [writeEntry]; split <;> simp
@[simp] theorem writeWin_st (e k : Nat) (v : Word) (s : State) :
    (writeWin e k v s).dev.st = s.dev.st := by simp [writeWin]
@[simp] theorem writeOne_st (p : Path) (r : Reg) (h : Half) (x : Word) (s : State) :
    (writeOne p r h x s).dev.st = s.dev.st := by
  unfold writeOne; split <;> simp

theorem readMany_st (p : Path) (n a : Nat) (s : State) {xs : List Word} {t : State} (h : readMany p n a s = .inr (xs, t)) :
    t.dev.st = s.dev.st := by
  induction n generalizing a s xs with
  | zero => simp only [readMany, Sum.inr.injEq, Prod.mk.injEq] at h; rw [← h.2]
  | succ n ih =>
    unfold readMany at h; dsimp only at h
    split at h
    · cases h
    · split at h
      · cases h
      · next hrest => cases h; simpa using ih _ _ hrest

theorem writeMany_st (p : Path) (xs : List Word) (a : Nat) (s : State) {t : State} (h : writeMany p xs a s = .inr t) :
    t.dev.st = s.dev.st := by
  induction xs generalizing a s with
  | nil => cases h; rfl
  | cons x xs ih =>
    unfold writeMany at h
    split at h
    · cases h
    · simpa using ih _ _ h

@[simp] theorem noteRefused_st (p : Path) (op : Nat) (f : RegFail) (s : State) :
    (noteRefused p op f s).dev.st = s.dev.st := by simp [noteRefused]

@[simp] theorem accessRegs_st (p : Path) (op : Nat) (write : Bool) (a count : Nat) (values : List Word) (s : State) :
    (accessRegs p op write a count values s).2.2.dev.st = s.dev.st := by
  unfold accessRegs
  split
  · simp
  · split
    · split
      · simp
      · next hw => exact writeMany_st _ _ _ _ hw
    · split
      · simp
      · next hr => exact readMany_st _ _ _ _ hr

/-! ### The Warden protocol (Chapter 17) -/

@[simp] theorem invalidWarden_st (r : WReq) (op off : Nat) (s : State) :
    (invalidWarden r op off s).dev.st = s.dev.st := by simp [invalidWarden]
@[simp] theorem refuseKeys_st (r : WReq) (keyIndex : Nat) (rsaBad slhBad : Bool) (s : State) :
    (refuseKeys r keyIndex rsaBad slhBad s).dev.st = s.dev.st := by simp [refuseKeys]

@[simp] theorem beginQuote_st (path id : Nat) (msg : Word) (nonce : BitVec 256) (s : State) :
    (beginQuote path id msg nonce s).2.dev.st = s.dev.st := by
  unfold beginQuote; repeat' split
  all_goals simp

@[simp] theorem loseStack_st (m : Nat) (s : State) :
    (loseStack m s).dev.st = s.dev.st := by simp [loseStack]

/-! ### The host port (Chapter 17) -/

@[simp] theorem updConn_st (k : Nat) (f : Conn → Conn) (s : State) :
    (updConn k f s).dev.st = s.dev.st := by simp [updConn]
@[simp] theorem sendPacket_st (kind k : Nat) (seq : Word) (s : State) :
    (sendPacket kind k seq s).dev.st = s.dev.st := by simp [sendPacket]
@[simp] theorem resend_st (k : Nat) (seq : Nat) (gap : Bool) (s : State) :
    (resend k seq gap s).dev.st = s.dev.st := by simp [resend]
@[simp] theorem takeAckFields_st (g : HSeg) (s : State) :
    (takeAckFields g s).dev.st = s.dev.st := by simp [takeAckFields]
@[simp] theorem takeDone_st (r : Req) (s : State) :
    (takeDone r s).dev.st = s.dev.st := by simp [takeDone]
@[simp] theorem writeCopies_st (im : Image) (tid inst off : Nat) (bs : List Byte) (s : State) :
    (writeCopies im tid inst off bs s).dev.st = s.dev.st := by simp -implicitDefEqProofs [writeCopies]
@[simp] theorem refuseBusy_st (r : Req) (t : Target) (expected : Nat) (s : State) :
    (refuseBusy r t expected s).dev.st = s.dev.st := by simp [refuseBusy]

@[simp] theorem writeInput_st (r : Req) (t : Target) (bytes : List Byte) (mark : Bool) (s : State) :
    (writeInput r t bytes mark s).dev.st = s.dev.st := by
  unfold writeInput; repeat' split
  all_goals simp

@[simp] theorem refuseDenied_st (r : Req) (op ringField value addr : Nat) (s : State) :
    (refuseDenied r op ringField value addr s).dev.st = s.dev.st := by simp [refuseDenied]

/-! ### The test access port (Chapter 18) -/

@[simp] theorem jtagLoad_st (i : JInstr) (s : State) :
    (jtagLoad i s).dev.st = s.dev.st := by simp [jtagLoad]
@[simp] theorem scanCells_st (lines : BitVec 19) (shifted : BitVec 25) (s : State) :
    (scanCells lines shifted s).dev.st = s.dev.st := by simp [scanCells]
@[simp] theorem State.withFetchWord_st (s : State) (nbits w : Nat) :
    (State.withFetchWord s nbits w).dev.st = s.dev.st := by
  unfold State.withFetchWord; split <;> simp

end Sys2Proof.Machine
end

section
/-! What faults do to the device state: a fault stops a job, a loading ends, a fill is complete. -/
namespace Sys2Proof.Machine
open Sys2Proof

/-- The device states that hold a job which a fault can stop (Table 01-5). -/
def holdsJob (a : DevState) : Prop := a = .loading ∨ a = .planning ∨ a = .running ∨ a = .draining ∨ a = .filling

theorem holdsJob_of_inJob {s : State} (h : inJob s = true) : holdsJob s.dev.st := by
  simpa [inJob, holdsJob, or_assoc] using h

/-- The device state is as it was, or a fault has stopped the job that the device held (R646). -/
def OrFaulted (was now : DevState) : Prop := now = was ∨ holdsJob was ∧ now = .faulted

@[simp] theorem OrFaulted.rfl {a : DevState} : OrFaulted a a := .inl (Eq.refl a)

theorem OrFaulted.trans {a b c : DevState} (h : OrFaulted a b) (g : OrFaulted b c) : OrFaulted a c := by
  obtain rfl | ⟨hb, rfl⟩ := g
  · exact h
  · obtain rfl | ⟨ha, rfl⟩ := h
    · exact .inr ⟨hb, Eq.refl _⟩
    · exact .inr ⟨ha, Eq.refl _⟩

@[simp] theorem orFaulted_ite {a b d : DevState} (c : Prop) [Decidable c] :
    OrFaulted a (if c then b else d) ↔ (c → OrFaulted a b) ∧ (¬ c → OrFaulted a d) := by
  split <;> simp [*]

/-- An operation that changes the device state by a fault at most. -/
def StopsOnly (was : DevState) (f : State → State) : Prop := ∀ s : State, OrFaulted was s.dev.st → OrFaulted was (f s).dev.st

@[simp] theorem stopsOnly_iff {was : DevState} {f : State → State} :
    StopsOnly was f ↔ ∀ s : State, OrFaulted was s.dev.st → OrFaulted was (f s).dev.st := Iff.rfl

theorem foldl_orFaulted {α : Type} {a : DevState} (f : State → α → State)
    (hf : ∀ s x, OrFaulted a s.dev.st → OrFaulted a (f s x).dev.st) (xs : List α) (s : State) (h : OrFaulted a s.dev.st) :
    OrFaulted a (xs.foldl f s).dev.st := by
  induction xs generalizing s with
  | nil => exact h
  | cons x xs ih => exact ih _ (hf _ _ h)

/-- The changes of device state that Table 01-5 does not tie to one command: a fault stops the job, a program's loading ends, a fill is complete. -/
inductive Drift : DevState → DevState → Prop
  | stops {a b : DevState} (h : OrFaulted a b) : Drift a b
  | unloads : Drift .loading .ready
  | fills : Drift .filling .running

theorem Drift.trans {a b c : DevState} (h : Drift a b) (g : Drift b c) : Drift a c := by
  cases h with
  | stops h =>
    obtain rfl | ⟨_, rfl⟩ := h
    · exact g
    · cases g with
      | stops g => exact .stops (.trans (.inr ⟨by assumption, rfl⟩) g)
  | unloads =>
    cases g with
    | stops g =>
      obtain rfl | ⟨hj, _⟩ := g
      · exact .unloads
      · simp [holdsJob] at hj
  | fills =>
    cases g with
    | stops g =>
      obtain rfl | ⟨_, rfl⟩ := g
      · exact .fills
      · exact .stops (.inr ⟨by simp [holdsJob], rfl⟩)

@[simp] theorem drift_ite {a b d : DevState} (c : Prop) [Decidable c] :
    Drift a (if c then b else d) ↔ (c → Drift a b) ∧ (¬ c → Drift a d) := by
  split <;> simp [*]

theorem foldl_drift {α : Type} {a : DevState} (f : State → α → State) (hf : ∀ s x, Drift a s.dev.st → Drift a (f s x).dev.st)
    (xs : List α) (s : State) (h : Drift a s.dev.st) : Drift a (xs.foldl f s).dev.st := by
  induction xs generalizing s with
  | nil => exact h
  | cons x xs ih => exact ih _ (hf _ _ h)

/-! ### Shared operations -/

@[simp] theorem declareFault_orFaulted {was : DevState} (action code subject : Nat) (own quarantine : Bool) (s : State)
    (h : OrFaulted was s.dev.st) : OrFaulted was (declareFault action code subject own quarantine s).dev.st := by
  unfold declareFault; dsimp only
  split
  · next hj =>
    have hf : OrFaulted was .faulted := h.trans (.inr ⟨holdsJob_of_inJob hj, rfl⟩)
    split <;> simp [h, hf]
  · exact h

@[simp] theorem stopA3_orFaulted {was : DevState} (code : Nat) (s : State)
    (h : OrFaulted was s.dev.st) : OrFaulted was (stopA3 code s).dev.st := by simp [stopA3, h]
@[simp] theorem stopA4_orFaulted {was : DevState} (code : Nat) (s : State)
    (h : OrFaulted was s.dev.st) : OrFaulted was (stopA4 code s).dev.st := by simp [stopA4, h]
@[simp] theorem stopF5_orFaulted {was : DevState} (code : Nat) (s : State)
    (h : OrFaulted was s.dev.st) : OrFaulted was (stopF5 code s).dev.st := by simp [stopF5, h]
@[simp] theorem stopA2_orFaulted {was : DevState} (code : Nat) (s : State)
    (h : OrFaulted was s.dev.st) : OrFaulted was (stopA2 code s).dev.st := by simp [stopA2, h]

@[simp] theorem endConn_drift {was : DevState} (k : Nat) (s : State)
    (h : Drift was s.dev.st) : Drift was (endConn k s).dev.st := by
  unfold endConn; dsimp only
  split
  · next hl =>
    have hs : s.dev.st = .loading := by simpa using (Bool.and_eq_true_iff.mp hl).2
    simpa [hs] using (hs ▸ h).trans .unloads
  · exact h

@[simp] theorem endConns_drift {was : DevState} (s : State)
    (h : Drift was s.dev.st) : Drift was (endConns s).dev.st :=
  foldl_drift _ (fun s k h => endConn_drift k s h) _ _ h

/-! ### Memory (Chapter 08) -/

@[simp] theorem failTensor_orFaulted {was : DevState} (code : Nat) (owner : Option (Nat × Nat)) (s : State)
    (h : OrFaulted was s.dev.st) : OrFaulted was (failTensor code owner s).dev.st := by
  unfold failTensor; split <;> simp [h]
@[simp] theorem sramFinds_orFaulted {was : DevState} (t off req : Nat) (e : Ecc) (s : State)
    (h : OrFaulted was s.dev.st) : OrFaulted was (sramFinds t off req e s).dev.st := by
  unfold sramFinds; split <;> simp [h]
@[simp] theorem hbmFinds_orFaulted {was : DevState} (a req : Nat) (e : Ecc) (s : State)
    (h : OrFaulted was s.dev.st) : OrFaulted was (hbmFinds a req e s).dev.st := by
  unfold hbmFinds; split <;> simp [h]
@[simp] theorem memFinds_orFaulted {was : DevState} (a req hbmReq : Nat) (e : Ecc) (s : State)
    (h : OrFaulted was s.dev.st) : OrFaulted was (memFinds a req hbmReq e s).dev.st := by
  unfold memFinds; split <;> simp [h]

@[simp] theorem rangeFinds_orFaulted {was : DevState} (a n req hbmReq : Nat) (ecc : List (Nat × Ecc)) (s : State)
    (h : OrFaulted was s.dev.st) : OrFaulted was (rangeFinds a n req hbmReq ecc s).dev.st := by
  refine foldl_orFaulted _ (fun s x h => ?_) _ _ (by simp [h])
  simp [h]

@[simp] theorem patrolRead_orFaulted {was : DevState} (m n : Nat) (ecc : List (Nat × Ecc)) (s : State)
    (h : OrFaulted was s.dev.st) : OrFaulted was (patrolRead m n ecc s).dev.st := by
  unfold patrolRead; dsimp only
  rw [updHbm_st, foldl_st _ (fun s i => by simp)]
  exact foldl_orFaulted _ (fun s e h => hbmFinds_orFaulted _ _ _ _ h) _ _ h

@[simp] theorem readsFind_orFaulted {was : DevState} (t req : Nat) (ranges : List (Nat × Nat)) (ecc : List (Nat × Ecc)) (s : State)
    (h : OrFaulted was s.dev.st) : OrFaulted was (readsFind t req ranges ecc s).dev.st := by
  refine foldl_orFaulted _ (fun s x h => ?_) _ _ (by simp [h])
  simp [h]

/-! ### Die links at work (Chapter 09) -/

@[simp] theorem loseQuadrant_drift {was : DevState} (q first cause : Nat) (s : State)
    (h : Drift was s.dev.st) : Drift was (loseQuadrant q first cause s).dev.st := by
  unfold loseQuadrant; dsimp only
  split
  · exact h
  · split
    · simpa using h
    · split
      · refine Drift.trans ?_ (.stops (stopA3_orFaulted _ _ .rfl))
        simpa using h
      · split
        · next hl => simpa using (show Drift was .loading by simpa [eq_of_beq hl] using h).trans .unloads
        · simpa using h

@[simp] theorem loseCutOff_drift {was : DevState} (s : State)
    (h : Drift was s.dev.st) : Drift was (loseCutOff s).dev.st := by
  refine foldl_drift _ (fun s x h => ?_) _ _ (by simp [h])
  simp [h]

@[simp] theorem checkSeam_drift {was : DevState} (m : Nat) (s : State)
    (h : Drift was s.dev.st) : Drift was (checkSeam m s).dev.st := by simp [checkSeam, h]

@[simp] theorem fenceLink_drift {was : DevState} (k d : Nat) (atStart : Bool) (s : State)
    (h : Drift was s.dev.st) : Drift was (fenceLink k d atStart s).dev.st := by
  unfold fenceLink; dsimp only
  have stops : ∀ t u : State, Drift was t.dev.st → OrFaulted t.dev.st u.dev.st → Drift was u.dev.st :=
    fun _ _ ht hu => ht.trans (.stops hu)
  split
  · split <;> simp [h]
  · split
    · refine stops _ _ ?_ (stopA3_orFaulted _ _ .rfl)
      split <;> simp [h]
    · split
      · refine stops _ _ ?_ (stopA2_orFaulted _ _ .rfl)
        simp [h]
      · simp [h]

@[simp] theorem applyTest_drift {was : DevState} (k : Nat) (fails : List WireFail) (codes : List (Nat × Nat × Nat)) (atStart : Bool) (s : State)
    (h : Drift was s.dev.st) : Drift was (applyTest k fails codes atStart s).dev.st := by simp [applyTest, h]

@[simp] theorem startLinks_drift {was : DevState} (obs : TrainObs) (s : State)
    (h : Drift was s.dev.st) : Drift was (startLinks obs s).dev.st := by
  unfold startLinks; dsimp only
  refine foldl_drift _ (fun s m h => checkSeam_drift m s h) _ _ (foldl_drift _ (fun s k h => ?_) _ _ ?_)
  · simp only [drift_ite, ite_st]
    exact ⟨fun _ => applyTest_drift _ _ _ _ _ h, fun _ => h⟩
  · rw [foldl_st _ (fun s e => by simp)]
    exact h

/-! ### The tile sequencer (Chapter 02) -/

@[simp] theorem crownUncorrectable_orFaulted {was : DevState} (t : Nat) (s : State)
    (h : OrFaulted was s.dev.st) : OrFaulted was (crownUncorrectable t s).dev.st := by simp [crownUncorrectable, h]
@[simp] theorem fetchFailed_orFaulted {was : DevState} (t k : Nat) (s : State)
    (h : OrFaulted was s.dev.st) : OrFaulted was (fetchFailed t k s).dev.st := by simp [fetchFailed, h]

@[simp] theorem fetched_orFaulted {was : DevState} (t k : Nat) (e : Ecc) (f : State → State) (s : State) (hf : StopsOnly was f)
    (h : OrFaulted was s.dev.st) : OrFaulted was (fetched t k e f s).dev.st := by
  simp only [stopsOnly_iff] at hf
  unfold fetched; split <;> simp [h, hf]

@[simp] theorem ownInstrs_orFaulted {was : DevState} (t k : Nat) (ecc : List Ecc) (f : List Ecc → State → State) (s : State)
    (hf : ∀ x, StopsOnly was (f x))
    (h : OrFaulted was s.dev.st) : OrFaulted was (ownInstrs t k ecc f s).dev.st := by
  simp only [stopsOnly_iff] at hf
  simp [ownInstrs, h, hf]

@[simp] theorem finish_orFaulted {was : DevState} (t k : Nat) (ecc : List Ecc) (s : State)
    (h : OrFaulted was s.dev.st) : OrFaulted was (finish t k ecc s).dev.st := by simp [finish, h]
@[simp] theorem resume_orFaulted {was : DevState} (t k : Nat) (s : State)
    (h : OrFaulted was s.dev.st) : OrFaulted was (resume t k s).dev.st := by simp [resume, h]

@[simp] theorem issued_orFaulted {was : DevState} (i : Issue) (u : Nat) (ok : Bool) (f : State → State) (s : State) (hf : StopsOnly was f)
    (h : OrFaulted was s.dev.st) : OrFaulted was (issued i u ok f s).dev.st := by
  simp only [stopsOnly_iff] at hf
  grind [StopsOnly, issued, takeArrivals_st, fetched_orFaulted, ownInstrs_orFaulted, finish_orFaulted]

/-! ### Remote memory and synchronisation (Chapter 12) -/

@[simp] theorem issue_orFaulted {was : DevState} (t : Tile) (by' : Option Nat) (p : Packet) (ret : Nat) (counter : Option Nat) (tray : Bool)
    (s : State)
    (h : OrFaulted was s.dev.st) : OrFaulted was (issue t by' p ret counter tray s).dev.st := by
  grind [issue, raise_dev, stopA3_orFaulted, injectPacket_st, haltIssuer_st]

@[simp] theorem sendCopy_orFaulted {was : DevState} (fuel : Nat) (j : CopyJob) (s : State)
    (h : OrFaulted was s.dev.st) : OrFaulted was (sendCopy fuel j s).2.dev.st := by
  induction fuel generalizing j s with
  | zero => exact h
  | succ n ih =>
    unfold sendCopy
    split
    · exact h
    · split
      · split
        · exact ih _ _ (foldl_orFaulted _ (fun s e h => issue_orFaulted _ _ _ _ _ _ _ h) _ _ h)
        · exact h
      · exact h

@[simp] theorem pumpCopies_orFaulted {was : DevState} (s : State)
    (h : OrFaulted was s.dev.st) : OrFaulted was (pumpCopies s).dev.st := by
  refine foldl_orFaulted _ (fun s x h => ?_) _ _ (by simp [h])
  simp [h]

@[simp] theorem wakeWaiter_orFaulted {was : DevState} (k : Nat) (w : Nat × Nat × Nat × Nat × Nat) (s : State)
    (h : OrFaulted was s.dev.st) : OrFaulted was (wakeWaiter k w s).dev.st := by simp [wakeWaiter, h]

@[simp] theorem doSignal_orFaulted {was : DevState} (k n ep t : Nat) (s : State)
    (h : OrFaulted was s.dev.st) : OrFaulted was (doSignal k n ep t s).dev.st := by
  unfold doSignal; dsimp only
  refine foldl_orFaulted _ (fun s w h => wakeWaiter_orFaulted _ _ _ h) _ _ ?_
  split <;> simpa using h

@[simp] theorem signalCtr_orFaulted {was : DevState} (k n ep t op : Nat) (s : State)
    (h : OrFaulted was s.dev.st) : OrFaulted was (signalCtr k n ep t op s).dev.st := by simp [signalCtr, h]

@[simp] theorem behindGroup_orFaulted {was : DevState} (p : Packet) (a n : Nat) (f : State → State) (s : State) (hf : StopsOnly was f)
    (h : OrFaulted was s.dev.st) : OrFaulted was (behindGroup p a n f s).dev.st := by
  simp only [stopsOnly_iff] at hf
  unfold behindGroup; split <;> simp [h, hf]

@[simp] theorem answerLoad_orFaulted {was : DevState} (p : Packet) (a : Nat) (ecc : List (Nat × Ecc)) (s : State)
    (h : OrFaulted was s.dev.st) : OrFaulted was (answerLoad p a ecc s).dev.st := by simp [answerLoad, h]

@[simp] theorem checkVersion_orFaulted {was : DevState} (a : Nat) (p : Packet) (s : State)
    (h : OrFaulted was s.dev.st) : OrFaulted was (checkVersion a p s).dev.st := by
  unfold checkVersion; repeat' split
  all_goals simp [h]

@[simp] theorem performStore_orFaulted {was : DevState} (p : Packet) (a : Nat) (s : State)
    (h : OrFaulted was s.dev.st) : OrFaulted was (performStore p a s).dev.st := by simp [performStore, h]

@[simp] theorem takeRequest_orFaulted {was : DevState} (op : Nat) (p : Packet) (fresh again : Nat → State → State) (s : State)
    (hfresh : ∀ x, StopsOnly was (fresh x)) (hagain : ∀ x, StopsOnly was (again x))
    (h : OrFaulted was s.dev.st) : OrFaulted was (takeRequest op p fresh again s).dev.st := by
  simp only [stopsOnly_iff] at hfresh hagain
  rw [takeRequest]
  by_cases hc : p.opcode.toNat ≠ op ∨ s.dev.st = .lookout
  · rwa [if_pos hc]
  · rw [if_neg hc]
    cases requestAddr s p with
    | none => exact (refuseWindow_st p s).symm ▸ h
    | some a =>
      cases placeOf (win s p.src) p.seq.toNat with
      | beyond => exact h
      | duplicate =>
        simp only []
        split
        · rwa [respondError_st]
        · exact hagain _ _ h
      | fresh =>
        simp only []
        split
        · rwa [refuseAddr_st]
        · split
          · rwa [respondError_st]
          · exact hfresh _ _ h

@[simp] theorem performWaiting_orFaulted {was : DevState} (p : Packet) (ecc : List (Nat × Ecc)) (s : State)
    (h : OrFaulted was s.dev.st) : OrFaulted was (performWaiting p ecc s).dev.st := by
  grind [StopsOnly, performWaiting, markDone_st, respondError_st, behindGroup_orFaulted, answerLoad_orFaulted, performStore_orFaulted, applyAtomic_st]
@[simp] theorem complete_orFaulted {was : DevState} (e : Pend) (s : State)
    (h : OrFaulted was s.dev.st) : OrFaulted was (complete e s).dev.st := by
  unfold complete; split <;> simp [h]

@[simp] theorem takeResponse_orFaulted {was : DevState} (op : Nat) (p : Packet) (f : Pend → State → State) (s : State) (hf : ∀ x, StopsOnly was (f x))
    (h : OrFaulted was s.dev.st) : OrFaulted was (takeResponse op p f s).dev.st := by
  simp only [stopsOnly_iff] at hf
  unfold takeResponse; repeat' split
  all_goals simp [h, hf]

@[simp] theorem targetDead_orFaulted {was : DevState} (e : Pend) (s : State)
    (h : OrFaulted was s.dev.st) : OrFaulted was (targetDead e s).dev.st := by simp [targetDead, h]

/-! ### Start, rings and identity (Chapter 15) -/

@[simp] theorem powerUp_drift {was : DevState} (v48 : Nat) (obs : TrainObs) (r : Ring) (s : State)
    (h : Drift was s.dev.st) : Drift was (powerUp v48 obs r s).dev.st := by simp [powerUp, h]

/-! ### The tile's crown half (Chapter 02) -/

@[simp] theorem runStream_orFaulted {was : DevState} (t : Nat) (st : Stream) (sw parityOk : Bool) (s : State)
    (h : OrFaulted was s.dev.st) : OrFaulted was (runStream t st sw parityOk s).dev.st := by simp [runStream, h]
@[simp] theorem combineReads_orFaulted {was : DevState} (t : Nat) (kind : CombineKind) (dest : CombineTo) (node n idx : Nat) (value : DWord)
    (bad : Bool) (ecc : List (Nat × Ecc)) (s : State)
    (h : OrFaulted was s.dev.st) : OrFaulted was (combineReads t kind dest node n idx value bad ecc s).dev.st := by simp [combineReads, h]

/-! ### The Flume path and bulk reductions (Chapter 13) -/

@[simp] theorem raiseTimeout_orFaulted {was : DevState} (group seq : Word) (planes : Nat) (s : State)
    (h : OrFaulted was s.dev.st) : OrFaulted was (raiseTimeout group seq planes s).dev.st := by simp [raiseTimeout, h]

@[simp] theorem sendFlume_orFaulted {was : DevState} (op part kind : Nat) (slots : List Nat) (d : Desc) (ns : List FNode) (s : State)
    (h : OrFaulted was s.dev.st) : OrFaulted was (sendFlume op part kind slots d ns s).dev.st := by
  have planes : ∀ (v : Option (List DWord)) (e : Desc) (xs : List (Nat × Nat)) (u : State),
      (xs.foldl (sendPlane kind e v ns) ([], 0, u)).2.2.dev.st = u.dev.st := fun v e xs u =>
    foldl_keeps (fun x : List Packet × Nat × State => x.2.2.dev.st) (fun x i => sendPlane_st kind e v ns x i) xs _
  unfold sendFlume; dsimp only
  split
  · exact h
  · split
    · refine raiseTimeout_orFaulted _ _ _ _ ?_
      rwa [planes]
    · simpa only [planes] using h

@[simp] theorem beginFlume_orFaulted {was : DevState} (im : Image) (mask pos op part kind fop type count : Nat) (values : Nat → List DWord)
    (s : State)
    (h : OrFaulted was s.dev.st) : OrFaulted was (beginFlume im mask pos op part kind fop type count values s).dev.st := by
  unfold beginFlume; split <;> simp [h]

@[simp] theorem deviceNodes_orFaulted {was : DevState} (fop type count : Nat) (ns : List FNode) (s : State)
    (h : OrFaulted was s.dev.st) : OrFaulted was (deviceNodes fop type count ns s).dev.st := by simp [deviceNodes, h]
@[simp] theorem deviceFlume_orFaulted {was : DevState} (fop type : Nat) (values : List DWord) (s : State)
    (h : OrFaulted was s.dev.st) : OrFaulted was (deviceFlume fop type values s).dev.st := by simp [deviceFlume, h]

@[simp] theorem deviceFlumes_orFaulted {was : DevState} (n fop type : Nat) (values : List DWord) (s : State)
    (h : OrFaulted was s.dev.st) : OrFaulted was (deviceFlumes n fop type values s).dev.st := by
  refine foldl_orFaulted _ (fun s x h => ?_) _ _ (by simp [h])
  simp [h]

@[simp] theorem raiseMismatch_orFaulted {was : DevState} (x : FOp) (idx : Nat) (s : State)
    (h : OrFaulted was s.dev.st) : OrFaulted was (raiseMismatch x idx s).dev.st := by simp [raiseMismatch, h]
@[simp] theorem reduceFailed_orFaulted {was : DevState} (b : Bulk) (missing : Nat) (s : State)
    (h : OrFaulted was s.dev.st) : OrFaulted was (reduceFailed b missing s).dev.st := by simp [reduceFailed, h]

@[simp] theorem bulkFlume_orFaulted {was : DevState} (b : Bulk) (part kind fop type : Nat) (values : List DWord) (s : State)
    (h : OrFaulted was s.dev.st) : OrFaulted was (bulkFlume b part kind fop type values s).dev.st := by
  unfold bulkFlume
  split
  · split <;> simp [h]
  · exact h

@[simp] theorem advanceBulk_orFaulted {was : DevState} (b : Bulk) (s : State)
    (h : OrFaulted was s.dev.st) : OrFaulted was (advanceBulk b s).dev.st := by simp [advanceBulk, h]
@[simp] theorem bulkResultIn_orFaulted {was : DevState} (b : Bulk) (x : FOp) (ws : List DWord) (s : State)
    (h : OrFaulted was s.dev.st) : OrFaulted was (bulkResultIn b x ws s).dev.st := by simp [bulkResultIn, h]

@[simp] theorem pollBulk_orFaulted {was : DevState} (group : Word) (s : State)
    (h : OrFaulted was s.dev.st) : OrFaulted was (pollBulk group s).dev.st := by
  unfold pollBulk
  repeat' split
  all_goals simp [h]

@[simp] theorem beginBulk_orFaulted {was : DevState} (im : Image) (mask pos op kind fop type : Nat) (slices : List (Nat × List Nat))
    (words : Nat → List DWord) (s : State)
    (h : OrFaulted was s.dev.st) : OrFaulted was (beginBulk im mask pos op kind fop type slices words s).dev.st := by
  unfold beginBulk; split <;> simp [h]

@[simp] theorem onChunk_orFaulted {was : DevState} (job : BitVec 16) (group : Word) (n : Nat) (f : Bulk → BChunk → BChunk) (s : State)
    (h : OrFaulted was s.dev.st) : OrFaulted was (onChunk job group n f s).dev.st := by
  unfold onChunk; split <;> simp [h]

/-! ### The ops of a Tally program (Chapter 05) -/

@[simp] theorem runOp_orFaulted {was : DevState} (pos op opcode variant : Nat) (f : Image → OpRec → State → State) (s : State)
    (hf : ∀ x y, StopsOnly was (f x y))
    (h : OrFaulted was s.dev.st) : OrFaulted was (runOp pos op opcode variant f s).dev.st := by
  simp only [stopsOnly_iff] at hf
  unfold runOp; split <;> simp [h, hf]

@[simp] theorem reduceOp_orFaulted {was : DevState} (variant pos op : Nat) (s : State)
    (h : OrFaulted was s.dev.st) : OrFaulted was (reduceOp variant pos op s).dev.st := by simp [reduceOp, h]

@[simp] theorem releaseBlock_orFaulted {was : DevState} (r : RingRec) (step : Nat) (s : State)
    (h : OrFaulted was s.dev.st) : OrFaulted was (releaseBlock r step s).dev.st := by
  unfold releaseBlock; repeat' split
  all_goals simp [h]

@[simp] theorem nextTurn_orFaulted {was : DevState} (pos op : Nat) (g : OpRec × RingRec) (gs : List (OpRec × RingRec)) (run : RingRun)
    (last : State → State) (s : State) (hlast : StopsOnly was last)
    (h : OrFaulted was s.dev.st) : OrFaulted was (nextTurn pos op g gs run last s).dev.st := by
  simp only [stopsOnly_iff] at hlast
  have hr : OrFaulted was (gs.foldl (fun s e => releaseBlock e.2 run.step s) s).dev.st :=
    foldl_orFaulted _ (fun s e h => releaseBlock_orFaulted _ _ _ h) _ _ h
  unfold nextTurn; dsimp only
  split
  · simpa using hlast _ hr
  · simpa using hr

@[simp] theorem turnedOr_orFaulted {was : DevState} (v pos op : Nat)
    (turn : Nat → Nat → Image → OpRec → OpRec × RingRec → List (OpRec × RingRec) → RingRun → State → State) (stored : State → State) (s : State)
    (hturn : ∀ x y z u v w q, StopsOnly was (turn x y z u v w q)) (hstored : StopsOnly was stored)
    (h : OrFaulted was s.dev.st) : OrFaulted was (turnedOr v pos op turn stored s).dev.st := by
  simp only [stopsOnly_iff] at hturn hstored
  unfold turnedOr; repeat' split
  all_goals simp [h, hturn, hstored]

@[simp] theorem rotateOp_orFaulted {was : DevState} (pos op : Nat) (im : Image) (o : OpRec) (g : OpRec × RingRec) (gs : List (OpRec × RingRec))
    (run : RingRun) (s : State)
    (h : OrFaulted was s.dev.st) : OrFaulted was (rotateOp pos op im o g gs run s).dev.st := by
  grind [StopsOnly, rotateOp, runOp_orFaulted, writeRows_st, nextTurn_orFaulted]

@[simp] theorem rotateGrads_orFaulted {was : DevState} (pos op : Nat) (im : Image) (o : OpRec) (g : OpRec × RingRec) (gs : List (OpRec × RingRec))
    (run : RingRun) (s : State)
    (h : OrFaulted was s.dev.st) : OrFaulted was (rotateGrads pos op im o g gs run s).dev.st := by
  grind [StopsOnly, rotateGrads, runOp_orFaulted, nextTurn_orFaulted, sendGrads_st, turnedGrads_st]

@[simp] theorem normaliseOp_orFaulted {was : DevState} (variant pos op : Nat) (s : State)
    (h : OrFaulted was s.dev.st) : OrFaulted was (normaliseOp variant pos op s).dev.st := by simp [normaliseOp, h]
@[simp] theorem scatterOp_orFaulted {was : DevState} (variant pos op : Nat) (s : State)
    (h : OrFaulted was s.dev.st) : OrFaulted was (scatterOp variant pos op s).dev.st := by simp [scatterOp, h]
@[simp] theorem drawOp_orFaulted {was : DevState} (variant pos op : Nat) (s : State)
    (h : OrFaulted was s.dev.st) : OrFaulted was (drawOp variant pos op s).dev.st := by simp [drawOp, h]

@[simp] theorem collectiveOp_orFaulted {was : DevState} (variant pos op : Nat) (members : List MemberX)
    (f : Image → OpRec → List (Tens × Geo) → State → State) (wait : Image → OpRec → State → State) (s : State)
    (hf : ∀ x y z, StopsOnly was (f x y z)) (hwait : ∀ x y, StopsOnly was (wait x y))
    (h : OrFaulted was s.dev.st) : OrFaulted was (collectiveOp variant pos op members f wait s).dev.st := by
  simp only [stopsOnly_iff] at hf hwait
  grind [StopsOnly, collectiveOp, waitInput_st, runOp_orFaulted]

@[simp] theorem flumeWait_orFaulted {was : DevState} (variant pos op fop : Nat) (count : OpRec → Image → Nat)
    (use : Image → OpRec → List DWord → State → State) (im : Image) (o : OpRec) (s : State) (huse : ∀ x y z, StopsOnly was (use x y z))
    (h : OrFaulted was s.dev.st) : OrFaulted was (flumeWait variant pos op fop count use im o s).dev.st := by
  simp only [stopsOnly_iff] at huse
  grind [StopsOnly, flumeWait, beginFlume_orFaulted, takeResult_st, runOp_orFaulted]

@[simp] theorem bulkWait_orFaulted {was : DevState} (variant pos op fop kind : Nat) (slices : Image → OpRec → List (Nat × List Nat))
    (use : Image → OpRec → List DWord → State → State) (im : Image) (o : OpRec) (s : State) (huse : ∀ x y z, StopsOnly was (use x y z))
    (h : OrFaulted was s.dev.st) : OrFaulted was (bulkWait variant pos op fop kind slices use im o s).dev.st := by
  simp only [stopsOnly_iff] at huse
  grind [StopsOnly, bulkWait, beginBulk_orFaulted, takeBulk_st, runOp_orFaulted]

@[simp] theorem sendVersions_orFaulted {was : DevState} (im : Image) (o : OpRec) (pos : Nat) (s : State)
    (h : OrFaulted was s.dev.st) : OrFaulted was (sendVersions im o pos s).dev.st := by
  unfold sendVersions; dsimp only
  split
  · exact h
  · split
    · split
      · exact h
      · exact foldl_orFaulted _ (fun s m h => issue_orFaulted _ _ _ _ _ _ _ h) _ _ h
    · exact h

@[simp] theorem gatherOp_orFaulted {was : DevState} (pos op : Nat) (members : List MemberX) (f : Image → OpRec → List (Tens × Geo) → State → State)
    (wait : Image → OpRec → State → State) (s : State) (hf : ∀ x y z, StopsOnly was (f x y z)) (hwait : ∀ x y, StopsOnly was (wait x y))
    (h : OrFaulted was s.dev.st) : OrFaulted was (gatherOp pos op members f wait s).dev.st := by
  simp only [stopsOnly_iff] at hf hwait
  grind [StopsOnly, gatherOp, runOp_orFaulted, collectiveOp_orFaulted, sendVersions_orFaulted]

/-! ### Phase boundaries (Chapter 06) -/

@[simp] theorem finishTiles_orFaulted {was : DevState} (p : Plan) (s : State)
    (h : OrFaulted was s.dev.st) : OrFaulted was (finishTiles p s).dev.st :=
  foldl_orFaulted _ (fun _ _ h => foldl_orFaulted _ (fun _ _ h => finish_orFaulted _ _ _ _ h) _ _ h) _ _ h
@[simp] theorem transferPull_orFaulted {was : DevState} (p : Plan) (x : Transfer) (s : State)
    (h : OrFaulted was s.dev.st) : OrFaulted was (transferPull p x s).dev.st := by
  simp only [transferPull]; split <;> simp [h]

@[simp] theorem startTransfers_orFaulted {was : DevState} (p : Plan) (ts : List Transfer) (s : State)
    (h : OrFaulted was s.dev.st) : OrFaulted was (startTransfers p ts s).dev.st := by
  refine pumpCopies_orFaulted _ (foldl_orFaulted _ (fun s x h => ?_) _ _ h)
  split <;> simp [h]

@[simp] theorem startPhase_orFaulted {was : DevState} (p : Plan) (m : ModPlan) (phases phase : Nat) (s : State)
    (h : OrFaulted was s.dev.st) : OrFaulted was (startPhase p m phases phase s).dev.st := by simp [startPhase, h]
@[simp] theorem startStep_orFaulted {was : DevState} (s : State)
    (h : OrFaulted was s.dev.st) : OrFaulted was (startStep s).dev.st := by
  unfold startStep; split <;> simp [h]

/-! ### Planning (Chapter 06) -/

@[simp] theorem sendRounds_orFaulted {was : DevState} (k : Nat) (d : DWord) (xs : List (Nat × DWord)) (s : State)
    (h : OrFaulted was s.dev.st) : OrFaulted was (sendRounds k d xs s).dev.st := by grind [sendRounds, deviceFlume_orFaulted]
@[simp] theorem raiseSkew_orFaulted {was : DevState} (c : Nat × Nat × Nat) (s : State)
    (h : OrFaulted was s.dev.st) : OrFaulted was (raiseSkew c s).dev.st := by simp [raiseSkew, h]
@[simp] theorem failPlanning_orFaulted {was : DevState} (code obj peer : Nat) (det : List Byte) (s : State)
    (h : OrFaulted was s.dev.st) : OrFaulted was (failPlanning code obj peer det s).dev.st := by simp [failPlanning, h]

theorem digestFault_orFaulted {was : DevState} (code : Nat) (own : DWord) (others : List (Nat × DWord)) (s : State)
    (h : OrFaulted was s.dev.st) {t : State} (ht : digestFault code own others s = some t) : OrFaulted was t.dev.st := by
  obtain ⟨x, -, rfl⟩ := Option.map_eq_some_iff.mp ht
  exact failPlanning_orFaulted _ _ _ _ _ h

theorem romFault_orFaulted {was : DevState} (roms : List Word) (s : State) (h : OrFaulted was s.dev.st) {t : State}
    (ht : romFault roms s = some t) : OrFaulted was t.dev.st := by
  unfold romFault at ht; dsimp only at ht
  split at ht
  · cases ht
  · cases ht; exact failPlanning_orFaulted _ _ _ _ _ h

theorem carriedFault_orFaulted {was : DevState} (im : Image) (s : State) (h : OrFaulted was s.dev.st) {t : State}
    (ht : carriedFault im s = some t) : OrFaulted was t.dev.st := by
  unfold carriedFault at ht
  split at ht
  · obtain ⟨c, -, rfl⟩ := Option.map_eq_some_iff.mp ht
    exact raiseSkew_orFaulted _ _ h
  · cases ht

theorem fitFault_orFaulted {was : DevState} (im : Image) (p : Plan) (s : State) (h : OrFaulted was s.dev.st) {t : State}
    (ht : fitFault im p s = some t) : OrFaulted was t.dev.st := by
  have fail : ∀ obj det, some (failPlanning errPlanFit obj none32 det s) = some t → OrFaulted was t.dev.st :=
    fun _ _ hu => Option.some.inj hu ▸ failPlanning_orFaulted _ _ _ _ _ h
  unfold fitFault at ht
  extract_lets slot need copies at ht
  by_cases hn : slot < need
  · exact fail _ _ (by simpa only [if_pos hn] using ht)
  · rw [if_neg hn] at ht
    cases hm : p.mods.findSome? (·.misfit) with
    | some e => exact fail _ _ (by simpa only [hm] using ht)
    | none =>
      simp only [hm] at ht
      by_cases hc : 0x80000000 < copies
      · exact fail _ _ (by simpa only [if_pos hc] using ht)
      · rw [if_neg hc] at ht; cases ht

theorem groupsFault_orFaulted {was : DevState} (im : Image) (s : State) (h : OrFaulted was s.dev.st) {t : State}
    (ht : groupsFault im s = some t) : OrFaulted was t.dev.st := by
  unfold groupsFault at ht; dsimp only at ht
  split at ht
  · cases ht; exact failPlanning_orFaulted _ _ _ _ _ h
  · cases ht

/-- Of a step of Table 06-6, the state at its first fault and the state that it goes on with are both the device's own or FAULTED. -/
def RoundOrFaulted (was : DevState) (r : Option State × State) : Prop := (∀ t, r.1 = some t → OrFaulted was t.dev.st) ∧ OrFaulted was r.2.dev.st

theorem unlessFaulted_orFaulted {was : DevState} (s : State) (h : OrFaulted was s.dev.st) : RoundOrFaulted was (unlessFaulted s) := by
  refine ⟨fun t ht => ?_, h⟩
  simp only [unlessFaulted] at ht
  split at ht
  · cases ht; exact h
  · cases ht

/-- A round whose digests disagree ends at that fault. -/
theorem roundOrFaulted_of_fault {was : DevState} {s t : State} (hs : OrFaulted was s.dev.st) (ht : OrFaulted was t.dev.st) :
    RoundOrFaulted was (some t, s) := ⟨fun _ hu => Option.some.inj hu ▸ ht, hs⟩

theorem comparePlans_orFaulted {was : DevState} (plans : List (Nat × DWord)) (s : State) (h : OrFaulted was s.dev.st) :
    RoundOrFaulted was (comparePlans plans s) := by
  rw [comparePlans]
  generalize hs' : sendRounds _ _ _ _ = s'
  have hs : OrFaulted was s'.dev.st := hs' ▸ sendRounds_orFaulted _ _ _ _ h
  cases hd : digestFault errPlanDisagree (s.job.plan.getD {}).digest plans s' with
  | some t => exact roundOrFaulted_of_fault hs (digestFault_orFaulted _ _ _ _ hs hd)
  | none => exact unlessFaulted_orFaulted _ hs

theorem installFitting_orFaulted {was : DevState} (x : PlanIn) (im : Image) (first : Nat) (p : Plan) (s : State)
    (h : OrFaulted was s.dev.st) : RoundOrFaulted was (installFitting x im first p s) := by
  rw [installFitting]
  cases hf : fitFault im p s with
  | none => exact comparePlans_orFaulted _ _ ((installOwn_st im p first s).symm ▸ h)
  | some t => exact roundOrFaulted_of_fault h (fitFault_orFaulted _ _ _ h hf)

theorem planNow_orFaulted {was : DevState} (x : PlanIn) (im : Image) (first : Nat) (s : State) (h : OrFaulted was s.dev.st) :
    RoundOrFaulted was (planNow x im first s) := by
  rw [planNow]
  cases shapePlan s im with
  | error e => exact roundOrFaulted_of_fault h (failPlanning_orFaulted _ _ _ _ _ h)
  | ok r =>
    cases hg : groupsFault im s with
    | some t => simpa only [hg] using roundOrFaulted_of_fault h (groupsFault_orFaulted _ _ h hg)
    | none => simpa only [hg] using installFitting_orFaulted _ _ _ _ _ h

theorem planRounds_orFaulted {was : DevState} (x : PlanIn) (s : State) (h : OrFaulted was s.dev.st) : RoundOrFaulted was (planRounds x s) := by
  unfold planRounds
  extract_lets d s₁ v s₂
  have h₁ : OrFaulted was s₁.dev.st := sendRounds_orFaulted _ _ _ _ h
  have h₂ : OrFaulted was s₂.dev.st := deviceFlume_orFaulted _ _ _ _ h₁
  cases hd : digestFault errStartDisagree d x.starts s₁ with
  | some t => exact roundOrFaulted_of_fault h₁ (digestFault_orFaulted _ _ _ _ h₁ hd)
  | none =>
    cases hr : romFault x.roms s₂ with
    | some t => exact roundOrFaulted_of_fault h₂ (romFault_orFaulted _ _ h₂ hr)
    | none => exact unlessFaulted_orFaulted _ (deviceFlume_orFaulted _ _ _ _ h₂)

/-! ### The keeper (Chapter 14) -/

@[simp] theorem sendToKeeper_orFaulted {was : DevState} (js : List CopyJob) (s : State)
    (h : OrFaulted was s.dev.st) : OrFaulted was (sendToKeeper js s).dev.st := by simp [sendToKeeper, h]
@[simp] theorem mirrorRecord_orFaulted {was : DevState} (r : List Byte) (s : State)
    (h : OrFaulted was s.dev.st) : OrFaulted was (mirrorRecord r s).dev.st := by simp [mirrorRecord, h]
@[simp] theorem sendHeader_orFaulted {was : DevState} (b : Nat) (k : KeepSlot) (s : State)
    (h : OrFaulted was s.dev.st) : OrFaulted was (sendHeader b k s).dev.st := by simp [sendHeader, h]
@[simp] theorem sendChunks_orFaulted {was : DevState} (b : Nat) (k : KeepSlot) (s : State)
    (h : OrFaulted was s.dev.st) : OrFaulted was (sendChunks b k s).dev.st := by simp [sendChunks, h]

@[simp] theorem sendSnapshot_orFaulted {was : DevState} (s : State)
    (h : OrFaulted was s.dev.st) : OrFaulted was (sendSnapshot s).dev.st := by
  have go : ∀ b k u, OrFaulted was u.dev.st →
      OrFaulted was (if k.st = 1 ∧ u.recov.saving = some k.step.toNat then sendChunks b k (sendHeader b k u) else u).dev.st := by
    intro b k u hu
    split
    · exact sendChunks_orFaulted _ _ _ (sendHeader_orFaulted _ _ _ hu)
    · exact hu
  exact go 1 s.recov.ownB _ (go 0 s.recov.ownA s h)

@[simp] theorem pumpPulls_orFaulted {was : DevState} (b : Nat) (k : KeepSlot) (fuel : Nat) (s : State)
    (h : OrFaulted was s.dev.st) : OrFaulted was (pumpPulls b k fuel s).dev.st := by
  induction fuel generalizing s with
  | zero => exact h
  | succ n ih =>
    unfold pumpPulls; dsimp only
    split
    · exact h
    · split
      · split
        · exact ih _ (issue_orFaulted _ _ _ _ _ _ _ h)
        · exact h
      · exact h

@[simp] theorem goOnPulling_orFaulted {was : DevState} (s : State)
    (h : OrFaulted was s.dev.st) : OrFaulted was (goOnPulling s).dev.st := by
  unfold goOnPulling
  split
  · split <;> simp [h]
  · exact h

/-! ### The step program (Chapter 04) -/

@[simp] theorem sendRanks_orFaulted {was : DevState} (im : Image) (own : List (Nat × DWord)) (s : State)
    (h : OrFaulted was s.dev.st) : OrFaulted was (sendRanks im own s).dev.st := by simp [sendRanks, h]
@[simp] theorem runGuard_orFaulted {was : DevState} (im : Image) (others : List (Nat × DWord)) (s : State)
    (h : OrFaulted was s.dev.st) : OrFaulted was (runGuard im others s).dev.st := by
  unfold runGuard; split <;> simp [h]
@[simp] theorem runPhase_orFaulted {was : DevState} (im : Image) (phase : Nat) (n2 : List (Nat × DWord)) (s : State)
    (h : OrFaulted was s.dev.st) : OrFaulted was (runPhase im phase n2 s).dev.st := by simp [runPhase, h]
@[simp] theorem sendTallies_orFaulted {was : DevState} (im : Image) (s : State)
    (h : OrFaulted was s.dev.st) : OrFaulted was (sendTallies im s).dev.st := by simp [sendTallies, h]
@[simp] theorem reduceTallies_orFaulted {was : DevState} (im : Image) (others : List Tally) (s : State)
    (h : OrFaulted was s.dev.st) : OrFaulted was (reduceTallies im others s).dev.st := by simp [reduceTallies, h]
@[simp] theorem closeNorm_orFaulted {was : DevState} (im : Image) (n2 a : List (Nat × DWord)) (s : State)
    (h : OrFaulted was s.dev.st) : OrFaulted was (closeNorm im n2 a s).dev.st := by simp [closeNorm, h]

@[simp] theorem writeRecords_orFaulted {was : DevState} (rs : List (List Byte)) (s : State)
    (h : OrFaulted was s.dev.st) : OrFaulted was (writeRecords rs s).dev.st := by
  refine foldl_orFaulted _ (fun s x h => ?_) _ _ (by simp [h])
  simp [h]

@[simp] theorem replayInput_orFaulted {was : DevState} (rs : List (List Byte)) (s : State)
    (h : OrFaulted was s.dev.st) : OrFaulted was (replayInput rs s).dev.st := by simp [replayInput, h]
@[simp] theorem sendReplica_orFaulted {was : DevState} (im : Image) (pos mask : Nat) (all : List (Nat × DWord)) (digest : Nat → DWord) (s : State)
    (h : OrFaulted was s.dev.st) : OrFaulted was (sendReplica im pos mask all digest s).dev.st := by grind [sendReplica, beginFlume_orFaulted]

@[simp] theorem setSnapshotState_orFaulted {was : DevState} (n st : Nat) (s : State)
    (h : OrFaulted was s.dev.st) : OrFaulted was (setSnapshotState n st s).dev.st := by
  unfold setSnapshotState; dsimp only
  split <;> split <;> simp [h]

@[simp] theorem commitSnapshot_orFaulted {was : DevState} (landed : Bool) (s : State)
    (h : OrFaulted was s.dev.st) : OrFaulted was (commitSnapshot landed s).dev.st := by
  unfold commitSnapshot; split <;> simp [h]

/-! ### Recovery (Chapter 14) -/

@[simp] theorem heartwoodLost_orFaulted {was : DevState} (cause : Nat) (s : State)
    (h : OrFaulted was s.dev.st) : OrFaulted was (heartwoodLost cause s).dev.st := by simp [heartwoodLost, h]
@[simp] theorem replayPlane_orFaulted {was : DevState} (s : State)
    (h : OrFaulted was s.dev.st) : OrFaulted was (replayPlane s).dev.st := by simp [replayPlane, h]
@[simp] theorem beginRestore_orFaulted {was : DevState} (n : Nat) (s : State)
    (h : OrFaulted was s.dev.st) : OrFaulted was (beginRestore n s).dev.st := by
  unfold beginRestore; split <;> simp [h]

/-- What `restoredPlan` answers: the failed fit, or the state with the device state kept. -/
theorem restoredPlan_cases (im : Image) (old : Table Nat) (s : State) :
    (∃ q t, fitFault im q s = some t ∧ restoredPlan im old s = .inl { t with recov.rollbackTo := none }) ∨
      ∃ t, restoredPlan im old s = .inr t ∧ t.dev.st = s.dev.st := by
  obtain ⟨fit, hfit⟩ : ∃ f, f = fitFault := ⟨_, rfl⟩
  unfold restoredPlan
  rw [← hfit]
  split
  · dsimp only
    split
    · next t hf => exact .inl ⟨_, t, hf, rfl⟩
    · exact .inr ⟨_, rfl, installOwn_st _ _ _ _⟩
  · exact .inr ⟨s, rfl, rfl⟩
  · exact .inr ⟨s, rfl, rfl⟩

theorem restoredPlan_inl_orFaulted (im : Image) (old : Table Nat) (s : State) {t : State} (ht : restoredPlan im old s = .inl t) :
    OrFaulted s.dev.st t.dev.st := by
  obtain ⟨q, u, hf, hu⟩ | ⟨u, hu, -⟩ := restoredPlan_cases im old s
  · obtain rfl := Sum.inl.inj (ht.symm.trans hu)
    have := fitFault_orFaulted im q s .rfl hf
    exact this
  · cases ht.symm.trans hu

theorem restoredPlan_inr_st (im : Image) (old : Table Nat) (s : State) {t : State} (ht : restoredPlan im old s = .inr t) :
    t.dev.st = s.dev.st := by
  obtain ⟨q, u, -, hu⟩ | ⟨u, hu, hst⟩ := restoredPlan_cases im old s
  · cases ht.symm.trans hu
  · obtain rfl := Sum.inr.inj (ht.symm.trans hu)
    exact hst

/-- A fill that is complete runs (Table 01-5). -/
theorem filled_drift {was : DevState} (s : State) (h : Drift was s.dev.st) :
    Drift was (if s.dev.st = .filling then enter .running s else s).dev.st := by
  split
  · next hf => exact (hf ▸ h).trans .fills
  · exact h

@[simp] theorem startReplay_drift {was : DevState} (im : Image) (n : Nat) (k : KeepSlot) (s : State) (h : Drift was s.dev.st) :
    Drift was (startReplay im n k s).dev.st := by
  have failed : ∀ u t, restoredPlan im s.job.formats u = .inl t → Drift was u.dev.st → Drift was t.dev.st :=
    fun u t hp hu => hu.trans (.stops (restoredPlan_inl_orFaulted im _ u hp))
  have fits := @restoredPlan_inr_st im s.job.formats
  have restored : ∀ r ks bs t, t.dev.st = s.dev.st → Drift was (restoreStep im r (takeTensors im n k.formats ks bs t).2).dev.st :=
    fun r ks bs t ht => by rwa [restoreStep_st, takeTensors_st, ht]
  have begun : ∀ t, Drift was t.dev.st → Drift was (formShards im (startStep t)).dev.st := fun t ht => by
    rw [formShards_st]; exact ht.trans (.stops (startStep_orFaulted _ .rfl))
  obtain ⟨plan, hplan⟩ : ∃ f, f = restoredPlan := ⟨_, rfl⟩
  obtain ⟨take, htake⟩ : ∃ f, f = takeTensors := ⟨_, rfl⟩
  obtain ⟨skew, hskew⟩ : ∃ f, f = journalSkew := ⟨_, rfl⟩
  unfold startReplay
  rw [← hplan] at failed fits ⊢
  rw [← htake] at restored ⊢
  rw [← hskew]
  dsimp only
  split
  · exact h.trans (.stops (raiseSkew_orFaulted _ _ .rfl))
  · split
    · next hp => exact failed _ _ hp (restored _ _ _ _ rfl)
    · next t hp =>
      have ht : Drift was t.dev.st := by
        rw [fits _ hp]; exact restored _ _ _ _ rfl
      exact filled_drift _ (begun _ ht)

@[simp] theorem tryReplay_drift {was : DevState} (s : State)
    (h : Drift was s.dev.st) : Drift was (tryReplay s).dev.st := by grind [tryReplay, startReplay_drift]

@[simp] theorem replanAll_orFaulted {was : DevState} (spares : List (Nat × Nat)) (x : PlanIn) (s : State)
    (h : OrFaulted was s.dev.st) : OrFaulted was (replanAll spares x s).dev.st := by
  unfold replanAll
  split
  · next im p _ _ =>
    dsimp only
    split
    · exact h
    · obtain ⟨hfst, hsnd⟩ := planRounds_orFaulted x { s with job.planFrom := s.time } h
      split
      · next heq => exact hfst _ (by rw [heq])
      · next s₁ heq =>
        rw [heq] at hsnd
        obtain ⟨gfst, gsnd⟩ := planNow_orFaulted x im (firstPhase s₁.job.inInit im) s₁ hsnd
        split
        · next geq => exact gfst _ (by rw [geq])
        · next geq => rw [geq] at gsnd; exact gsnd
  · exact h
  · exact h

@[simp] theorem disagree_orFaulted {was : DevState} (action attempt : Nat) (d : DWord) (s : State)
    (h : OrFaulted was s.dev.st) : OrFaulted was (disagree action attempt d s).dev.st := by simp [disagree, h]

@[simp] theorem substituteAll_orFaulted {was : DevState} (slots : List Nat) (spares : List (Nat × Nat)) (x : PlanIn) (s : State)
    (h : OrFaulted was s.dev.st) : OrFaulted was (substituteAll slots spares x s).dev.st := by
  unfold substituteAll
  refine replanAll_orFaulted _ _ _ ?_
  dsimp only
  rw [foldl_st _ (fun s m => ?_)]
  · split <;> simpa [foldl_st _ (fun s m => raiseLost_st _ _ _)] using h
  · split
    · split <;> simp
    · rfl

@[simp] theorem act_orFaulted {was : DevState} (action : Nat) (s : State)
    (h : OrFaulted was s.dev.st) : OrFaulted was (act action s).dev.st := by
  unfold act; repeat' split
  all_goals simp [h]

@[simp] theorem fillRestore_orFaulted {was : DevState} (f : FillIn) (s : State)
    (h : OrFaulted was s.dev.st) : OrFaulted was (fillRestore f s).dev.st := by simp [fillRestore, h]

/-! ### The host port (Chapter 17) -/

@[simp] theorem endPath_drift {was : DevState} (k : Nat) (s : State)
    (h : Drift was s.dev.st) : Drift was (endPath k s).dev.st := by simp [endPath, h]

@[simp] theorem refuseBad_drift {was : DevState} (g : HSeg) (loads : Bool) (off : Nat) (s : State)
    (h : Drift was s.dev.st) : Drift was (refuseBad g loads off s).dev.st := by
  unfold refuseBad
  extract_lets r op s'
  rw [refuseInvalid_st]
  have hs : s'.dev.st = s.dev.st := updConn_st _ _ _
  rw [ite_st, drift_ite, hs]
  exact ⟨fun hl => (hl.2.1 ▸ h).trans .unloads, fun _ => h⟩

/-! ### The test access port (Chapter 18) -/

@[simp] theorem jtagIntrusive_orFaulted {was : DevState} (i : JInstr) (f : State → State) (s : State) (hf : StopsOnly was f)
    (h : OrFaulted was s.dev.st) : OrFaulted was (jtagIntrusive i f s).dev.st := by
  simp only [stopsOnly_iff] at hf
  simp [jtagIntrusive, h, hf]

end Sys2Proof.Machine
end

section
/-! The commands that leave the device state, or change it by a fault, a loading that ends or a fill that is complete. -/
namespace Sys2Proof.Machine
open Sys2Proof

/-- What `P` says of the device state holds where the outcome is a next state. -/
def Ends (P : DevState → Prop) : Host.Outcome State Fault Refusal → Prop
  | .next t => P t.dev.st
  | .fault _ => True
  | .refused _ => True

@[simp] theorem ends_next (P : DevState → Prop) (t : State) : Ends P (.next t) ↔ P t.dev.st := Iff.rfl

theorem Ends.mono {P Q : DevState → Prop} {o : Host.Outcome State Fault Refusal} (h : Ends P o) (hPQ : ∀ b, P b → Q b) : Ends Q o := by
  cases o with
  | next t => exact hPQ _ h
  | fault _ => trivial
  | refused _ => trivial

@[simp] theorem Drift.rfl {a : DevState} : Drift a a := .stops .rfl

/-! ### The host port (Chapter 17) -/

/-- A Hauler request ends in what its effect ends in, or leaves the device state. -/
theorem haulerRequest_ends {P : DevState → Prop} {r : Req} {op : Nat} {accepted : State → Bool} {f : State → State} {s : State}
    (hs : P s.dev.st) (hf : ∀ u, u.dev.st = s.dev.st → accepted u = true → P (f u).dev.st) :
    Ends P (haulerRequest r op accepted f s) := by
  unfold haulerRequest
  rw [ends_next]
  split
  · exact hs
  · dsimp only
    split
    · next ha => exact hf _ (takeDone_st r s) ha
    · simpa using hs

/-! ### The Warden protocol (Chapter 17) -/

/-- A Warden-protocol request ends in what its effect ends in, or leaves the device state. -/
theorem wardenRequest_ends {P : DevState → Prop} {r : WReq} {op : Nat} {early : Bool} {f : State → State} {s : State}
    (hs : P s.dev.st) (hf : P (f s).dev.st) : Ends P (wardenRequest r op early f s) := by
  unfold wardenRequest
  rw [ends_next]
  split
  · exact hs
  · split
    · split
      · exact hf
      · simpa using hs
    · split
      · exact hf
      · exact hs

/-! ### Register access (Chapter 19) -/

/-- A register access leaves the device state. -/
theorem registerCommand_st (p : Path) (write : Bool) (a : Nat) (values : List Word) (s : State) :
    Ends (· = s.dev.st) (registerCommand p write a values s) := by
  unfold registerCommand
  rw [ends_next]
  split
  · simp
  · rfl

/-! ### The host port (Chapter 17) -/

theorem haulerRegs_st (r : Req) (op need : Nat) (write : Bool) (addr : Word) (count : Nat) (values : List Word) (s : State) :
    Ends (· = s.dev.st) (haulerRegs r op need write addr count values s) := by
  refine haulerRequest_ends rfl (fun u hu _ => ?_)
  dsimp only
  repeat' split
  all_goals simp [hu]

/-! ### Memory (Chapter 08) -/

theorem execScrubWalk_orFaulted (t : Tile) (bank : Fin 32) (ecc : List Ecc) (s : State) :
    Ends (OrFaulted s.dev.st) (execScrubWalk t bank ecc s) := by
  have sweep : ∀ (t : Nat) (off : Nat) (es : List (Ecc × Nat)), OrFaulted s.dev.st
      (es.foldl (fun u e => sramFinds t (off + 8 * e.2) 5 e.1 u) s).dev.st :=
    fun t off es => foldl_orFaulted _ (fun u e h => sramFinds_orFaulted _ _ _ _ _ h) _ _ .rfl
  unfold execScrubWalk; rw [ends_next]
  split
  · exact .rfl
  · simp [sweep]

theorem execHbmPatrolScrub_orFaulted (m : Stack) (ecc : List (Nat × Ecc)) (s : State) :
    Ends (OrFaulted s.dev.st) (execHbmPatrolScrub m ecc s) := by simp [execHbmPatrolScrub]
theorem execHbmPatrolBurst_orFaulted (m : Stack) (ecc : List (Nat × Ecc)) (s : State) :
    Ends (OrFaulted s.dev.st) (execHbmPatrolBurst m ecc s) := by simp [execHbmPatrolBurst]
theorem execHbmSelfRefreshEntry_st (m : Stack) (s : State) :
    Ends (· = s.dev.st) (execHbmSelfRefreshEntry m s) := by simp [execHbmSelfRefreshEntry]
theorem execRefreshRateApply_st (m : Stack) (s : State) :
    Ends (· = s.dev.st) (execRefreshRateApply m s) := by simp [execRefreshRateApply]
theorem execCornerTurnRead_orFaulted (t : Tile) (base pitch rows cols width : Nat) (scales : List (Nat × Nat)) (ecc : List (Nat × Ecc)) (s : State) :
    Ends (OrFaulted s.dev.st) (execCornerTurnRead t base pitch rows cols width scales ecc s) := by simp [execCornerTurnRead]

/-! ### Packets, frames and links (Chapters 10 and 11) -/

theorem execMtcSyncSend_st (s : State) :
    Ends (· = s.dev.st) (execMtcSyncSend s) := by
  unfold execMtcSyncSend; rw [ends_next]
  repeat' split
  all_goals simp

theorem execMtcSync_st (m : MtcSync) (s : State) :
    Ends (· = s.dev.st) (execMtcSync m s) := by
  unfold execMtcSync; rw [ends_next]
  split <;> simp

theorem execMtcHoldover_st (s : State) :
    Ends (· = s.dev.st) (execMtcHoldover s) := by simp [execMtcHoldover]

/-! ### Routing (Chapter 11) -/

theorem execRouterPacketArrive_st (t : Tile) (port : Port) (vc : VC) (p : Packet) (s : State) :
    Ends (· = s.dev.st) (execRouterPacketArrive t port vc p s) := by
  unfold execRouterPacketArrive; rw [ends_next]; grind [countPort_st, countFlits_st, routePacket_st, takeFrom_st]

theorem execMeshEscape_st (t : Tile) (vc : VC) (s : State) :
    Ends (· = s.dev.st) (execMeshEscape t vc s) := by
  unfold execMeshEscape; rw [ends_next]
  split <;> simp

theorem execEscapeTableInstall_st (s : State) :
    Ends (· = s.dev.st) (execEscapeTableInstall s) := by simp [execEscapeTableInstall]
theorem execRelayForward_st (l : Lane) (vc : VC) (p : Packet) (s : State) :
    Ends (· = s.dev.st) (execRelayForward l vc p s) := by
  unfold execRelayForward; rw [ends_next]; grind [countPort_st, countFlits_st, takeFrom_st, routeRelay_st]
theorem execReach_st (sub : ReachSubject) (restoral : Bool) (mtc : DWord) (s : State) :
    Ends (· = s.dev.st) (execReach sub restoral mtc s) := by simp [execReach]
theorem execTrayState_st (slot : Fin 9) (live : Bool) (ports : BitVec 4) (s : State) :
    Ends (· = s.dev.st) (execTrayState slot live ports s) := by simp [execTrayState]
theorem execEpochSwitch_st (s : State) :
    Ends (· = s.dev.st) (execEpochSwitch s) := by simp [execEpochSwitch]
theorem execOldEpochRetire_st (s : State) :
    Ends (· = s.dev.st) (execOldEpochRetire s) := by simp [execOldEpochRetire]

/-! ### Die links at work (Chapter 09) -/

theorem execDieLinkTransfer_st (k : Fin 288) (d : Fin 2) (segs : List Segment) (s : State) :
    Ends (· = s.dev.st) (execDieLinkTransfer k d segs s) := by simp [execDieLinkTransfer]
theorem execDieLinkReplayTimeout_st (k : Fin 288) (d : Fin 2) (s : State) :
    Ends (· = s.dev.st) (execDieLinkReplayTimeout k d s) := by simp [execDieLinkReplayTimeout]
theorem execRelinkStart_st (k : Fin 288) (d : Fin 2) (s : State) :
    Ends (· = s.dev.st) (execRelinkStart k d s) := by simp [execRelinkStart]
theorem execRelinkComplete_drift (k : Fin 288) (fails : List WireFail) (codes : List (Fin 2 × Fin 16 × Nat)) (s : State) :
    Ends (Drift s.dev.st) (execRelinkComplete k fails codes s) := by simp [execRelinkComplete]

theorem execMissingClock_drift (k : Fin 32) (fromQuad : Quad) (s : State) :
    Ends (Drift s.dev.st) (execMissingClock k fromQuad s) := by
  unfold execMissingClock; rw [ends_next]
  dsimp only
  rw [ite_st, drift_ite]
  refine ⟨fun _ => ?_, fun _ => .rfl⟩
  rw [reinject_st, reinject_st]
  refine checkSeam_drift _ _ ?_
  rw [ite_st, drift_ite]
  exact ⟨fun _ => loseQuadrant_drift _ _ _ _ .rfl, fun _ => .rfl⟩

theorem execQuadrantResetSeen_drift (q : Quad) (powerGood : Bool) (s : State) :
    Ends (Drift s.dev.st) (execQuadrantResetSeen q powerGood s) := by simp [execQuadrantResetSeen]

/-! ### Lanes and the link layer (Chapter 10) -/

theorem execLaneTrainingAttempt_st (l : Lane) (s : State) :
    Ends (· = s.dev.st) (execLaneTrainingAttempt l s) := by simp [execLaneTrainingAttempt]
theorem execCodewordLock_st (l : Lane) (w : Wave) (words : List Bool) (s : State) :
    Ends (· = s.dev.st) (execCodewordLock l w words s) := by simp [execCodewordLock]
theorem execTrainingTimeout_st (l : Lane) (s : State) :
    Ends (· = s.dev.st) (execTrainingTimeout l s) := by simp [execTrainingTimeout]
theorem execInitFrame_st (l : Lane) (f : InitFrame) (rtt : Nat) (s : State) :
    Ends (· = s.dev.st) (execInitFrame l f rtt s) := by simp [execInitFrame]
theorem execTableDigest_st (l : Lane) (digest : DWord) (s : State) :
    Ends (· = s.dev.st) (execTableDigest l digest s) := by simp [execTableDigest]

theorem execDiscoveryRecord_st (l : Lane) (d : Discovery) (s : State) :
    Ends (· = s.dev.st) (execDiscoveryRecord l d s) := by
  unfold execDiscoveryRecord; rw [ends_next]
  split <;> simp

theorem execLaneExtraLight_st (l : Lane) (powA powB : Int) (s : State) :
    Ends (· = s.dev.st) (execLaneExtraLight l powA powB s) := by simp [execLaneExtraLight]
theorem execLaneRetrain_st (l : Lane) (cause : Nat) (s : State) :
    Ends (· = s.dev.st) (execLaneRetrain l cause s) := by simp [execLaneRetrain]
theorem execRetrainComplete_st (l : Lane) (s : State) :
    Ends (· = s.dev.st) (execRetrainComplete l s) := by simp [execRetrainComplete]

theorem execRetrainTimeout_st (l : Lane) (s : State) :
    Ends (· = s.dev.st) (execRetrainTimeout l s) := by
  unfold execRetrainTimeout; rw [ends_next]; dsimp only
  repeat' split
  all_goals simp

theorem execFrameReceive_st (l : Lane) (f : Frame) (s : State) :
    Ends (· = s.dev.st) (execFrameReceive l f s) := by simp [execFrameReceive]
theorem execFrameReplayTimeout_st (l : Lane) (s : State) :
    Ends (· = s.dev.st) (execFrameReplayTimeout l s) := by simp [execFrameReplayTimeout]
theorem execHostPortDown_drift (lanes : BitVec 8) (cause : Nat) (s : State) :
    Ends (Drift s.dev.st) (execHostPortDown lanes cause s) := by simp [execHostPortDown]
theorem execHostPortUp_st (s : State) :
    Ends (· = s.dev.st) (execHostPortUp s) := by simp [execHostPortUp]
theorem execEthernetPauseReceive_st (frame : List Byte) (s : State) :
    Ends (· = s.dev.st) (execEthernetPauseReceive frame s) := by simp [execEthernetPauseReceive]

/-! ### Remote memory and synchronisation (Chapter 12) -/

theorem execSeqWait_orFaulted (i : Issue) (c th timeout : Nat) (s : State) :
    Ends (OrFaulted s.dev.st) (execSeqWait i c th timeout s) := by simp [execSeqWait]

theorem execSeqTake_orFaulted (i : Issue) (c n : Nat) (s : State) :
    Ends (OrFaulted s.dev.st) (execSeqTake i c n s) := by
  unfold execSeqTake; rw [ends_next]
  refine issued_orFaulted _ _ _ _ _ (fun u h => ?_) .rfl
  dsimp only
  split <;> simp [h]

theorem execWaitTimeout_orFaulted (k place : Nat) (s : State) :
    Ends (OrFaulted s.dev.st) (execWaitTimeout k place s) := by
  unfold execWaitTimeout; rw [ends_next]; dsimp only
  split <;> simp

theorem execLoad_orFaulted (p : Packet) (ecc : List (Nat × Ecc)) (s : State) :
    Ends (OrFaulted s.dev.st) (execLoad p ecc s) := by
  unfold execLoad; rw [ends_next]
  exact takeRequest_orFaulted _ _ _ _ _
    (fun _ u h => behindGroup_orFaulted _ _ _ _ _ (fun _ h => answerLoad_orFaulted _ _ _ _ (by simpa using h)) h)
    (fun _ u h => answerLoad_orFaulted _ _ _ _ h) .rfl

theorem execStore_orFaulted (p : Packet) (s : State) :
    Ends (OrFaulted s.dev.st) (execStore p s) := by
  unfold execStore; rw [ends_next]
  exact takeRequest_orFaulted _ _ _ _ _ (fun _ u h => behindGroup_orFaulted _ _ _ _ _ (fun _ h => performStore_orFaulted _ _ _ h) h)
    (fun _ u h => by simpa using h) .rfl

theorem execStoreFlag_orFaulted (p : Packet) (s : State) :
    Ends (OrFaulted s.dev.st) (execStoreFlag p s) := by simp [execStoreFlag]

theorem execStoreFlagPerform_orFaulted (src : BitVec 16) (s : State) :
    Ends (OrFaulted s.dev.st) (execStoreFlagPerform src s) := by
  unfold execStoreFlagPerform; rw [ends_next]; dsimp only
  repeat' split
  all_goals simp

theorem execAtomic_orFaulted (p : Packet) (s : State) :
    Ends (OrFaulted s.dev.st) (execAtomic p s) := by
  unfold execAtomic; rw [ends_next]
  refine takeRequest_orFaulted _ _ _ _ _ (fun _ u h => ?_) (fun _ u h => ?_) .rfl
  · dsimp only
    split
    · simpa using h
    · split
      · exact h
      · split
        · exact h
        · split
          · exact h
          · simpa using h
  · split
    · simpa using h
    · exact h

theorem execAtomicGroupClose_orFaulted (line : Nat) (ecc : List (Nat × Ecc)) (s : State) :
    Ends (OrFaulted s.dev.st) (execAtomicGroupClose line ecc s) := by
  unfold execAtomicGroupClose; rw [ends_next]
  split
  · exact .rfl
  · dsimp only
    rw [retryParked_st]
    refine foldl_orFaulted _ (fun _ _ h => performWaiting_orFaulted _ _ _ h) _ _ ?_
    rw [foldl_st _ fun _ _ => applyAtomic_st ..]
    exact rangeFinds_orFaulted _ _ _ _ _ _ .rfl

theorem execAtomicResultExpire_st (src : BitVec 16) (seq : Word) (s : State) :
    Ends (· = s.dev.st) (execAtomicResultExpire src seq s) := by simp [execAtomicResultExpire]

theorem execSignal_orFaulted (p : Packet) (s : State) :
    Ends (OrFaulted s.dev.st) (execSignal p s) := by
  unfold execSignal; rw [ends_next]
  refine takeRequest_orFaulted _ _ _ _ _ (fun _ u h => ?_) (fun _ u h => by simpa using h) .rfl
  split
  · exact signalCtr_orFaulted _ _ _ _ _ _ (by simpa using h)
  · exact h

theorem execSeqSignal_orFaulted (i : Issue) (d : Dest) (t : Tile) (c n : Nat) (s : State) :
    Ends (OrFaulted s.dev.st) (execSeqSignal i d t c n s) := by
  unfold execSeqSignal; rw [ends_next]
  refine issued_orFaulted _ _ _ _ _ (fun u h => ?_) .rfl
  dsimp only
  repeat' split
  all_goals simp [h]

theorem execCopyEngineCopy_orFaulted (i : Issue) (c : CopyReq) (ecc : List (Nat × Ecc)) (s : State) :
    Ends (OrFaulted s.dev.st) (execCopyEngineCopy i c ecc s) := by
  unfold execCopyEngineCopy; rw [ends_next]
  exact issued_orFaulted _ _ _ _ _ (fun u h => pumpCopies_orFaulted _ (rangeFinds_orFaulted _ _ _ _ _ _ (by simpa using h))) .rfl

theorem execCopyPull_orFaulted (p : Packet) (ecc : List (Nat × Ecc)) (s : State) :
    Ends (OrFaulted s.dev.st) (execCopyPull p ecc s) := by
  unfold execCopyPull; rw [ends_next]
  refine takeRequest_orFaulted _ _ _ _ _ (fun _ u h => ?_) (fun _ u h => by simpa using h) .rfl
  dsimp only
  split
  · simpa using h
  · exact pumpCopies_orFaulted _ (rangeFinds_orFaulted _ _ _ _ _ _ (by simpa using h))

theorem execTeeForward_orFaulted (ring step : Nat) (ecc : List (Nat × Ecc)) (s : State) :
    Ends (OrFaulted s.dev.st) (execTeeForward ring step ecc s) := by
  unfold execTeeForward; rw [ends_next]; dsimp only
  repeat' split
  all_goals simp

theorem execLoadData_orFaulted (p : Packet) (s : State) :
    Ends (OrFaulted s.dev.st) (execLoadData p s) := by
  unfold execLoadData; rw [ends_next]
  exact takeResponse_orFaulted _ _ _ _ (fun _ _ h => complete_orFaulted _ _ (by simpa using h)) .rfl

theorem execAck_orFaulted (p : Packet) (s : State) :
    Ends (OrFaulted s.dev.st) (execAck p s) := by
  unfold execAck; rw [ends_next]
  exact takeResponse_orFaulted _ _ _ _ (fun _ _ h => complete_orFaulted _ _ h) .rfl

theorem execAtomicData_orFaulted (p : Packet) (s : State) :
    Ends (OrFaulted s.dev.st) (execAtomicData p s) := by
  unfold execAtomicData; rw [ends_next]
  exact takeResponse_orFaulted _ _ _ _ (fun _ _ h => complete_orFaulted _ _ (by simpa using h)) .rfl

theorem execBusy_orFaulted (p : Packet) (s : State) :
    Ends (OrFaulted s.dev.st) (execBusy p s) := by simp [execBusy]

theorem execBusyResend_st (k : ReqKey) (s : State) :
    Ends (· = s.dev.st) (execBusyResend k s) := by
  unfold execBusyResend; rw [ends_next]
  repeat' split
  all_goals simp

theorem execError_orFaulted (p : Packet) (s : State) :
    Ends (OrFaulted s.dev.st) (execError p s) := by
  unfold execError; rw [ends_next]
  refine takeResponse_orFaulted _ _ _ _ (fun e u h => ?_) .rfl
  dsimp only
  split
  · exact targetDead_orFaulted _ _ h
  · refine stopA3_orFaulted _ _ ?_
    rw [raise_dev]
    split
    · simpa using h
    · exact h

theorem execRetransmit_st (k : ReqKey) (s : State) :
    Ends (· = s.dev.st) (execRetransmit k s) := by
  unfold execRetransmit; rw [ends_next]
  repeat' split
  all_goals simp

theorem execTDeadExpire_orFaulted (k : ReqKey) (s : State) :
    Ends (OrFaulted s.dev.st) (execTDeadExpire k s) := by
  unfold execTDeadExpire; rw [ends_next]
  split <;> simp

theorem execDeviceWatchdog_orFaulted (s : State) :
    Ends (OrFaulted s.dev.st) (execDeviceWatchdog s) := by simp [execDeviceWatchdog]

/-! ### Start, rings and identity (Chapter 15) -/

theorem execAuxRstNRelease_st (holdN modRstN puf unwrap : Bool) (s : State) :
    Ends (· = s.dev.st) (execAuxRstNRelease holdN modRstN puf unwrap s) := by simp [execAuxRstNRelease]

theorem execV48InRange_drift (v48 : Nat) (obs : TrainObs) (s : State) :
    Ends (Drift s.dev.st) (execV48InRange v48 obs s) := by
  unfold execV48InRange; rw [ends_next]; dsimp only
  split <;> simp

theorem execHoldLimitExpire_st (s : State) :
    Ends (· = s.dev.st) (execHoldLimitExpire s) := by
  unfold execHoldLimitExpire; rw [ends_next]
  split <;> simp

theorem execRefclkReturn_st (s : State) :
    Ends (· = s.dev.st) (execRefclkReturn s) := by simp [execRefclkReturn]
theorem execAuxclkLoss_st (s : State) :
    Ends (· = s.dev.st) (execAuxclkLoss s) := by simp [execAuxclkLoss]
theorem execAuxclkReturn_st (s : State) :
    Ends (· = s.dev.st) (execAuxclkReturn s) := by simp [execAuxclkReturn]

/-! ### The Firewatch and the management tick (Chapter 16) -/

theorem execSensorSuspect_st (k : SensorKind) (i : Fin 256) (s : State) :
    Ends (· = s.dev.st) (execSensorSuspect k i s) := by simp [execSensorSuspect]

theorem execThermTripRelease_st (s : State) :
    Ends (· = s.dev.st) (execThermTripRelease s) := by
  unfold execThermTripRelease; rw [ends_next]
  split
  · rfl
  · dsimp only
    rw [flushSummaries_st]
    split
    · rfl
    · rw [foldl_st _ fun _ _ => by rw [setNotch_dev]]

theorem execNotchRaise_st (q : Quad) (s : State) :
    Ends (· = s.dev.st) (execNotchRaise q s) := by simp [execNotchRaise]
theorem execNotchFloor_st (q : Quad) (s : State) :
    Ends (· = s.dev.st) (execNotchFloor q s) := by simp [execNotchFloor]
theorem execWardenCoreReset_st (pc : Word) (s : State) :
    Ends (· = s.dev.st) (execWardenCoreReset pc s) := by simp [execWardenCoreReset]
theorem execLedgerSummaryFlush_st (s : State) :
    Ends (· = s.dev.st) (execLedgerSummaryFlush s) := by simp [execLedgerSummaryFlush]

theorem execLedgerEventWrite_st (s : State) :
    Ends (· = s.dev.st) (execLedgerEventWrite s) := by
  unfold execLedgerEventWrite; rw [ends_next]
  split
  · exact foldl_st (fun u (e : Event) => updSummary e.die (fun d => { d with notLogged := satInc none32 d.notLogged }) u) (fun _ _ => rfl) _ _
  · rfl

theorem execTelemetryDatagram_st (sub : Nat) (s : State) :
    Ends (· = s.dev.st) (execTelemetryDatagram sub s) := by
  unfold execTelemetryDatagram; rw [ends_next]
  split <;> simp

/-! ### The tile's crown half (Chapter 02) -/

theorem execArrayStream_orFaulted (i : Issue) (acc : AccSpec) (rows : List Run) (newSet parityOk : Bool) (s : State) :
    Ends (OrFaulted s.dev.st) (execArrayStream i acc rows newSet parityOk s) := by
  unfold execArrayStream; rw [ends_next]
  refine issued_orFaulted _ _ _ _ _ (fun u h => ?_) .rfl
  dsimp only
  split <;> simp [h]

theorem execStationaryLoad_orFaulted (i : Issue) (cols : List Run) (s : State) :
    Ends (OrFaulted s.dev.st) (execStationaryLoad i cols s) := by simp [execStationaryLoad]

theorem execStationaryLoadComplete_orFaulted (t : Tile) (parityOk : Bool) (s : State) :
    Ends (OrFaulted s.dev.st) (execStationaryLoadComplete t parityOk s) := by
  unfold execStationaryLoadComplete; rw [ends_next]; dsimp only
  repeat' split
  all_goals simp

theorem execThinPathPass_orFaulted (i : Issue) (acc : AccSpec) (vecs : Option (List (List Run))) (weights : List RunRef) (parityOk : Bool)
    (ecc : List (Nat × Ecc)) (s : State) :
    Ends (OrFaulted s.dev.st) (execThinPathPass i acc vecs weights parityOk ecc s) := by
  unfold execThinPathPass; rw [ends_next]
  refine issued_orFaulted _ _ _ _ _ (fun u h => ?_) .rfl
  dsimp only
  split
  · rw [formed_st, updTile_st, runsDown_st, runsDown_st]
    exact readsFind_orFaulted _ _ _ _ _ (by simpa using h)
  · simp [h]

theorem execVectorOp_orFaulted (i : Issue) (op : VecInstr) (parityOk : Bool) (ecc : Ecc) (s : State) :
    Ends (OrFaulted s.dev.st) (execVectorOp i op parityOk ecc s) := by
  unfold execVectorOp; rw [ends_next]
  refine issued_orFaulted _ _ _ _ _ (fun u h => ?_) .rfl
  dsimp only
  split
  · simp [h]
  · split <;> simp [h]

theorem execLeafReduce_orFaulted (i : Issue) (kind : ReduceKind) (acc : AccSpec) (inputs : ReduceIn) (s : State) :
    Ends (OrFaulted s.dev.st) (execLeafReduce i kind acc inputs s) := by simp [execLeafReduce]

theorem execLeafArrive_orFaulted (t : Tile) (src : LeafSource) (ecc : Ecc) (s : State) :
    Ends (OrFaulted s.dev.st) (execLeafArrive t src ecc s) := by
  unfold execLeafArrive; rw [ends_next]; dsimp only
  repeat' split
  all_goals simp

theorem execNodeStoreDrain_orFaulted (t : Tile) (toFmt : Nat) (stochastic : Bool) (ecc : Ecc) (s : State) :
    Ends (OrFaulted s.dev.st) (execNodeStoreDrain t toFmt stochastic ecc s) := by
  unfold execNodeStoreDrain; rw [ends_next]; dsimp only
  repeat' split
  all_goals simp

theorem execCombine_orFaulted (t : Tile) (issue : Option Issue) (kind : CombineKind) (dest : CombineTo) (node n idx : Nat) (value : DWord)
    (bad : Bool) (ecc : List (Nat × Ecc)) (s : State) :
    Ends (OrFaulted s.dev.st) (execCombine t issue kind dest node n idx value bad ecc s) := by
  unfold execCombine; rw [ends_next]; dsimp only
  split
  · exact issued_orFaulted _ _ _ _ _ (fun u h => combineReads_orFaulted _ _ _ _ _ _ _ _ _ _ (by simpa using h)) .rfl
  · split
    · exact combineReads_orFaulted _ _ _ _ _ _ _ _ _ _ .rfl
    · exact .rfl

theorem execUnitClockGate_st (t : Tile) (u : CrownUnit) (s : State) :
    Ends (· = s.dev.st) (execUnitClockGate t u s) := by simp [execUnitClockGate]
theorem execCrownClockGate_st (t : Tile) (s : State) :
    Ends (· = s.dev.st) (execCrownClockGate t s) := by simp [execCrownClockGate]

theorem execCrownWake_orFaulted (t : Tile) (why : WakeCause) (s : State) :
    Ends (OrFaulted s.dev.st) (execCrownWake t why s) := by
  unfold execCrownWake; rw [ends_next]
  extract_lets cause
  split
  · exact foldl_orFaulted _ (fun _ _ h => resume_orFaulted _ _ _ h) _ _ .rfl
  · exact .rfl

theorem execShadowCompare_st (t : Tile) (a b : Run) (s : State) :
    Ends (· = s.dev.st) (execShadowCompare t a b s) := by
  unfold execShadowCompare; rw [ends_next]; dsimp only
  split <;> simp

/-! ### The Flume path and bulk reductions (Chapter 13) -/

theorem execFlumeUp_st (l : Lane) (p : Packet) (s : State) :
    Ends (· = s.dev.st) (execFlumeUp l p s) := by
  unfold execFlumeUp; rw [ends_next]; dsimp only
  repeat' split
  all_goals simp

theorem execFlumeSlotDiscard_st (job : BitVec 16) (group seq : Word) (s : State) :
    Ends (· = s.dev.st) (execFlumeSlotDiscard job group seq s) := by simp [execFlumeSlotDiscard]

theorem execFlumeTimeout_orFaulted (group seq : Word) (s : State) :
    Ends (OrFaulted s.dev.st) (execFlumeTimeout group seq s) := by
  unfold execFlumeTimeout; rw [ends_next]
  split <;> simp

theorem execBulkUp_st (l : Lane) (p : Packet) (s : State) :
    Ends (· = s.dev.st) (execBulkUp l p s) := by
  unfold execBulkUp; rw [ends_next]; dsimp only
  repeat' split
  all_goals simp

theorem execBulkBufferDiscard_st (job : BitVec 16) (group : Word) (chunk : Nat) (s : State) :
    Ends (· = s.dev.st) (execBulkBufferDiscard job group chunk s) := by simp [execBulkBufferDiscard]

theorem execFlumeDown_orFaulted (l : Lane) (p : Packet) (s : State) :
    Ends (OrFaulted s.dev.st) (execFlumeDown l p s) := by
  unfold execFlumeDown; rw [ends_next]; dsimp only
  repeat' split
  all_goals simp

theorem execBulkDown_orFaulted (p : Packet) (s : State) :
    Ends (OrFaulted s.dev.st) (execBulkDown p s) := by
  unfold execBulkDown; rw [ends_next]; dsimp only
  repeat' split
  all_goals simp

theorem execBulkDone_orFaulted (p : Packet) (s : State) :
    Ends (OrFaulted s.dev.st) (execBulkDone p s) := by
  unfold execBulkDone; rw [ends_next]
  repeat' split
  all_goals simp

theorem execChunkTimeout_orFaulted (group : Word) (chunk : Nat) (s : State) :
    Ends (OrFaulted s.dev.st) (execChunkTimeout group chunk s) := by
  unfold execChunkTimeout; rw [ends_next]
  split <;> simp

theorem execBusyRelay_st (p : Packet) (s : State) :
    Ends (· = s.dev.st) (execBusyRelay p s) := by
  unfold execBusyRelay; rw [ends_next]; dsimp only
  repeat' split
  all_goals simp

theorem execRelayResend_st (seq : Word) (s : State) :
    Ends (· = s.dev.st) (execRelayResend seq s) := by
  unfold execRelayResend; rw [ends_next]; dsimp only
  repeat' split
  all_goals simp

/-! ### The ops of a Tally program (Chapter 05) -/

theorem execContract_orFaulted (pos op : Nat) (s : State) :
    Ends (OrFaulted s.dev.st) (execContract pos op s) := by simp [execContract]
theorem execMap_orFaulted (pos op : Nat) (s : State) :
    Ends (OrFaulted s.dev.st) (execMap pos op s) := by simp [execMap]
theorem execReduceSum_orFaulted (pos op : Nat) (s : State) :
    Ends (OrFaulted s.dev.st) (execReduceSum pos op s) := by simp [execReduceSum]
theorem execReduceSumOfSquares_orFaulted (pos op : Nat) (s : State) :
    Ends (OrFaulted s.dev.st) (execReduceSumOfSquares pos op s) := by simp [execReduceSumOfSquares]
theorem execReduceMax_orFaulted (pos op : Nat) (s : State) :
    Ends (OrFaulted s.dev.st) (execReduceMax pos op s) := by simp [execReduceMax]
theorem execReduceMin_orFaulted (pos op : Nat) (s : State) :
    Ends (OrFaulted s.dev.st) (execReduceMin pos op s) := by simp [execReduceMin]

theorem execAttendForward_orFaulted (pos op : Nat) (s : State) :
    Ends (OrFaulted s.dev.st) (execAttendForward pos op s) := by
  unfold execAttendForward; rw [ends_next]
  exact turnedOr_orFaulted _ _ _ _ _ _ (fun _ _ _ _ _ _ _ _ h => rotateOp_orFaulted _ _ _ _ _ _ _ _ h)
    (fun _ h => runOp_orFaulted _ _ _ _ _ _ (fun _ _ _ h => by simpa using h) h) .rfl

theorem execAttendBackward_orFaulted (pos op : Nat) (s : State) :
    Ends (OrFaulted s.dev.st) (execAttendBackward pos op s) := by
  unfold execAttendBackward; rw [ends_next]
  exact turnedOr_orFaulted _ _ _ _ _ _ (fun _ _ _ _ _ _ _ _ h => rotateGrads_orFaulted _ _ _ _ _ _ _ _ h)
    (fun _ h => runOp_orFaulted _ _ _ _ _ _ (fun _ _ _ h => by simpa using h) h) .rfl

theorem execNormaliseRms_orFaulted (pos op : Nat) (s : State) :
    Ends (OrFaulted s.dev.st) (execNormaliseRms pos op s) := by simp [execNormaliseRms]
theorem execNormaliseLayer_orFaulted (pos op : Nat) (s : State) :
    Ends (OrFaulted s.dev.st) (execNormaliseLayer pos op s) := by simp [execNormaliseLayer]
theorem execGather_orFaulted (pos op : Nat) (s : State) :
    Ends (OrFaulted s.dev.st) (execGather pos op s) := by simp [execGather]
theorem execScatterAdd_orFaulted (pos op : Nat) (s : State) :
    Ends (OrFaulted s.dev.st) (execScatterAdd pos op s) := by simp [execScatterAdd]
theorem execScatterReplace_orFaulted (pos op : Nat) (s : State) :
    Ends (OrFaulted s.dev.st) (execScatterReplace pos op s) := by simp [execScatterReplace]
theorem execCast_orFaulted (pos op : Nat) (s : State) :
    Ends (OrFaulted s.dev.st) (execCast pos op s) := by simp [execCast]
theorem execDrawBits_orFaulted (pos op : Nat) (s : State) :
    Ends (OrFaulted s.dev.st) (execDrawBits pos op s) := by simp [execDrawBits]
theorem execDrawUniform_orFaulted (pos op : Nat) (s : State) :
    Ends (OrFaulted s.dev.st) (execDrawUniform pos op s) := by simp [execDrawUniform]
theorem execDrawBernoulli_orFaulted (pos op : Nat) (s : State) :
    Ends (OrFaulted s.dev.st) (execDrawBernoulli pos op s) := by simp [execDrawBernoulli]

theorem execCollectiveReduce_orFaulted (pos op : Nat) (members : List MemberX) (s : State) :
    Ends (OrFaulted s.dev.st) (execCollectiveReduce pos op members s) := by
  unfold execCollectiveReduce; dsimp only; rw [ends_next]
  exact collectiveOp_orFaulted _ _ _ _ _ _ _ (fun _ _ _ _ h => by simpa using h)
    (fun _ _ _ h => bulkWait_orFaulted _ _ _ _ _ _ _ _ _ _ (fun _ _ _ _ h => by simpa using h) h) .rfl

theorem execCollectiveReduceScatter_orFaulted (pos op : Nat) (members : List MemberX) (s : State) :
    Ends (OrFaulted s.dev.st) (execCollectiveReduceScatter pos op members s) := by
  unfold execCollectiveReduceScatter; dsimp only; rw [ends_next]
  exact collectiveOp_orFaulted _ _ _ _ _ _ _ (fun _ _ _ _ h => by simpa using h)
    (fun _ _ _ h => bulkWait_orFaulted _ _ _ _ _ _ _ _ _ _ (fun _ _ _ _ h => by simpa using h) h) .rfl

theorem execCollectiveGather_orFaulted (pos op : Nat) (members : List MemberX) (s : State) :
    Ends (OrFaulted s.dev.st) (execCollectiveGather pos op members s) := by
  unfold execCollectiveGather; rw [ends_next]
  refine gatherOp_orFaulted _ _ _ _ _ _ (fun _ _ _ u h => ?_) (fun _ _ _ h => h) .rfl
  dsimp only
  rw [moveInto_st]
  exact sendVersions_orFaulted _ _ _ _ h

theorem execCollectiveAllToAll_orFaulted (pos op : Nat) (members : List MemberX) (s : State) :
    Ends (OrFaulted s.dev.st) (execCollectiveAllToAll pos op members s) := by simp [execCollectiveAllToAll]
theorem execCollectiveBroadcast_orFaulted (pos op : Nat) (members : List MemberX) (s : State) :
    Ends (OrFaulted s.dev.st) (execCollectiveBroadcast pos op members s) := by simp [execCollectiveBroadcast]

theorem execCollectiveScalarReduce_orFaulted (pos op : Nat) (members : List MemberX) (s : State) :
    Ends (OrFaulted s.dev.st) (execCollectiveScalarReduce pos op members s) := by
  unfold execCollectiveScalarReduce; rw [ends_next]
  exact collectiveOp_orFaulted _ _ _ _ _ _ _ (fun _ _ _ _ h => by simpa using h)
    (fun _ _ _ h => flumeWait_orFaulted _ _ _ _ _ _ _ _ _ (fun _ _ _ _ h => by simpa using h) h) .rfl

theorem execCollectiveBarrier_orFaulted (pos op : Nat) (members : List Nat) (s : State) :
    Ends (OrFaulted s.dev.st) (execCollectiveBarrier pos op members s) := by
  unfold execCollectiveBarrier; rw [ends_next]
  split <;> simp

theorem execCopyBox_orFaulted (pos op : Nat) (s : State) :
    Ends (OrFaulted s.dev.st) (execCopyBox pos op s) := by simp [execCopyBox]
theorem execCopyReshape_orFaulted (pos op : Nat) (s : State) :
    Ends (OrFaulted s.dev.st) (execCopyReshape pos op s) := by simp [execCopyReshape]

theorem execHostSignalNotify_orFaulted (pos op : Nat) (s : State) :
    Ends (OrFaulted s.dev.st) (execHostSignalNotify pos op s) := by
  unfold execHostSignalNotify; rw [ends_next]
  refine runOp_orFaulted _ _ _ _ _ _ (fun _ _ u h => ?_) .rfl
  split <;> simp [h]

theorem execHostSignalAwait_orFaulted (pos op : Nat) (s : State) :
    Ends (OrFaulted s.dev.st) (execHostSignalAwait pos op s) := by
  unfold execHostSignalAwait; rw [ends_next]
  split <;> simp

/-! ### Phase boundaries (Chapter 06) -/

theorem execPhaseBoundary_orFaulted (phase : Nat) (s : State) :
    Ends (OrFaulted s.dev.st) (execPhaseBoundary phase s) := by
  unfold execPhaseBoundary; rw [ends_next]
  split <;> simp

/-! ### The step program (Chapter 04) -/

theorem execRun_orFaulted (phase : Nat) (n2 : List (Nat × DWord)) (s : State) :
    Ends (OrFaulted s.dev.st) (execRun phase n2 s) := by
  unfold execRun; rw [ends_next]
  repeat' split
  all_goals simp

theorem execLoop_st (s : State) :
    Ends (· = s.dev.st) (execLoop s) := by
  unfold execLoop; rw [ends_next]
  split <;> simp

theorem execEndLoop_st (s : State) :
    Ends (· = s.dev.st) (execEndLoop s) := by
  unfold execEndLoop; rw [ends_next]
  split <;> simp

theorem execIfItem_st (cond : Nat) (s : State) :
    Ends (· = s.dev.st) (execIfItem cond s) := by
  unfold execIfItem; rw [ends_next]
  split <;> simp

theorem execElseItem_st (s : State) :
    Ends (· = s.dev.st) (execElseItem s) := by
  unfold execElseItem; rw [ends_next]
  split <;> simp

theorem execEndIf_st (s : State) :
    Ends (· = s.dev.st) (execEndIf s) := by
  unfold execEndIf; rw [ends_next]
  split <;> simp

theorem execSnapshotBegin_orFaulted (mtc : DWord) (released : List Nat) (s : State) :
    Ends (OrFaulted s.dev.st) (execSnapshotBegin mtc released s) := by
  unfold execSnapshotBegin; rw [ends_next]
  split <;> simp

theorem execEndHoldExpire_st (s : State) :
    Ends (· = s.dev.st) (execEndHoldExpire s) := by simp [execEndHoldExpire]

/-! ### Recovery (Chapter 14) -/

theorem execRecoveryNoticeResend_st (s : State) :
    Ends (· = s.dev.st) (execRecoveryNoticeResend s) := by
  unfold execRecoveryNoticeResend; rw [ends_next]
  split <;> simp

theorem execSnapshotChunkLand_drift (chunk : Nat) (data : List Byte) (s : State) :
    Ends (Drift s.dev.st) (execSnapshotChunkLand chunk data s) := by
  unfold execSnapshotChunkLand; rw [ends_next]
  split
  · exact .rfl
  · split
    · exact .rfl
    · dsimp only
      split
      · exact tryReplay_drift _ (.stops (goOnPulling_orFaulted _ .rfl))
      · refine .stops ?_
        split
        · split
          · exact beginRestore_orFaulted _ _ (by simp)
          · exact heartwoodLost_orFaulted _ _ (by simp)
        · exact heartwoodLost_orFaulted _ _ (by simp)

/-- A device that recovers holds a job. -/
theorem holdsJob_of_recovers {s : State} (h : recovers s = true) : holdsJob s.dev.st := by
  have h : (s.dev.st = .planning ∨ s.dev.st = .running) ∨ s.dev.st = .filling := by simpa [recovers] using h
  unfold holdsJob; tauto

theorem execCollectionWindowEnd_orFaulted (recoveryDigestsAgree : Bool) (spares : List (Nat × Nat)) (plan : PlanIn) (s : State) :
    Ends (OrFaulted s.dev.st) (execCollectionWindowEnd recoveryDigestsAgree spares plan s) := by
  unfold execCollectionWindowEnd; rw [ends_next]; dsimp only
  split
  · exact .rfl
  · split
    · exact .rfl
    · next hr =>
      have hjob : holdsJob s.dev.st := holdsJob_of_recovers (s := { s with recov.window := false })
        (by simpa only [Bool.not_eq_true, Bool.not_eq_false', Bool.not_eq_false] using hr)
      split
      · exact .inr ⟨hjob, rfl⟩
      · split
        · exact stopA4_orFaulted _ _ (by simp)
        · split
          · exact stopA4_orFaulted _ _ (by simp)
          · have planned : OrFaulted s.dev.st (substituteAll (subjectsOf s.recov.notices) spares plan
                { s with recov.window := false }).dev.st := substituteAll_orFaulted _ _ _ _ .rfl
            split
            · split <;> simp [planned]
            · split <;> simp [planned]

theorem execSpareAvailable_drift (slot : Nat) (endpoint : BitVec 16) (tiles : Nat) (plan : PlanIn) (s : State) :
    Ends (Drift s.dev.st) (execSpareAvailable slot endpoint tiles plan s) := by
  unfold execSpareAvailable; rw [ends_next]; dsimp only
  split
  · split
    · exact .stops (replanAll_orFaulted _ _ _ (by simp))
    · exact tryReplay_drift _ (.stops (replanAll_orFaulted _ _ _ (by simp)))
  · exact .rfl

theorem execRepairTimeout_orFaulted (s : State) :
    Ends (OrFaulted s.dev.st) (execRepairTimeout s) := by simp [execRepairTimeout]

/-! ### Register access (Chapter 19) -/

theorem execRegisterWrite_st (p : Path) (addr value : Word) (s : State) :
    Ends (· = s.dev.st) (execRegisterWrite p addr value s) := registerCommand_st _ _ _ _ _
theorem execDevEvents_st (p : Path) (value : Word) (s : State) :
    Ends (· = s.dev.st) (execDevEvents p value s) := registerCommand_st _ _ _ _ _
theorem execFaultSel_st (p : Path) (value : Word) (s : State) :
    Ends (· = s.dev.st) (execFaultSel p value s) := registerCommand_st _ _ _ _ _
theorem execFaultNew_st (p : Path) (s : State) :
    Ends (· = s.dev.st) (execFaultNew p s) := registerCommand_st _ _ _ _ _
theorem execWin_st (p : Path) (e : Fin 64) (k : Fin 4) (value : Word) (s : State) :
    Ends (· = s.dev.st) (execWin p e k value s) := registerCommand_st _ _ _ _ _
theorem execFtData_st (p : Path) (value : Word) (s : State) :
    Ends (· = s.dev.st) (execFtData p value s) := registerCommand_st _ _ _ _ _
theorem execFtCommit_st (p : Path) (value : Word) (s : State) :
    Ends (· = s.dev.st) (execFtCommit p value s) := registerCommand_st _ _ _ _ _
theorem execPwrRuntime_st (p : Path) (value : Word) (s : State) :
    Ends (· = s.dev.st) (execPwrRuntime p value s) := registerCommand_st _ _ _ _ _
theorem execDlinkSel_st (p : Path) (value : Word) (s : State) :
    Ends (· = s.dev.st) (execDlinkSel p value s) := registerCommand_st _ _ _ _ _
theorem execTelSel_st (p : Path) (value : Word) (s : State) :
    Ends (· = s.dev.st) (execTelSel p value s) := registerCommand_st _ _ _ _ _
theorem execTelDataLo_st (p : Path) (s : State) :
    Ends (· = s.dev.st) (execTelDataLo p s) := registerCommand_st _ _ _ _ _
theorem execPairLoRead_st (p : Path) (addr : Word) (s : State) :
    Ends (· = s.dev.st) (execPairLoRead p addr s) := registerCommand_st _ _ _ _ _
theorem execBroadcastRead_st (p : Path) (addr : Word) (s : State) :
    Ends (· = s.dev.st) (execBroadcastRead p addr s) := registerCommand_st _ _ _ _ _

/-! ### The Warden protocol (Chapter 17) -/

theorem execWardenStatus_st (r : WReq) (multicast : Bool) (s : State) :
    Ends (· = s.dev.st) (execWardenStatus r multicast s) := by
  unfold execWardenStatus
  split
  · rw [ends_next]
    split <;> rfl
  · exact wardenRequest_ends rfl (by simp)

theorem execWardenLedgerRead_st (r : WReq) (offset length : Nat) (s : State) :
    Ends (· = s.dev.st) (execWardenLedgerRead r offset length s) := wardenRequest_ends rfl (by simp)
theorem execTelemetrySubscribe_st (r : WReq) (period : Nat) (s : State) :
    Ends (· = s.dev.st) (execTelemetrySubscribe r period s) := wardenRequest_ends rfl (by simp)
theorem execTelemetryBufferRead_st (r : WReq) (first count : Nat) (s : State) :
    Ends (· = s.dev.st) (execTelemetryBufferRead r first count s) := wardenRequest_ends rfl (by simp)

theorem execStageRing_st (r : WReq) (ring : Ring) (s : State) :
    Ends (· = s.dev.st) (execStageRing r ring s) := by
  refine wardenRequest_ends rfl (?_)
  dsimp only
  repeat' split
  all_goals simp

theorem execWriteFloorRecord_st (r : WReq) (f : FloorRec) (s : State) :
    Ends (· = s.dev.st) (execWriteFloorRecord r f s) := wardenRequest_ends rfl (by simp)
theorem execEnrolOwnerKeys_st (r : WReq) (keys : List OwnerKey) (s : State) :
    Ends (· = s.dev.st) (execEnrolOwnerKeys r keys s) := wardenRequest_ends rfl (by simp)
theorem execUpdateOwnerKeys_st (r : WReq) (keys : List OwnerKey) (keyIndex : Nat) (rsaOk slhOk : Bool) (s : State) :
    Ends (· = s.dev.st) (execUpdateOwnerKeys r keys keyIndex rsaOk slhOk s) := wardenRequest_ends rfl (by simp)

theorem execWardenQuote_st (r : WReq) (nonce : BitVec 256) (s : State) :
    Ends (· = s.dev.st) (execWardenQuote r nonce s) := by
  refine wardenRequest_ends rfl (?_)
  grind [wardenReply_dev, beginQuote_st]

theorem execQuoteSigned_st (s : State) :
    Ends (· = s.dev.st) (execQuoteSigned s) := by
  unfold execQuoteSigned; rw [ends_next]
  split <;> simp

theorem execRuntimePowerLimit_st (r : WReq) (watts : Nat) (s : State) :
    Ends (· = s.dev.st) (execRuntimePowerLimit r watts s) := wardenRequest_ends rfl (by simp)
theorem execIeee1500Read_st (r : WReq) (m : Stack) (s : State) :
    Ends (· = s.dev.st) (execIeee1500Read r m s) := wardenRequest_ends rfl (by simp)
theorem execMemoryBist_st (r : WReq) (m : Stack) (s : State) :
    Ends (· = s.dev.st) (execMemoryBist r m s) := wardenRequest_ends rfl (by simp)
theorem execSoftPpr_st (r : WReq) (m : Stack) (row : Nat) (s : State) :
    Ends (· = s.dev.st) (execSoftPpr r m row s) := wardenRequest_ends rfl (by simp)
theorem execHardPpr_st (r : WReq) (m : Stack) (row : Nat) (s : State) :
    Ends (· = s.dev.st) (execHardPpr r m row s) := wardenRequest_ends rfl (by simp)
theorem execListPageRetirement_st (r : WReq) (m : Stack) (page : Nat) (s : State) :
    Ends (· = s.dev.st) (execListPageRetirement r m page s) := wardenRequest_ends rfl (by simp)
theorem execIdleTimeExerciser_st (r : WReq) (s : State) :
    Ends (· = s.dev.st) (execIdleTimeExerciser r s) := wardenRequest_ends rfl (by simp)

theorem execExerciserTestEnd_st (digest : DWord) (band : Nat) (reached : Bool) (s : State) :
    Ends (· = s.dev.st) (execExerciserTestEnd digest band reached s) := by
  unfold execExerciserTestEnd; rw [ends_next]
  split
  · rfl
  · next t _ _ =>
    split
    · exact endExerciser_st _
    · dsimp only
      rw [setExerciser_st]
      exact foldl_st (fun u q => ledgerEvent q 4 (if reached then band else t.1) (exerciserPrint u q t.2.1 t.2.2)
        { mtc := u.mtc.value, obj := BitVec.ofNat 32 (exerciserResult t digest reached) } u) (fun _ _ => rfl) _ _

theorem execWindowEntries_st (r : WReq) (e : Fin 64) (entry : WinEntry) (s : State) :
    Ends (· = s.dev.st) (execWindowEntries r e entry s) := wardenRequest_ends rfl (by simp)
theorem execWardenRegAccess_st (r : WReq) (write : Bool) (addr : Word) (count : Nat) (values : List Word) (s : State) :
    Ends (· = s.dev.st) (execWardenRegAccess r write addr count values s) := wardenRequest_ends rfl (by simp)

/-! ### The host port (Chapter 17) -/

theorem execHauOpen_st (u : Udp) (wantsNotices : Bool) (s : State) :
    Ends (· = s.dev.st) (execHauOpen u wantsNotices s) := by simp [execHauOpen]
theorem execClose_drift (conn : Nat) (s : State) :
    Ends (Drift s.dev.st) (execClose conn s) := by simp [execClose]
theorem execHaulerReset_drift (conn : Nat) (s : State) :
    Ends (Drift s.dev.st) (execHaulerReset conn s) := by simp [execHaulerReset]

theorem execConnectionTimeout_drift (conn : Nat) (s : State) :
    Ends (Drift s.dev.st) (execConnectionTimeout conn s) := by
  unfold execConnectionTimeout; rw [ends_next]
  split
  · exact endPath_drift _ _ (by simp)
  · exact .rfl

theorem execHaulerAck_st (g : HSeg) (s : State) :
    Ends (· = s.dev.st) (execHaulerAck g s) := by simp [execHaulerAck]
theorem execHaulerAckTimer_st (conn : Nat) (s : State) :
    Ends (· = s.dev.st) (execHaulerAckTimer conn s) := by simp [execHaulerAckTimer]
theorem execHaulerRetransmitTimeout_st (conn : Nat) (seq : Word) (s : State) :
    Ends (· = s.dev.st) (execHaulerRetransmitTimeout conn seq s) := by simp [execHaulerRetransmitTimeout]

theorem execWriteTensor_st (r : Req) (t : Target) (bytes : List Byte) (s : State) :
    Ends (· = s.dev.st) (execWriteTensor r t bytes s) := by
  refine haulerRequest_ends rfl (fun u hu _ => ?_)
  repeat' split
  all_goals simp [hu]

theorem execWriteInput_st (r : Req) (t : Target) (bytes : List Byte) (s : State) :
    Ends (· = s.dev.st) (execWriteInput r t bytes s) := haulerRequest_ends rfl (fun u hu _ => by simp [hu])
theorem execWriteMarkWritten_st (r : Req) (t : Target) (bytes : List Byte) (s : State) :
    Ends (· = s.dev.st) (execWriteMarkWritten r t bytes s) := haulerRequest_ends rfl (fun u hu _ => by simp [hu])

theorem execReadTensor_st (r : Req) (t : Target) (s : State) :
    Ends (· = s.dev.st) (execReadTensor r t s) := by
  refine haulerRequest_ends rfl (fun u hu _ => ?_)
  dsimp only
  repeat' split
  all_goals simp [hu]

theorem execWriteRelease_st (r : Req) (t : Target) (s : State) :
    Ends (· = s.dev.st) (execWriteRelease r t s) := by
  refine haulerRequest_ends rfl (fun u hu _ => ?_)
  repeat' split
  all_goals simp [hu]

theorem execWriteSnapshotSlot_st (r : Req) (t : Target) (bytes : List Byte) (s : State) :
    Ends (· = s.dev.st) (execWriteSnapshotSlot r t bytes s) := haulerRequest_ends rfl (fun u hu _ => by split <;> simp [hu])
theorem execReadSnapshotSlot_st (r : Req) (t : Target) (s : State) :
    Ends (· = s.dev.st) (execReadSnapshotSlot r t s) := haulerRequest_ends rfl (fun u hu _ => by split <;> simp [hu])
theorem execWriteJournalRing_st (r : Req) (t : Target) (bytes : List Byte) (s : State) :
    Ends (· = s.dev.st) (execWriteJournalRing r t bytes s) := haulerRequest_ends rfl (fun u hu _ => by split <;> simp [hu])
theorem execWriteFaultDump_st (r : Req) (t : Target) (bytes : List Byte) (s : State) :
    Ends (· = s.dev.st) (execWriteFaultDump r t bytes s) := haulerRequest_ends rfl (fun u hu _ => by split <;> simp [hu])
theorem execReadJournalRing_st (r : Req) (t : Target) (s : State) :
    Ends (· = s.dev.st) (execReadJournalRing r t s) := haulerRequest_ends rfl (fun u hu _ => by split <;> simp [hu])
theorem execReadFaultDump_st (r : Req) (t : Target) (s : State) :
    Ends (· = s.dev.st) (execReadFaultDump r t s) := haulerRequest_ends rfl (fun u hu _ => by split <;> simp [hu])
theorem execHaulerSignal_orFaulted (r : Req) (h n : Nat) (s : State) :
    Ends (OrFaulted s.dev.st) (execHaulerSignal r h n s) := haulerRequest_ends .rfl (fun u hu _ => by split <;> simp [hu])
theorem execSetWatch_st (r : Req) (h threshold : Nat) (s : State) :
    Ends (· = s.dev.st) (execSetWatch r h threshold s) := haulerRequest_ends rfl (fun u hu _ => by split <;> simp [hu])
theorem execClearWatch_st (r : Req) (h : Nat) (s : State) :
    Ends (· = s.dev.st) (execClearWatch r h s) := haulerRequest_ends rfl (fun u hu _ => by split <;> simp [hu])
theorem execQueryStatus_st (r : Req) (s : State) :
    Ends (· = s.dev.st) (execQueryStatus r s) := haulerRequest_ends rfl (fun u hu _ => by simp [hu])
theorem execQueryPlanReport_st (r : Req) (s : State) :
    Ends (· = s.dev.st) (execQueryPlanReport r s) := haulerRequest_ends rfl (fun u hu _ => by split <;> simp [hu])
theorem execQueryFaultRecords_st (r : Req) (count : Nat) (s : State) :
    Ends (· = s.dev.st) (execQueryFaultRecords r count s) := haulerRequest_ends rfl (fun u hu _ => by simp [hu])

theorem execQueryQuote_st (r : Req) (nonce : BitVec 256) (s : State) :
    Ends (· = s.dev.st) (execQueryQuote r nonce s) := by
  refine haulerRequest_ends rfl (fun u hu _ => ?_)
  grind [reply_dev, beginQuote_st, refuseDenied_st]

theorem execQueryReducedTally_st (r : Req) (tensor : Nat) (s : State) :
    Ends (· = s.dev.st) (execQueryReducedTally r tensor s) := haulerRequest_ends rfl (fun u hu _ => by split <;> simp [hu])
theorem execReadReg_st (r : Req) (addr : Word) (count : Nat) (s : State) :
    Ends (· = s.dev.st) (execReadReg r addr count s) := haulerRegs_st _ _ _ _ _ _ _ _
theorem execWriteReg_st (r : Req) (addr : Word) (values : List Word) (s : State) :
    Ends (· = s.dev.st) (execWriteReg r addr values s) := haulerRegs_st _ _ _ _ _ _ _ _

/-! ### The test access port (Chapter 18) -/

theorem execBypass_st (s : State) :
    Ends (· = s.dev.st) (execBypass s) := by simp [execBypass]
theorem execIdcode_st (s : State) :
    Ends (· = s.dev.st) (execIdcode s) := by simp [execIdcode]
theorem execSamplePreload_st (lines : BitVec 19) (shifted : BitVec 25) (s : State) :
    Ends (· = s.dev.st) (execSamplePreload lines shifted s) := by simp [execSamplePreload]
theorem execExtest_orFaulted (lines : BitVec 19) (shifted : BitVec 25) (s : State) :
    Ends (OrFaulted s.dev.st) (execExtest lines shifted s) := by simp [execExtest]
theorem execClamp_orFaulted (s : State) :
    Ends (OrFaulted s.dev.st) (execClamp s) := by simp [execClamp]
theorem execHighz_orFaulted (s : State) :
    Ends (OrFaulted s.dev.st) (execHighz s) := by simp [execHighz]
theorem execCtrlAccess_st (dr : BitVec 81) (s : State) :
    Ends (· = s.dev.st) (execCtrlAccess dr s) := by simp [execCtrlAccess]
theorem execLedgerRead_st (offset : Nat) (s : State) :
    Ends (· = s.dev.st) (execLedgerRead offset s) := by simp [execLedgerRead]
theorem execJtagTestLogicReset_st (s : State) :
    Ends (· = s.dev.st) (execJtagTestLogicReset s) := by simp [execJtagTestLogicReset]

end Sys2Proof.Machine
end

section
/-! LOOKOUT, STARTING and the thermal trip: the commands that bring them. -/
namespace Sys2Proof.Machine
open Sys2Proof

/-- Where the device state may go within command `c`: it stays, or Table 01-5 has the transition. -/
def Follows (c : Instr) (a b : DevState) : Prop := b = a ∨ Transition c a b

theorem Follows.of_stops (c : Instr) {a b : DevState} (h : OrFaulted a b) : Follows c a b := by
  obtain rfl | ⟨hj, rfl⟩ := h
  · exact .inl rfl
  · unfold holdsJob at hj
    exact .inr (by unfold Transition; tauto)

theorem Follows.of_drift (c : Instr) {a b : DevState} (h : Drift a b) : Follows c a b := by
  cases h with
  | stops h => exact .of_stops c h
  | unloads => exact .inr (.inr (.inl rfl))
  | fills => exact .inr (.inr rfl)

theorem Ends.keeps {a : DevState} {o : Host.Outcome State Fault Refusal} (h : Ends (· = a) o) (c : Instr) : Ends (Follows c a) o :=
  h.mono fun _ h => .inl h
theorem Ends.stops {a : DevState} {o : Host.Outcome State Fault Refusal} (h : Ends (OrFaulted a) o) (c : Instr) : Ends (Follows c a) o :=
  h.mono fun _ h => .of_stops c h
theorem Ends.drifts {a : DevState} {o : Host.Outcome State Fault Refusal} (h : Ends (Drift a) o) (c : Instr) : Ends (Follows c a) o :=
  h.mono fun _ h => .of_drift c h

/-! LOOKOUT and STARTING. -/

@[simp] theorem enter_st (a : DevState) (s : State) : (enter a s).dev.st = a := by rw [enter_dev]
@[simp] theorem resetAll_st (s : State) : (resetAll s).dev.st = .lookout := rfl
@[simp] theorem beginStart_st (s : State) : (beginStart s).dev.st = .starting := by
  simp [beginStart]
@[simp] theorem fallToStarting_st (s : State) : (fallToStarting s).dev.st = .starting := enter_st _ _

/-- The hand-over leaves the device state, or begins a start in LOOKOUT. -/
theorem handOver_st (s : State) : (handOver s).dev.st = s.dev.st ∨ s.dev.st = .lookout ∧ (handOver s).dev.st = .starting := by
  unfold handOver
  split
  · next h =>
    simp only [Bool.and_eq_true, beq_iff_eq] at h
    obtain ⟨⟨⟨⟨-, hs⟩, -⟩, -⟩, -⟩ := h
    exact .inr ⟨hs, beginStart_st s⟩
  · exact .inl rfl

@[simp] theorem completeStart_st (r : Ring) (s : State) :
    (completeStart r s).dev.st = if r.role = .working then .ready else .relaying := enter_st _ _

/-- The checks of step 10 leave the device state, or the start is complete. -/
theorem checkStart_st (r : Ring) (s : State) :
    (checkStart r s).dev.st = s.dev.st ∨ (checkStart r s).dev.st = .ready ∨ (checkStart r s).dev.st = .relaying := by
  unfold checkStart
  split
  · rw [completeStart_st]
    split <;> simp
  · simp

theorem loseQ0_st (s : State) : (loseQ0 s).dev.st = s.dev.st ∨ s.dev.st ≠ .lookout ∧ (loseQ0 s).dev.st = .starting := by
  unfold loseQ0
  split
  · exact .inl rfl
  · next h => exact .inr ⟨h, fallToStarting_st s⟩

theorem execVauxOn_follows (holdN modRstN puf unwrap : Bool) (s : State) :
    Ends (Follows (.vauxOn holdN modRstN puf unwrap) s.dev.st) (execVauxOn holdN modRstN puf unwrap s) := by
  refine .inr ?_
  have h : ∀ u : State, u.dev.st = .lookout →
      (if u.pins.auxRstN then firstStep holdN modRstN puf unwrap u else pulseStump u).dev.st = .lookout := fun u hu => by simp [hu]
  rw [h _ rfl]
  exact .inl ⟨_, _, _, _, rfl⟩

theorem execVauxLoss_follows (s : State) : Ends (Follows .vauxLoss s.dev.st) (execVauxLoss s) := .inr (.inr (.inl rfl))

theorem execAuxRstNAssert_follows (s : State) : Ends (Follows .auxRstNAssert s.dev.st) (execAuxRstNAssert s) := by
  unfold execAuxRstNAssert; rw [ends_next]
  split
  · exact .inr (.inr (.inr rfl))
  · exact .inl rfl

theorem execModRstNAssert_follows (s : State) : Ends (Follows .modRstNAssert s.dev.st) (execModRstNAssert s) := by
  unfold execModRstNAssert; rw [ends_next]; dsimp only
  split
  · next h =>
    rw [fallToStarting_st]
    exact .inr (.inr ⟨by simpa using (Bool.and_eq_true_iff.mp h).2, .inl rfl⟩)
  · exact .inl rfl

theorem follows_handOver {c : Instr} (hc : c = .wardenSelfTestPass ∨ c = .holdNRise ∨ c = .modRstNRelease) (s : State) :
    Follows c s.dev.st (handOver s).dev.st := by
  obtain h | ⟨hs, h⟩ := handOver_st s
  · exact .inl h
  · exact .inr (h ▸ .inl ⟨hs, hc⟩)

theorem execModRstNRelease_follows (s : State) : Ends (Follows .modRstNRelease s.dev.st) (execModRstNRelease s) := by
  unfold execModRstNRelease; rw [ends_next]; dsimp only
  split
  · next h =>
    simp only [Bool.and_eq_true, beq_iff_eq] at h
    obtain ⟨⟨⟨-, hs⟩, -⟩, -⟩ := h
    rw [beginStart_st]
    exact .inl hs.symm
  · exact follows_handOver (by simp) _

theorem execHoldNRise_follows (s : State) : Ends (Follows .holdNRise s.dev.st) (execHoldNRise s) :=
  follows_handOver (by simp) { s with pins.holdN := true }

theorem execWardenSelfTestPass_follows (s : State) : Ends (Follows .wardenSelfTestPass s.dev.st) (execWardenSelfTestPass s) := by
  unfold execWardenSelfTestPass; rw [ends_next]
  split
  · exact follows_handOver (by simp) { s with dev.startStep := 2 }
  · exact .inl rfl

theorem follows_checkStart {c : Instr} (hc : c = .startChecks ∨ c = .startHoldRetry) (r : Ring) {s : State} (hs : s.dev.st = .starting) :
    Follows c s.dev.st (checkStart r s).dev.st := by
  obtain h | h | h := checkStart_st r s
  · exact .inl h
  all_goals
    rw [h]
    exact .inr (.inl ⟨hs, hc⟩)

theorem execStartChecks_follows (s : State) : Ends (Follows .startChecks s.dev.st) (execStartChecks s) := by
  unfold execStartChecks; rw [ends_next]
  split
  · split
    · next h =>
      simp only [Bool.and_eq_true, beq_iff_eq] at h
      obtain ⟨⟨⟨-, hs⟩, -⟩, -⟩ := h
      exact follows_checkStart (by simp) _ hs
    · exact .inl rfl
  · exact .inl rfl

theorem execStartHoldRetry_follows (s : State) : Ends (Follows .startHoldRetry s.dev.st) (execStartHoldRetry s) := by
  unfold execStartHoldRetry; rw [ends_next]
  split
  · exact .inl rfl
  · next h =>
    have hs : s.dev.st = .starting := by
      by_contra hs
      simp [hs] at h
    split
    · split
      · exact .inl (chooseStep_st _)
      · exact .inl rfl
    · split
      · split
        · exact .inl (hold_st ..)
        · exact .inl rfl
      · split
        · exact follows_checkStart (by simp) _ hs
        · exact .inl rfl

theorem execRingTrialRestart_follows (s : State) : Ends (Follows .ringTrialRestart s.dev.st) (execRingTrialRestart s) := by
  unfold execRingTrialRestart; rw [ends_next]
  split
  · next h =>
    simp only [Bool.and_eq_true, beq_iff_eq] at h
    obtain ⟨⟨⟨-, hs⟩, -⟩, -⟩ := h
    rw [beginStart_st]
    exact .inl hs.symm
  · exact .inl rfl

theorem execQ0DomainStable_follows (s : State) : Ends (Follows .q0DomainStable s.dev.st) (execQ0DomainStable s) := by
  unfold execQ0DomainStable; rw [ends_next]
  split
  · next h =>
    simp only [Bool.and_eq_true, beq_iff_eq] at h
    obtain ⟨⟨-, hs⟩, -⟩ := h
    dsimp only
    split
    · rw [beginStart_st]
      exact .inl hs.symm
    · exact .inl rfl
  · exact .inl rfl

theorem follows_loseQ0 {c : Instr} (hc : c = .modRstNAssert ∨ c = .q0Loss ∨ c = .refclkLoss ∨ ∃ v, c = .v48Shutdown v) (s : State) :
    Follows c s.dev.st (loseQ0 s).dev.st := by
  obtain h | ⟨hs, h⟩ := loseQ0_st s
  · exact .inl h
  · exact .inr (h ▸ .inr ⟨hs, hc⟩)

theorem execQ0Loss_follows (s : State) : Ends (Follows .q0Loss s.dev.st) (execQ0Loss s) := follows_loseQ0 (by simp) s
theorem execRefclkLoss_follows (s : State) : Ends (Follows .refclkLoss s.dev.st) (execRefclkLoss s) :=
  follows_loseQ0 (by simp) { s with pins.refclk := false }

theorem execV48Shutdown_follows (v48 : Nat) (s : State) : Ends (Follows (.v48Shutdown v48) s.dev.st) (execV48Shutdown v48 s) := by
  unfold execV48Shutdown; rw [ends_next]
  split
  · dsimp only
    have h := follows_loseQ0 (c := .v48Shutdown v48) (by simp) (raise errV48Range uFirewatch 0 0 none32
      (detail [(v48, 2), (if s.heat.v48Out then min s.heat.v48Low v48 else v48, 2), (if s.heat.v48Out then max s.heat.v48High v48 else v48, 2), (2, 1)])
      { s with pins.v48 := v48 })
    rwa [raise_dev] at h
  · exact .inl rfl

/-! The thermal trip and the management tick. -/

theorem faulted_or_enter (s : State) : (if s.dev.st = .faulted then s else enter .faulted s).dev.st = .faulted := by
  split
  · assumption
  · exact enter_st _ _

/-- A trip leaves the device state, or brings FAULTED outside LOOKOUT. -/
theorem tripNow_st (k : SensorKind) (i source : Nat) (v : Int) (s : State) :
    (tripNow k i source v s).dev.st = s.dev.st ∨ s.dev.st ≠ .lookout ∧ (tripNow k i source v s).dev.st = .faulted := by
  unfold tripNow
  split
  · exact .inl rfl
  · next h =>
    refine .inr ⟨fun hs => h (by simp [hs]), ?_⟩
    exact faulted_or_enter _

theorem tripStep_st (s : State) : (tripStep s).dev.st = s.dev.st ∨ s.dev.st ≠ .lookout ∧ (tripStep s).dev.st = .faulted := by
  unfold tripStep
  split
  · split
    · exact tripNow_st _ _ _ _ _
    · exact .inl rfl
  · exact .inl rfl

/-- Of a tick's steps only the trip changes the device state. -/
theorem firewatchTick_st (r : TickReadings) (s : State) :
    (firewatchTick r s).dev.st = s.dev.st ∨ s.dev.st ≠ .lookout ∧ (firewatchTick r s).dev.st = .faulted := by
  have h := tripStep_st { s with
    heat.crowns := if isFA s then s.heat.crowns else latchSensors false 256 tileNeighbours r.crown s.heat.crowns
    heat.roots := latchSensors false 256 tileNeighbours r.root s.heat.roots
    heat.hbms := if isFA s then s.heat.hbms else latchSensors true 16 stackNeighbours r.stack s.heat.hbms }
  unfold firewatchTick
  extract_lets src a b c d e f g
  have same : g.dev.st = (tripStep a).dev.st := by
    calc g.dev.st = f.dev.st := foldl_st _ (fun _ _ => laneStep_st ..) _ _
      _ = e.dev.st := foldl_st _ (fun u x => by split <;> simp) _ _
      _ = d.dev.st := by rw [noteSpareless_st, foldl_st _ fun _ _ => sweepEye_st ..]
      _ = c.dev.st := by rw [heaterStep_st, phaseStep_st]
      _ = b.dev.st := by
        dsimp only [c]
        split
        · rfl
        · exact foldl_st _ (fun u q => by rw [notchTick_st, setNotch_dev]) _ _
      _ = (tripStep a).dev.st := refreshStep_st _
  rw [ledgerStep_st, telemetryStep_st, same]
  exact h

end Sys2Proof.Machine
end

section
/-! The commands of a job that Table 01-5 names, and the step boundary. -/
namespace Sys2Proof.Machine
open Sys2Proof

theorem follows_trip {c : Instr} (hc : (∃ k v, c = .thermTripComparator k v) ∨ ∃ r, c = .managementTick r) {a b : DevState}
    (h : b = a ∨ a ≠ .lookout ∧ b = .faulted) : Follows c a b := by
  obtain rfl | ⟨ha, rfl⟩ := h
  · exact .inl rfl
  · exact .inr (.inr (.inr (.inr (.inr (.inr (.inr ⟨ha, hc⟩))))))

theorem execThermTripComparator_follows (t : Tile) (value : Int) (s : State) :
    Ends (Follows (.thermTripComparator t value) s.dev.st) (execThermTripComparator t value s) := by
  unfold execThermTripComparator; rw [ends_next]
  split
  · exact follows_trip (.inl ⟨_, _, rfl⟩) (tripNow_st _ _ _ _ _)
  · exact .inl rfl

theorem execManagementTick_follows (r : TickReadings) (s : State) : Ends (Follows (.managementTick r) s.dev.st) (execManagementTick r s) := by
  unfold execManagementTick; rw [ends_next]
  split
  · exact .inl rfl
  · extract_lets heat sensor sensor' u v
    have hv : v.dev.st = s.dev.st := v48Step_st u
    split
    · exact .inl (perTickRecords_st u)
    · rw [perTickRecords_st, ite_st, hv]
      split
      · have h := firewatchTick_st r v
        rw [hv] at h
        exact follows_trip (.inr ⟨_, rfl⟩) h
      · exact .inl rfl

/-! A job's steps. -/

/-- What a running device comes to by its own step boundary or a corrupt value of its own (Table 01-5). -/
def FromRunning (a : DevState) : Prop := a = .running ∨ a = .faulted ∨ a = .draining ∨ a = .quarantined

theorem FromRunning.stops {a b : DevState} (h : FromRunning a) (g : OrFaulted a b) : FromRunning b := by
  obtain rfl | ⟨_, rfl⟩ := g
  · exact h
  · exact .inr (.inl rfl)

theorem stopCorrupt_st (code : Nat) (s : State) :
    (stopCorrupt code s).dev.st = s.dev.st ∨ s.dev.st = .running ∧ (stopCorrupt code s).dev.st = .quarantined ∨
      holdsJob s.dev.st ∧ (stopCorrupt code s).dev.st = .faulted := by
  unfold stopCorrupt
  split
  · next h =>
    dsimp only
    rw [sendNotice_dev]
    split
    · next hs => exact .inr (.inl ⟨hs, enter_st _ _⟩)
    · exact .inr (.inr ⟨holdsJob_of_inJob h, enter_st _ _⟩)
  · exact .inl rfl

theorem stopCorrupt_fromRunning (code : Nat) (s : State) (h : FromRunning s.dev.st) : FromRunning (stopCorrupt code s).dev.st := by
  obtain g | ⟨_, g⟩ | ⟨_, g⟩ := stopCorrupt_st code s
  · rwa [g]
  · exact .inr (.inr (.inr g))
  · exact .inr (.inl g)

@[simp] theorem beginDrain_st (hold : Bool) (s : State) : (beginDrain hold s).dev.st = .draining := by
  rw [beginDrain, flushSummaries_st, enter_st]
theorem programEnd_st (step : DWord) (s : State) : (programEnd step s).dev.st = .draining := beginDrain_st _ _
theorem declareFault_fromRunning (action code subject : Nat) (a b : Bool) (s : State) (h : FromRunning s.dev.st) :
    FromRunning (declareFault action code subject a b s).dev.st := h.stops (declareFault_orFaulted _ _ _ _ _ _ .rfl)

theorem replayDecision_fromRunning (im : Image) (others : List Nat) (rs : List (List Byte)) (s : State) (h : FromRunning s.dev.st) :
    FromRunning (replayDecision im others rs s).dev.st := by
  have noted : ∀ ds obj peer det, FromRunning (deviceFlume 1 1 ds (raise errReplayDecision uCruise 0 obj peer det s)).dev.st :=
    fun ds obj peer det => h.stops (deviceFlume_orFaulted _ _ _ _ (by rw [raise_dev]; exact .rfl))
  unfold replayDecision
  dsimp only
  generalize others ++ _ = slots
  cases slots with
  | nil => exact (noted _ _ _ _).stops (stopA2_orFaulted _ _ .rfl)
  | cons x xs =>
    exact iteInduction (motive := fun u : State => FromRunning u.dev.st) (fun _ => stopCorrupt_fromRunning _ _ (noted _ _ _ _))
      (fun _ => declareFault_fromRunning _ _ _ _ _ _ (noted _ _ _ _))

theorem compareShard_fromRunning (im : Image) (p : Plan) (others : List (Nat × Nat × DWord)) (s : State) (k : Nat) (h : FromRunning s.dev.st) :
    FromRunning (compareShard im p others s k).dev.st := by
  unfold compareShard
  extract_lets tid own mask mine all u
  have hu : FromRunning u.dev.st := by
    dsimp only [u]
    split
    · exact h.stops (sendReplica_orFaulted _ _ _ _ _ _ .rfl)
    · exact h
  split
  · exact hu
  · extract_lets v w
    have hw : FromRunning w.dev.st := by simpa [w, v] using hu
    split
    · exact hw.stops (stopA2_orFaulted _ _ .rfl)
    · dsimp only
      split
      · exact stopCorrupt_fromRunning _ _ hw
      · exact declareFault_fromRunning _ _ _ _ _ _ hw

theorem finishStep_fromRunning (im : Image) (p : Plan) (b : BoundaryIn) (mbNext : Nat) (rs : List (List Byte)) (s : State)
    (h : FromRunning s.dev.st) : FromRunning (finishStep im p b mbNext rs s).dev.st := by
  unfold finishStep
  extract_lets step u v w x
  have hu : FromRunning u.dev.st := h.stops (by simp [u])
  split
  · exact hu.stops (stopA4_orFaulted _ _ (by simp))
  · have hw : FromRunning w.dev.st := by
      refine List.foldlRecOn (motive := fun t : State => FromRunning t.dev.st) _ _ ?_ fun t ht k _ => compareShard_fromRunning _ _ _ _ _ ht
      simpa [v] using hu
    have hx : FromRunning x.dev.st := by
      dsimp only [x]
      split
      · exact hw.stops (deviceFlume_orFaulted _ _ _ _ .rfl)
      · exact hw
    split
    · exact .inr (.inr (.inl (programEnd_st _ _)))
    · exact hx

theorem recordStep_fromRunning (im : Image) (p : Plan) (b : BoundaryIn) (mbNext : Nat) (ds : List Decision) (s : State)
    (h : FromRunning s.dev.st) : FromRunning (recordStep im p b mbNext ds s).dev.st := by
  unfold recordStep
  extract_lets u rs
  have hu : FromRunning u.dev.st := by
    refine h.stops (commitSnapshot_orFaulted _ _ ?_)
    split
    · exact deviceFlume_orFaulted _ _ _ _ .rfl
    · exact .rfl
  split
  · exact finishStep_fromRunning _ _ _ _ _ _ hu
  · exact finishStep_fromRunning _ _ _ _ _ _ (by simpa using hu)
  · exact hu.stops (replayInput_orFaulted _ _ .rfl)
  · exact replayDecision_fromRunning _ _ _ _ hu
  · exact finishStep_fromRunning _ _ _ _ _ _ (show FromRunning (dropFrom u.job.step.toNat u).dev.st by rwa [dropFrom_st])

theorem boundaryAll_fromRunning (im : Image) (p : Plan) (b : BoundaryIn) (s : State) (h : FromRunning s.dev.st) :
    FromRunning (boundaryAll im p b s).dev.st := by
  have record := recordStep_fromRunning im
  have fails := fun q u t => @fitFault_orFaulted u.dev.st im q u .rfl t
  obtain ⟨fit, hfit⟩ : ∃ f, f = fitFault := ⟨_, rfl⟩
  unfold boundaryAll
  rw [← hfit] at fails ⊢
  extract_lets old s₁
  have h₁ : FromRunning s₁.dev.st := h.stops (closeNorm_orFaulted _ _ _ _ (reduceTallies_orFaulted _ _ _ .rfl))
  dsimp only
  generalize hs₂ : (programRules im _ _).2.1 = s₂
  have h₂ : FromRunning s₂.dev.st := by rw [← hs₂, programRules_st, promoteAll_st]; exact h₁
  refine iteInduction (motive := fun u : State => FromRunning u.dev.st) (fun _ => record _ _ _ _ _ h₂) fun _ => ?_
  generalize hq : replanPhases _ im _ p = q
  have h₃ : FromRunning (reconvertAll im old s₂).dev.st := (reconvertAll_st ..).symm ▸ h₂
  cases hf : fit im q (reconvertAll im old s₂) with
  | some t => exact h₃.stops (fails _ _ _ hf)
  | none =>
    dsimp only
    generalize hu : installOwn im q _ _ = u
    have hsame : FromRunning u.dev.st := by rw [← hu, installOwn_st]; exact h₃
    obtain ⟨hfst, hsnd⟩ := comparePlans_orFaulted b.plans u .rfl
    split
    · next heq => exact hsame.stops (hfst _ (by rw [heq]))
    · next heq =>
      rw [heq] at hsnd
      exact record _ _ _ _ _ (hsame.stops hsnd)

theorem boundaryReady_running {s : State} {im : Image} (h : boundaryReady s im = true) : s.dev.st = .running := by
  simp only [boundaryReady, jobRunning, Bool.and_eq_true, beq_iff_eq] at h
  tauto

theorem execStepBoundary_follows (b : BoundaryIn) (s : State) : Ends (Follows (.stepBoundary b) s.dev.st) (execStepBoundary b s) := by
  unfold execStepBoundary; rw [ends_next]
  split
  · split
    · next im p _ _ h =>
      have hs : s.dev.st = .running := boundaryReady_running h
      obtain h | h | h | h := boundaryAll_fromRunning im p b (beginStep im s) (.inl (by simpa using hs))
      all_goals rw [hs, h]
      · exact .inl rfl
      · exact .inr (.inr (.inr (.inl rfl)))
      · exact .inr (.inl ⟨rfl, _, rfl⟩)
      · exact .inr (.inl rfl)
    · exact .inl rfl
  · exact .inl rfl
  · exact .inl rfl

@[simp] theorem beginRunning_st (s : State) : (beginRunning s).dev.st = .running := enter_st _ _

theorem planAll_st (x : PlanIn) (im : Image) (s : State) :
    OrFaulted s.dev.st (planAll x im s).dev.st ∨ (planAll x im s).dev.st = .running := by
  obtain ⟨hfst, hsnd⟩ := planRounds_orFaulted x s .rfl
  unfold planAll
  split
  · next heq => exact .inl (hfst _ (by rw [heq]))
  · next t heq =>
    rw [heq] at hsnd
    split
    · next hc => exact .inl (carriedFault_orFaulted im t hsnd hc)
    · obtain ⟨gfst, -⟩ := planNow_orFaulted x im (firstPhase (im.initPhase.isSome && !t.job.restore) im) t hsnd
      split
      · next geq => exact .inl (gfst _ (by rw [geq]))
      · refine .inr ?_
        dsimp only
        split <;> simp

theorem execPlanCompute_follows (p : PlanIn) (s : State) : Ends (Follows (.planCompute p) s.dev.st) (execPlanCompute p s) := by
  unfold execPlanCompute; rw [ends_next]
  split
  · next im _ =>
    split
    · next hs =>
      obtain h | h := planAll_st p im s
      · exact .of_stops _ h
      · exact .inr (h ▸ .inl ⟨hs, _, rfl⟩)
    · exact .inl rfl
  · exact .inl rfl

theorem execThirdTileRecompute_follows (t : Tile) (a b : Run) (s : State) :
    Ends (Follows (.thirdTileRecompute t a b) s.dev.st) (execThirdTileRecompute t a b s) := by
  have corrupt : ∀ u : State, u.dev.st = s.dev.st → Follows (.thirdTileRecompute t a b) s.dev.st (stopCorrupt errShadowDrift u).dev.st := by
    intro u hu
    obtain h | ⟨hs, h⟩ | ⟨hs, h⟩ := stopCorrupt_st errShadowDrift u
    · exact .inl (h.trans hu)
    · exact .inr (h ▸ .inl (hu ▸ hs))
    · exact .of_stops _ (.inr ⟨hu ▸ hs, h⟩)
  unfold execThirdTileRecompute; rw [ends_next]
  dsimp only
  split
  · exact .inl rfl
  · exact corrupt _ (by simp)

theorem afterDrain_cases (s : State) : afterDrain s = .ready ∨ afterDrain s = .relaying := by
  unfold afterDrain
  split <;> simp

theorem execDrainComplete_follows (s : State) : Ends (Follows .drainComplete s.dev.st) (execDrainComplete s) := by
  unfold execDrainComplete; rw [ends_next]
  split
  · next hs =>
    rw [enter_st]
    refine .inr ?_
    obtain h | h := afterDrain_cases s
    · exact h ▸ .inr (.inr (.inl ⟨hs.1, rfl⟩))
    · exact h ▸ .inr (.inl ⟨hs.1, rfl⟩)
  · exact .inl rfl

theorem execReleaseQuarantined_follows (r : WReq) (s : State) :
    Ends (Follows (.releaseQuarantined r) s.dev.st) (execReleaseQuarantined r s) := by
  refine wardenRequest_ends (.inl rfl) ?_
  dsimp only
  split
  · next hs =>
    rw [endExerciser_st] at hs
    have hst : ∀ (a : DevState) (u : State), (wardenReply r 0 [] (enter a u)).dev.st = a := fun _ _ => enter_st _ _
    rw [hst]
    refine .inr ?_
    obtain h | h := afterDrain_cases (endExerciser s)
    · exact h ▸ .inr (.inr (.inr ⟨hs, _, rfl⟩))
    · exact h ▸ .inr (.inr ⟨hs, _, rfl⟩)
  · exact .inl (by simp)

theorem execRecoveryNotice_follows (n : Notice) (s : State) : Ends (Follows (.recoveryNotice n) s.dev.st) (execRecoveryNotice n s) := by
  unfold execRecoveryNotice; rw [ends_next]
  split
  · exact .inl rfl
  · split
    · next hs =>
      split
      · rw [enter_st]
        exact .inr (.inr hs)
      · exact .inl rfl
    · split
      · exact .inl rfl
      · next hr =>
        have hjob : holdsJob s.dev.st := holdsJob_of_recovers (by simpa using hr)
        extract_lets u src v w
        have hw : w.dev.st = s.dev.st := by
          dsimp only [w]
          split <;> rfl
        split
        · split
          · next hq =>
            rw [enter_st]
            simp only [Bool.and_eq_true, beq_iff_eq] at hq
            exact .inr (.inl (hw ▸ hq.2))
          · rw [enter_st]
            exact .of_stops _ (.inr ⟨hjob, rfl⟩)
        · exact .inl hw

theorem execFillAssign_follows (f : FillIn) (s : State) : Ends (Follows (.fillAssign f) s.dev.st) (execFillAssign f s) := by
  have filled : s.dev.st = .relaying → ∀ b, OrFaulted .filling b → Follows (.fillAssign f) s.dev.st b := by
    rintro hs b (rfl | ⟨-, rfl⟩)
    · exact .inr ⟨hs, _, rfl⟩
    · exact .inr (.inr (.inr (.inr (.inr (.inr (.inl ⟨hs, _, rfl⟩))))))
  unfold execFillAssign; rw [ends_next]
  extract_lets v u src
  have hv : v.dev.st = s.dev.st := endExerciser_st s
  have hu : u.dev.st = .filling := enter_st _ _
  split
  · exact .inl (by simp [hv])
  · split
    · exact .inl (by simp [hv])
    · next hr =>
      have hs : s.dev.st = .relaying := by
        rw [hv] at hr
        tauto
      refine filled hs _ ?_
      split
      · exact .inl hu
      · next im _ =>
        obtain ⟨hfst, hsnd⟩ := planRounds_orFaulted f.plan { u with job.planFrom := u.time } (was := .filling) (.inl hu)
        split
        · next heq => exact hfst _ (by rw [heq])
        · next t heq =>
          rw [heq] at hsnd
          obtain ⟨gfst, gsnd⟩ := planNow_orFaulted f.plan im (firstPhase false im) t hsnd
          split
          · next geq => exact gfst _ (by rw [geq])
          · next geq =>
            rw [geq] at gsnd
            exact fillRestore_orFaulted _ _ gsnd

@[simp] theorem beginLoad_st (conn : Nat) (s : State) : (beginLoad conn s).dev.st = .loading := enter_st _ _

/-- A bad message leaves the device state, or ends the loading that it belongs to. -/
theorem refuseBad_st (g : HSeg) (loads : Bool) (off : Nat) (s : State) :
    (refuseBad g loads off s).dev.st = s.dev.st ∨ s.dev.st = .loading ∧ (refuseBad g loads off s).dev.st = .ready := by
  unfold refuseBad
  extract_lets r op u
  have hu : u.dev.st = s.dev.st := updConn_st ..
  rw [refuseInvalid_st, ite_st, enter_st, hu]
  split
  · next h => exact .inr ⟨h.2.1, rfl⟩
  · exact .inl rfl

theorem execData_follows (g : HSeg) (s : State) : Ends (Follows (.data g) s.dev.st) (execData g s) := by
  unfold execData; rw [ends_next]
  split
  · exact .inl rfl
  · extract_lets u c old v loads w x
    have hv : v.dev.st = s.dev.st := by simp [v, u]
    have hw : w.dev.st = s.dev.st ∨ s.dev.st = .ready ∧ w.dev.st = .loading := by
      dsimp only [w]
      split
      · next hl =>
        simp only [loads, Bool.and_eq_true, beq_iff_eq, hv] at hl
        exact .inr ⟨hl.1.2, beginLoad_st _ _⟩
      · exact .inl hv
    have hx : x.dev.st = w.dev.st ∨ w.dev.st = .loading ∧ x.dev.st = .ready := by
      dsimp only [x]
      split
      · exact refuseBad_st _ _ _ _
      · exact .inl rfl
    rw [ite_st, sendPacket_st, ite_self]
    obtain hx | ⟨hl, hx⟩ := hx
    · rw [hx]
      obtain hw | ⟨hs, hw⟩ := hw
      · exact .inl hw
      · exact .inr (hw ▸ ⟨hs, .inl ⟨_, rfl⟩⟩)
    · rw [hx]
      obtain hw | ⟨hs, hw⟩ := hw
      · exact .inr (.inr (.inl (hw ▸ hl)))
      · exact .inl hs.symm

/-- What a LOAD_PROGRAM brings from READY, where the image first comes, and from LOADING. -/
theorem execLoadProgram_follows (r : Req) (image : List Byte) (s : State) :
    Ends (Follows (.loadProgram r image) s.dev.st) (execLoadProgram r image s) := by
  have toReady : s.dev.st = .ready ∨ s.dev.st = .loading → Follows (.loadProgram r image) s.dev.st .ready := by
    rintro (h | h)
    · exact .inl h.symm
    · exact .inr (.inr (.inl h))
  have toLoading : s.dev.st = .ready ∨ s.dev.st = .loading → Follows (.loadProgram r image) s.dev.st .loading := by
    rintro (h | h)
    · exact .inr ⟨h, .inr ⟨_, _, rfl⟩⟩
    · exact .inl h.symm
  have hst : (if inTurn r s then endExerciser s else s).dev.st = s.dev.st := by split <;> simp
  unfold execLoadProgram
  refine haulerRequest_ends (.inl hst) (fun u hu ha => ?_)
  rw [hst] at hu
  split
  · exact .inl (by simp [hu])
  · next hq =>
    have hs : s.dev.st = .ready ∨ s.dev.st = .loading := by
      simp only [takesImage, hu] at ha
      by_contra hs
      simp_all
    extract_lets v
    have hv : v.dev.st = .loading := by
      dsimp only [v]
      split
      · exact beginLoad_st _ _
      · next h => exact hu.trans (hs.resolve_left (hu ▸ h))
    split
    · rw [enter_st]
      exact toReady hs
    · split
      · rw [rejectImage, enter_st]
        exact toReady hs
      · have : ∀ (j : Job), (reply r 0 [] { v with job := j }).dev.st = .loading := fun j => by rw [reply_dev]; exact hv
        rw [this]
        exact toLoading hs

theorem acceptStart_st (im : Image) (body : List Byte) (s : State) : (acceptStart im body s).dev.st = .planning := enter_st _ _

theorem execStartJob_follows (r : Req) (body : List Byte) (s : State) : Ends (Follows (.startJob r body) s.dev.st) (execStartJob r body s) := by
  unfold execStartJob
  refine haulerRequest_ends (.inl rfl) (fun u hu ha => ?_)
  simp only [isLoading, Bool.and_eq_true, beq_iff_eq, hu] at ha
  split
  · exact .inl (by simp [hu])
  · rw [reply_dev, acceptStart_st]
    exact .inr ⟨ha.1, _, _, rfl⟩
  · exact .inl hu

theorem stopJob_st (s : State) : (stopJob s).dev.st = .draining := beginDrain_st _ _

theorem execStopJob_follows (r : Req) (tag : BitVec 16) (s : State) : Ends (Follows (.stopJob r tag) s.dev.st) (execStopJob r tag s) := by
  unfold execStopJob
  refine haulerRequest_ends (.inl rfl) (fun u hu ha => ?_)
  split
  · exact .inl (by simp [hu])
  · split
    · exact .inl (by simp [hu])
    · next hd =>
      rw [reply_dev, stopJob_st]
      have hs : s.dev.st = .loading ∨ s.dev.st = .planning ∨ s.dev.st = .running ∨ s.dev.st = .faulted := by
        simp only [stoppable, Bool.or_eq_true, Bool.and_eq_true, beq_iff_eq, hu] at ha
        rw [hu] at hd
        tauto
      exact .inr (.inr ⟨hs, _, _, rfl⟩)

end Sys2Proof.Machine
end

section
/-! The transitions of Table 01-5 (R31). -/
namespace Sys2Proof.Machine
open Sys2Proof

/-- Every command keeps to Table 01-5. -/
theorem exec_follows (c : Instr) (s : State) : Ends (Follows c s.dev.st) (exec c s) := by
  cases c with
  | vauxOn => exact execVauxOn_follows ..
  | vauxLoss => exact execVauxLoss_follows ..
  | auxRstNAssert => exact execAuxRstNAssert_follows ..
  | auxRstNRelease => exact (execAuxRstNRelease_st ..).keeps _
  | modRstNAssert => exact execModRstNAssert_follows ..
  | modRstNRelease => exact execModRstNRelease_follows ..
  | holdNRise => exact execHoldNRise_follows ..
  | wardenSelfTestPass => exact execWardenSelfTestPass_follows ..
  | v48InRange => exact (execV48InRange_drift ..).drifts _
  | startChecks => exact execStartChecks_follows ..
  | startHoldRetry => exact execStartHoldRetry_follows ..
  | ringTrialRestart => exact execRingTrialRestart_follows ..
  | holdLimitExpire => exact (execHoldLimitExpire_st ..).keeps _
  | q0Loss => exact execQ0Loss_follows ..
  | refclkLoss => exact execRefclkLoss_follows ..
  | auxclkLoss => exact (execAuxclkLoss_st ..).keeps _
  | auxclkReturn => exact (execAuxclkReturn_st ..).keeps _
  | v48Shutdown => exact execV48Shutdown_follows ..
  | thermTripComparator => exact execThermTripComparator_follows ..
  | thermTripRelease => exact (execThermTripRelease_st ..).keeps _
  | managementTick => exact execManagementTick_follows ..
  | notchRaise => exact (execNotchRaise_st ..).keeps _
  | notchFloor => exact (execNotchFloor_st ..).keeps _
  | sensorSuspect => exact (execSensorSuspect_st ..).keeps _
  | refreshRateApply => exact (execRefreshRateApply_st ..).keeps _
  | wardenCoreReset => exact (execWardenCoreReset_st ..).keeps _
  | ledgerSummaryFlush => exact (execLedgerSummaryFlush_st ..).keeps _
  | ledgerEventWrite => exact (execLedgerEventWrite_st ..).keeps _
  | telemetryDatagram => exact (execTelemetryDatagram_st ..).keeps _
  | laneTrainingAttempt => exact (execLaneTrainingAttempt_st ..).keeps _
  | codewordLock => exact (execCodewordLock_st ..).keeps _
  | trainingTimeout => exact (execTrainingTimeout_st ..).keeps _
  | initFrame => exact (execInitFrame_st ..).keeps _
  | discoveryRecord => exact (execDiscoveryRecord_st ..).keeps _
  | laneExtraLight => exact (execLaneExtraLight_st ..).keeps _
  | laneRetrain => exact (execLaneRetrain_st ..).keeps _
  | retrainComplete => exact (execRetrainComplete_st ..).keeps _
  | retrainTimeout => exact (execRetrainTimeout_st ..).keeps _
  | frameReceive => exact (execFrameReceive_st ..).keeps _
  | frameReplayTimeout => exact (execFrameReplayTimeout_st ..).keeps _
  | hostPortDown => exact (execHostPortDown_drift ..).drifts _
  | ethernetPauseReceive => exact (execEthernetPauseReceive_st ..).keeps _
  | dieLinkTransfer => exact (execDieLinkTransfer_st ..).keeps _
  | dieLinkReplayTimeout => exact (execDieLinkReplayTimeout_st ..).keeps _
  | relinkStart => exact (execRelinkStart_st ..).keeps _
  | relinkComplete => exact (execRelinkComplete_drift ..).drifts _
  | missingClock => exact (execMissingClock_drift ..).drifts _
  | quadrantResetSeen => exact (execQuadrantResetSeen_drift ..).drifts _
  | routerPacketArrive => exact (execRouterPacketArrive_st ..).keeps _
  | meshEscape => exact (execMeshEscape_st ..).keeps _
  | escapeTableInstall => exact (execEscapeTableInstall_st ..).keeps _
  | relayForward => exact (execRelayForward_st ..).keeps _
  | reach => exact (execReach_st ..).keeps _
  | trayState => exact (execTrayState_st ..).keeps _
  | tableDigest => exact (execTableDigest_st ..).keeps _
  | mtcSyncSend => exact (execMtcSyncSend_st ..).keeps _
  | mtcSync => exact (execMtcSync_st ..).keeps _
  | mtcHoldover => exact (execMtcHoldover_st ..).keeps _
  | epochSwitch => exact (execEpochSwitch_st ..).keeps _
  | oldEpochRetire => exact (execOldEpochRetire_st ..).keeps _
  | load => exact (execLoad_orFaulted ..).stops _
  | store => exact (execStore_orFaulted ..).stops _
  | storeFlag => exact (execStoreFlag_orFaulted ..).stops _
  | storeFlagPerform => exact (execStoreFlagPerform_orFaulted ..).stops _
  | atomic => exact (execAtomic_orFaulted ..).stops _
  | atomicGroupClose => exact (execAtomicGroupClose_orFaulted ..).stops _
  | atomicResultExpire => exact (execAtomicResultExpire_st ..).keeps _
  | signal => exact (execSignal_orFaulted ..).stops _
  | copyPull => exact (execCopyPull_orFaulted ..).stops _
  | loadData => exact (execLoadData_orFaulted ..).stops _
  | ack => exact (execAck_orFaulted ..).stops _
  | atomicData => exact (execAtomicData_orFaulted ..).stops _
  | busy => exact (execBusy_orFaulted ..).stops _
  | busyResend => exact (execBusyResend_st ..).keeps _
  | error => exact (execError_orFaulted ..).stops _
  | retransmit => exact (execRetransmit_st ..).keeps _
  | tDeadExpire => exact (execTDeadExpire_orFaulted ..).stops _
  | seqSignal => exact (execSeqSignal_orFaulted ..).stops _
  | seqWait => exact (execSeqWait_orFaulted ..).stops _
  | seqTake => exact (execSeqTake_orFaulted ..).stops _
  | waitTimeout => exact (execWaitTimeout_orFaulted ..).stops _
  | deviceWatchdog => exact (execDeviceWatchdog_orFaulted ..).stops _
  | copyEngineCopy => exact (execCopyEngineCopy_orFaulted ..).stops _
  | teeForward => exact (execTeeForward_orFaulted ..).stops _
  | cornerTurnRead => exact (execCornerTurnRead_orFaulted ..).stops _
  | scrubWalk => exact (execScrubWalk_orFaulted ..).stops _
  | hbmPatrolScrub => exact (execHbmPatrolScrub_orFaulted ..).stops _
  | hbmSelfRefreshEntry => exact (execHbmSelfRefreshEntry_st ..).keeps _
  | hbmPatrolBurst => exact (execHbmPatrolBurst_orFaulted ..).stops _
  | arrayStream => exact (execArrayStream_orFaulted ..).stops _
  | stationaryLoad => exact (execStationaryLoad_orFaulted ..).stops _
  | stationaryLoadComplete => exact (execStationaryLoadComplete_orFaulted ..).stops _
  | leafArrive => exact (execLeafArrive_orFaulted ..).stops _
  | nodeStoreDrain => exact (execNodeStoreDrain_orFaulted ..).stops _
  | thinPathPass => exact (execThinPathPass_orFaulted ..).stops _
  | vectorOp => exact (execVectorOp_orFaulted ..).stops _
  | leafReduce => exact (execLeafReduce_orFaulted ..).stops _
  | combine => exact (execCombine_orFaulted ..).stops _
  | unitClockGate => exact (execUnitClockGate_st ..).keeps _
  | crownClockGate => exact (execCrownClockGate_st ..).keeps _
  | crownWake => exact (execCrownWake_orFaulted ..).stops _
  | shadowCompare => exact (execShadowCompare_st ..).keeps _
  | thirdTileRecompute => exact execThirdTileRecompute_follows ..
  | phaseBoundary => exact (execPhaseBoundary_orFaulted ..).stops _
  | contract => exact (execContract_orFaulted ..).stops _
  | map => exact (execMap_orFaulted ..).stops _
  | reduceSum => exact (execReduceSum_orFaulted ..).stops _
  | reduceSumOfSquares => exact (execReduceSumOfSquares_orFaulted ..).stops _
  | reduceMax => exact (execReduceMax_orFaulted ..).stops _
  | reduceMin => exact (execReduceMin_orFaulted ..).stops _
  | attendForward => exact (execAttendForward_orFaulted ..).stops _
  | attendBackward => exact (execAttendBackward_orFaulted ..).stops _
  | normaliseRms => exact (execNormaliseRms_orFaulted ..).stops _
  | normaliseLayer => exact (execNormaliseLayer_orFaulted ..).stops _
  | gather => exact (execGather_orFaulted ..).stops _
  | scatterAdd => exact (execScatterAdd_orFaulted ..).stops _
  | scatterReplace => exact (execScatterReplace_orFaulted ..).stops _
  | cast => exact (execCast_orFaulted ..).stops _
  | drawBits => exact (execDrawBits_orFaulted ..).stops _
  | drawUniform => exact (execDrawUniform_orFaulted ..).stops _
  | drawBernoulli => exact (execDrawBernoulli_orFaulted ..).stops _
  | collectiveReduce => exact (execCollectiveReduce_orFaulted ..).stops _
  | collectiveReduceScatter => exact (execCollectiveReduceScatter_orFaulted ..).stops _
  | collectiveGather => exact (execCollectiveGather_orFaulted ..).stops _
  | collectiveAllToAll => exact (execCollectiveAllToAll_orFaulted ..).stops _
  | collectiveBroadcast => exact (execCollectiveBroadcast_orFaulted ..).stops _
  | collectiveScalarReduce => exact (execCollectiveScalarReduce_orFaulted ..).stops _
  | collectiveBarrier => exact (execCollectiveBarrier_orFaulted ..).stops _
  | copyBox => exact (execCopyBox_orFaulted ..).stops _
  | copyReshape => exact (execCopyReshape_orFaulted ..).stops _
  | hostSignalNotify => exact (execHostSignalNotify_orFaulted ..).stops _
  | hostSignalAwait => exact (execHostSignalAwait_orFaulted ..).stops _
  | run => exact (execRun_orFaulted ..).stops _
  | loop => exact (execLoop_st ..).keeps _
  | endLoop => exact (execEndLoop_st ..).keeps _
  | ifItem => exact (execIfItem_st ..).keeps _
  | elseItem => exact (execElseItem_st ..).keeps _
  | endIf => exact (execEndIf_st ..).keeps _
  | stepBoundary => exact execStepBoundary_follows ..
  | snapshotBegin => exact (execSnapshotBegin_orFaulted ..).stops _
  | drainComplete => exact execDrainComplete_follows ..
  | endHoldExpire => exact (execEndHoldExpire_st ..).keeps _
  | flumeUp => exact (execFlumeUp_st ..).keeps _
  | flumeDown => exact (execFlumeDown_orFaulted ..).stops _
  | busyRelay => exact (execBusyRelay_st ..).keeps _
  | relayResend => exact (execRelayResend_st ..).keeps _
  | flumeTimeout => exact (execFlumeTimeout_orFaulted ..).stops _
  | flumeSlotDiscard => exact (execFlumeSlotDiscard_st ..).keeps _
  | bulkUp => exact (execBulkUp_st ..).keeps _
  | bulkDown => exact (execBulkDown_orFaulted ..).stops _
  | bulkDone => exact (execBulkDone_orFaulted ..).stops _
  | chunkTimeout => exact (execChunkTimeout_orFaulted ..).stops _
  | bulkBufferDiscard => exact (execBulkBufferDiscard_st ..).keeps _
  | recoveryNotice => exact execRecoveryNotice_follows ..
  | recoveryNoticeResend => exact (execRecoveryNoticeResend_st ..).keeps _
  | collectionWindowEnd => exact (execCollectionWindowEnd_orFaulted ..).stops _
  | snapshotChunkLand => exact (execSnapshotChunkLand_drift ..).drifts _
  | fillAssign => exact execFillAssign_follows ..
  | spareAvailable => exact (execSpareAvailable_drift ..).drifts _
  | repairTimeout => exact (execRepairTimeout_orFaulted ..).stops _
  | hauOpen => exact (execHauOpen_st ..).keeps _
  | data => exact execData_follows ..
  | haulerAck => exact (execHaulerAck_st ..).keeps _
  | close => exact (execClose_drift ..).drifts _
  | haulerReset => exact (execHaulerReset_drift ..).drifts _
  | haulerAckTimer => exact (execHaulerAckTimer_st ..).keeps _
  | haulerRetransmitTimeout => exact (execHaulerRetransmitTimeout_st ..).keeps _
  | connectionTimeout => exact (execConnectionTimeout_drift ..).drifts _
  | writeTensor => exact (execWriteTensor_st ..).keeps _
  | writeInput => exact (execWriteInput_st ..).keeps _
  | writeMarkWritten => exact (execWriteMarkWritten_st ..).keeps _
  | writeRelease => exact (execWriteRelease_st ..).keeps _
  | writeSnapshotSlot => exact (execWriteSnapshotSlot_st ..).keeps _
  | writeJournalRing => exact (execWriteJournalRing_st ..).keeps _
  | writeFaultDump => exact (execWriteFaultDump_st ..).keeps _
  | readTensor => exact (execReadTensor_st ..).keeps _
  | readSnapshotSlot => exact (execReadSnapshotSlot_st ..).keeps _
  | readJournalRing => exact (execReadJournalRing_st ..).keeps _
  | readFaultDump => exact (execReadFaultDump_st ..).keeps _
  | haulerSignal => exact (execHaulerSignal_orFaulted ..).stops _
  | setWatch => exact (execSetWatch_st ..).keeps _
  | clearWatch => exact (execClearWatch_st ..).keeps _
  | loadProgram => exact execLoadProgram_follows ..
  | startJob => exact execStartJob_follows ..
  | planCompute => exact execPlanCompute_follows ..
  | stopJob => exact execStopJob_follows ..
  | queryStatus => exact (execQueryStatus_st ..).keeps _
  | queryPlanReport => exact (execQueryPlanReport_st ..).keeps _
  | queryFaultRecords => exact (execQueryFaultRecords_st ..).keeps _
  | queryQuote => exact (execQueryQuote_st ..).keeps _
  | queryReducedTally => exact (execQueryReducedTally_st ..).keeps _
  | readReg => exact (execReadReg_st ..).keeps _
  | writeReg => exact (execWriteReg_st ..).keeps _
  | wardenStatus => exact (execWardenStatus_st ..).keeps _
  | wardenLedgerRead => exact (execWardenLedgerRead_st ..).keeps _
  | telemetrySubscribe => exact (execTelemetrySubscribe_st ..).keeps _
  | telemetryBufferRead => exact (execTelemetryBufferRead_st ..).keeps _
  | stageRing => exact (execStageRing_st ..).keeps _
  | writeFloorRecord => exact (execWriteFloorRecord_st ..).keeps _
  | enrolOwnerKeys => exact (execEnrolOwnerKeys_st ..).keeps _
  | updateOwnerKeys => exact (execUpdateOwnerKeys_st ..).keeps _
  | wardenQuote => exact (execWardenQuote_st ..).keeps _
  | runtimePowerLimit => exact (execRuntimePowerLimit_st ..).keeps _
  | ieee1500Read => exact (execIeee1500Read_st ..).keeps _
  | memoryBist => exact (execMemoryBist_st ..).keeps _
  | softPpr => exact (execSoftPpr_st ..).keeps _
  | hardPpr => exact (execHardPpr_st ..).keeps _
  | listPageRetirement => exact (execListPageRetirement_st ..).keeps _
  | idleTimeExerciser => exact (execIdleTimeExerciser_st ..).keeps _
  | exerciserTestEnd => exact (execExerciserTestEnd_st ..).keeps _
  | releaseQuarantined => exact execReleaseQuarantined_follows ..
  | windowEntries => exact (execWindowEntries_st ..).keeps _
  | wardenRegAccess => exact (execWardenRegAccess_st ..).keeps _
  | registerWrite => exact (execRegisterWrite_st ..).keeps _
  | devEvents => exact (execDevEvents_st ..).keeps _
  | faultSel => exact (execFaultSel_st ..).keeps _
  | faultNew => exact (execFaultNew_st ..).keeps _
  | win => exact (execWin_st ..).keeps _
  | ftData => exact (execFtData_st ..).keeps _
  | ftCommit => exact (execFtCommit_st ..).keeps _
  | pwrRuntime => exact (execPwrRuntime_st ..).keeps _
  | dlinkSel => exact (execDlinkSel_st ..).keeps _
  | telSel => exact (execTelSel_st ..).keeps _
  | telDataLo => exact (execTelDataLo_st ..).keeps _
  | pairLoRead => exact (execPairLoRead_st ..).keeps _
  | broadcastRead => exact (execBroadcastRead_st ..).keeps _
  | bypass => exact (execBypass_st ..).keeps _
  | idcode => exact (execIdcode_st ..).keeps _
  | samplePreload => exact (execSamplePreload_st ..).keeps _
  | extest => exact (execExtest_orFaulted ..).stops _
  | clamp => exact (execClamp_orFaulted ..).stops _
  | highz => exact (execHighz_orFaulted ..).stops _
  | ctrlAccess => exact (execCtrlAccess_st ..).keeps _
  | ledgerRead => exact (execLedgerRead_st ..).keeps _
  | jtagTestLogicReset => exact (execJtagTestLogicReset_st ..).keeps _
  | q0DomainStable => exact execQ0DomainStable_follows ..
  | refclkReturn => exact (execRefclkReturn_st ..).keeps _
  | hostPortUp => exact (execHostPortUp_st ..).keeps _
  | quoteSigned => exact (execQuoteSigned_st ..).keeps _

end Sys2Proof.Machine
end

section
open Sys2Proof Sys2Proof.Machine

/-- Settles O7: each command leaves the device state, brings its own transition of Table 01-5, or lets a fault stop the job. -/
theorem onlyTheTransitionsOfTable01_5 : Obligations.OnlyTheTransitionsOfTable01_5 := by
  unfold Obligations.OnlyTheTransitionsOfTable01_5
  intro c s t h
  have hc := exec_follows c s
  rwa [h] at hc

end

section
/-! Reset: the state of every unit, the supplies and step 1 of a start (R677). -/
namespace Sys2Proof.Machine
open Sys2Proof

/-- A fault record sends its notices after what was sent before. -/
theorem mem_raise_out {o : Out} (code kind unit obj peer : Nat) (det : List Byte) {s : State} (h : o ∈ s.out) :
    o ∈ (raise code kind unit obj peer det s).out := List.mem_append_left _ h

/-! Step 1 of a start (R677). -/

/-- Step 1 leaves the device record but for the step, the key-encryption key, the identity and the fault that a start notes. -/
theorem firstStep_dev (holdN modRstN puf unwrap : Bool) (s : State) :
    (firstStep holdN modRstN puf unwrap s).dev =
      { s.dev with startStep := 1, kek := s.dev.kek || puf, identityOk := (s.dev.kek || puf) && unwrap
                   startFault := (firstStep holdN modRstN puf unwrap s).dev.startFault } := by
  have kek : (pulseStump s).dev.kek = s.dev.kek := rfl
  unfold firstStep
  dsimp only
  rw [kek]
  cases s.dev.kek || puf
  · rfl
  · cases unwrap <;> rfl

theorem firstStep_frame (holdN modRstN puf unwrap : Bool) (s : State) :
    let t := firstStep holdN modRstN puf unwrap s
    t = { s with pins := { s.pins with holdN := holdN, modRstN := modRstN }, dev := t.dev, out := t.out, faults := t.faults, regs := t.regs
                 hauler.conns := t.hauler.conns, stump.clock := 0 } := by
  unfold firstStep
  dsimp only
  split
  · rfl
  · split <;> rfl

theorem stumpReset_mem_firstStep (holdN modRstN puf unwrap : Bool) (s : State) :
    Out.stumpReset ∈ (firstStep holdN modRstN puf unwrap s).out := by
  have pulsed : Out.stumpReset ∈ (pulseStump s).out := List.mem_append_right _ (List.mem_singleton.mpr rfl)
  unfold firstStep
  dsimp only
  split
  · exact mem_raise_out _ _ _ _ _ _ pulsed
  · split
    · exact mem_raise_out _ _ _ _ _ _ pulsed
    · exact pulsed

/-- Without connections step 1 leaves the Hauler. -/
theorem firstStep_hauler (holdN modRstN puf unwrap : Bool) (s : State) (h : s.hauler = {}) :
    (firstStep holdN modRstN puf unwrap s).hauler = {} := by
  have quiet : ∀ cause (u : State), u.hauler = {} → (raiseIdentity cause u).hauler = {} := fun cause u hu =>
    (raise_hauler_nil _ _ _ _ _ _ _ (by rw [hu])).trans hu
  unfold firstStep
  dsimp only
  split
  · exact quiet _ _ h
  · split
    · exact quiet _ _ h
    · exact h

/-- The module right after VAUX comes on: every unit reset, the lands as given, no key-encryption key (R715). -/
def suppliedLookout (holdN modRstN : Bool) (s : State) : State :=
  { resetAll { s with pins.vaux := true } with pins.holdN := holdN, pins.modRstN := modRstN, dev.kek := false }

theorem exec_vauxOn (holdN modRstN puf unwrap : Bool) (s : State) :
    exec (.vauxOn holdN modRstN puf unwrap) s = .next (if s.pins.auxRstN then firstStep holdN modRstN puf unwrap (suppliedLookout holdN modRstN s)
      else pulseStump (suppliedLookout holdN modRstN s)) := rfl

/-- Writing the outcome of a start changes the Stump only. -/
theorem noteInterrupted_frame (s : State) : noteInterrupted s = { s with stump := (noteInterrupted s).stump } := by
  have log : ∀ f, updLog f s = { s with stump := (updLog f s).stump } := fun f => by
    unfold updLog
    split <;> rfl
  unfold noteInterrupted
  split
  · exact log _
  · rfl

end Sys2Proof.Machine
end

section
open Sys2Proof Sys2Proof.Machine

/-- Settles O3: each clause is a field of the reset state. -/
theorem resetState : Obligations.ResetState := by
  unfold Obligations.ResetState
  exact ⟨rfl, rfl, rfl, rfl, rfl, rfl, rfl, rfl, rfl, rfl, rfl, rfl, rfl⟩

/-- Settles O8: the reset of all units, and step 1 where AUX_RST_N is high. -/
theorem suppliesAndAuxReset : Obligations.SuppliesAndAuxReset := by
  unfold Obligations.SuppliesAndAuxReset
  intro s holdN modRstN puf unwrap
  have note := noteInterrupted_frame s
  refine ⟨?_, ?_, fun hv => ?_, fun hv ha => ?_⟩
  · refine ⟨_, exec_vauxOn holdN modRstN puf unwrap s, ?_⟩
    obtain ⟨u, hu⟩ : ∃ u, u = suppliedLookout holdN modRstN s := ⟨_, rfl⟩
    rw [← hu]
    split
    · next ha =>
      have hf := firstStep_frame holdN modRstN puf unwrap u
      have hd := firstStep_dev holdN modRstN puf unwrap u
      have hm := stumpReset_mem_firstStep holdN modRstN puf unwrap u
      have hh := firstStep_hauler holdN modRstN puf unwrap u (by rw [hu]; rfl)
      dsimp only at hf
      generalize firstStep holdN modRstN puf unwrap u = t at hf hd hm hh
      have hdev : t.dev.st = .lookout ∧ t.dev.ring = none ∧ t.dev.kek = puf ∧ t.dev.identityOk = (puf && unwrap) := by
        rw [hd, hu]
        exact ⟨rfl, rfl, rfl, rfl⟩
      obtain ⟨hst, hring, hkek, hid⟩ := hdev
      refine ⟨hst, ?_, ?_, by rw [hf], by rw [hf], ?_, fun _ => ⟨by rw [hd], hkek, hid⟩, hring, ?_, ?_, ?_, ?_, ?_, hh, hm, ?_, ?_⟩
      all_goals
        rw [hf, hu]
        rfl
    · next ha =>
      rw [hu]
      exact ⟨rfl, rfl, rfl, rfl, rfl, rfl, fun h => absurd h ha, rfl, rfl, rfl, rfl, rfl, rfl, rfl,
        List.mem_append_right _ (List.mem_singleton.mpr rfl), rfl, rfl⟩
  · exact ⟨_, rfl, rfl, rfl, rfl, rfl, rfl, rfl, rfl, rfl, rfl, rfl, by rw [note]; rfl⟩
  · refine ⟨_, by rw [exec, execAuxRstNAssert, if_pos hv], ?_⟩
    rw [note]
    exact ⟨rfl, rfl, rfl, rfl, rfl, rfl, rfl, rfl, rfl, rfl, rfl⟩
  · refine ⟨_, by rw [exec, execAuxRstNRelease], ?_⟩
    have hup : (s.pins.vaux && !s.pins.auxRstN) = true := by rw [hv, ha]; rfl
    rw [if_pos hup]
    obtain ⟨u, hu⟩ : ∃ u : State, u = { s with pins.auxRstN := true } := ⟨_, rfl⟩
    rw [← hu]
    have hf := firstStep_frame holdN modRstN puf unwrap u
    have hd := firstStep_dev holdN modRstN puf unwrap u
    have hm := stumpReset_mem_firstStep holdN modRstN puf unwrap u
    dsimp only at hf
    generalize firstStep holdN modRstN puf unwrap u = t at hf hd hm
    refine ⟨?_, ?_, ?_, ?_, hm, ?_⟩
    · rw [hf, hu]
    · rw [hd]
    · rw [hd, hu]
    · rw [hd, hu]
    · rw [hf, hu]

end

section
/-! A start that completes gates the crowns (R732). -/
namespace Sys2Proof.Machine
open Sys2Proof

/-- A ring of a working module that passes every check of Table 15-10 with the lanes of `beforeChecks`. -/
def sameTrayRing : Ring :=
  { formOk := true, digestOk := true, rsaOk := true, slhOk := true, major := 1, imageLength := 1024, generation := 3, floor := 2, keyIndex := 0,
    role := .working, relay := false, machineId := 9, bodyDigest := 0, ident := 5, pod := 0, rack := 0, tray := 0, slot := 0, plane := 0, level := 0,
    index := 0, machine := [], machineBytes := [], levels := 1, wiring := [], tables := ⟨[], [], []⟩, epoch := false, flumeSlots := 0,
    bulkBuffers := 0, power := ⟨0, 0, 0, []⟩, clock := ⟨[], [], true, []⟩, hostV6 := 6, hostV4 := some 4, mgmtA := [.v4 10], mgmtB := [.v4 11],
    peers := [.v4 7], keeper := ⟨5, 0, 0, 0, 0, []⟩, policy := ⟨0, 0, 0, 0, 0, 0, 0, 0, 0, 0, 0, 0, 0, 0, 0⟩, keys := [] }

/-- A module before step 10 with every lane up and the crown of tile 0 not gated. -/
def beforeChecks : State :=
  { State.reset with
    dev := { st := .starting, startStep := 7, ring := some sameTrayRing }
    pins := { v48On := true, v48 := 4800 }
    optics := { lanes := (List.range 144).map fun l => (l, { st := .up, discovered := true }) }
    tiles := [(0, { crownGated := false })] }

theorem failingRow_beforeChecks : failingRow beforeChecks sameTrayRing = 0 := by decide +kernel

/-- The entry to READY gates the crown of tile 0 (R732), so that its record holds its reset value. -/
theorem tiles_after_beforeChecks : (completeStart sameTrayRing beforeChecks).tiles.isEmpty = true := by decide +kernel

theorem exec_startChecks_beforeChecks : exec .startChecks beforeChecks = .next (completeStart sameTrayRing beforeChecks) := by
  have h : checkStart sameTrayRing beforeChecks = completeStart sameTrayRing beforeChecks := by
    rw [checkStart, failingRow_beforeChecks]
    rfl
  have hring : beforeChecks.dev.ring = some sameTrayRing := rfl
  rw [← h, exec, execStartChecks, hring]
  dsimp only
  rw [if_pos (by decide)]

end Sys2Proof.Machine
end

section
open Sys2Proof Sys2Proof.Machine

/-- Refutes O11: the statement says of a start that completes that every tile's record is as it was, but the entry to READY gates the crowns, here that
of tile 0, which a STARTING state may hold ungated. -/
theorem not_startRunsToItsEnd : ¬ Obligations.StartRunsToItsEnd := by
  unfold Obligations.StartRunsToItsEnd
  intro h
  obtain ⟨-, checks, -, -⟩ := h beforeChecks sameTrayRing rfl rfl rfl
  obtain ⟨t, ht, committed, -⟩ := checks rfl rfl
  obtain ⟨-, -, -, -, -, frame⟩ := committed failingRow_beforeChecks
  obtain rfl := Host.Outcome.next.inj (exec_startChecks_beforeChecks.symm.trans ht)
  have same : (completeStart sameTrayRing beforeChecks).tiles = beforeChecks.tiles := by rw [frame]
  have gated := tiles_after_beforeChecks
  rw [same] at gated
  exact absurd gated (by decide)

end

section
/-! The thermal trip and its release (R767 to R771). -/
namespace Sys2Proof.Machine
open Sys2Proof

/-! Tables and folds over numbered parts. -/

/-- What a table answers is its default or one of its values. -/
theorem tget_eq_or_mem {α : Type} (m : Table α) (k : Nat) (d : α) : tget m k d = d ∨ ∃ e ∈ m, tget m k d = e.2 := by
  induction m with
  | nil => exact .inl rfl
  | cons e m ih =>
    obtain ⟨j, v⟩ := e
    rw [tget]
    split
    · exact .inr ⟨_, List.mem_cons_self, rfl⟩
    · obtain h | ⟨e, he, h⟩ := ih
      · exact .inl h
      · exact .inr ⟨e, List.mem_cons_of_mem _ he, h⟩

/-- What holds of the default and of all values of a table holds of what it answers. -/
theorem tget_of_all {α : Type} {P : α → Prop} {m : Table α} {d : α} (hd : P d) (hm : ∀ e ∈ m, P e.2) (k : Nat) : P (tget m k d) := by
  obtain h | ⟨e, he, h⟩ := tget_eq_or_mem m k d
  · rwa [h]
  · exact h ▸ hm e he

theorem all_tmap {α : Type} {P : α → Prop} {m : Table α} {f : Nat → α → α} (h : ∀ e ∈ m, P (f e.1 e.2)) : ∀ e ∈ tmap m f, P e.2 := by
  intro e he
  obtain ⟨e, hm, rfl⟩ := List.mem_map.mp he
  exact h e hm

/-- Each notch that a fold sets has what the fold gives it, where the records that it gives do not hang on the notches set before. -/
theorem notch_foldl_setNotch {I : State → Prop} {P : Nat → Notch → Prop} {g : State → Nat → Notch} (hI : ∀ u q n, I u → I (setNotch q n u))
    (hg : ∀ u q, I u → P q (g u q)) (qs : List Nat) (s : State) (hs : I s) (q : Nat) (hq : q ∈ qs ∨ P q (notch s q)) :
    P q (notch (qs.foldl (fun s q => setNotch q (g s q) s) s) q) := by
  induction qs generalizing s with
  | nil => simpa using hq
  | cons x qs ih =>
    refine ih _ (hI _ _ _ hs) ?_
    rw [notch_setNotch]
    split
    · next h => exact .inr (h ▸ hg s x hs)
    · next h =>
      rw [List.mem_cons] at hq
      tauto

theorem foldl_setNotch_frame (g : State → Nat → Notch) (qs : List Nat) (s : State) :
    qs.foldl (fun s q => setNotch q (g s q) s) s =
      { s with heat.notches := (qs.foldl (fun s q => setNotch q (g s q) s) s).heat.notches } := by
  refine List.foldlRecOn (motive := fun u : State => u = { s with heat.notches := u.heat.notches }) _ _ rfl fun u hu q _ => ?_
  rw [hu]
  rfl

/-- Each stack that a fold changes has what the change gives it. -/
theorem hbm_foldl_updHbm {P : StackRec → Prop} {f : StackRec → StackRec} (hf : ∀ r, P (f r)) (ms : List Nat) (s : State) (m : Nat)
    (hm : m ∈ ms ∨ P (hbm s m)) : P (hbm (ms.foldl (fun s m => updHbm m f s) s) m) := by
  induction ms generalizing s with
  | nil => simpa using hm
  | cons x ms ih =>
    refine ih _ ?_
    have set : hbm (updHbm x f s) m = if m = x then f (hbm s x) else hbm s m := hbm_setHbm ..
    rw [set]
    split
    · exact .inr (hf _)
    · next h =>
      rw [List.mem_cons] at hm
      tauto

theorem foldl_updHbm_frame (f : StackRec → StackRec) (ms : List Nat) (s : State) :
    ms.foldl (fun s m => updHbm m f s) s = { s with mem.hbms := (ms.foldl (fun s m => updHbm m f s) s).mem.hbms } := by
  refine List.foldlRecOn (motive := fun u : State => u = { s with mem.hbms := u.mem.hbms }) _ _ rfl fun u hu m _ => ?_
  rw [hu]
  rfl

theorem notch_foldl_updHbm (f : StackRec → StackRec) (ms : List Nat) (s : State) (q : Nat) :
    notch (ms.foldl (fun s m => updHbm m f s) s) q = notch s q := by
  rw [foldl_updHbm_frame]
  rfl

/-! The thermal trip (R767 to R771). -/

/-- A compute module with the crowns off, the notches at 0 and the stacks at an admission of 25% (R768). -/
def coolDown (s : State) : State :=
  (List.range 16).foldl (fun s m => updHbm m (fun r => { r with admission := 25 }) s)
    ((List.range 4).foldl (fun s q => setNotch q { notch s q with notch := 0, calm := 0 } s) (crownsOff s))

theorem coolDown_frame (s : State) :
    coolDown s = { s with heat.crownsOff := true, heat.notches := (coolDown s).heat.notches, tiles := (crownsOff s).tiles
                          mem.hbms := (coolDown s).mem.hbms } := by
  have hu : ∀ u, coolDown s = u → u = { s with heat.crownsOff := true, heat.notches := u.heat.notches, tiles := (crownsOff s).tiles
                                               mem.hbms := u.mem.hbms } := by
    intro u hu
    have hn := foldl_setNotch_frame (fun s q => { notch s q with notch := 0, calm := 0 }) (List.range 4) (crownsOff s)
    unfold coolDown at hu
    generalize List.foldl _ (crownsOff s) _ = v at hu hn
    have hm := foldl_updHbm_frame (fun r => { r with admission := 25 }) (List.range 16) v
    rw [hu] at hm
    rw [hm, hn]
    rfl
  exact hu _ rfl

theorem notch_coolDown (s : State) (q : Nat) (hq : q < 4) : (notch (coolDown s) q).notch = 0 ∧ (notch (coolDown s) q).calm = 0 := by
  rw [coolDown, notch_foldl_updHbm]
  exact notch_foldl_setNotch (I := fun _ => True) (P := fun _ n => n.notch = 0 ∧ n.calm = 0) (fun _ _ _ _ => trivial) (fun _ _ _ => ⟨rfl, rfl⟩) _ _
    trivial q (.inl (List.mem_range.mpr hq))

theorem hbm_coolDown (s : State) (m : Nat) (hm : m < 16) : (hbm (coolDown s) m).admission = 25 :=
  hbm_foldl_updHbm (P := fun r => r.admission = 25) (fun _ => rfl) _ _ m (.inl (List.mem_range.mpr hm))

/-- A crown without power holds nothing: no node store, operand sets or vector registers. -/
def CrownEmpty (r : TileRec) : Prop := r.entries = [] ∧ r.setA = [] ∧ r.setB = [] ∧ r.regs = []

theorem crownEmpty_crownsOff (s : State) : ∀ e ∈ (crownsOff s).tiles, CrownEmpty e.2 := fun e he =>
  all_tmap (P := CrownEmpty) (fun _ _ => ⟨rfl, rfl, rfl, rfl⟩) e (List.mem_of_mem_filter he)
theorem lane_darkLanes (s : State) (l : Nat) : (lane (darkLanes s) l).st = .disabled := by
  refine tget_of_all (P := fun r : LaneRec => r.st = .disabled) rfl (fun e he => ?_) l
  exact all_tmap (P := fun r : LaneRec => r.st = .disabled) (fun _ _ => rfl) e (List.mem_of_mem_filter he)

/-- A declared failure changes what a failure changes (R646): what is sent, the device state, the halted slots and copies, and the recovery notice. -/
theorem stopA3_frame (code : Nat) (s : State) :
    let t := stopA3 code s
    t = { s with out := t.out, hauler.conns := t.hauler.conns, dev := t.dev, tiles := t.tiles, recov := t.recov, remote.copies := t.remote.copies } := by
  dsimp only
  rw [stopA3, declareFault]
  split <;> rfl

/-- Halting a job leaves what the crowns hold. -/
theorem crownEmpty_haltJob {s : State} (h : ∀ e ∈ s.tiles, CrownEmpty e.2) : ∀ e ∈ (haltJob s).tiles, CrownEmpty e.2 := by
  intro e he
  obtain ⟨e', hm, rfl⟩ := List.mem_map.mp he
  exact h e' hm

theorem crownEmpty_stopA3 (code : Nat) {s : State} (h : ∀ e ∈ s.tiles, CrownEmpty e.2) : ∀ e ∈ (stopA3 code s).tiles, CrownEmpty e.2 := by
  rw [stopA3, declareFault]
  split
  · exact crownEmpty_haltJob h
  · exact h

/-- The end of a trip: the fault record, its counts, the failure of the job, and FAULTED. -/
def tripEnd (k : SensorKind) (i : Nat) (det : List Byte) (s : State) : State :=
  let s := raise errThermTrip uFirewatch 0 (sensorId k i) none32 det s
  let s := updSummary (sensorDie k i) (fun d => { d with trips := satInc none32 d.trips }) s
  let s := ledgerEvent (sensorDie k i) 5 (tget (sensorsOf s k) i {}).band 0 (newest s) s
  let s := stopA3 errThermTrip s
  if s.dev.st = .faulted then s else enter .faulted s

theorem faulted_or_enter_frame (s : State) :
    let t := if s.dev.st = .faulted then s else enter .faulted s
    t = { s with out := t.out, hauler.conns := t.hauler.conns, dev := t.dev } := by
  dsimp only
  split <;> rfl

/-- The end of a trip, by the state that the failure of the job leaves. -/
theorem tripEnd_eq (k : SensorKind) (i : Nat) (det : List Byte) (s : State) :
    ∃ noted : State, noted = { s with out := noted.out, hauler.conns := noted.hauler.conns, faults := noted.faults, regs := noted.regs
                                      dev := noted.dev, bark := noted.bark } ∧
      noted.faults = (mkRec s errThermTrip uFirewatch 0 (sensorId k i) none32 det :: s.faults).take 256 ∧
      tripEnd k i det s = if (stopA3 errThermTrip noted).dev.st = .faulted then stopA3 errThermTrip noted else enter .faulted (stopA3 errThermTrip noted) :=
  ⟨_, rfl, rfl, rfl⟩

/-- What the end of a trip changes, the fault record that it writes, and that the crowns stay empty. -/
theorem tripEnd_facts (k : SensorKind) (i : Nat) (det : List Byte) (s : State) :
    let t := tripEnd k i det s
    t = { s with out := t.out, hauler.conns := t.hauler.conns, faults := t.faults, regs := t.regs, dev := t.dev, bark := t.bark, tiles := t.tiles
                 recov := t.recov, remote.copies := t.remote.copies } ∧
      t.dev.st = .faulted ∧ t.faults = (mkRec s errThermTrip uFirewatch 0 (sensorId k i) none32 det :: s.faults).take 256 ∧
      ((∀ e ∈ s.tiles, CrownEmpty e.2) → ∀ e ∈ t.tiles, CrownEmpty e.2) := by
  obtain ⟨noted, hn, hf, ht⟩ := tripEnd_eq k i det s
  have empty : (∀ e ∈ noted.tiles, CrownEmpty e.2) → ∀ e ∈ (stopA3 errThermTrip noted).tiles, CrownEmpty e.2 := crownEmpty_stopA3 _
  have hd := stopA3_frame errThermTrip noted
  dsimp only at hd ⊢
  rw [ht]
  generalize stopA3 errThermTrip noted = d at hd empty
  have he := faulted_or_enter_frame d
  have hst := faulted_or_enter d
  dsimp only at he
  generalize (if d.dev.st = .faulted then d else enter .faulted d) = t at he hst
  have htiles : t.tiles = d.tiles := by rw [he]
  have ntiles : noted.tiles = s.tiles := by rw [hn]
  refine ⟨?_, hst, ?_, ?_⟩
  · rw [he, hd, hn]
  · rw [he, hd]
    exact hf
  · rw [htiles, ← ntiles]
    exact empty

theorem tripNow_eq (k : SensorKind) (i source : Nat) (v : Int) {s : State} (htrip : s.pins.thermTripN = true) (hst : s.dev.st ≠ .lookout) :
    let low : State := { s with pins.thermTripN := false, heat.tripSource := source, heat.trips := satInc 255 s.heat.trips, heat.coolTicks := 0 }
    ∃ det, tripNow k i source v s = tripEnd k i det (if isFA s then darkLanes low else coolDown low) := by
  have h : ¬ (!s.pins.thermTripN || s.dev.st == .lookout) = true := by simp [htrip, hst]
  refine ⟨detail ([(source, 1), (0, 1), (signedField 2 v, 2)] ++ ((List.range 4).map fun q => (notchSet (notch s q), 1)) ++ [(s.heat.power, 2)]), ?_⟩
  rw [tripNow, if_neg h]
  rfl

/-- A trip's state by what it switches off and how it ends. -/
theorem tripped_tripNow (k : SensorKind) (i source : Nat) (v : Int) {s : State} (htrip : s.pins.thermTripN = true) (hst : s.dev.st ≠ .lookout) :
    Tripped s (tripNow k i source v s) ∧ ∃ f : FaultRec, (tripNow k i source v s).faults = (f :: s.faults).take 256 ∧ f.code.toNat = errThermTrip ∧
      f.obj = BitVec.ofNat 32 (sensorId k i) := by
  obtain ⟨det, heq⟩ := tripNow_eq k i source v htrip hst
  rw [heq]
  clear heq
  generalize hlow : ({ s with pins.thermTripN := false, heat.tripSource := source, heat.trips := satInc 255 s.heat.trips
                              heat.coolTicks := 0 } : State) = low
  by_cases hfa : isFA s = true
  · rw [if_pos hfa]
    obtain ⟨hframe, hf, hrec, -⟩ := tripEnd_facts k i det (darkLanes low)
    have dark := lane_darkLanes low
    generalize tripEnd k i det (darkLanes low) = t at hframe hf hrec
    have hlanes : t.optics = (darkLanes low).optics := by rw [hframe]
    refine ⟨⟨hf, ?_, ?_, fun h => absurd hfa (by simp [h]), fun _ l => ?_, ?_⟩,
      mkRec (darkLanes low) errThermTrip uFirewatch 0 (sensorId k i) none32 det, ?_, rfl, rfl⟩
    · rw [hframe, ← hlow]
      rfl
    · rw [hframe, ← hlow]
      rfl
    · rw [lane, hlanes]
      exact dark l
    · rw [hframe, ← hlow]
      rfl
    · rw [hrec, ← hlow]
      rfl
  · rw [if_neg hfa]
    obtain ⟨hframe, hf, hrec, hempty⟩ := tripEnd_facts k i det (coolDown low)
    have hcool := coolDown_frame low
    have hnotch := notch_coolDown low
    have hhbm := hbm_coolDown low
    have hcrowns := crownEmpty_crownsOff low
    generalize tripEnd k i det (coolDown low) = t at hframe hf hrec hempty
    generalize coolDown low = c at *
    have hoff : t.heat = c.heat := by rw [hframe]
    have hmem : t.mem = c.mem := by rw [hframe]
    refine ⟨⟨hf, ?_, ?_, fun _ => ⟨?_, fun q hq => ?_, fun m hm => ?_, fun i => ?_⟩, fun h => absurd h hfa, ?_⟩,
      mkRec c errThermTrip uFirewatch 0 (sensorId k i) none32 det, ?_, rfl, rfl⟩
    · rw [hframe, hcool, ← hlow]
    · rw [hframe, hcool, ← hlow]
    · rw [hoff, hcool]
    · rw [notch, hoff]
      exact hnotch q hq
    · rw [hbm, hmem]
      exact hhbm m hm
    · refine tget_of_all (P := CrownEmpty) ⟨rfl, rfl, rfl, rfl⟩ (hempty ?_) i
      rw [hcool]
      exact hcrowns
    · rw [hframe, hcool, ← hlow]
    · rw [hrec, hcool, ← hlow]

/-! The release (R770). -/

theorem length_blocks_flushSummaries (s : State) : (flushSummaries s).bark.blocks.length = min 128 (s.bark.blocks.length + 1) := by
  simp only [flushSummaries, List.length_take, List.length_cons]
theorem flushSummaries_frame (s : State) :
    flushSummaries s = { s with bark.summaries := (flushSummaries s).bark.summaries, bark.blocks := (flushSummaries s).bark.blocks } := rfl

/-- The ceiling of a quadrant hangs on the ring and the roots' bands alone. -/
theorem ceiling_congr {s u : State} (hdev : u.dev = s.dev) (hroots : u.heat.roots = s.heat.roots) (q : Nat) :
    ceilingOf u (hotBand u q) = ceilingOf s (hotBand s q) := by
  have hcfg : powerCfg u = powerCfg s := by rw [powerCfg, powerCfg, hdev]
  have hband : hotBand u q = hotBand s q := by simp only [hotBand, rootBand, hroots]
  rw [ceilingOf, ceilingOf, hcfg, hband]

/-- A compute module with the crowns powered again, each notch at the lower of 32 and its ceiling. -/
def warmUp (s : State) : State :=
  (List.range 4).foldl (fun s q => setNotch q { notch s q with notch := min 32 (ceilingOf s (hotBand s q)), calm := 0 } s)
    { s with heat.crownsOff := false }

theorem warmUp_frame (s : State) : warmUp s = { s with heat.crownsOff := false, heat.notches := (warmUp s).heat.notches } := by
  have h := foldl_setNotch_frame (fun s q => { notch s q with notch := min 32 (ceilingOf s (hotBand s q)), calm := 0 }) (List.range 4)
    { s with heat.crownsOff := false }
  exact h

theorem notch_warmUp (s : State) (q : Nat) (hq : q < 4) :
    (notch (warmUp s) q).notch = min 32 (ceilingOf s (hotBand s q)) ∧ (notch (warmUp s) q).calm = 0 := by
  have h := @notch_foldl_setNotch (fun u => u.dev = s.dev ∧ u.heat.roots = s.heat.roots)
    (fun q n => n.notch = min 32 (ceilingOf s (hotBand s q)) ∧ n.calm = 0)
    (fun s q => { notch s q with notch := min 32 (ceilingOf s (hotBand s q)), calm := 0 }) (fun _ _ _ h => h)
    (fun _ q h => ⟨congrArg (min 32) (ceiling_congr h.1 h.2 q), rfl⟩) (List.range 4) { s with heat.crownsOff := false } ⟨rfl, rfl⟩ q
    (.inl (List.mem_range.mpr hq))
  rw [warmUp]
  exact h

theorem exec_thermTripRelease {s : State} (htrip : s.pins.thermTripN = false) (htick : s.heat.tickAt = some s.time)
    (hcool : 1000 ≤ s.heat.coolTicks) :
    let cool : State := { s with pins.thermTripN := true, heat.coolTicks := 0, heat.tripSource := 0 }
    exec .thermTripRelease s = .next (flushSummaries (if isFA s then cool else warmUp cool)) := by
  have h : ¬ (s.pins.thermTripN || !atTick s || decide (s.heat.coolTicks < 1000)) = true := by
    simp [htrip, htick, atTick, hcool]
  rw [exec, execThermTripRelease, if_neg h]
  rfl

theorem exec_thermTripRelease_early {s : State} (h : s.pins.thermTripN = true ∨ s.heat.tickAt ≠ some s.time ∨ s.heat.coolTicks < 1000) :
    exec .thermTripRelease s = .next s := by
  have h : (s.pins.thermTripN || !atTick s || decide (s.heat.coolTicks < 1000)) = true := by
    simpa [atTick, or_assoc] using h
  rw [exec, execThermTripRelease, if_pos h]

theorem exec_thermTripComparator (t : Tile) (v : Int) {s : State} (hon : s.pins.v48On = true) (hs : isSuspect (tget s.heat.roots t {}) = false)
    (hv : 436 ≤ v) : exec (.thermTripComparator t v) s = .next (tripNow .root t 1 v s) := by
  rw [exec, execThermTripComparator, if_pos (by simp [hon, hs, hv])]
theorem exec_thermTripComparator_masked (t : Tile) (v : Int) {s : State} (hs : isSuspect (tget s.heat.roots t {}) = true) :
    exec (.thermTripComparator t v) s = .next s := by
  rw [exec, execThermTripComparator, if_neg (by simp [hs])]

end Sys2Proof.Machine
end

section
open Sys2Proof Sys2Proof.Machine

/-- Settles O20: the trip by what it switches off and how it ends, the release by what it powers again and the flush. -/
theorem thermalTripAndRelease : Obligations.ThermalTripAndRelease := by
  unfold Obligations.ThermalTripAndRelease
  refine fun s => ⟨fun t v hon htrip hst hs hv => ?_, fun t v hs => exec_thermTripComparator_masked t v hs, fun htrip htick hcool => ?_,
    exec_thermTripRelease_early⟩
  · exact ⟨_, exec_thermTripComparator t v hon hs hv, tripped_tripNow .root t 1 v htrip hst⟩
  · refine ⟨_, exec_thermTripRelease htrip htick hcool, ?_⟩
    generalize hc : ({ s with pins.thermTripN := true, heat.coolTicks := 0, heat.tripSource := 0 } : State) = cool
    by_cases hfa : isFA s = true
    · rw [if_pos hfa]
      refine ⟨?_, ?_, ?_, fun h => absurd hfa (by simp [h]), ?_, ?_⟩
      · rw [flushSummaries_frame, ← hc]
      · rw [flushSummaries_frame, ← hc]
      · rw [flushSummaries_frame, hfa, ← hc]
        rfl
      · rw [length_blocks_flushSummaries, ← hc]
      · rw [flushSummaries_frame, ← hc]
    · rw [if_neg hfa]
      have hw := warmUp_frame cool
      have hn := notch_warmUp cool
      generalize warmUp cool = w at hw hn
      have hceil : ∀ q, ceilingOf cool (hotBand cool q) = ceilingOf s (hotBand s q) := ceiling_congr (by rw [← hc]) (by rw [← hc])
      refine ⟨?_, ?_, ?_, fun _ q hq => ?_, ?_, ?_⟩
      · rw [flushSummaries_frame, hw, ← hc]
      · rw [flushSummaries_frame, hw, ← hc]
      · rw [flushSummaries_frame, hw, Bool.eq_false_iff.mpr hfa]
        rfl
      · rw [← hceil]
        exact hn q hq
      · rw [length_blocks_flushSummaries, hw, ← hc]
      · rw [flushSummaries_frame, hw, ← hc]

end

section
/-! The node store as a tree builder (R54, R55, R115, R121): a level that takes a list of children passes the next level of the canonical tree up. -/
namespace Sys2Proof.Machine
open Sys2Proof

/-! Tables: a key written twice, a key written and deleted. -/

theorem tdel_tput_self {α : Type} (m : Table α) (k : Nat) (v : α) : tdel (tput m k v) k = tdel m k := by
  induction m with
  | nil => simp [tput, tdel]
  | cons e m ih =>
    obtain ⟨j, u⟩ := e
    unfold tput
    split
    · next h => simp [tdel, ih]
    · split
      · next h => simp [tdel, h]
      · simp [tdel]

theorem thas_tdel_self {α : Type} (m : Table α) (k : Nat) : thas (tdel m k) k = false := by
  induction m with
  | nil => rfl
  | cons e m ih =>
    obtain ⟨j, u⟩ := e
    unfold tdel
    split
    · exact ih
    · next h => simpa [thas, h] using ih

theorem tget_of_not_thas {α : Type} {m : Table α} {k : Nat} (d : α) (h : thas m k = false) : tget m k d = d := by
  induction m with
  | nil => rfl
  | cons e m ih =>
    obtain ⟨j, u⟩ := e
    simp only [thas, List.any_cons, Bool.or_eq_false_iff, beq_eq_false_iff_ne] at h
    simpa [tget, h.1] using ih h.2

/-! The levels of the canonical tree. -/

theorem chunksOf_fuel {α : Type} {n : Nat} (hn : 0 < n) : ∀ (k : Nat) (xs : List α), xs.length ≤ k → chunksOf n k xs = chunksOf n xs.length xs := by
  intro k
  induction k using Nat.strong_induction_on with
  | _ k ih =>
    intro xs hk
    match k, xs with
    | 0, [] => rfl
    | k + 1, [] => simp [chunksOf]
    | k + 1, x :: xs =>
      have hd : ((x :: xs).drop n).length ≤ xs.length := by simp; omega
      have hk : xs.length ≤ k := by simpa using hk
      simp only [List.length_cons, chunksOf, List.isEmpty_cons, Bool.false_eq_true, if_false]
      rw [ih k (by omega) _ (by omega), ← ih xs.length (by omega) _ hd]

/-- A first run of 8 children is the first node of the next level. -/
theorem nextLevel_append {α : Type} (op : α → α → α) (x : α) (xs ys : List α) (h : xs.length = 7) :
    nextLevel op (x :: xs ++ ys) = xs.foldl op x :: nextLevel op ys := by
  have h8 : (x :: xs).length = 8 := by simp [h]
  have hc : chunksOf 8 (x :: xs ++ ys).length (x :: xs ++ ys) = (x :: xs) :: chunksOf 8 ys.length ys := by
    rw [List.cons_append, List.length_cons, chunksOf, if_neg (by simp), ← List.cons_append, ← h8, List.take_left, List.drop_left,
      h8, chunksOf_fuel (by omega) _ ys (by simp)]
  rw [nextLevel, hc]
  simp [foldNode, nextLevel]

/-- Up to 8 children make one node. -/
theorem nextLevel_short {α : Type} (op : α → α → α) (x : α) (xs : List α) (h : xs.length ≤ 7) : nextLevel op (x :: xs) = [xs.foldl op x] := by
  have ht : (x :: xs).take 8 = x :: xs := List.take_of_length_le (by simp; omega)
  have hd : (x :: xs).drop 8 = [] := List.drop_eq_nil_of_le (by simp; omega)
  have hnil : ∀ k, chunksOf 8 k ([] : List α) = [] := fun k => by cases k <;> rfl
  rw [nextLevel, List.length_cons, chunksOf, if_neg (by simp), ht, hd, hnil]
  rfl

/-- A list of children is a first run of 8 with others behind it, or one run. -/
theorem runs_induction {α : Type} {P : List α → Prop} (nil : P []) (short : ∀ x xs, xs.length ≤ 7 → P (x :: xs))
    (more : ∀ x xs ys, xs.length = 7 → ys ≠ [] → P ys → P (x :: xs ++ ys)) (ws : List α) : P ws := by
  induction hn : ws.length using Nat.strong_induction_on generalizing ws with
  | _ n ih =>
    match ws with
    | [] => exact nil
    | x :: ws =>
      by_cases h : ws.length ≤ 7
      · exact short x ws h
      · have hws : x :: ws.take 7 ++ ws.drop 7 = x :: ws := by simp
        have hl : (ws.drop 7).length = ws.length - 7 := List.length_drop
        rw [← hws]
        refine more x _ _ (by rw [List.length_take]; omega) (List.ne_nil_of_length_pos (by omega)) (ih _ ?_ _ rfl)
        simp at hn; omega

theorem length_nextLevel {α : Type} (op : α → α → α) (ws : List α) : (nextLevel op ws).length = (ws.length + 7) / 8 := by
  induction ws using runs_induction with
  | nil => simp [nextLevel, chunksOf]
  | short x xs h => rw [nextLevel_short op x xs h]; simp; omega
  | more x xs ys h _ ih => rw [nextLevel_append op x xs ys h]; simp [ih]; omega

theorem length_nodesAt {α : Type} (op : α → α → α) : ∀ (e : Nat) (ws : List α), (nodesAt op e ws).length = (ws.length + 8 ^ e - 1) / 8 ^ e
  | 0, ws => by simp [nodesAt]
  | e + 1, ws => by
    rw [nodesAt, length_nodesAt op e, length_nextLevel, pow_succ]
    have hp : 0 < 8 ^ e := Nat.pos_of_ne_zero (by simp)
    generalize 8 ^ e = p at hp
    have h1 : (ws.length + 7) / 8 + p - 1 = (ws.length + (p * 8 - 1)) / 8 := by omega
    rw [h1, Nat.div_div_eq_div_mul, Nat.mul_comm 8 p, Nat.add_sub_assoc (by omega)]

/-- Levels folded until one node is left. -/
theorem treeFuel_eq_nodesAt {α : Type} (op : α → α → α) : ∀ (e k : Nat) (ws : List α), ws.length ≤ k → (nodesAt op e ws).length = 1 →
    treeFuel op k ws = nodesAt op e ws
  | 0, k, ws, _, h => by
    have h1 : ws.length ≤ 1 := le_of_eq h
    cases k <;> simp [treeFuel, nodesAt, h1]
  | e + 1, k, ws, hk, h => by
    by_cases h1 : ws.length ≤ 1
    · match ws with
      | [] =>
        rw [length_nodesAt] at h
        have : 8 ^ (e + 1) - 1 < 8 ^ (e + 1) := Nat.sub_lt (by positivity) one_pos
        simp [Nat.div_eq_of_lt this] at h
      | [w] =>
        have hn : nextLevel op [w] = [w] := nextLevel_short op w [] (by simp)
        rw [nodesAt, hn] at h ⊢
        exact treeFuel_eq_nodesAt op e k [w] hk h
    · match k with
      | 0 => omega
      | k + 1 =>
        rw [treeFuel, if_neg h1, nodesAt]
        exact treeFuel_eq_nodesAt op e k _ (by rw [length_nextLevel]; omega) h

theorem canonicalTree_of_one {α : Type} (op : α → α → α) {e : Nat} {ws : List α} (h : (nodesAt op e ws).length = 1) :
    (nodesAt op e ws).map some = [canonicalTree op ws] := by
  rw [canonicalTree, treeFuel_eq_nodesAt op e _ ws le_rfl h]
  obtain ⟨v, hv⟩ := List.length_eq_one_iff.mp h
  simp [hv]

/-! The top level of n children. -/

theorem topLevel_le {n : Nat} : ∀ {d : Nat} (f : Nat), n ≤ 8 ^ d → topLevel f n ≤ d := by
  intro d f
  induction f generalizing n d with
  | zero => exact fun _ => Nat.zero_le d
  | succ f ih =>
    intro h
    unfold topLevel
    split
    · exact Nat.zero_le d
    · next h1 =>
      match d with
      | 0 => exact absurd h h1
      | d + 1 =>
        rw [pow_succ] at h
        have := ih (n := (n + 7) / 8) (d := d) (by omega)
        omega

theorem le_pow_topLevel : ∀ (f n : Nat), n ≤ 8 ^ f → n ≤ 8 ^ topLevel f n
  | 0, n, h => h
  | f + 1, n, h => by
    unfold topLevel
    split
    · next h1 => simpa using h1
    · have := le_pow_topLevel f ((n + 7) / 8) (by rw [pow_succ] at h; omega)
      rw [Nat.add_comm, pow_succ]
      omega

theorem topOf_le_15 {n : Nat} (h : n ≤ 8 ^ 15) : topOf n ≤ 15 := topLevel_le 16 h
theorem le_pow_topOf {n : Nat} (h : n ≤ 8 ^ 15) : n ≤ 8 ^ topOf n := le_pow_topLevel 16 n (h.trans (by norm_num))

/-! What the entries of a node store say. -/

/-- The node stores of `r` and `u` hold the same entries, read by key, and have completed the same values. -/
def SameStore (r u : TileRec) : Prop := u.completed = r.completed ∧ ∀ k, tget u.entries k (0, 0) = tget r.entries k (0, 0)

theorem SameStore.refl (r : TileRec) : SameStore r r := ⟨rfl, fun _ => rfl⟩
theorem SameStore.trans {r u v : TileRec} (h : SameStore r u) (g : SameStore u v) : SameStore r v :=
  ⟨g.1.trans h.1, fun k => (g.2 k).trans (h.2 k)⟩

/-- Deleting a free entry leaves the store as it is. -/
theorem sameStore_tdel {r : TileRec} {k : Nat} (h : tget r.entries k (0, 0) = (0, 0)) : SameStore r { r with entries := tdel r.entries k } := by
  refine ⟨rfl, fun j => ?_⟩
  by_cases hj : j = k
  · rw [hj, h, tget_tdel_self]
  · exact tget_tdel_ne _ _ _ _ hj

theorem entryKey_ne (x : Nat) {l m : Nat} (h : l ≠ m) : entryKey x l ≠ entryKey x m := by unfold entryKey; omega

/-- A value goes up from level `l`: at the emit level it is complete, below it is a child of the level above (R55). -/
def passUp (fuel : Nat) (c : Child) (l : Nat) (v : Word) (last : Bool) (r : TileRec) : TileRec :=
  if l = c.emit then complete1 c l v false r else addChild fuel c (l + 1) v last false r

/-- The value of an entry that holds `n` children with the running value `e` once `v` is added. -/
def entryValue (c : Child) (e n : Nat) (v : Word) : Word := if n = 0 then v else nodeOp c.kind (BitVec.ofNat 32 e) v

theorem addChild_fills (fuel : Nat) (c : Child) (l : Nat) (v : Word) {last : Bool} {r : TileRec} {e n : Nat} (he : tget r.entries (entryKey c.x l) (0, 0) = (e, n))
    (h : n + 1 = 8 ∨ last = true) : addChild (fuel + 1) c l v last false r =
      passUp fuel c l (entryValue c e n v) last { r with entries := tdel r.entries (entryKey c.x l) } := by
  simp only [addChild, he, if_pos h, passUp, entryValue]

theorem addChild_waits (fuel : Nat) (c : Child) (l : Nat) (v : Word) {r : TileRec} {e n : Nat} (he : tget r.entries (entryKey c.x l) (0, 0) = (e, n)) (h : n + 1 ≠ 8) :
    addChild (fuel + 1) c l v false false r = { r with entries := tput r.entries (entryKey c.x l) ((entryValue c e n v).toNat, n + 1) } := by
  simp [addChild, he, h, entryValue]

theorem passUp_congr_of {fuel : Nat} {c : Child} {l : Nat} {v : Word} {last : Bool} {r u : TileRec}
    (ha : SameStore r u → SameStore (addChild fuel c (l + 1) v last false r) (addChild fuel c (l + 1) v last false u)) (h : SameStore r u) :
    SameStore (passUp fuel c l v last r) (passUp fuel c l v last u) := by
  unfold passUp
  split
  · exact ⟨by simp [complete1, h.1], h.2⟩
  · exact ha h

theorem addChild_congr (c : Child) (last : Bool) : ∀ (fuel l : Nat) (v : Word) {r u : TileRec}, SameStore r u →
    SameStore (addChild fuel c l v last false r) (addChild fuel c l v last false u)
  | 0, _, _, _, _, h => h
  | fuel + 1, l, v, r, u, h => by
    obtain ⟨⟨e, n⟩, he⟩ : ∃ p, tget r.entries (entryKey c.x l) (0, 0) = p := ⟨_, rfl⟩
    have hu := (h.2 (entryKey c.x l)).trans he
    have hdel : SameStore { r with entries := tdel r.entries (entryKey c.x l) } { u with entries := tdel u.entries (entryKey c.x l) } := by
      refine ⟨h.1, fun k => ?_⟩
      by_cases hk : k = entryKey c.x l
      · simp [hk]
      · simpa [tget_tdel_ne _ _ _ _ hk] using h.2 k
    by_cases hfull : n + 1 = 8 ∨ last = true
    · rw [addChild_fills _ _ _ _ he hfull, addChild_fills _ _ _ _ hu hfull]
      exact passUp_congr_of (addChild_congr c last fuel (l + 1) _) hdel
    · obtain ⟨h8, hlast⟩ := not_or.mp hfull
      obtain rfl : last = false := by simpa using hlast
      rw [addChild_waits _ _ _ _ he h8, addChild_waits _ _ _ _ hu h8]
      refine ⟨h.1, fun k => ?_⟩
      by_cases hk : k = entryKey c.x l
      · simp [hk]
      · simpa [tget_tput_ne _ _ _ _ _ hk] using h.2 k

theorem passUp_congr {fuel : Nat} {c : Child} {l : Nat} {v : Word} {last : Bool} {r u : TileRec} (h : SameStore r u) :
    SameStore (passUp fuel c l v last r) (passUp fuel c l v last u) := passUp_congr_of (fun h => addChild_congr c last fuel (l + 1) v h) h

/-- Below level `l` an addition at `l` changes no entry, and none of another output. -/
theorem addChild_entry (c : Child) (last : Bool) (k : Nat) : ∀ (fuel l : Nat) (v : Word) (r : TileRec), l ≤ c.emit →
    (∀ m, l ≤ m → m ≤ c.emit → k ≠ entryKey c.x m) → tget (addChild fuel c l v last false r).entries k (0, 0) = tget r.entries k (0, 0)
  | 0, _, _, _, _, _ => rfl
  | fuel + 1, l, v, r, hl, hk => by
    obtain ⟨⟨e, n⟩, he⟩ : ∃ p, tget r.entries (entryKey c.x l) (0, 0) = p := ⟨_, rfl⟩
    have hne := hk l le_rfl hl
    by_cases hfull : n + 1 = 8 ∨ last = true
    · rw [addChild_fills _ _ _ _ he hfull, passUp]
      split
      · exact tget_tdel_ne _ _ _ _ hne
      · next hle =>
        rw [addChild_entry c last k fuel (l + 1) _ _ (by omega) (fun m hm => hk m (by omega))]
        exact tget_tdel_ne _ _ _ _ hne
    · obtain ⟨h8, hlast⟩ := not_or.mp hfull
      obtain rfl : last = false := by simpa using hlast
      rw [addChild_waits _ _ _ _ he h8]
      exact tget_tput_ne _ _ _ _ _ hne

theorem passUp_entry {fuel : Nat} {c : Child} {l : Nat} {v : Word} {last : Bool} {r : TileRec} (hl : l ≤ c.emit) :
    tget (passUp fuel c l v last r).entries (entryKey c.x l) (0, 0) = tget r.entries (entryKey c.x l) (0, 0) := by
  unfold passUp
  split
  · rfl
  · exact addChild_entry c last _ fuel (l + 1) v r (by omega) fun m hm _ => entryKey_ne c.x (by omega)

/-! A level takes a list of children, the last of them the output's last. -/

/-- The children `vs` are added at level `l` in order; the last of them is the output's last one when `last` holds. -/
def addAll (fuel : Nat) (c : Child) (l : Nat) (last : Bool) : List Word → TileRec → TileRec
  | [], r => r
  | v :: vs, r => addAll fuel c l last vs (addChild fuel c l v (last && vs.isEmpty) false r)

/-- The values `vs` go up from level `l` in order; the last of them is the output's last one. -/
def passAll (fuel : Nat) (c : Child) (l : Nat) : List Word → TileRec → TileRec
  | [], r => r
  | v :: vs, r => passAll fuel c l vs (passUp fuel c l v vs.isEmpty r)

theorem passAll_congr {fuel : Nat} {c : Child} {l : Nat} : ∀ (vs : List Word) {r u : TileRec}, SameStore r u →
    SameStore (passAll fuel c l vs r) (passAll fuel c l vs u)
  | [], _, _, h => h
  | _ :: vs, _, _, h => passAll_congr vs (passUp_congr h)

theorem addAll_append {fuel : Nat} {c : Child} {l : Nat} {last : Bool} {ys : List Word} (hy : ys ≠ []) : ∀ (xs : List Word) (r : TileRec),
    addAll fuel c l last (xs ++ ys) r = addAll fuel c l last ys (addAll fuel c l false xs r)
  | [], r => rfl
  | x :: xs, r => by
    have he : (xs ++ ys).isEmpty = false := by simp [hy]
    simp only [List.cons_append, addAll, he, Bool.and_false, Bool.false_and]
    exact addAll_append hy xs _

/-- A run that ends at the eighth child of its entry, or at the output's last child, passes the node up and frees the entry. -/
theorem addAll_fills {fuel : Nat} {c : Child} {l : Nat} {last : Bool} : ∀ (xs : List Word) (r : TileRec) (e : Word) (n : Nat),
    tget r.entries (entryKey c.x l) (0, 0) = (e.toNat, n) → 1 ≤ n → xs ≠ [] → n + xs.length ≤ 8 → (n + xs.length = 8 ∨ last = true) →
    addAll (fuel + 1) c l last xs r = passUp fuel c l (xs.foldl (nodeOp c.kind) e) last { r with entries := tdel r.entries (entryKey c.x l) }
  | [], _, _, _, _, _, hx, _, _ => absurd rfl hx
  | [x], r, e, n, he, hn, _, hle, hfull => by
    have hv : entryValue c e.toNat n x = nodeOp c.kind e x := by simp [entryValue, Nat.ne_of_gt hn]
    simp only [List.length_singleton] at hfull
    rw [addAll, addAll, List.isEmpty_nil, Bool.and_true, addChild_fills _ _ _ _ he hfull, hv]
    rfl
  | x :: y :: xs, r, e, n, he, hn, _, hle, hfull => by
    have hv : entryValue c e.toNat n x = nodeOp c.kind e x := by simp [entryValue, Nat.ne_of_gt hn]
    simp only [List.length_cons] at hle hfull
    rw [addAll, List.isEmpty_cons, Bool.and_false, addChild_waits _ _ _ _ he (by omega), hv,
      addAll_fills (y :: xs) _ (nodeOp c.kind e x) (n + 1) (tget_tput_self ..) (by omega) (by simp) (by simp only [List.length_cons]; omega)
        (hfull.imp_left fun h => by simp only [List.length_cons]; omega)]
    simp [tdel_tput_self]

/-- A whole run into a free entry passes its node up. -/
theorem addAll_run {fuel : Nat} {c : Child} {l : Nat} {last : Bool} (x : Word) (xs : List Word) {r : TileRec}
    (he : tget r.entries (entryKey c.x l) (0, 0) = (0, 0)) (hle : xs.length ≤ 7) (hfull : xs.length = 7 ∨ last = true) :
    addAll (fuel + 1) c l last (x :: xs) r =
      passUp fuel c l (xs.foldl (nodeOp c.kind) x) last { r with entries := tdel r.entries (entryKey c.x l) } := by
  match xs with
  | [] =>
    obtain rfl : last = true := by simpa using hfull
    rw [addAll, addAll, List.isEmpty_nil, Bool.and_true, addChild_fills _ _ _ _ he (.inr rfl)]
    rfl
  | y :: xs =>
    simp only [List.length_cons] at hle hfull
    rw [addAll, List.isEmpty_cons, Bool.and_false, addChild_waits _ _ _ _ he (by omega),
      addAll_fills (y :: xs) _ x 1 (tget_tput_self ..) le_rfl (by simp) (by simp only [List.length_cons]; omega)
        (hfull.imp_left fun h => by simp only [List.length_cons]; omega)]
    simp [tdel_tput_self]

/-- A level that holds nothing of the output passes the next level of the tree up (R55, R115). -/
theorem addAll_passes {fuel : Nat} {c : Child} {l : Nat} (hl : l ≤ c.emit) (ws : List Word) : ∀ {r : TileRec},
    tget r.entries (entryKey c.x l) (0, 0) = (0, 0) →
    SameStore (passAll fuel c l (nextLevel (nodeOp c.kind) ws) r) (addAll (fuel + 1) c l true ws r) := by
  induction ws using runs_induction with
  | nil => exact fun _ => SameStore.refl _
  | short x xs h =>
    intro r he
    rw [nextLevel_short _ x xs h, addAll_run x xs he h (.inr rfl)]
    exact passUp_congr (sameStore_tdel he)
  | more x xs ys h hy ih =>
    intro r he
    have hne : (nextLevel (nodeOp c.kind) ys).isEmpty = false := by
      rw [List.isEmpty_eq_false_iff, ← List.length_pos_iff, length_nextLevel]
      have := List.length_pos_iff.mpr hy
      omega
    rw [nextLevel_append _ x xs ys h, addAll_append hy, addAll_run x xs he (by omega) (.inl h), passAll, hne]
    refine (passAll_congr _ (passUp_congr (sameStore_tdel he))).trans (ih ?_)
    rw [passUp_entry hl]
    exact tget_tdel_self ..

/-- The values complete at the emit level, in order. -/
def completeAll (c : Child) (vs : List Word) (r : TileRec) : TileRec :=
  { r with completed := r.completed ++ vs.map fun v => ⟨c.x, c.emit, v, false, c.tensor, c.elem, c.w⟩ }

theorem passAll_emit {fuel : Nat} {c : Child} : ∀ (vs : List Word) (r : TileRec), passAll fuel c c.emit vs r = completeAll c vs r
  | [], r => by simp [passAll, completeAll]
  | v :: vs, r => by rw [passAll, passAll_emit vs]; simp [passUp, completeAll, complete1]

theorem passAll_below {fuel : Nat} {c : Child} {l : Nat} (h : l ≠ c.emit) : ∀ (vs : List Word) (r : TileRec),
    passAll fuel c l vs r = addAll fuel c (l + 1) true vs r
  | [], _ => rfl
  | v :: vs, r => by rw [passAll, passAll_below h vs, passUp, if_neg h, addAll, Bool.true_and]

/-- From level `l` up to the emit level a store that holds nothing of the output completes the nodes of the tree (R115, R121). -/
theorem passAll_completes {c : Child} : ∀ (d fuel l : Nat) (ws : List Word) (r : TileRec), c.emit = l + d → d ≤ fuel →
    (∀ m, l < m → m ≤ c.emit → tget r.entries (entryKey c.x m) (0, 0) = (0, 0)) →
    SameStore (completeAll c (nodesAt (nodeOp c.kind) d ws) r) (passAll fuel c l ws r)
  | 0, fuel, l, ws, r, hd, _, _ => by
    obtain rfl : l = c.emit := by omega
    rw [passAll_emit]
    exact SameStore.refl _
  | d + 1, fuel + 1, l, ws, r, hd, hf, he => by
    rw [passAll_below (by omega), nodesAt]
    exact (passAll_completes d fuel (l + 1) (nextLevel (nodeOp c.kind) ws) r (by omega) (by omega) fun m hm => he m (by omega)).trans
      (addAll_passes (by omega) ws (he (l + 1) (by omega) (by omega)))
  | d + 1, 0, _, _, _, _, hf, _ => absurd hf (by omega)

/-! Children reach the node store (R54, R55). -/

theorem addChild_value (c : Child) (x : Word) (last bad : Bool) : ∀ (fuel l : Nat) (v : Word) (r : TileRec),
    addChild fuel { c with value := x } l v last bad r = addChild fuel c l v last bad r
  | 0, _, _, _ => rfl
  | fuel + 1, l, v, r => by simp only [addChild, complete1, addChild_value c x last bad fuel]

/-- The record of an open output once the child is in. -/
def openRec (c : Child) (next : Nat) : OutCfg := { first := c.first, n := c.n, emit := c.emit, next }

/-- The store's outputs once a child is in: the last one closes its output. -/
def outsAfter (c : Child) (next : Nat) (last : Bool) (m : Table OutCfg) : Table OutCfg :=
  if last then tdel m c.x else tput m c.x (openRec c next)

/-- A sound child that is its output's next goes up from its own level. -/
theorem takeChild_eq {c : Child} {r : TileRec} {i : Nat} {last : Bool} (v : Word) (hemit : c.lvl ≤ c.emit) (htop : c.emit ≤ topOf c.n) (hc : c.poisoned = false)
    (hnext : (tget r.outs c.x {}).next = i) (hp : (tget r.outs c.x {}).poisoned = false) (hlast : last = decide (c.n ≤ i + 8 ^ c.lvl)) :
    takeChild { c with value := v } v false r = passUp 16 c c.lvl v last { r with outs := outsAfter c (i + 8 ^ c.lvl) last r.outs } := by
  subst hlast
  have hiff : (topOf c.n = 0 ∨ c.emit ≤ c.lvl) ↔ c.lvl = c.emit := by omega
  simp only [takeChild, childrenIn, hnext, hp, addChild_value, hiff, passUp, complete1, outsAfter, openRec]
  simp only [hc, Bool.or_false]

theorem addChild_outs (c : Child) (last bad : Bool) : ∀ (fuel l : Nat) (v : Word) (r : TileRec), (addChild fuel c l v last bad r).outs = r.outs
  | 0, _, _, _ => rfl
  | fuel + 1, l, v, r => by
    simp only [addChild]
    split
    · split
      · rfl
      · exact addChild_outs c last bad fuel _ _ _
    · rfl

@[simp] theorem passUp_outs (fuel : Nat) (c : Child) (l : Nat) (v : Word) (last : Bool) (r : TileRec) : (passUp fuel c l v last r).outs = r.outs := by
  unfold passUp
  split
  · rfl
  · exact addChild_outs ..

/-- Children in order, from index `i` of `n` to the last: they go up from their own level, and the output is closed. -/
theorem feed_passes {c : Child} (hemit : c.lvl ≤ c.emit) (htop : c.emit ≤ topOf c.n) (hc : c.poisoned = false) : ∀ (vs : List Word) (i : Nat) (r : TileRec),
    vs ≠ [] → i + vs.length = (c.n + 8 ^ c.lvl - 1) / 8 ^ c.lvl → (tget r.outs c.x {}).next = i * 8 ^ c.lvl →
    (tget r.outs c.x {}).poisoned = false →
    SameStore (passAll 16 c c.lvl vs r) (feed c vs r) ∧ thas (feed c vs r).outs c.x = false ∧
      ∀ x, x ≠ c.x → tget (feed c vs r).outs x {} = tget r.outs x {}
  | [], _, _, hv, _, _, _ => absurd rfl hv
  | v :: vs, i, r, _, hi, hnext, hp => by
    have hpos : 0 < 8 ^ c.lvl := by positivity
    have hlast : vs.isEmpty = decide (c.n ≤ i * 8 ^ c.lvl + 8 ^ c.lvl) := by
      have hceil : c.n ≤ (i + 1) * 8 ^ c.lvl ↔ i + 1 = i + (v :: vs).length := by
        have h1 : (c.n + 8 ^ c.lvl - 1) / 8 ^ c.lvl ≤ i + 1 ↔ c.n ≤ (i + 1) * 8 ^ c.lvl := by
          rw [← Nat.lt_succ_iff, Nat.div_lt_iff_lt_mul hpos, Nat.succ_mul]
          omega
        rw [← h1, ← hi]
        simp
      rw [Nat.succ_mul] at hceil
      cases vs <;> simp [hceil]
    have htake := takeChild_eq v hemit htop hc hnext hp hlast
    have hfeed : feed c (v :: vs) r = feed c vs (takeChild { c with value := v } v false r) := rfl
    rw [hfeed, htake, passAll]
    have hsame : SameStore (passUp 16 c c.lvl v vs.isEmpty r)
        (passUp 16 c c.lvl v vs.isEmpty { r with outs := outsAfter c (i * 8 ^ c.lvl + 8 ^ c.lvl) vs.isEmpty r.outs }) := passUp_congr ⟨rfl, fun _ => rfl⟩
    match vs with
    | [] =>
      refine ⟨hsame, ?_, fun x hx => ?_⟩
      · simpa [feed, outsAfter] using thas_tdel_self r.outs c.x
      · simpa [feed, outsAfter] using tget_tdel_ne _ _ _ _ hx
    | w :: ws =>
      have hfeedNext := feed_passes hemit htop hc (w :: ws) (i + 1)
        (passUp 16 c c.lvl v false { r with outs := outsAfter c (i * 8 ^ c.lvl + 8 ^ c.lvl) false r.outs }) (by simp)
        (by simp only [List.length_cons] at hi ⊢; omega) (by simp [outsAfter, openRec, Nat.succ_mul]) (by simp [outsAfter, openRec])
      obtain ⟨hstore, hclosed, houts⟩ := hfeedNext
      refine ⟨(passAll_congr _ hsame).trans hstore, hclosed, fun x hx => (houts x hx).trans ?_⟩
      simpa [outsAfter] using tget_tput_ne _ _ _ _ _ hx

end Sys2Proof.Machine
end

section
open Sys2Proof Sys2Proof.Machine

/-- Settles O16: the children pass up level by level, each level of a store that holds nothing of the output passing the next level of the canonical
tree up. -/
theorem nodeStoreComputesTheCanonicalTree : Obligations.NodeStoreComputesTheCanonicalTree := by
  unfold Obligations.NodeStoreComputesTheCanonicalTree
  intro c vs r hn hmax hlen hemit htop hc hclosed hfree
  have hpos : 0 < 8 ^ c.lvl := by positivity
  have hne : vs ≠ [] := by
    rw [← List.length_pos_iff, hlen]
    exact Nat.div_pos (by omega) hpos
  have h15 := topOf_le_15 hmax
  have hout := tget_of_not_thas ({} : OutCfg) hclosed
  obtain ⟨hpass, hclosed', houts⟩ := feed_passes hemit htop hc vs 0 r hne (by rw [Nat.zero_add, hlen]) (by simp [hout]) (by simp [hout])
  obtain ⟨hdone, hentries⟩ := (passAll_completes (c.emit - c.lvl) 16 c.lvl vs r (by omega) (by omega) fun m _ hm => hfree m (by omega)).trans hpass
  refine ⟨hdone, fun htopEq => canonicalTree_of_one _ ?_, hclosed', fun l hl => (hentries _).trans (hfree l hl), fun k _ => hentries k, houts⟩
  have hp : (8 : Nat) ^ c.emit = 8 ^ c.lvl * 8 ^ (c.emit - c.lvl) := by rw [← pow_add]; congr 1; omega
  have hle : c.n ≤ 8 ^ c.emit := htopEq ▸ le_pow_topOf hmax
  have hvs : vs.length ≤ 8 ^ (c.emit - c.lvl) := by
    rw [hlen, ← Nat.lt_succ_iff, Nat.div_lt_iff_lt_mul hpos, Nat.succ_mul, Nat.mul_comm]
    omega
  have h1 := List.length_pos_iff.mpr hne
  rw [length_nodesAt]
  exact (Nat.div_eq_iff (by positivity)).mpr (by omega)

end

section
/-! The tile sequencer: what the slot's own instructions, an issue and a retirement leave and change (R68, R71, R72, R75, R294). -/
namespace Sys2Proof.Machine
open Sys2Proof

/-! One tile's record. -/

@[simp] theorem tile_setTile_self (t : Nat) (r : TileRec) (s : State) : tile (setTile t r s) t = r := by rw [tile_setTile, if_pos rfl]
@[simp] theorem tile_updTile_self (t : Nat) (f : TileRec → TileRec) (s : State) : tile (updTile t f s) t = f (tile s t) := tile_setTile_self ..
theorem tile_setTile_ne {t j : Nat} (h : j ≠ t) (r : TileRec) (s : State) : tile (setTile t r s) j = tile s j := by rw [tile_setTile, if_neg h]
theorem tile_updTile_ne {t j : Nat} (h : j ≠ t) (f : TileRec → TileRec) (s : State) : tile (updTile t f s) j = tile s j := tile_setTile_ne h ..

theorem onlyTile_setTile (t : Nat) (r : TileRec) (s : State) : OnlyTile s (setTile t r s) t := ⟨rfl, fun _ h => tile_setTile_ne h ..⟩
theorem onlyTile_updTile (t : Nat) (f : TileRec → TileRec) (s : State) : OnlyTile s (updTile t f s) t := onlyTile_setTile ..

/-! The sequencer's own instructions, each of whose fetches succeeds. -/

theorem advance_ok : ∀ (fuel : Nat) (p : List TInstr) (a : Advance), a.ecc = [] →
    (advance fuel p a).ecc = [] ∧ (advance fuel p a).bad = a.bad ∧ (advance fuel p a).corrected = a.corrected ∧
      (advance fuel p a).retired ≤ a.retired + fuel ∧ (advance fuel p a).v.released = a.v.released
  | 0, _, a, h => ⟨h, rfl, rfl, le_rfl, rfl⟩
  | fuel + 1, p, a, h => by
    rw [advance]
    split
    · exact ⟨h, rfl, rfl, by simp, rfl⟩
    · split
      · exact ⟨h, rfl, rfl, by omega, rfl⟩
      · simp only [h, List.headD_nil, List.tail_nil]
        obtain ⟨h1, h2, h3, h4, h5⟩ := advance_ok fuel p { a with v := runScalar _ a.v, ecc := [], retired := a.retired + 1 } rfl
        exact ⟨h1, h2, h3, h4.trans (by simp only; omega), h5⟩

/-- At an instruction for a unit the sequencer has nothing of its own to do. -/
theorem advance_at_unit {p : List TInstr} {a : Advance} {i : TInstr} (hp : p[a.v.pc]? = some i) (hi : i.unit ≠ 7) : ∀ fuel, advance fuel p a = a
  | 0 => rfl
  | fuel + 1 => by rw [advance, hp]; simp [hi]

theorem ownSteps_ok (r : TileRec) (k : Nat) : (ownSteps r k []).ecc = [] ∧ (ownSteps r k []).bad = false ∧ (ownSteps r k []).corrected = 0 ∧
    (ownSteps r k []).retired ≤ 65536 ∧ (ownSteps r k []).v.released = (slot r k).released := by
  obtain ⟨h1, h2, h3, h4, h5⟩ := advance_ok 65536 (program r k) { v := slot r k, ecc := [] } rfl
  exact ⟨h1, h2, h3, h4.trans (by simp), h5⟩

theorem ownSteps_at_unit {r : TileRec} {k : Nat} {i : TInstr} (hp : (program r k)[(slot r k).pc]? = some i) (hi : i.unit ≠ 7) (ecc : List Ecc) :
    ownSteps r k ecc = { v := slot r k, ecc } := advance_at_unit hp hi _

/-- What the sequencer reads and writes of a tile's record is the same in both. -/
def SameSeq (r u : TileRec) : Prop :=
  u.slots = r.slots ∧ u.imem = r.imem ∧ u.phase = r.phase ∧ u.awaits = r.awaits ∧ u.lastUnit = r.lastUnit ∧ u.retired = r.retired ∧ u.gated = r.gated

theorem SameSeq.refl (r : TileRec) : SameSeq r r := ⟨rfl, rfl, rfl, rfl, rfl, rfl, rfl⟩

theorem ownSteps_congr {r u : TileRec} (h : SameSeq r u) (k : Nat) (ecc : List Ecc) : ownSteps u k ecc = ownSteps r k ecc := by
  obtain ⟨hs, hi, hp, -⟩ := h
  unfold ownSteps program slot
  rw [hs, hi, hp]

theorem settled_congr {r u : TileRec} (h : SameSeq r u) (k : Nat) : settled u k = settled r k := by
  have hs : slot u k = slot r k := by rw [slot, h.1, slot]
  rw [settled, settled, hs, ownSteps_congr h]

theorem settled_of_running {r : TileRec} {k : Nat} (hr : (slot r k).st = .running) (hn : (slot r k).released = false) :
    settled r k = (ownSteps r k []).v := by rw [settled, if_pos ⟨hr, by simp [hn]⟩]

/-- Slot `k` has run its own instructions. -/
def ranRec (k : Nat) (r : TileRec) : TileRec :=
  { r with slots := tset r.slots k (ownSteps r k []).v {}, retired := (r.retired + (ownSteps r k []).retired) % 2 ^ 64 }

/-- Slot `k` of tile `t` has run its own instructions, which count as progress. -/
@[irreducible] def ran (t k : Nat) (s : State) : State :=
  updTile t (ranRec k) (if (ownSteps (tile s t) k []).retired = 0 then s else { s with job.progressAt := s.time })

theorem slot_tset (r : TileRec) (k j : Nat) (v : Slot) : slot { r with slots := tset r.slots k v {} } j = if j = k then v else slot r j := by
  unfold slot
  split
  · next h => rw [h, tget_tset_self]
  · next h => exact tget_tset_ne _ _ _ _ _ h

theorem slot_ranRec (k j : Nat) (r : TileRec) : slot (ranRec k r) j = if j = k then (ownSteps r k []).v else slot r j :=
  slot_tset r k j _

theorem ownInstrs_ok (t k : Nat) (f : List Ecc → State → State) (s : State) : ownInstrs t k [] f s = f [] (ran t k s) := by
  obtain ⟨hecc, hbad, hcorr, -⟩ := ownSteps_ok (tile s t) k
  simp only [ownInstrs, hecc, hbad, hcorr, correctedTimes, Bool.false_eq_true, if_false]
  unfold ran
  split <;> rfl

/-- Slot `k` runs to its end where its program has no instruction left for a unit (R68). -/
def endRec (k : Nat) (r : TileRec) : TileRec := if (slot r k).st = .running ∧ (settled r k).st = .idle then ranRec k r else r

theorem finish_eq (t k : Nat) (s : State) :
    finish t k [] s = if (slot (tile s t) k).st = .running ∧ (settled (tile s t) k).st = .idle then ran t k s else s := by
  rw [finish, ownInstrs_ok]

/-- The slots, the count of retired instructions and no other field. -/
theorem endRec_eq (k : Nat) (r : TileRec) : ∃ sl m, endRec k r = { r with slots := sl, retired := m } := by
  unfold endRec
  split
  · exact ⟨_, _, rfl⟩
  · exact ⟨_, _, rfl⟩

theorem endRec_congr {r u : TileRec} (h : SameSeq r u) (k : Nat) : SameSeq (endRec k r) (endRec k u) := by
  have hs : slot u k = slot r k := by rw [slot, h.1, slot]
  rw [endRec, endRec, hs, settled_congr h]
  split
  · obtain ⟨h1, h2, h3, h4, h5, h6, h7⟩ := h
    refine ⟨?_, h2, h3, h4, h5, ?_, h7⟩
    · simp only [ranRec, h1, ownSteps_congr ⟨h1, h2, h3, h4, h5, h6, h7⟩]
    · simp only [ranRec, h6, ownSteps_congr ⟨h1, h2, h3, h4, h5, h6, h7⟩]
  · exact h

theorem slot_endRec_ne {k j : Nat} (h : j ≠ k) (r : TileRec) : slot (endRec k r) j = slot r j := by
  unfold endRec
  split
  · rw [slot_ranRec, if_neg h]
  · rfl

/-- A running slot stays where it stands, or is IDLE. -/
theorem slot_endRec_self {k : Nat} {r : TileRec} (hn : (slot r k).released = false) :
    slot (endRec k r) k = slot r k ∨ (slot (endRec k r) k).st = .idle := by
  unfold endRec
  split
  · next h =>
    rw [slot_ranRec, if_pos rfl, ← settled_of_running h.1 hn]
    exact .inr h.2
  · exact .inl rfl

theorem released_endRec {k : Nat} {r : TileRec} (hn : (slot r k).released = false) : (slot (endRec k r) k).released = false := by
  unfold endRec
  split
  · rw [slot_ranRec, if_pos rfl, (ownSteps_ok r k).2.2.2.2, hn]
  · exact hn

/-! What a step of the sequencer leaves. -/

/-- `u` is `s` but for the record of tile `t` and the moment of the last progress. -/
def SeqOnly (s u : State) (t : Nat) : Prop :=
  u = { s with tiles := u.tiles, job.progressAt := u.job.progressAt } ∧ ∀ j, j ≠ t → tile u j = tile s j

theorem SeqOnly.refl (s : State) (t : Nat) : SeqOnly s s t := ⟨rfl, fun _ _ => rfl⟩
theorem SeqOnly.trans {s u v : State} {t : Nat} (h : SeqOnly s u t) (g : SeqOnly u v t) : SeqOnly s v t := by
  obtain ⟨hu, hj⟩ := h
  obtain ⟨hv, gj⟩ := g
  refine ⟨?_, fun j hne => (gj j hne).trans (hj j hne)⟩
  rw [hv, hu]

theorem seqOnly_updTile (t : Nat) (f : TileRec → TileRec) (s : State) : SeqOnly s (updTile t f s) t := ⟨rfl, fun _ h => tile_updTile_ne h ..⟩

theorem seqOnly_ran (t k : Nat) (s : State) : SeqOnly s (ran t k s) t := by
  unfold ran
  split
  · exact seqOnly_updTile ..
  · exact ⟨rfl, fun _ h => tile_updTile_ne h ..⟩

theorem seqOnly_finish (t k : Nat) (s : State) : SeqOnly s (finish t k [] s) t := by
  rw [finish_eq]
  split
  · exact seqOnly_ran ..
  · exact SeqOnly.refl ..

theorem seqOnly_retire (n t k : Nat) (s : State) : SeqOnly s (retire n t k s) t := ⟨rfl, fun _ h => tile_updTile_ne h ..⟩

@[simp] theorem tile_ran (t k : Nat) (s : State) : tile (ran t k s) t = ranRec k (tile s t) := by
  unfold ran
  rw [tile_updTile_self]
  split <;> rfl

@[simp] theorem tile_finish (t k : Nat) (s : State) : tile (finish t k [] s) t = endRec k (tile s t) := by
  rw [finish_eq, endRec]
  split
  · exact tile_ran ..
  · rfl

@[simp] theorem tile_retire (n t k : Nat) (s : State) : tile (retire n t k s) t = serve n k (tile s t) := tile_updTile_self ..

theorem retire_progressAt (n t k : Nat) (s : State) : (retire n t k s).job.progressAt = (retire n t k s).time := rfl

/-- Progress is noted now, or not. -/
theorem finish_progressAt {t k : Nat} {s : State} (h : s.job.progressAt = s.time) : (finish t k [] s).job.progressAt = s.time := by
  rw [finish_eq]
  split
  · unfold ran
    split
    · exact h
    · rfl
  · exact h

/-! An issue (R71, R72, R294). -/

theorem takeArrivals_eq (t : Nat) (s : State) : takeArrivals t s =
    { updTile t (fun r => { r with awaits := [] }) s with remote.ctrs := (takeArrivals t s).remote.ctrs } := by
  unfold takeArrivals
  generalize updTile t (fun r => { r with awaits := [] }) s = u
  induction (tile s t).awaits generalizing u with
  | nil => rfl
  | cons e es ih => rw [List.foldl_cons, ih]; rfl

@[simp] theorem tile_takeArrivals (t j : Nat) (s : State) : tile (takeArrivals t s) j = tile (updTile t (fun r => { r with awaits := [] }) s) j := by
  rw [takeArrivals_eq]; rfl

/-- Slot `k` of tile `t` stands at the instruction that it issues: the arrivals are taken and its own instructions have run. -/
@[irreducible] def begun (t k : Nat) (s : State) : State := ran t k (takeArrivals t s)

theorem begun_frame (t k : Nat) (s : State) : begun t k s =
    { s with tiles := (begun t k s).tiles, remote.ctrs := (takeArrivals t s).remote.ctrs, job.progressAt := (begun t k s).job.progressAt } := by
  have hran := (seqOnly_ran t k (takeArrivals t s)).1
  have htake := takeArrivals_eq t s
  unfold begun
  generalize ran t k (takeArrivals t s) = u at *
  generalize takeArrivals t s = v at *
  rw [hran, htake]
  rfl

@[simp] theorem begun_time (t k : Nat) (s : State) : (begun t k s).time = s.time := by rw [begun_frame]
@[simp] theorem begun_mem (t k : Nat) (s : State) : (begun t k s).mem = s.mem := by rw [begun_frame]

theorem tile_begun_ne {t j : Nat} (h : j ≠ t) (k : Nat) (s : State) : tile (begun t k s) j = tile s j := by
  rw [begun, (seqOnly_ran t k _).2 j h, tile_takeArrivals, tile_updTile_ne h]

@[simp] theorem tile_begun (t k : Nat) (s : State) : tile (begun t k s) t = { ranRec k (tile s t) with awaits := [] } := by
  rw [begun, tile_ran, tile_takeArrivals, tile_updTile_self]
  rfl

/-- What the sequencer changes of a tile's record when a slot issues an instruction and retires it. -/
theorem serve_begun (n t k : Nat) (s : State) : ∃ sl m lu g, serve n k (tile (begun t k s) t) =
    { tile s t with slots := sl, retired := m, lastUnit := lu, gated := g, awaits := [] } := by
  rw [tile_begun]
  exact ⟨_, _, _, _, rfl⟩

/-- The slot that a unit serves is running, not released, and stands at an instruction for the unit once its own instructions have run (R72). -/
theorem canIssue_slot {s : State} {t k n : Nat} (h : canIssue s t k n = true) :
    (slot (tile s t) k).st = .running ∧ (slot (tile s t) k).released = false ∧ (settled (tile s t) k).st = .running ∧
      nextUnit (tile s t) k = some n := by
  simp only [canIssue, Bool.and_eq_true, beq_iff_eq] at h
  obtain ⟨⟨-, hn⟩, -⟩ := h
  have hw := List.find?_some hn
  simp only [wants, Bool.and_eq_true, beq_iff_eq, Bool.not_eq_true'] at hw
  obtain ⟨⟨hst, hrel⟩, hunit⟩ := hw
  refine ⟨?_, hrel, hst, hunit⟩
  by_contra hne
  rw [settled, if_neg (fun h => hne h.1)] at hst
  exact hne hst

theorem slot_begun {s : State} {t k n : Nat} (h : canIssue s t k n = true) : slot (tile (begun t k s) t) k = settled (tile s t) k := by
  obtain ⟨hr, hn, -⟩ := canIssue_slot h
  rw [tile_begun, settled_of_running hr hn]
  exact (slot_ranRec k k _).trans (if_pos rfl)

/-- An issue without errors in its fetches. -/
theorem issued_ok {s : State} {t : Tile} {k : SlotId} {n : Nat} (h : canIssue s t k n = true) (f : State → State) :
    issued ⟨t, k, []⟩ n true f s = finish t k [] (f (begun t k s)) := by
  simp only [issued, h, Bool.and_self, if_true, ownInstrs_ok, List.headD_nil, List.tail_nil, fetched, begun]

theorem issuedAlone_eq {s : State} {t : Tile} {k : SlotId} {n : Nat} (h : canIssue s t k n = true) :
    issuedAlone t n k s = finish t k [] (retire n t k (begun t k s)) := issued_ok h _

end Sys2Proof.Machine
end

section
/-! What a unit's work leaves: the record of its tile, what crosses the tile's own vertical link, and free values drawn (R77, R149, R158). -/
namespace Sys2Proof.Machine
open Sys2Proof

/-! ### What crosses the vertical link -/

theorem SentDown.refl (s : State) (t : Nat) : SentDown s s t := ⟨fun _ _ => rfl, [], by simp, by simp⟩
theorem SentDown.trans {s u v : State} {t : Nat} (h : SentDown s u t) (g : SentDown u v t) : SentDown s v t := by
  obtain ⟨hl, xs, hout, hxs⟩ := h
  obtain ⟨gl, ys, gout, gys⟩ := g
  refine ⟨fun j hj => (gl j hj).trans (hl j hj), xs ++ ys, by rw [gout, hout, List.append_assoc], fun o ho => ?_⟩
  exact (List.mem_append.mp ho).elim (hxs o) (gys o)

/-- Neither the links nor what was sent changes. -/
theorem SentDown.of_eq {s u : State} {t : Nat} (hl : u.stacking = s.stacking) (ho : u.out = s.out) : SentDown s u t :=
  ⟨fun _ _ => by rw [dlink, dlink, hl], [], by simp [ho], by simp⟩

/-- `u` is `s` but for the vertical link of tile `t` and what it has sent. -/
def LinkOnly (s u : State) (t : Nat) : Prop := u = { s with stacking.links := u.stacking.links, out := u.out } ∧ SentDown s u t

theorem LinkOnly.refl (s : State) (t : Nat) : LinkOnly s s t := ⟨rfl, SentDown.refl s t⟩
theorem LinkOnly.trans {s u v : State} {t : Nat} (h : LinkOnly s u t) (g : LinkOnly u v t) : LinkOnly s v t :=
  ⟨by rw [g.1, h.1], h.2.trans g.2⟩

theorem linkOnly_setDlink (t : Nat) (l : DLink) (s : State) : LinkOnly s (setDlink t l s) t :=
  ⟨rfl, fun j hj => by rw [dlink_setDlink, if_neg hj], [], (List.append_nil _).symm, by simp⟩

theorem linkOnly_sendTransfer (t d : Nat) (bs : List Byte) (s : State) : LinkOnly s (sendTransfer t d bs s) t := by
  refine (linkOnly_setDlink t _ s).trans ⟨rfl, fun _ _ => rfl, [_], rfl, fun o ho => ?_⟩
  exact ⟨d, _, List.mem_singleton.mp ho⟩

theorem linkOnly_pumpVertical (t d : Nat) : ∀ (n : Nat) (s : State), LinkOnly s (pumpVertical t d n s) t
  | 0, s => LinkOnly.refl s t
  | n + 1, s => by
    rw [pumpVertical]
    split
    · exact LinkOnly.refl s t
    · split
      · exact ((linkOnly_setDlink t _ s).trans (linkOnly_sendTransfer t d _ _)).trans (linkOnly_pumpVertical t d n _)
      · split
        · exact LinkOnly.refl s t
        · exact ((linkOnly_setDlink t _ s).trans (linkOnly_sendTransfer t d _ _)).trans (linkOnly_pumpVertical t d n _)

theorem linkOnly_crossVertical (t d c : Nat) (bs : List Byte) (s : State) : LinkOnly s (crossVertical t d c bs s) t :=
  (linkOnly_setDlink t _ s).trans (linkOnly_pumpVertical t d 8 _)

theorem linkOnly_runsDown (t c : Nat) (rs : List Run) (s : State) : LinkOnly s (runsDown t c rs s) t := linkOnly_crossVertical ..

theorem LinkOnly.tile {s u : State} {t : Nat} (h : LinkOnly s u t) (j : Nat) : tile u j = tile s j := by rw [h.1]; rfl
theorem LinkOnly.job {s u : State} {t : Nat} (h : LinkOnly s u t) : u.job = s.job := by rw [h.1]
theorem LinkOnly.mem {s u : State} {t : Nat} (h : LinkOnly s u t) : u.mem = s.mem := by rw [h.1]

@[simp] theorem tile_crossVertical (t d c j : Nat) (bs : List Byte) (s : State) : tile (crossVertical t d c bs s) j = tile s j :=
  (linkOnly_crossVertical t d c bs s).tile j
@[simp] theorem tile_runsDown (t c j : Nat) (rs : List Run) (s : State) : tile (runsDown t c rs s) j = tile s j := tile_crossVertical ..
/-! ### Samples (R149, R158) -/

/-- `u` is `s` but for the samples of tile `t` and the free values drawn. -/
def Sampled (s u : State) (t : Nat) : Prop :=
  u = { s with tiles := u.tiles, draws := u.draws } ∧ (∀ j, j ≠ t → tile u j = tile s j) ∧
    ∃ xs, tile u t = { tile s t with samples := xs }

theorem Sampled.refl (s : State) (t : Nat) : Sampled s s t := ⟨rfl, fun _ _ => rfl, _, rfl⟩
theorem Sampled.trans {s u v : State} {t : Nat} (h : Sampled s u t) (g : Sampled u v t) : Sampled s v t := by
  obtain ⟨hu, hj, xs, hx⟩ := h
  obtain ⟨hv, gj, ys, hy⟩ := g
  exact ⟨by rw [hv, hu], fun j hne => (gj j hne).trans (hj j hne), ys, by rw [hy, hx]⟩

theorem sampled_takeSample (t : Nat) (s : State) (c : Child) : Sampled s (takeSample t s c) t := by
  unfold takeSample
  split
  · exact ⟨rfl, fun j hj => tile_updTile_ne hj .., _, tile_updTile_self ..⟩
  · exact Sampled.refl s t

theorem sampled_foldl (t : Nat) (cs : List Child) : ∀ s, Sampled s (cs.foldl (takeSample t) s) t := by
  induction cs with
  | nil => exact fun s => Sampled.refl s t
  | cons c cs ih => exact fun s => (sampled_takeSample t s c).trans (ih _)

/-! ### A unit's work -/

/-- `u` is `s` but for the record of tile `t`, the moment of the last progress, free values drawn and what crosses the tile's vertical link. -/
def Worked (s u : State) (t : Nat) : Prop :=
  u = { s with tiles := u.tiles, draws := u.draws, job.progressAt := u.job.progressAt, stacking.links := u.stacking.links, out := u.out } ∧
    (∀ j, j ≠ t → tile u j = tile s j) ∧ SentDown s u t

theorem Worked.trans {s u v : State} {t : Nat} (h : Worked s u t) (g : Worked u v t) : Worked s v t := by
  obtain ⟨hu, hj, hsent⟩ := h
  obtain ⟨hv, gj, gsent⟩ := g
  exact ⟨by rw [hv, hu], fun j hne => (gj j hne).trans (hj j hne), hsent.trans gsent⟩

theorem Worked.time {s u : State} {t : Nat} (h : Worked s u t) : u.time = s.time := by rw [h.1]

theorem SeqOnly.worked {s u : State} {t : Nat} (h : SeqOnly s u t) : Worked s u t := by
  refine ⟨?_, h.2, SentDown.of_eq ?_ ?_⟩ <;> rw [h.1]
theorem LinkOnly.worked {s u : State} {t : Nat} (h : LinkOnly s u t) : Worked s u t := by
  refine ⟨?_, fun j _ => h.tile j, h.2⟩
  rw [h.1]
theorem Sampled.worked {s u : State} {t : Nat} (h : Sampled s u t) : Worked s u t := by
  refine ⟨?_, h.2.1, SentDown.of_eq ?_ ?_⟩ <;> rw [h.1]
theorem worked_updTile (t : Nat) (f : TileRec → TileRec) (s : State) : Worked s (updTile t f s) t := (seqOnly_updTile t f s).worked
theorem worked_retire (n t k : Nat) (s : State) : Worked s (retire n t k s) t := (seqOnly_retire n t k s).worked

theorem worked_formed (t src : Nat) (cs : List Child) (s : State) : Worked s (formed t src cs s) t :=
  (worked_updTile t _ s).trans (sampled_foldl t cs _).worked

/-- The children are queued; those sampled leave their records. -/
theorem tile_formed (t src : Nat) (cs : List Child) (s : State) : ∃ xs, tile (formed t src cs s) t =
    { tile s t with children := tset (tile s t).children src (waiting s t src ++ cs) [], samples := xs } := by
  obtain ⟨-, -, xs, hx⟩ := sampled_foldl t cs (updTile t (fun r => { r with children := tset r.children src (tget r.children src [] ++ cs) [] }) s)
  refine ⟨xs, hx.trans ?_⟩
  rw [tile_updTile_self]
  rfl

theorem formed_progressAt (t src : Nat) (cs : List Child) (s : State) : (formed t src cs s).job = s.job := by
  have h := (sampled_foldl t cs (updTile t (fun r => { r with children := tset r.children src (tget r.children src [] ++ cs) [] }) s)).1
  exact (congrArg State.job h).trans rfl

theorem waiting_tset {u : State} {t : Nat} {m : Table (List Child)} {src : Nat} {xs : List Child} (h : (tile u t).children = tset m src xs []) (j : Nat) :
    waiting u t j = if j = src then xs else tget m j [] := by
  unfold waiting
  rw [h]
  split
  · next hj => rw [hj, tget_tset_self]
  · next hj => exact tget_tset_ne _ _ _ _ _ hj

/-! ### An instruction that retires (R71, R72, R75) -/

/-- An instruction whose unit works on the tile and retires it has been issued; the tile's record is as the work left it but for the slots and the count of
what they have retired. -/
theorem issued_of_worked {s : State} {t : Tile} {k : SlotId} {n : Nat} {f : State → State} (hc : canIssue s t k n = true)
    (hw : Worked (begun t k s) (f (begun t k s)) t) (hp : (f (begun t k s)).job.progressAt = s.time)
    (hq : SameSeq (serve n k (tile (begun t k s) t)) (tile (f (begun t k s)) t)) :
    Issued s (issued ⟨t, k, []⟩ n true f s) t n k ∧
      ∃ sl m, tile (issued ⟨t, k, []⟩ n true f s) t = { tile (f (begun t k s)) t with slots := sl, retired := m } := by
  have hframe := begun_frame t k s
  have htime : (begun t k s).time = s.time := by rw [hframe]
  obtain ⟨hu, hj, hsent⟩ := hw.trans (seqOnly_finish t k _).worked
  have hpf : (finish t k [] (f (begun t k s))).job.progressAt = s.time := by
    have ht := hw.time.trans htime
    exact (finish_progressAt (hp.trans ht.symm)).trans ht
  have hseq := endRec_congr hq k
  have hstart : SentDown s (begun t k s) t := SentDown.of_eq (by rw [hframe]) (by rw [hframe])
  rw [Issued, issuedAlone_eq hc, issued_ok hc, tile_finish, tile_finish, tile_retire]
  obtain ⟨h1, -, -, h4, h5, h6, h7⟩ := hseq
  refine ⟨⟨?_, fun j hne => (hj j hne).trans (tile_begun_ne hne k s), hstart.trans hsent, ?_, h1, h5, h6, h7⟩, endRec_eq k _⟩
  · generalize finish t k [] (f (begun t k s)) = u at *
    generalize begun t k s = b at *
    have hall : u = { s with
        tiles := u.tiles, draws := u.draws, remote.ctrs := (takeArrivals t s).remote.ctrs, job.progressAt := u.job.progressAt,
        stacking.links := u.stacking.links, out := u.out } := by rw [hu, hframe]
    rwa [hpf] at hall
  · obtain ⟨sl, m, he⟩ := endRec_eq k (serve n k (tile (begun t k s) t))
    rw [h4, he, tile_begun]
    rfl

end Sys2Proof.Machine
end

section
/-! The compute units of a tile: what the array, the stationary loader, the thin path and the leaf reducer do with an instruction that they accept, and the
leaves that they form (R41, R47, R48, R60, R66, R113, R114). -/
namespace Sys2Proof.Machine
open Sys2Proof

/-! ### The work of each unit -/

/-- What the array does with ARRAY_STREAM. -/
def arrayWork (t k : Nat) (acc : AccSpec) (rows : List Run) (newSet parityOk : Bool) (s : State) : State :=
  let s := runsDown t 0 rows s
  if newSet && !(tile s t).loaded then updTile t (fun r => { turn 0 k r with stalled := some ⟨k, acc, rows⟩ }) s
  else runStream t ⟨k, acc, rows⟩ newSet parityOk s

/-- The inactive set takes columns (R41, R47). -/
def loadSet (cols : List Run) (r : TileRec) : TileRec :=
  let r := { r with loading := true, loaded := false }
  if r.activeB then { r with setA := cols } else { r with setB := cols }

/-- What the loader does with STATIONARY_LOAD. -/
def loadWork (t k : Nat) (cols : List Run) (s : State) : State := updTile t (loadSet cols) (retire 3 t k (runsDown t 1 cols s))

/-- What the thin path does with THIN_PATH_PASS, `vs` being the vectors of the pass. -/
def thinWork (t k : Nat) (acc : AccSpec) (vecs : Option (List (List Run))) (vs : List (List Run)) (weights : List RunRef) (parityOk : Bool)
    (ecc : List (Nat × Ecc)) (s : State) : State :=
  let s := retire 1 t k s
  if vecs.isNone || parityOk then
    let s := readsFind t 0 (weights.flatMap refRanges) ecc s
    let s := runsDown t 2 (weights.map fun f => (readRun s t f).1) (runsDown t 3 ((vecs.getD []).flatten) s)
    formed t 1 (thinLeaves acc vs (weights.map (readRun s t)))
      (updTile t (fun r => { r with vectors := vs, thinPass := passNext r.thinPass acc.leaf acc.first vecs.isSome }) s)
  else crownUncorrectable t s

/-- What the leaf reducer does with LEAF_REDUCE. -/
def reduceWork (t k : Nat) (kind : ReduceKind) (acc : AccSpec) (inputs : ReduceIn) (s : State) : State :=
  formed t 2 [{ mkChild acc 0 acc.leaf 0 0 ((reducerLeaf kind inputs).getD 0) false with kind }] (retire 2 t k (crossVertical t 0 3 (reduceBytes inputs) s))

section
variable (t : Tile) (k : SlotId) (fetch : List Ecc) (s : State)

theorem exec_arrayStream (acc : AccSpec) (rows : List Run) (newSet p : Bool) : exec (.arrayStream ⟨t, k, fetch⟩ acc rows newSet p) s =
    .next (issued ⟨t, k, fetch⟩ 0 ((tile s t).stalled.isNone && accFits acc 1 && rows.all fun r => arrayFormat r.fmt)
      (arrayWork t k acc rows newSet p) s) := rfl
theorem exec_stationaryLoad (cols : List Run) : exec (.stationaryLoad ⟨t, k, fetch⟩ cols) s =
    .next (issued ⟨t, k, fetch⟩ 3 (!(tile s t).loading && decide (cols.length ≤ 256) && cols.all fun c => arrayFormat c.fmt) (loadWork t k cols) s) := rfl
theorem exec_thinPathPass (acc : AccSpec) (vecs : Option (List (List Run))) (weights : List RunRef) (p : Bool) (ecc : List (Nat × Ecc)) :
    let vs := vecs.getD (tile s t).vectors
    exec (.thinPathPass ⟨t, k, fetch⟩ acc vecs weights p ecc) s = .next (issued ⟨t, k, fetch⟩ 1
      (decide (1 ≤ vs.length) && decide (vs.length ≤ 8) && decide (weights.length ≤ 4) && weights.all refFits &&
        accFits acc weights.length && (vs.all fun v => decide (v.length ≤ 4) && v.all fun r => arrayFormat r.fmt) &&
        chunkInOrder (tile s t) acc.leaf acc.first vecs.isSome) (thinWork t k acc vecs vs weights p ecc) s) := rfl
theorem exec_leafReduce (kind : ReduceKind) (acc : AccSpec) (inputs : ReduceIn) : exec (.leafReduce ⟨t, k, fetch⟩ kind acc inputs) s =
    .next (issued ⟨t, k, fetch⟩ 2 (accFits acc 1 && (reducerLeaf kind inputs).isSome) (reduceWork t k kind acc inputs) s) := rfl
end

/-! ### The leaves formed -/

theorem length_arrayLeaves (a : AccSpec) (set rows : List Run) : (arrayLeaves a set rows).length = rows.length * min a.count set.length := by
  simp [arrayLeaves, List.length_flatMap]

/-- Each leaf of the array is that of one streamed row and one stationary column (R51, R113). -/
theorem mem_arrayLeaves {a : AccSpec} {set rows : List Run} {c : Child} (h : c ∈ arrayLeaves a set rows) :
    (∃ row ∈ rows, ∃ col ∈ set, c.value = leafProducts (decodeRun row) (decodeRun col)) ∧ c.leaf = a.leaf ∧ c.first = a.first ∧
      c.n = a.n ∧ c.emit = a.emit ∧ c.lvl = 0 ∧ c.poisoned = false := by
  simp only [arrayLeaves, List.mem_flatMap, List.mem_map, Prod.exists] at h
  obtain ⟨row, m, hrow, col, i, hcol, rfl⟩ := h
  have hr := List.mem_of_mem_take (List.fst_mem_of_mem_zipIdx hcol)
  exact ⟨⟨row, List.fst_mem_of_mem_zipIdx hrow, col, hr, rfl⟩, rfl, rfl, rfl, rfl, rfl, rfl⟩

theorem length_thinLeaves (a : AccSpec) (vecs : List (List Run)) (ws : List (Run × Bool)) :
    (thinLeaves a vecs ws).length = (vecs.map fun v => min v.length ws.length).sum := by
  simp only [thinLeaves, List.length_flatMap, List.length_map, List.length_zipIdx, List.length_zip]
  conv_rhs => rw [← List.zipIdx_map_fst 0 vecs, List.map_map]
  rfl

/-- Each leaf of the thin path is that of one chunk of a vector and one of the weights, with the poison of the weight (R60, R113). -/
theorem mem_thinLeaves {a : AccSpec} {vecs : List (List Run)} {ws : List (Run × Bool)} {c : Child} (h : c ∈ thinLeaves a vecs ws) :
    ∃ v ∈ vecs, ∃ x ∈ v, ∃ w ∈ ws, c.value = leafProducts (decodeRun x) (decodeRun w.1) ∧ c.poisoned = w.2 := by
  simp only [thinLeaves, List.mem_flatMap, List.mem_map, Prod.exists] at h
  obtain ⟨v, i, hv, x, w, b, j, hp, rfl⟩ := h
  have hz := List.fst_mem_of_mem_zipIdx hp
  exact ⟨v, List.fst_mem_of_mem_zipIdx hv, x, (List.of_mem_zip hz).1, (w, b), (List.of_mem_zip hz).2, rfl, rfl⟩

theorem readRun_congr {s u : State} (h : u.mem = s.mem) (t : Nat) (f : RunRef) : readRun u t f = readRun s t f := by rw [readRun, readRun, h]

theorem reducerLeaf_values {v : Word} {xs : List Word} (h : reducerLeaf .sum (.values xs) = some v) : v = leafOf (xs.map dec32) := by
  simp only [reducerLeaf] at h
  split at h
  · exact (Option.some.inj h).symm
  · exact nomatch h

theorem reducerLeaf_products {kind : ReduceKind} {v : Word} {a b : Run} (h : reducerLeaf kind (.products a b) = some v) :
    v = leafProducts (decodeRun a) (decodeRun b) := by
  simp only [reducerLeaf] at h
  split at h
  · exact (Option.some.inj h).symm
  · exact nomatch h

/-! ### What the work leaves -/

/-- The tile when a stream has changed sets, or not, and its leaves are formed. -/
def streamRec (st : Stream) (sw : Bool) (r : TileRec) : TileRec :=
  let r := serve 0 st.slot { r with stalled := none }
  if sw then switchSet r else r

theorem runStream_ok (t : Nat) (st : Stream) (sw : Bool) (s : State) :
    Worked s (runStream t st sw true s) t ∧ (runStream t st sw true s).job.progressAt = s.time ∧
      ∃ xs n, tile (runStream t st sw true s) t =
        let r := streamRec st sw (tile s t)
        { r with children := tset r.children 0 (tget r.children 0 [] ++ arrayLeaves st.acc (activeSet r) st.rows) [], samples := xs, arrayBusy := n } := by
  have hsw : (sw && !true) = false := by simp
  have hr := worked_retire 0 t st.slot (updTile t (fun r => { r with stalled := none }) s)
  simp only [runStream, hsw, Bool.false_eq_true, if_false]
  generalize hu : (if sw = true then updTile t switchSet (retire 0 t st.slot (updTile t (fun r => { r with stalled := none }) s))
    else retire 0 t st.slot (updTile t (fun r => { r with stalled := none }) s)) = u
  have htile : tile u t = streamRec st sw (tile s t) := by
    rw [← hu, streamRec]
    cases sw <;> simp
  have hworked : Worked s u t := by
    rw [← hu]
    refine (worked_updTile t _ s).trans (hr.trans ?_)
    cases sw
    · exact (SeqOnly.refl _ t).worked
    · exact worked_updTile ..
  have hjob : u.job.progressAt = s.time := by
    rw [← hu]
    cases sw <;> rfl
  obtain ⟨xs, hx⟩ := tile_formed t 0 (arrayLeaves st.acc (activeSet (tile u t)) st.rows)
    (updTile t (fun r => { r with arrayBusy := r.arrayBusy + streamCycles (activeSet (tile u t)) st.rows }) u)
  refine ⟨hworked.trans ((worked_updTile t _ u).trans (worked_formed ..)), ?_, xs,
    (streamRec st sw (tile s t)).arrayBusy + streamCycles (activeSet (streamRec st sw (tile s t))) st.rows, ?_⟩
  · rw [formed_progressAt]
    exact hjob
  · rw [hx, waiting, tile_updTile_self, htile]

end Sys2Proof.Machine
end

section
/-! The instructions of the compute units, from the issue to the leaves that wait at the node store. -/
namespace Sys2Proof.Machine
open Sys2Proof

/-- An issue that does nothing but retire. -/
theorem issuedAlone_leaves {s : State} {t : Tile} {k : SlotId} {n : Nat} (h : canIssue s t k n = true) :
    let v := issuedAlone t n k s
    let at' := settled (tile s t) k
    v = { s with tiles := v.tiles, remote.ctrs := (takeArrivals t s).remote.ctrs, job.progressAt := s.time } ∧
    (∀ j : Nat, j ≠ t → tile v j = tile s j) ∧ (tile v t).awaits = [] ∧ tget (tile v t).lastUnit n 7 = k ∧
    (tile v t).gated = (tile s t).gated &&& ~~~ unitBit n ∧ SameCrown s v t ∧ (∀ j : Nat, j ≠ k → slot (tile v t) j = slot (tile s t) j) ∧
    (slot (tile v t) k = { at' with pc := at'.pc + 1, released := false } ∨ (slot (tile v t) k).st = .idle) := by
  intro v at'
  have hv : v = finish t k [] (retire n t k (begun t k s)) := issuedAlone_eq h
  have hframe := begun_frame t k s
  have hseq := (seqOnly_retire n t k (begun t k s)).trans (seqOnly_finish t k _)
  have hprog : v.job.progressAt = s.time := by
    rw [hv]
    exact (finish_progressAt (retire_progressAt n t k _)).trans (begun_time t k s)
  have htile : tile v t = endRec k (serve n k { ranRec k (tile s t) with awaits := [] }) := by rw [hv, tile_finish, tile_retire, tile_begun]
  have hslot : ∀ j, slot (serve n k { ranRec k (tile s t) with awaits := [] }) j =
      if j = k then { at' with pc := at'.pc + 1, released := false } else slot (tile s t) j := by
    intro j
    have hat : slot { ranRec k (tile s t) with awaits := [] } k = at' := tile_begun t k s ▸ slot_begun h
    refine (slot_tset _ k j _).trans ?_
    split
    · simp only [← hat]
      rfl
    · next hj => exact (slot_ranRec k j (tile s t)).trans (if_neg hj)
  rw [← hv] at hseq
  refine ⟨?_, fun j hj => (hseq.2 j hj).trans (tile_begun_ne hj k s), ?_⟩
  · have hall : v = { s with tiles := v.tiles, remote.ctrs := (takeArrivals t s).remote.ctrs, job.progressAt := v.job.progressAt } := by
      generalize begun t k s = b at *
      rw [hseq.1, hframe]
    rwa [hprog] at hall
  obtain ⟨sl, m, he⟩ := endRec_eq k (serve n k { ranRec k (tile s t) with awaits := [] })
  refine ⟨by rw [htile, he]; rfl, ?_, by rw [htile, he]; rfl, ?_, fun j hj => ?_, ?_⟩
  · rw [htile, he]
    exact tget_tput_self ..
  · unfold SameCrown
    rw [htile, he]
    generalize tile s t = r
    exact ⟨rfl, rfl, rfl, rfl, rfl, rfl, rfl⟩
  · rw [htile, slot_endRec_ne hj, hslot, if_neg hj]
  · rw [htile]
    have hself := (hslot k).trans (if_pos rfl)
    have hrel : (slot (serve n k { ranRec k (tile s t) with awaits := [] }) k).released = false := by rw [hself]
    exact (slot_endRec_self hrel).imp_left fun he => he.trans hself

/-! ### ARRAY_STREAM -/

section
variable {s : State} {t : Tile} {k : SlotId} {acc : AccSpec} {rows : List Run}

/-- The array accepts the stream: none waits, and the node store can hold its outputs. -/
theorem arrayStream_accepted (newSet p : Bool) (hst : (tile s t).stalled = none) (hfit : accFits acc 1 = true)
    (hrows : (rows.all fun r => arrayFormat r.fmt) = true) :
    exec (.arrayStream ⟨t, k, []⟩ acc rows newSet p) s = .next (issued ⟨t, k, []⟩ 0 true (arrayWork t k acc rows newSet p) s) := by
  rw [exec_arrayStream, hst, hfit, hrows]
  rfl

/-- A slot that stands at an instruction for a unit does not run to its end. -/
theorem endRec_at_unit {r : TileRec} {i : TInstr} (hn : (slot r k).released = false) (hp : (program r k)[(slot r k).pc]? = some i) (hi : i.unit ≠ 7) :
    endRec k r = r := by
  unfold endRec
  split
  · next h =>
    rw [settled_of_running h.1 hn, ownSteps_at_unit hp hi, h.1] at h
    exact nomatch h.2
  · rfl

/-- Once its own instructions have run the slot stands at the instruction for the unit (R71). -/
theorem begun_at_unit {n : Nat} (hc : canIssue s t k n = true) :
    (slot (tile (begun t k s) t) k).st = .running ∧ (slot (tile (begun t k s) t) k).released = false ∧
      ∃ i : TInstr, (program (tile (begun t k s) t) k)[(slot (tile (begun t k s) t) k).pc]? = some i ∧ i.unit = n := by
  obtain ⟨hr, hn, hst, hunit⟩ := canIssue_slot hc
  rw [slot_begun hc]
  refine ⟨hst, ?_, ?_⟩
  · rw [settled_of_running hr hn, (ownSteps_ok _ _).2.2.2.2, hn]
  · obtain ⟨i, hi, hu⟩ := Option.map_eq_some_iff.mp hunit
    refine ⟨i, ?_, hu⟩
    rw [tile_begun]
    exact hi

/-- A stream that changes sets before the load is complete stalls (R48). -/
theorem arrayStream_stalls (hc : canIssue s t k 0 = true) (hst : (tile s t).stalled = none) (hfit : accFits acc 1 = true)
    (hrows : (rows.all fun r => arrayFormat r.fmt) = true) (hl : (tile s t).loaded = false) :
    ∃ u, exec (.arrayStream ⟨t, k, []⟩ acc rows true true) s = .next u ∧
      u = { s with
        tiles := u.tiles, remote.ctrs := (takeArrivals t s).remote.ctrs, job.progressAt := u.job.progressAt,
        stacking.links := u.stacking.links, out := u.out } ∧ SentDown s u t ∧ (∀ j : Nat, j ≠ t → tile u j = tile s j) ∧
      (tile u t).stalled = some ⟨k, acc, rows⟩ ∧ SameCrown s u t ∧ (tile u t).awaits = [] ∧
      (slot (tile u t) k).pc = (settled (tile s t) k).pc ∧ (slot (tile u t) k).st = .running := by
  obtain ⟨hrun, hrel, i, hp, hi⟩ := begun_at_unit hc
  refine ⟨_, arrayStream_accepted true true hst hfit hrows, ?_⟩
  have hwork : arrayWork t k acc rows true true (begun t k s) =
      updTile t (fun r => { turn 0 k r with stalled := some ⟨k, acc, rows⟩ }) (runsDown t 0 rows (begun t k s)) := by
    have hloaded : (tile (begun t k s) t).loaded = false := by rw [tile_begun]; exact hl
    simp only [arrayWork, tile_runsDown, hloaded, Bool.not_false, Bool.and_self, if_true]
  have hdown := linkOnly_runsDown t 0 rows (begun t k s)
  have hseq := (seqOnly_updTile t (fun r => { turn 0 k r with stalled := some ⟨k, acc, rows⟩ }) (runsDown t 0 rows (begun t k s))).trans
    (seqOnly_finish t k _)
  have htile : tile (finish t k [] (updTile t (fun r => { turn 0 k r with stalled := some ⟨k, acc, rows⟩ }) (runsDown t 0 rows (begun t k s)))) t =
      { turn 0 k (tile (begun t k s) t) with stalled := some ⟨k, acc, rows⟩ } := by
    rw [tile_finish, tile_updTile_self, tile_runsDown]
    exact endRec_at_unit (i := i) hrel hp (by omega)
  rw [issued_ok hc, hwork]
  have hframe := begun_frame t k s
  have hothers : ∀ j : Nat, j ≠ t → tile (begun t k s) j = tile s j := fun j hj => tile_begun_ne hj k s
  have hslot := slot_begun hc
  have hcrown : SameCrown s (begun t k s) t := by
    unfold SameCrown
    rw [tile_begun]
    exact ⟨rfl, rfl, rfl, rfl, rfl, rfl, rfl⟩
  have hawaits : (tile (begun t k s) t).awaits = [] := by rw [tile_begun]
  generalize finish t k [] _ = u at *
  generalize begun t k s = b at *
  generalize runsDown t 0 rows b = d at *
  refine ⟨by rw [hseq.1, hdown.1, hframe], ?_, fun j hj => (hseq.2 j hj).trans ((hdown.tile j).trans (hothers j hj)), by rw [htile], ?_, by rw [htile]; exact hawaits, ?_, ?_⟩
  · refine (SentDown.of_eq ?_ ?_).trans (hdown.2.trans (SentDown.of_eq ?_ ?_))
    · rw [hframe]
    · rw [hframe]
    · rw [hseq.1]
    · rw [hseq.1]
  · unfold SameCrown at *
    rw [htile]
    exact hcrown
  · rw [htile, ← hslot]
    rfl
  · rw [htile]
    exact hrun

/-- A stream whose set is there sends one leaf of each row and used column (R51, R52). -/
theorem arrayStream_streams {newSet : Bool} (hc : canIssue s t k 0 = true) (hst : (tile s t).stalled = none) (hfit : accFits acc 1 = true)
    (hrows : (rows.all fun r => arrayFormat r.fmt) = true) (hl : newSet = true → (tile s t).loaded = true) :
    ∃ u, exec (.arrayStream ⟨t, k, []⟩ acc rows newSet true) s = .next u ∧ Issued s u t 0 k ∧
      ∃ sl m lu g xs n, tile u t =
        { tile s t with
          slots := sl, retired := m, lastUnit := lu, gated := g, awaits := [], samples := xs, arrayBusy := n, stalled := none
          activeB := ((tile s t).activeB != newSet), loaded := if newSet then (tile s t).activeLoaded else (tile s t).loaded
          activeLoaded := newSet || (tile s t).activeLoaded
          children := tset (tile s t).children 0
            (waiting s t 0 ++ arrayLeaves acc (activeSet (if newSet then switchSet (tile s t) else tile s t)) rows) [] } := by
  have hwork : arrayWork t k acc rows newSet true (begun t k s) = runStream t ⟨k, acc, rows⟩ newSet true (runsDown t 0 rows (begun t k s)) := by
    unfold arrayWork
    refine if_neg ?_
    cases newSet with
    | false => simp
    | true => simp [ranRec, hl rfl]
  obtain ⟨hw, hp, xs, n, htile⟩ := runStream_ok t ⟨k, acc, rows⟩ newSet (runsDown t 0 rows (begun t k s))
  rw [tile_runsDown] at htile
  have htime : (runsDown t 0 rows (begun t k s)).time = s.time := by
    rw [(linkOnly_runsDown t 0 rows (begun t k s)).worked.time, begun_time]
  obtain ⟨hissued, sl, m, hu⟩ := issued_of_worked (f := arrayWork t k acc rows newSet true) hc
    (by rw [hwork]; exact (linkOnly_runsDown ..).worked.trans hw) (by rw [hwork, hp, htime])
    (by rw [hwork, htile]; generalize tile (begun t k s) t = r; cases newSet <;> exact ⟨rfl, rfl, rfl, rfl, rfl, rfl, rfl⟩)
  obtain ⟨_, _, lu, g, hserve⟩ := serve_begun 0 t k s
  have hstream : streamRec ⟨k, acc, rows⟩ newSet (tile (begun t k s) t) =
      let r := { serve 0 k (tile (begun t k s) t) with stalled := none }
      if newSet then switchSet r else r := rfl
  refine ⟨_, arrayStream_accepted newSet true hst hfit hrows, hissued, sl, m, lu, g, xs, n, ?_⟩
  rw [hu, hwork, htile, hstream, hserve, waiting]
  generalize tile s t = r at hl ⊢
  cases newSet with
  | false =>
    simp only [Bool.bne_false]
    rfl
  | true =>
    simp only [Bool.bne_true, if_true, Bool.true_or, switchSet, hl rfl, activeSet]

end

/-! ### STATIONARY_LOAD and its completion -/

theorem stationaryLoad_writes {s : State} {t : Tile} {k : SlotId} {cols : List Run} (hc : canIssue s t k 3 = true) (hl : (tile s t).loading = false)
    (hn : cols.length ≤ 256) (hf : (cols.all fun c => arrayFormat c.fmt) = true) :
    ∃ u, exec (.stationaryLoad ⟨t, k, []⟩ cols) s = .next u ∧ Issued s u t 3 k ∧
      ∃ sl m lu g, tile u t = { loadSet cols (tile s t) with slots := sl, retired := m, lastUnit := lu, gated := g, awaits := [] } := by
  have hex : exec (.stationaryLoad ⟨t, k, []⟩ cols) s = .next (issued ⟨t, k, []⟩ 3 true (loadWork t k cols) s) := by
    rw [exec_stationaryLoad, hl, hf, decide_eq_true hn]
    rfl
  have hw : Worked (begun t k s) (loadWork t k cols (begun t k s)) t :=
    (linkOnly_runsDown t 1 cols _).worked.trans ((worked_retire 3 t k _).trans (worked_updTile ..))
  have htile : tile (loadWork t k cols (begun t k s)) t = loadSet cols (serve 3 k (tile (begun t k s) t)) := by simp [loadWork]
  have hp : (loadWork t k cols (begun t k s)).job.progressAt = s.time := by
    change (runsDown t 1 cols (begun t k s)).time = s.time
    rw [(linkOnly_runsDown t 1 cols (begun t k s)).worked.time, begun_time]
  have hq : SameSeq (serve 3 k (tile (begun t k s) t)) (loadSet cols (serve 3 k (tile (begun t k s) t))) := by
    unfold loadSet
    dsimp only
    split <;> exact ⟨rfl, rfl, rfl, rfl, rfl, rfl, rfl⟩
  obtain ⟨hissued, sl, m, hu⟩ := issued_of_worked (f := loadWork t k cols) hc hw hp (by rw [htile]; exact hq)
  obtain ⟨_, _, lu, g, hserve⟩ := serve_begun 3 t k s
  refine ⟨_, hex, hissued, sl, m, lu, g, ?_⟩
  rw [hu, htile, hserve]
  generalize tile s t = r
  unfold loadSet
  dsimp only
  split <;> rfl

/-- A completed load lets a stream run that waited for it (R48). -/
theorem stationaryLoadComplete_runs {s : State} {t : Tile} {st : Stream} (hl : (tile s t).loading = true) (hg : (tile s t).crownGated = false)
    (hst : (tile s t).stalled = some st) :
    ∃ u, exec (.stationaryLoadComplete t true) s = .next u ∧
      (tile u t).stalled = none ∧ (tile u t).loading = false ∧ (tile u t).loaded = (tile s t).activeLoaded ∧
      (tile u t).activeB = !(tile s t).activeB ∧
      waiting u t 0 = waiting s t 0 ++ arrayLeaves st.acc (activeSet (switchSet (tile s t))) st.rows := by
  have hex : exec (.stationaryLoadComplete t true) s =
      .next (runStream t st true true (updTile t (fun r => { r with loading := false, loaded := true }) s)) := by
    change Host.Outcome.next (if (tile s t).loading && !(tile s t).crownGated then _ else s) = _
    rw [hl, hg]
    simp [hst]
  obtain ⟨-, -, xs, n, htile⟩ := runStream_ok t st true (updTile t (fun r => { r with loading := false, loaded := true }) s)
  rw [tile_updTile_self] at htile
  refine ⟨_, hex, ?_⟩
  rw [waiting, waiting, htile]
  generalize tile s t = r
  exact ⟨rfl, rfl, rfl, rfl, tget_tset_self ..⟩

theorem stationaryLoadComplete_alone {s : State} {t : Tile} (hl : (tile s t).loading = true) (hg : (tile s t).crownGated = false)
    (hst : (tile s t).stalled = none) :
    exec (.stationaryLoadComplete t true) s = .next (updTile t (fun r => { r with loading := false, loaded := true }) s) := by
  change Host.Outcome.next (if (tile s t).loading && !(tile s t).crownGated then _ else s) = _
  rw [hl, hg]
  simp [hst]

/-! ### THIN_PATH_PASS and LEAF_REDUCE -/

/-- Reads that find nothing leave the state as it is. -/
theorem readsFind_none (t req : Nat) (ranges : List (Nat × Nat)) (s : State) : readsFind t req ranges [] s = s := rfl

theorem thinPathPass_forms {s : State} {t : Tile} {k : SlotId} {acc : AccSpec} {load : Option (List (List Run))} {weights : List RunRef}
    (hc : canIssue s t k 1 = true) (h1 : 1 ≤ (load.getD (tile s t).vectors).length) (h8 : (load.getD (tile s t).vectors).length ≤ 8)
    (h4 : weights.length ≤ 4) (href : weights.all refFits = true) (hfit : accFits acc weights.length = true)
    (hf : ((load.getD (tile s t).vectors).all fun v => decide (v.length ≤ 4) && v.all fun r => arrayFormat r.fmt) = true)
    (horder : chunkInOrder (tile s t) acc.leaf acc.first load.isSome = true) :
    ∃ u, exec (.thinPathPass ⟨t, k, []⟩ acc load weights true []) s = .next u ∧ Issued s u t 1 k ∧
      ∃ sl m lu g xs pass, tile u t =
        { tile s t with
          slots := sl, retired := m, lastUnit := lu, gated := g, awaits := [], samples := xs, thinPass := pass
          vectors := load.getD (tile s t).vectors
          children := tset (tile s t).children 1
            (waiting s t 1 ++ thinLeaves acc (load.getD (tile s t).vectors) (weights.map (readRun s t))) [] } := by
  have hex : exec (.thinPathPass ⟨t, k, []⟩ acc load weights true []) s =
      .next (issued ⟨t, k, []⟩ 1 true (thinWork t k acc load (load.getD (tile s t).vectors) weights true []) s) := by
    rw [exec_thinPathPass, href, hfit, hf, horder, decide_eq_true h1, decide_eq_true h8, decide_eq_true h4]
    rfl
  generalize load.getD (tile s t).vectors = vs at *
  have hstart : thinWork t k acc load vs weights true [] (begun t k s) =
      let d := runsDown t 2 (weights.map fun f => (readRun (retire 1 t k (begun t k s)) t f).1)
        (runsDown t 3 (load.getD []).flatten (retire 1 t k (begun t k s)))
      formed t 1 (thinLeaves acc vs (weights.map (readRun d t)))
        (updTile t (fun r => { r with vectors := vs, thinPass := passNext r.thinPass acc.leaf acc.first load.isSome }) d) := by
    simp only [thinWork, Bool.or_true, if_true, readsFind_none]
  have hdown : LinkOnly (retire 1 t k (begun t k s)) (runsDown t 2 (weights.map fun f => (readRun (retire 1 t k (begun t k s)) t f).1)
      (runsDown t 3 (load.getD []).flatten (retire 1 t k (begun t k s)))) t :=
    (linkOnly_runsDown t 3 _ _).trans (linkOnly_runsDown t 2 _ _)
  dsimp only at hstart
  generalize runsDown t 2 _ _ = d at hstart hdown
  have hread : weights.map (readRun d t) = weights.map (readRun s t) := by
    refine List.map_congr_left fun f _ => readRun_congr ?_ t f
    rw [hdown.mem]
    exact begun_mem t k s
  rw [hread] at hstart
  generalize hw : updTile t (fun r => { r with vectors := vs, thinPass := passNext r.thinPass acc.leaf acc.first load.isSome }) d = w at hstart
  have hworked : Worked (begun t k s) (thinWork t k acc load vs weights true [] (begun t k s)) t := by
    rw [hstart]
    exact (worked_retire 1 t k _).trans (hdown.worked.trans ((hw ▸ worked_updTile t _ d).trans (worked_formed ..)))
  obtain ⟨xs, hx⟩ := tile_formed t 1 (thinLeaves acc vs (weights.map (readRun s t))) w
  have hdt : tile d t = serve 1 k (tile (begun t k s) t) := by rw [hdown.tile, tile_retire]
  have htile : tile w t = { serve 1 k (tile (begun t k s) t) with
      vectors := vs, thinPass := passNext (serve 1 k (tile (begun t k s) t)).thinPass acc.leaf acc.first load.isSome } := by
    rw [← hw, tile_updTile_self, hdt]
  rw [waiting, htile] at hx
  have hp : (thinWork t k acc load vs weights true [] (begun t k s)).job.progressAt = s.time := by
    have hd : w.job = d.job := by rw [← hw]; rfl
    rw [hstart, formed_progressAt, hd, hdown.job]
    exact begun_time t k s
  obtain ⟨hissued, sl, m, hu⟩ := issued_of_worked (f := thinWork t k acc load vs weights true []) hc hworked hp
    (by rw [hstart, hx]; exact ⟨rfl, rfl, rfl, rfl, rfl, rfl, rfl⟩)
  obtain ⟨_, _, lu, g, hserve⟩ := serve_begun 1 t k s
  exact ⟨_, hex, hissued, sl, m, lu, g, xs, _, by rw [hu, hstart, hx, hserve, waiting]⟩

theorem leafReduce_forms {s : State} {t : Tile} {k : SlotId} {acc : AccSpec} {inputs : ReduceIn} {kind : ReduceKind} {v : Word}
    (hc : canIssue s t k 2 = true) (hfit : accFits acc 1 = true) (hv : reducerLeaf kind inputs = some v) :
    ∃ u, exec (.leafReduce ⟨t, k, []⟩ kind acc inputs) s = .next u ∧ Issued s u t 2 k ∧
      ∃ sl m lu g xs, tile u t =
        { tile s t with
          slots := sl, retired := m, lastUnit := lu, gated := g, awaits := [], samples := xs
          children := tset (tile s t).children 2 (waiting s t 2 ++ [{ mkChild acc 0 acc.leaf 0 0 v false with kind }]) [] } := by
  have hex : exec (.leafReduce ⟨t, k, []⟩ kind acc inputs) s = .next (issued ⟨t, k, []⟩ 2 true (reduceWork t k kind acc inputs) s) := by
    rw [exec_leafReduce, hfit, hv]
    rfl
  have hwork : reduceWork t k kind acc inputs (begun t k s) = formed t 2 [{ mkChild acc 0 acc.leaf 0 0 v false with kind }]
      (retire 2 t k (crossVertical t 0 3 (reduceBytes inputs) (begun t k s))) := by
    rw [reduceWork, hv]
    rfl
  have hdown := linkOnly_crossVertical t 0 3 (reduceBytes inputs) (begun t k s)
  have hworked : Worked (begun t k s) (reduceWork t k kind acc inputs (begun t k s)) t := by
    rw [hwork]
    exact hdown.worked.trans ((worked_retire 2 t k _).trans (worked_formed ..))
  obtain ⟨xs, hx⟩ := tile_formed t 2 [{ mkChild acc 0 acc.leaf 0 0 v false with kind }]
    (retire 2 t k (crossVertical t 0 3 (reduceBytes inputs) (begun t k s)))
  rw [waiting, tile_retire, tile_crossVertical] at hx
  have hp : (reduceWork t k kind acc inputs (begun t k s)).job.progressAt = s.time := by
    rw [hwork, formed_progressAt]
    change (crossVertical t 0 3 (reduceBytes inputs) (begun t k s)).time = s.time
    rw [hdown.worked.time, begun_time]
  obtain ⟨hissued, sl, m, hu⟩ := issued_of_worked (f := reduceWork t k kind acc inputs) hc hworked hp
    (by rw [hwork, hx]; exact ⟨rfl, rfl, rfl, rfl, rfl, rfl, rfl⟩)
  obtain ⟨_, _, lu, g, hserve⟩ := serve_begun 2 t k s
  exact ⟨_, hex, hissued, sl, m, lu, g, xs, by rw [hu, hwork, hx, hserve, waiting]⟩

end Sys2Proof.Machine
end

section
open Sys2Proof Sys2Proof.Machine

/-- Settles O14, clause by clause: each instruction by what its unit's work makes of the tile's record. -/
theorem leavesOfArrayThinPathAndReducer : Obligations.LeavesOfArrayThinPathAndReducer := by
  unfold Obligations.LeavesOfArrayThinPathAndReducer
  intro s t k acc
  refine ⟨fun n hc => issuedAlone_leaves hc, fun rows newSet hc hst hfit hrows => ⟨fun hnew hl => ?_, fun hl => ?_⟩, fun load weights hc h1 h8 h4 href hfit hf horder => ?_,
    fun inputs kind v hc hfit hv => ⟨?_, ?_, ?_⟩, fun cols hc hl hn hf => ?_, fun hl hg hst => ?_, fun st hl hg hst => stationaryLoadComplete_runs hl hg hst⟩
  · subst hnew
    exact arrayStream_stalls hc hst hfit hrows hl
  · obtain ⟨u, hex, hissued, sl, m, lu, g, xs, n, hu⟩ := arrayStream_streams hc hst hfit hrows hl
    have hw := waiting_tset (u := u) (t := t) (m := (tile s t).children) (congrArg TileRec.children hu)
    refine ⟨u, hex, hissued, _, (hw 0).trans (if_pos rfl), length_arrayLeaves .., fun c hc => mem_arrayLeaves hc, fun j hj => (hw j).trans (if_neg hj), ?_⟩
    rw [hu]
    exact ⟨rfl, rfl, rfl, rfl, rfl, rfl, rfl, rfl, rfl⟩
  · obtain ⟨u, hex, hissued, sl, m, lu, g, xs, pass, hu⟩ := thinPathPass_forms hc h1 h8 h4 href hfit hf horder
    have hw := waiting_tset (u := u) (t := t) (m := (tile s t).children) (congrArg TileRec.children hu)
    refine ⟨u, hex, hissued, _, (hw 1).trans (if_pos rfl), by rw [length_thinLeaves, List.length_map], fun c hc => ?_, ?_⟩
    · obtain ⟨v, hv, x, hx, w, hw, hval, hp⟩ := mem_thinLeaves hc
      obtain ⟨f, hf, rfl⟩ := List.mem_map.mp hw
      exact ⟨v, hv, x, hx, f, hf, hval, hp⟩
    · rw [hu]
      exact ⟨rfl, rfl, rfl, rfl⟩
  · rintro xs rfl rfl
    exact reducerLeaf_values hv
  · rintro a b rfl
    exact reducerLeaf_products hv
  · obtain ⟨u, hex, hissued, sl, m, lu, g, xs, hu⟩ := leafReduce_forms hc hfit hv
    refine ⟨u, hex, hissued, _, (waiting_tset (m := (tile s t).children) (congrArg TileRec.children hu) 2).trans (if_pos rfl), rfl, rfl, rfl, rfl, rfl, ?_⟩
    rw [hu]
    exact ⟨rfl, rfl⟩
  · obtain ⟨u, hex, hissued, sl, m, lu, g, hu⟩ := stationaryLoad_writes hc hl hn hf
    refine ⟨u, hex, hissued, ?_⟩
    rw [hu]
    generalize tile s t = r
    unfold loadSet
    cases r.activeB <;> exact ⟨rfl, rfl, rfl, rfl, rfl, rfl⟩
  · exact ⟨_, stationaryLoadComplete_alone hl hg hst, onlyTile_updTile .., tile_updTile_self ..⟩

end

section
/-! What a fault of crown storage leaves: records, the notice and halted slots; crown contents stay (R82 to R84, R646 to R649). -/
namespace Sys2Proof.Machine
open Sys2Proof

/-- A table whose entries all change, its default staying, reads as changed. -/
theorem tget_tmap {α : Type} {f : Nat → α → α} {d : α} (hd : ∀ k, f k d = d) (m : Table α) (k : Nat) : tget (tmap m f) k d = f k (tget m k d) := by
  induction m with
  | nil => exact (hd k).symm
  | cons e m ih =>
    obtain ⟨j, v⟩ := e
    have hcons : tmap ((j, v) :: m) f = (j, f j v) :: tmap m f := rfl
    rw [hcons, tget, tget]
    split
    · next h => rw [h]
    · exact ih

/-- A slot of a job that stops (R649). -/
def stopSlot (v : Slot) : Slot := if v.st == .running || v.st == .waiting then { v with st := .halted } else v

theorem tile_haltJob (s : State) (j : Nat) : tile (haltJob s) j = { tile s j with slots := tmap (tile s j).slots fun _ v => stopSlot v } :=
  tget_tmap (f := fun (_ : Nat) (r : TileRec) => { r with slots := tmap r.slots fun _ v => stopSlot v }) (d := {}) (fun _ => rfl) s.tiles j

theorem slot_tmap_stopSlot (r : TileRec) (k : Nat) : slot { r with slots := tmap r.slots fun _ v => stopSlot v } k = stopSlot (slot r k) :=
  tget_tmap (f := fun (_ : Nat) (v : Slot) => stopSlot v) (d := {}) (fun _ => rfl) r.slots k

theorem stopSlot_halted {v : Slot} (h : v.st = .halted) : stopSlot v = v := by simp [stopSlot, h]

theorem OnlyFaults.trans {s u v : State} (h : OnlyFaults s u) (g : OnlyFaults u v) : OnlyFaults s v := by
  obtain ⟨hu, hmade, hkeys⟩ := h
  obtain ⟨hv, gmade, gkeys⟩ := g
  exact ⟨by rw [hv, hu], gmade.trans hmade, gkeys.trans hkeys⟩

/-- What stops of a tile: slots that run or wait; halted ones stay, and so does the rest of the record. -/
def SlotsStopped (r u : TileRec) : Prop :=
  (∃ sl, u = { r with slots := sl }) ∧ ∀ k, (slot r k).st = .halted → (slot u k).st = .halted

theorem SlotsStopped.refl (r : TileRec) : SlotsStopped r r := ⟨⟨_, rfl⟩, fun _ h => h⟩

theorem slotsStopped_haltJob (s : State) (j : Nat) : SlotsStopped (tile s j) (tile (haltJob s) j) := by
  rw [tile_haltJob]
  refine ⟨⟨_, rfl⟩, fun k h => ?_⟩
  rw [slot_tmap_stopSlot, stopSlot_halted h, h]

/-- A failure of kind F5 is declared: nothing but the notice, and slots and copies that halt. -/
theorem stopF5_leaves (code : Nat) (s : State) :
    OnlyFaults s (stopF5 code s) ∧ (stopF5 code s).faults = s.faults ∧ ∀ j, SlotsStopped (tile s j) (tile (stopF5 code s) j) := by
  unfold stopF5 declareFault
  split
  · exact ⟨⟨rfl, rfl, rfl⟩, rfl, slotsStopped_haltJob s⟩
  · exact ⟨⟨rfl, rfl, rfl⟩, rfl, fun j => SlotsStopped.refl _⟩

/-- An uncorrectable error in crown storage (R83). -/
theorem crownUncorrectable_leaves (t : Nat) (s : State) :
    OnlyFaults s (crownUncorrectable t s) ∧ (∀ j, SlotsStopped (tile s j) (tile (crownUncorrectable t s) j)) ∧
      ∃ f ∈ (crownUncorrectable t s).faults, f.code.toNat = errSramUncorr ∧ f.obj = BitVec.ofNat 32 t := by
  unfold crownUncorrectable
  dsimp only
  generalize hu : raise errSramUncorr uTile t t none32 (detail [(none32, 4), (none32, 4), (0, 2), (0xFF, 1)])
    (updSummary (crownDie t) (fun d => { d with uncorrected := satInc (2 ^ 64 - 1) d.uncorrected }) s) = u
  have hraise : OnlyFaults s u := by rw [← hu]; exact ⟨rfl, rfl, rfl⟩
  have htiles : u.tiles = s.tiles := by rw [← hu]; rfl
  have hfault : ∃ f ∈ u.faults, f.code.toNat = errSramUncorr ∧ f.obj = BitVec.ofNat 32 t := by
    rw [← hu, raise_faults]
    exact ⟨_, List.mem_cons_self, rfl, rfl⟩
  obtain ⟨hstop, hsame, hslots⟩ := stopF5_leaves errSramUncorr (ledgerEvent (crownDie t) 1 (tget u.heat.crowns t {}).band 0 (newest u) u)
  refine ⟨(hraise.trans (v := ledgerEvent (crownDie t) 1 (tget u.heat.crowns t {}).band 0 (newest u) u) ⟨rfl, rfl, rfl⟩).trans hstop, fun j => ?_, by rw [hsame]; exact hfault⟩
  have hj : tile (ledgerEvent (crownDie t) 1 (tget u.heat.crowns t {}).band 0 (newest u) u) j = tile s j := by rw [tile, ledgerEvent_tiles, htiles, tile]
  rw [← hj]
  exact hslots j

end Sys2Proof.Machine
end

section
/-! The node store's door and drain, and the combine unit (R53 to R57, R67, R80). -/
namespace Sys2Proof.Machine
open Sys2Proof

/-! ### LEAF_ARRIVE -/

section
variable {s : State} {t : Tile} {src : LeafSource} {c : Child} {rest : List Child}

theorem canTake_iff {r : TileRec} : canTake r c = true ↔ c.leaf = c.first + (tget r.outs c.x {}).next ∧ entryHeld r c = false ∧
    (thas r.outs c.x = true ∨ openEntries r + topOf c.n ≤ 262144) := by
  simp [canTake, and_assoc]

theorem exec_leafArrive_none (h : waiting s t (sourceKey src) = []) (e : Ecc) : exec (.leafArrive t src e) s = .next s := by
  rw [waiting] at h
  change execLeafArrive t src e s = _
  simp only [execLeafArrive, h]

theorem exec_leafArrive_stalls (h : waiting s t (sourceKey src) = c :: rest) (hno : crownWorks s t = false ∨ canTake (tile s t) c = false) (e : Ecc) :
    exec (.leafArrive t src e) s = .next s := by
  have hcond : (crownWorks s t && canTake (tile s t) c) = false := Bool.and_eq_false_iff.mpr hno
  rw [waiting] at h
  change execLeafArrive t src e s = _
  simp only [execLeafArrive, h, hcond, Bool.false_eq_true, if_false]

/-- The child leaves its source's queue. -/
def unqueued (s : State) (t : Tile) (src : LeafSource) (rest : List Child) : TileRec :=
  { tile s t with children := tset (tile s t).children (sourceKey src) rest [] }

theorem exec_leafArrive (h : waiting s t (sourceKey src) = c :: rest) (hw : crownWorks s t = true) (hc : canTake (tile s t) c = true) (e : Ecc) :
    exec (.leafArrive t src e) s = .next (
      let s := setTile t (unqueued s t src rest) s
      match e with
      | .ok => updTile t (takeChild c c.value false) s
      | .corrected => updTile t (takeChild c c.value false) (crownCorrected t s)
      | .uncorrectable => crownUncorrectable t (updTile t (takeChild c (Config.crownGarbage t c.x s.draws) true) { s with draws := s.draws + 1 })) := by
  rw [waiting] at h
  change execLeafArrive t src e s = _
  simp only [execLeafArrive, h, hw, hc, Bool.and_self, if_true, unqueued]
  cases e <;> rfl

theorem leafArrive_uncorrectable (h : waiting s t (sourceKey src) = c :: rest) (hw : crownWorks s t = true) (hc : canTake (tile s t) c = true) :
    let r := takeChild c (Config.crownGarbage t c.x s.draws) true (unqueued s t src rest)
    ∃ u, exec (.leafArrive t src .uncorrectable) s = .next u ∧ OnlyFaults s { u with draws := s.draws } ∧ (tile u t).entries = r.entries ∧
      (tile u t).outs = r.outs ∧ (tile u t).completed = r.completed ∧ ∃ f ∈ u.faults, f.code.toNat = errSramUncorr ∧ f.obj = BitVec.ofNat 32 t := by
  intro r
  have hex := exec_leafArrive h hw hc .uncorrectable
  dsimp only at hex
  generalize hv : updTile t (takeChild c (Config.crownGarbage t c.x (setTile t (unqueued s t src rest) s).draws) true)
    { setTile t (unqueued s t src rest) s with draws := (setTile t (unqueued s t src rest) s).draws + 1 } = v at hex
  have htile : tile v t = r := by
    rw [← hv, tile_updTile_self]
    exact congrArg _ (tile_setTile_self ..)
  have hframe : v = { s with tiles := v.tiles, draws := v.draws } := by rw [← hv]; rfl
  obtain ⟨⟨hu, hmade, hkeys⟩, hslots, hfault⟩ := crownUncorrectable_leaves t v
  obtain ⟨⟨sl, hsl⟩, -⟩ := hslots t
  refine ⟨_, hex, ⟨?_, ?_, ?_⟩, ?_, ?_, ?_, hfault⟩
  · generalize crownUncorrectable t v = u at *
    rw [hu, hframe]
  · exact hmade.trans (by rw [hframe])
  · exact hkeys.trans (by rw [hframe])
  · rw [hsl, htile]
  · rw [hsl, htile]
  · rw [hsl, htile]

end

/-! ### NODE_STORE_DRAIN -/

theorem insertBy_perm {α : Type} (le : α → α → Bool) (x : α) (xs : List α) : (insertBy le x xs).Perm (x :: xs) := by
  induction xs with
  | nil => exact List.Perm.refl _
  | cons y ys ih =>
    unfold insertBy
    split
    · exact List.Perm.refl _
    · exact (ih.cons y).trans (List.Perm.swap x y ys)

theorem sortBy_perm {α : Type} (le : α → α → Bool) (xs : List α) : (sortBy le xs).Perm xs := by
  induction xs with
  | nil => exact List.Perm.refl _
  | cons x xs ih => exact (insertBy_perm le x _).trans (ih.cons x)

theorem scaleSpan_le (f : Nat) : scaleSpan f ≤ 4096 := by
  unfold scaleSpan
  split
  · exact le_rfl
  · unfold blockSize
    split <;> decide

/-- A drain into a block format takes the mates of one completed value, in its block or group (R95). -/
theorem drainBatch_block {s : State} {f : Nat} {r : TileRec} (hf : isBlock f = true) : drainBatch s f r = [] ∨
    ∃ (g : Geo) (d : Done), drainBatch s f r = blockMates g f d r.completed ∧ (drainBatch s f r).length = blockElems g f d.elem := by
  simp only [drainBatch, hf, if_true]
  cases s.job.image with
  | none => exact .inl rfl
  | some im =>
    dsimp only
    cases hfind : r.completed.findSome? _ with
    | none => exact .inl rfl
    | some ms =>
      obtain ⟨d, -, hd⟩ := List.exists_of_findSome?_eq_some hfind
      split at hd
      · next h =>
        obtain rfl := Option.some.inj hd
        exact .inr ⟨_, d, rfl, h.2⟩
      · exact nomatch hd

theorem drainBatch_plain {s : State} {f : Nat} {r : TileRec} (hf : isBlock f = false) : drainBatch s f r = r.completed.take 256 := by
  simp [drainBatch, hf]

theorem mem_blockMates {g : Geo} {f : Nat} {d a : Done} {all : List Done} (h : a ∈ blockMates g f d all) : a.tensor = d.tensor ∧ a.w = d.w := by
  have hm := (sortBy_perm _ _).mem_iff.mp h
  simp only [List.mem_filter, Bool.and_eq_true, beq_iff_eq] at hm
  exact ⟨hm.2.1.1, hm.2.1.2⟩

/-- One whole block or group of a tensor. -/
theorem drainBatch_block_one {s : State} {f : Nat} {r : TileRec} (hf : isBlock f = true) :
    (drainBatch s f r).length ≤ 4096 ∧ ∀ a ∈ drainBatch s f r, ∀ b ∈ drainBatch s f r, a.tensor = b.tensor ∧ a.w = b.w := by
  obtain h | ⟨g, d, h, hlen⟩ := drainBatch_block (s := s) (r := r) hf
  · rw [h]
    exact ⟨by simp, by simp⟩
  · refine ⟨?_, fun a ha b hb => ?_⟩
    · rw [hlen]
      exact (Nat.min_le_left _ _).trans (scaleSpan_le f)
    · rw [h] at ha hb
      obtain ⟨hat, haw⟩ := mem_blockMates ha
      obtain ⟨hbt, hbw⟩ := mem_blockMates hb
      exact ⟨hat.trans hbt.symm, haw.trans hbw.symm⟩

/-- A drain takes nothing that is not complete, and nothing twice. -/
theorem drainBatch_subperm (s : State) (f : Nat) (r : TileRec) : (drainBatch s f r).Subperm r.completed := by
  cases hf : isBlock f with
  | false =>
    rw [drainBatch_plain hf]
    exact (List.take_sublist _ _).subperm
  | true =>
    obtain h | ⟨g, d, h, -⟩ := drainBatch_block (s := s) (r := r) hf
    · rw [h]
      exact List.nil_subperm
    · rw [h]
      exact (sortBy_perm _ _).subperm.trans List.filter_sublist.subperm

theorem length_foldl_erase {now l : List Done} (h : now.Subperm l) : (now.foldl (fun l c => l.erase c) l).length + now.length = l.length := by
  have hp := (List.subperm_append_diff_self_of_count_le fun x _ => h.count_le x).length_eq
  rw [List.length_append, List.diff_eq_foldl] at hp
  change (now.foldl List.erase l).length + now.length = l.length
  omega

theorem foldl_erase_take : ∀ (n : Nat) (l : List Done), (l.take n).foldl (fun l c => l.erase c) l = l.drop n
  | 0, _ => rfl
  | _ + 1, [] => rfl
  | n + 1, c :: l => by
    rw [List.take_succ_cons, List.foldl_cons, List.erase_cons_head, List.drop_succ_cons]
    exact foldl_erase_take n l

section
variable {s : State} {t : Tile} {fmt : Nat} {sr : Bool}

theorem exec_nodeStoreDrain_none (h : drainBatch s fmt (tile s t) = []) (e : Ecc) : exec (.nodeStoreDrain t fmt sr e) s = .next s := by
  change execNodeStoreDrain t fmt sr e s = _
  simp only [execNodeStoreDrain, h, List.isEmpty_nil, Bool.true_or, if_true]

/-- The batch leaves the node store for the root half, cast to the format (R56, R67). -/
def drainRec (s : State) (t : Nat) (fmt : Nat) (sr : Bool) : TileRec :=
  let now := drainBatch s fmt (tile s t)
  let q := quantiseRun fmt (now.map fun c => (dec32 c.value, drainRnd s sr c))
  { tile s t with
    completed := now.foldl (fun l c => l.erase c) (tile s t).completed
    drained := (tile s t).drained ++ [⟨fmt, now.map (·.x), q.1.codes, q.1.bscales, q.2, (now.filter (·.poisoned)).map (·.x)⟩] }

/-- A drain sends its batch up the vertical link and frees the entries (R56, R57, R67). -/
theorem exec_nodeStoreDrain (hw : crownWorks s t = true) (hp : (dlink s t).paused = false) (hf : convertible fmt = true)
    (h : drainBatch s fmt (tile s t) ≠ []) :
    let q := quantiseRun fmt ((drainBatch s fmt (tile s t)).map fun c => (dec32 c.value, drainRnd s sr c))
    exec (.nodeStoreDrain t fmt sr .ok) s =
      .next (crossVertical t 1 0 (elemBytes fmt q.1.codes q.1.bscales q.2) (setTile t (drainRec s t fmt sr) s)) := by
  intro q
  have hcond : ((drainBatch s fmt (tile s t)).isEmpty || !crownWorks s t || (dlink s t).paused || !convertible fmt) = false := by
    simp [List.isEmpty_eq_false_iff.mpr h, hw, hp, hf]
  change execNodeStoreDrain t fmt sr .ok s = _
  unfold execNodeStoreDrain
  dsimp only
  refine congrArg _ (if_neg ?_)
  rw [hcond]
  exact Bool.false_ne_true

theorem nodeStoreDrain_frees (hw : crownWorks s t = true) (hp : (dlink s t).paused = false) (hf : convertible fmt = true)
    (h : drainBatch s fmt (tile s t) ≠ []) :
    ∃ u, exec (.nodeStoreDrain t fmt sr .ok) s = .next u ∧ OverLink s u t ∧ tile u t = drainRec s t fmt sr := by
  have hex := exec_nodeStoreDrain (sr := sr) hw hp hf h
  dsimp only at hex
  generalize elemBytes fmt _ _ _ = bs at hex
  obtain ⟨hframe, hsent⟩ := linkOnly_crossVertical t 1 0 bs (setTile t (drainRec s t fmt sr) s)
  refine ⟨_, hex, ⟨?_, fun j hj => ?_, ?_⟩, ?_⟩
  · rw [hframe]
    rfl
  · rw [tile_crossVertical, tile_setTile_ne hj]
  · exact (SentDown.of_eq (by rfl) (by rfl)).trans hsent
  · rw [tile_crossVertical, tile_setTile_self]

end

/-! ### The combine unit (R80) -/

theorem takeTurns_none {m : CombineNode} (h : thas m.held m.next = false) : ∀ n, takeTurns n m = (m, [])
  | 0 => rfl
  | n + 1 => by rw [takeTurns, h]; rfl

theorem thas_single {α : Type} (j k : Nat) (v : α) : thas [(j, v)] k = (j == k) := by simp [thas]

section
variable {s : State} {t : Nat} {kind : CombineKind} {node n idx : Nat} {v : DWord}

/-- The node once a child whose turn it is has been taken. -/
def takenNode (kind : CombineKind) (v : DWord) (m : CombineNode) : CombineNode :=
  { m with next := m.next + 1, acc := if m.next = 0 then combineChild kind v else combineAdd kind m.acc (combineChild kind v) }

/-- The node with a child whose turn has not come. -/
def heldNode (kind : CombineKind) (idx : Nat) (v : DWord) (m : CombineNode) : CombineNode := { m with held := [(idx, combineChild kind v)] }

/-- With no child held, one whose turn it is is taken at once. -/
theorem takeTurns_taken {m : CombineNode} (hheld : m.held = []) (w : DWord) (n : Nat) :
    takeTurns (n + 1) { m with held := tput m.held m.next w, poison := m.poison || false } = ({ m with next := m.next + 1 }, [(m.next, w)]) := by
  obtain ⟨nx, acc, held, poison⟩ := m
  obtain rfl : held = [] := hheld
  rw [takeTurns]
  simp only [tput, thas_single, beq_self_eq_true, if_true, tdel, tget, Bool.or_false]
  rw [takeTurns_none rfl]

/-- One whose turn has not come is held. -/
theorem takeTurns_held {m : CombineNode} (hheld : m.held = []) (h : m.next < idx) (w : DWord) (n : Nat) :
    takeTurns (n + 1) { m with held := tput m.held idx w, poison := m.poison || false } = ({ m with held := [(idx, w)] }, []) := by
  rw [takeTurns_none, hheld, Bool.or_false, tput]
  rw [hheld, tput, thas_single]
  exact beq_false_of_ne (Nat.ne_of_gt h)

theorem combineReads_ok (dest : CombineTo) (s : State) :
    combineReads t kind dest node n idx v false [] s = combineOne t kind dest node n idx v false s := by
  rw [combineReads, readsFind_none]
  rfl

/-- A child whose turn it is, added. -/
theorem combineOne_add (hheld : (tget (tile s t).nodes node {}).held = []) (hidx : idx = (tget (tile s t).nodes node {}).next) :
    combineOne t kind .add node n idx v false s =
      updTile t (fun r => { r with nodes := tput r.nodes node (takenNode kind v (tget (tile s t).nodes node {})) }) s := by
  subst hidx
  simp only [combineOne, takeTurns_taken hheld]
  rfl

theorem combineOne_hold (hheld : (tget (tile s t).nodes node {}).held = []) (hidx : (tget (tile s t).nodes node {}).next < idx) :
    combineOne t kind .add node n idx v false s =
      updTile t (fun r => { r with nodes := tput r.nodes node (heldNode kind idx v (tget (tile s t).nodes node {})) }) s := by
  simp only [combineOne, takeTurns_held hheld hidx]
  rfl

/-- A child whose turn it is, handed to the node store. -/
theorem combineOne_store {a : AccSpec} {lvl : Nat} (hheld : (tget (tile s t).nodes node {}).held = [])
    (hidx : idx = (tget (tile s t).nodes node {}).next) :
    combineOne t kind (.store a lvl) node n idx v false s =
      formed t 3 [nodeChild a lvl idx (combineChild kind v) (tget (tile s t).nodes node {}).poison]
        (updTile t (fun r => { r with nodes := tput r.nodes node { tget (tile s t).nodes node {} with next := idx + 1 } }) s) := by
  subst hidx
  simp only [combineOne, takeTurns_taken hheld]
  rfl

/-- The unit has power and its quadrant its clock, and no child is held: what it can take. -/
theorem canCombine_iff (hidx : idx < n) (hv : s.pins.v48On = true) (hq : s.dev.qLost.getLsbD (quadOf t) = false)
    (hheld : (tget (tile s t).nodes node {}).held = []) (dest : CombineTo) : canCombine s t dest node n idx = true ↔
      (tget (tile s t).nodes node {}).next ≤ idx ∧ (match dest with | .add => true | .store a lvl => nodesFit a lvl n) = true := by
  unfold canCombine
  dsimp only
  generalize tget (tile s t).nodes node {} = m at *
  cases dest <;> simp [hidx, hv, hq, hheld, thas]

theorem nodesFit_bounds {a : AccSpec} {lvl n : Nat} (h : nodesFit a lvl n = true) : lvl < a.emit ∧ a.emit ≤ topOf a.n := by
  simp only [nodesFit, accFits, Bool.and_eq_true, decide_eq_true_eq] at h
  obtain ⟨⟨⟨hacc, hlvl⟩, -⟩, -⟩ := h
  obtain ⟨⟨⟨⟨⟨⟨-, hemit⟩, -⟩, -⟩, -⟩, -⟩, -⟩ := hacc
  exact ⟨hlvl, hemit⟩

end

section
variable {s : State} {t : Tile} {k : SlotId} {kind : CombineKind} {node n idx : Nat} {v : DWord} {dest : CombineTo}

/-- A child from the fabric. -/
theorem exec_combine_none : exec (.combine t none kind dest node n idx v false []) s =
    .next (if canCombine s t dest node n idx then combineOne t kind dest node n idx v false s else s) := by
  rw [← combineReads_ok]
  rfl

/-- A child from a slot of the tile. -/
theorem exec_combine_some (h : canCombine s t dest node n idx = true) : exec (.combine t (some ⟨t, k, []⟩) kind dest node n idx v false []) s =
    .next (issued ⟨t, k, []⟩ 5 true (fun s => combineOne t kind dest node n idx v false (retire 5 t k s)) s) := by
  change Host.Outcome.next (issued ⟨t, k, []⟩ 5 (canCombine s t dest node n idx && t == t)
    (fun s => combineReads t kind dest node n idx v false [] (retire 5 t k s)) s) = _
  simp only [combineReads_ok, h, beq_self_eq_true, Bool.and_self]

/-- A slot's child whose turn it is, added. -/
theorem combine_issued (hc : canIssue s t k 5 = true) (h : canCombine s t .add node n idx = true) (hheld : (tget (tile s t).nodes node {}).held = [])
    (hidx : idx = (tget (tile s t).nodes node {}).next) :
    ∃ u, exec (.combine t (some ⟨t, k, []⟩) kind .add node n idx v false []) s = .next u ∧ Issued s u t 5 k ∧
      tget (tile u t).nodes node {} = takenNode kind v (tget (tile s t).nodes node {}) := by
  refine ⟨_, exec_combine_some h, ?_⟩
  have hnodes : (tile (retire 5 t k (begun t k s)) t).nodes = (tile s t).nodes := by
    rw [tile_retire, tile_begun]
    rfl
  have hone := combineOne_add (s := retire 5 t k (begun t k s)) (t := t) (kind := kind) (n := n) (idx := idx) (v := v) (by rw [hnodes]; exact hheld) (by rw [hnodes]; exact hidx)
  have hw : Worked (begun t k s) (combineOne t kind .add node n idx v false (retire 5 t k (begun t k s))) t := by
    rw [hone]
    exact (worked_retire ..).trans (worked_updTile ..)
  have htile : tile (combineOne t kind .add node n idx v false (retire 5 t k (begun t k s))) t =
      { serve 5 k (tile (begun t k s) t) with nodes := tput (tile s t).nodes node (takenNode kind v (tget (tile s t).nodes node {})) } := by
    rw [hone, tile_updTile_self, hnodes, tile_retire]
  obtain ⟨hissued, sl, m, hu⟩ := issued_of_worked (f := fun s => combineOne t kind .add node n idx v false (retire 5 t k s)) hc hw
    (by rw [hone]; exact begun_time t k s) (by rw [htile]; exact ⟨rfl, rfl, rfl, rfl, rfl, rfl, rfl⟩)
  refine ⟨hissued, ?_⟩
  rw [hu, htile]
  exact tget_tput_self ..

end

/-- What the combine unit does with a child from the fabric that no slot issues (R80). -/
theorem combine_fabric {s : State} {t : Tile} {kind : CombineKind} {node n idx : Nat} {v : DWord} {dest : CombineTo}
    (h : canCombine s t dest node n idx = true) : exec (.combine t none kind dest node n idx v false []) s =
      .next (combineOne t kind dest node n idx v false s) := by rw [exec_combine_none, if_pos h]

theorem sameCrown_nodes {s : State} (t : Nat) (m : TileRec → Table CombineNode) : SameCrown s (updTile t (fun r => { r with nodes := m r }) s) t := by
  unfold SameCrown
  rw [tile_updTile_self]
  exact ⟨rfl, rfl, rfl, rfl, rfl, rfl, rfl⟩

end Sys2Proof.Machine
end

section
open Sys2Proof Sys2Proof.Machine

/-- Settles O18, clause by clause: the node store's door, its drains, and the combine unit's turns. -/
theorem nodeStoreDrainAndCombineUnit : Obligations.NodeStoreDrainAndCombineUnit := by
  unfold Obligations.NodeStoreDrainAndCombineUnit
  intro s t
  refine ⟨fun src c rest hq => ⟨fun hc => ?_, exec_leafArrive_stalls hq, fun hw hc => ⟨?_, ?_, leafArrive_uncorrectable hq hw hc⟩⟩,
    fun src e hq => exec_leafArrive_none hq e, fun fmt sr hw hp hf => ⟨drainBatch_plain, drainBatch_block_one, exec_nodeStoreDrain_none, fun h => ?_⟩,
    fun kind node n idx v hidx hv hq => ?_⟩
  · obtain ⟨hnext, -, hroom⟩ := canTake_iff.mp hc
    exact ⟨hnext, hroom⟩
  · refine ⟨_, exec_leafArrive hq hw hc .ok, ⟨rfl, fun j hj => ?_⟩, ?_⟩
    · rw [tile_updTile_ne hj, tile_setTile_ne hj]
    · rw [tile_updTile_self, tile_setTile_self]
      rfl
  · refine ⟨_, exec_leafArrive hq hw hc .corrected, rfl, ?_⟩
    rw [tile_updTile_self]
    exact congrArg _ (tile_setTile_self ..)
  · obtain ⟨u, hex, hover, htile⟩ := nodeStoreDrain_frees (sr := sr) hw hp hf h
    refine ⟨u, hex, hover, ?_⟩
    rw [htile]
    refine ⟨length_foldl_erase (drainBatch_subperm s fmt (tile s t)), fun hb => ?_, _, rfl, rfl, rfl, rfl, rfl, rfl, rfl⟩
    rw [drainRec, drainBatch_plain hb]
    exact foldl_erase_take 256 _
  · intro m hheld
    have htake : ∀ dest, canCombine s t dest node n idx = true ↔ _ := canCombine_iff hidx hv hq hheld
    refine ⟨fun hturn => ?_, fun hlate => ?_, fun hin => ?_⟩
    · have hadd : canCombine s t .add node n idx = true := (htake .add).mpr ⟨hturn.ge, rfl⟩
      have hnode : takenNode kind v m =
          { m with next := idx + 1, acc := if idx = 0 then combineChild kind v else combineAdd kind m.acc (combineChild kind v) } := by
        rw [hturn]
        rfl
      rw [← hnode]
      refine ⟨?_, fun k hc => combine_issued hc hadd hheld hturn, fun a lvl hfit => ?_⟩
      · refine ⟨_, combine_fabric hadd, ?_⟩
        rw [combineOne_add hheld hturn]
        refine ⟨onlyTile_updTile .., sameCrown_nodes t _, ?_⟩
        rw [tile_updTile_self]
        exact tget_tput_self ..
      · obtain ⟨hlvl, hemit⟩ := nodesFit_bounds hfit
        refine ⟨hlvl, hemit, _, combine_fabric ((htake (.store a lvl)).mpr ⟨hturn.ge, hfit⟩), ?_⟩
        rw [combineOne_store hheld hturn]
        obtain ⟨xs, hx⟩ := tile_formed t 3 [nodeChild a lvl idx (combineChild kind v) m.poison]
          (updTile t (fun r => { r with nodes := tput r.nodes node { m with next := idx + 1 } }) s)
        refine ⟨?_, ?_⟩
        · rw [waiting, hx, waiting, tile_updTile_self]
          exact tget_tset_self ..
        · rw [hx, tile_updTile_self]
          exact tget_tput_self ..
    · refine ⟨_, combine_fabric ((htake .add).mpr ⟨hlate.le, rfl⟩), ?_⟩
      rw [combineOne_hold hheld hlate]
      refine ⟨onlyTile_updTile .., sameCrown_nodes t _, ?_⟩
      rw [tile_updTile_self]
      exact tget_tput_self ..
    · rw [exec_combine_none, if_neg]
      rw [htake]
      exact fun h => absurd h.1 (Nat.not_le.mpr hin)

end

section
/-! Clock gating and wake, and the shadow checks of sampled leaves (R85 to R88, R149 to R158). -/
namespace Sys2Proof.Machine
open Sys2Proof

/-- `u` is `r` but for its slots and the count of what they have retired. -/
def SlotsOnly (r u : TileRec) : Prop := ∃ sl m, u = { r with slots := sl, retired := m }

theorem SlotsOnly.refl (r : TileRec) : SlotsOnly r r := ⟨_, _, rfl⟩
theorem SlotsOnly.trans {r u v : TileRec} (h : SlotsOnly r u) (g : SlotsOnly u v) : SlotsOnly r v := by
  obtain ⟨_, _, rfl⟩ := h
  obtain ⟨sl, m, rfl⟩ := g
  exact ⟨sl, m, rfl⟩

/-! ### Gating -/

theorem exec_unitClockGate (t : Tile) (c : CrownUnit) (s : State) : exec (.unitClockGate t c) s = .next (
    if unitIdle (tile s t) (unitOfCrown c) then updTile t (fun r => { r with gated := r.gated ||| unitBit (unitOfCrown c) }) s else s) := rfl
theorem exec_crownClockGate (t : Tile) (s : State) : exec (.crownClockGate t) s = .next (
    if slotsQuiet (tile s t) then updTile t (fun r => { r with crownGated := true }) s else s) := rfl

/-! ### Wake -/

/-- Slot `k` goes on if its wait is satisfied. -/
def resumeRec (k : Nat) (r : TileRec) : TileRec := if (slot r k).released then endRec k (retired k r) else r

@[simp] theorem tile_resume (t k : Nat) (s : State) : tile (resume t k s) t = resumeRec k (tile s t) := by
  unfold resume resumeRec
  split
  · rw [tile_finish, tile_updTile_self]
    rfl
  · rfl

theorem seqOnly_resume (t k : Nat) (s : State) : SeqOnly s (resume t k s) t := by
  unfold resume
  split
  · exact SeqOnly.trans (u := updTile t (retired k) { s with job.progressAt := s.time }) ⟨rfl, fun _ h => tile_updTile_ne h ..⟩ (seqOnly_finish t k _)
  · exact SeqOnly.refl s t

theorem resume_not_released {t k : Nat} {s : State} (h : (slot (tile s t) k).released = false) : resume t k s = s := by
  rw [resume, h]
  rfl

theorem slotsOnly_resumeRec (k : Nat) (r : TileRec) : SlotsOnly r (resumeRec k r) := by
  unfold resumeRec
  split
  · obtain ⟨sl, m, he⟩ := endRec_eq k (retired k r)
    rw [he]
    exact ⟨_, _, rfl⟩
  · exact SlotsOnly.refl r

theorem slot_resumeRec {k j : Nat} {r : TileRec} (h : (slot r j).released = false) : slot (resumeRec k r) j = slot r j := by
  unfold resumeRec
  split
  · next hk =>
    have hj : j ≠ k := by
      rintro rfl
      rw [h] at hk
      exact nomatch hk
    rw [slot_endRec_ne hj]
    exact (slot_tset r k j _).trans (if_neg hj)
  · rfl

theorem released_resumeRec (k : Nat) (r : TileRec) : (slot (resumeRec k r) k).released = false := by
  unfold resumeRec
  split
  · refine released_endRec ?_
    rw [show slot (retired k r) k = _ from (slot_tset r k k _).trans (if_pos rfl)]
  · next h => simpa using h

/-- The slots `ks` of a tile go on. -/
@[irreducible] def wake (t : Nat) (ks : List Nat) (s : State) : State := ks.foldl (fun s k => resume t k s) s

@[simp] theorem wake_nil (t : Nat) (s : State) : wake t [] s = s := by unfold wake; rfl
@[simp] theorem wake_cons (t k : Nat) (ks : List Nat) (s : State) : wake t (k :: ks) s = wake t ks (resume t k s) := by unfold wake; rfl

theorem seqOnly_wake (t : Nat) (ks : List Nat) (s : State) : SeqOnly s (wake t ks s) t := by
  induction ks generalizing s with
  | nil => rw [wake_nil]; exact SeqOnly.refl s t
  | cons k ks ih => rw [wake_cons]; exact (seqOnly_resume t k s).trans (ih _)

theorem slotsOnly_wake (t : Nat) (ks : List Nat) (s : State) : SlotsOnly (tile s t) (tile (wake t ks s) t) := by
  induction ks generalizing s with
  | nil => rw [wake_nil]; exact SlotsOnly.refl _
  | cons k ks ih =>
    have h := ih (resume t k s)
    rw [tile_resume] at h
    rw [wake_cons]
    exact (slotsOnly_resumeRec k _).trans h

/-- A slot whose wait is not satisfied stays. -/
theorem slot_wake {t j : Nat} (ks : List Nat) {s : State} (h : (slot (tile s t) j).released = false) : slot (tile (wake t ks s) t) j = slot (tile s t) j := by
  induction ks generalizing s with
  | nil => rw [wake_nil]
  | cons k ks ih =>
    have hk : slot (tile (resume t k s) t) j = slot (tile s t) j := by rw [tile_resume, slot_resumeRec h]
    rw [wake_cons, ih (by rw [hk]; exact h), hk]

theorem released_wake {t j : Nat} {ks : List Nat} (s : State) (hj : j ∈ ks) : (slot (tile (wake t ks s) t) j).released = false := by
  induction ks generalizing s with
  | nil => exact absurd hj List.not_mem_nil
  | cons k ks ih =>
    rw [wake_cons]
    obtain rfl | hj := List.mem_cons.mp hj
    · have hrel : (slot (tile (resume t j s) t) j).released = false := by rw [tile_resume, released_resumeRec]
      rw [slot_wake ks hrel, hrel]
    · exact ih _ hj

theorem wake_none {t : Nat} {s : State} {ks : List Nat} (h : ∀ k ∈ ks, (slot (tile s t) k).released = false) : wake t ks s = s := by
  induction ks with
  | nil => rw [wake_nil]
  | cons k ks ih =>
    rw [wake_cons, resume_not_released (h k List.mem_cons_self)]
    exact ih fun j hj => h j (List.mem_cons_of_mem _ hj)

theorem exec_crownWake {s : State} {t : Tile} {w : WakeCause} (hfa : isFA s = false) (hu : tileUsable s t = true) (hc : s.heat.crownsOff = false)
    (hh : crownHeld s t = false) (hv : s.pins.v48On = true) (hw : w = .loader ∨ slotReleased (tile s t) = true) :
    exec (.crownWake t w) s = .next (wake t (List.range 8) (updTile t (fun r => { r with crownGated := false }) s)) := by
  change execCrownWake t w s = _
  unfold execCrownWake wake
  rw [hfa, hu, hc, hh, hv]
  cases w with
  | loader => rfl
  | signal => rw [show slotReleased (tile s t) = true by simpa using hw]; rfl

/-- What a wake leaves (R87, R88). -/
theorem crownWake_leaves (s : State) (t : Nat) :
    let u := wake t (List.range 8) (updTile t (fun r => { r with crownGated := false }) s)
    u = { s with tiles := u.tiles, job.progressAt := u.job.progressAt } ∧ (∀ j : Nat, j ≠ t → tile u j = tile s j) ∧
    (tile u t).crownGated = false ∧ SameCrown s u t ∧
    (∀ k, k < 8 → (slot (tile s t) k).released = false → slot (tile u t) k = slot (tile s t) k) ∧
    (∀ k, k < 8 → (slot (tile u t) k).released = false) ∧
    ((∀ k, k < 8 → (slot (tile s t) k).released = false) → u = { s with tiles := u.tiles } ∧ tile u t = { tile s t with crownGated := false }) := by
  intro u
  have htile : tile (updTile t (fun r => { r with crownGated := false }) s) t = { tile s t with crownGated := false } := tile_updTile_self ..
  obtain ⟨hframe, hothers⟩ := (seqOnly_updTile t (fun r => { r with crownGated := false }) s).trans (seqOnly_wake t (List.range 8) _)
  obtain ⟨sl, m, hu⟩ := slotsOnly_wake t (List.range 8) (updTile t (fun r => { r with crownGated := false }) s)
  rw [htile] at hu
  refine ⟨hframe, hothers, by rw [hu], ?_, fun k _ h => ?_, fun k hk => released_wake _ (List.mem_range.mpr hk), fun h => ?_⟩
  · unfold SameCrown
    rw [hu]
    exact ⟨rfl, rfl, rfl, rfl, rfl, rfl, rfl⟩
  · have hslot : slot (tile (updTile t (fun r => { r with crownGated := false }) s) t) k = slot (tile s t) k := by rw [htile]; rfl
    exact (slot_wake _ (by rw [hslot]; exact h)).trans hslot
  · have hnone : u = updTile t (fun r => { r with crownGated := false }) s := wake_none fun k hk => by
      rw [htile]
      exact h k (List.mem_range.mp hk)
    rw [hnone]
    exact ⟨rfl, htile⟩

/-! ### Shadow checks -/

/-- A leaf whose slices hold finite values agrees with its shadow and leaves the list, or is marked (R152 to R154). -/
theorem shadowCompare_finite {s : State} {t : Tile} {x : Sample} {a b : Run} (hx : ((tile s t).samples.find? fun y => !y.drift) = some x)
    (hfin : ((List.zipWith Machine.Num.mul (decodeRun a) (decodeRun b)).all Machine.Num.isFinite && (dec32 x.value).isFinite) = true) :
    exec (.shadowCompare t a b) s = .next (setTile t { tile s t with
      samples := if drifts s (decodeRun a) (decodeRun b) x.value then (tile s t).samples.map fun y => if y == x then { y with drift := true } else y
        else (tile s t).samples.erase x } s) := by
  change execShadowCompare t a b s = _
  unfold execShadowCompare
  simp only [hx, hfin, Bool.not_true, Bool.false_eq_true, if_false]
  split <;> rfl

/-- F9 is declared on a module whose job runs: QUARANTINED (R156). -/
theorem stopCorrupt_running {s : State} (h : s.dev.st = .running) (code : Nat) :
    (stopCorrupt code s).dev.st = .quarantined ∧ (stopCorrupt code s).faults = s.faults ∧ ∀ j, SlotsOnly (tile s j) (tile (stopCorrupt code s) j) := by
  have hin : inJob s = true := by simp [inJob, h]
  unfold stopCorrupt
  rw [if_pos hin]
  dsimp only
  rw [if_pos (by rw [sendNotice_dev]; exact h)]
  refine ⟨enter_st .., rfl, fun j => ?_⟩
  obtain ⟨⟨sl, hsl⟩, -⟩ := slotsStopped_haltJob s j
  exact ⟨sl, _, hsl⟩

/-- Array cycles spent change no samples. -/
theorem samples_updTile_busy (j n t : Nat) (r : TileRec) (s : State) :
    (tile (updTile j (fun u => { u with arrayBusy := u.arrayBusy + n }) (setTile t r s)) t).samples = r.samples := by
  by_cases h : t = j
  · rw [h, tile_updTile_self, tile_setTile_self]
  · rw [tile_updTile_ne h, tile_setTile_self]

/-- The third tile decides which of the two is at fault (R155, R156). -/
theorem thirdTile_names {s : State} {t : Tile} {x : Sample} {a b : Run} (hx : ((tile s t).samples.find? fun y => y.drift) = some x)
    (hst : s.dev.st = .running) :
    ∃ u, exec (.thirdTileRecompute t a b) s = .next u ∧ u.dev.st = .quarantined ∧ (tile u t).samples = (tile s t).samples.erase x ∧
      ∃ f ∈ u.faults, f.code.toNat = errShadowDrift ∧
        f.obj = BitVec.ofNat 32 (if leafProducts (decodeRun a) (decodeRun b) = x.value then shadowOf s t else t) := by
  have hex : ∃ d other det die band fp, exec (.thirdTileRecompute t a b) s = .next (stopCorrupt errShadowDrift
      (let v := updSummary die (fun d => { d with shadow := satInc none32 d.shadow }) (raise errShadowDrift uTile
        (if leafProducts (decodeRun a) (decodeRun b) = x.value then shadowOf s t else t)
        (if leafProducts (decodeRun a) (decodeRun b) = x.value then shadowOf s t else t) other det d)
      ledgerEvent die 1 band fp (newest v) v)) ∧ d.dev.st = s.dev.st ∧ (tile d t).samples = (tile s t).samples.erase x := by
    change ∃ d other det die band fp, execThirdTileRecompute t a b s = _ ∧ _
    unfold execThirdTileRecompute
    simp only [hx]
    split
    · refine ⟨_, _, _, _, _, _, rfl, rfl, ?_⟩
      exact samples_updTile_busy ..
    · refine ⟨_, _, _, _, _, _, rfl, rfl, ?_⟩
      exact samples_updTile_busy ..
  obtain ⟨d, other, det, die, band, fp, hex, hdst, hsamples⟩ := hex
  refine ⟨_, hex, ?_⟩
  dsimp only
  generalize hw : ledgerEvent die 1 band fp _ _ = w
  have hwst : w.dev.st = .running := by rw [← hw, ledgerEvent_dev, updSummary_dev, raise_dev, hdst, hst]
  obtain ⟨hq, hfaults, hslots⟩ := stopCorrupt_running hwst errShadowDrift
  obtain ⟨sl, m, hsl⟩ := hslots t
  have hwt : tile w t = tile d t := by rw [tile, ← hw, ledgerEvent_tiles, updSummary_tiles, raise_tiles, tile]
  refine ⟨hq, ?_, ?_⟩
  · rw [hsl, hwt]
    exact hsamples
  · rw [hfaults, ← hw, ledgerEvent_faults, updSummary_faults, raise_faults]
    exact ⟨_, List.mem_cons_self, rfl, rfl⟩

end Sys2Proof.Machine
end

section
/-! What a phase boundary leaves on the tiles of the plan, in the counters and in the multicast groups (R69, R70, R292 to R295, R490, R563). -/
namespace Sys2Proof.Machine
open Sys2Proof

/-- What a step makes hold for one element and no step for another undoes holds of every element at the end. -/
theorem foldl_makes {α σ : Type} {f : σ → α → σ} {P : α → σ → Prop} (hmake : ∀ s a, P a (f s a)) (hkeep : ∀ s a b, P a s → P a (f s b)) :
    ∀ (l : List α) (s : σ), ∀ a ∈ l, P a (l.foldl f s)
  | b :: l, s, a, ha => by
    obtain rfl | ha := List.mem_cons.mp ha
    · exact List.foldlRecOn l f (hmake s a) fun s h b _ => hkeep s a b h
    · exact foldl_makes hmake hkeep l _ a ha

theorem mem_boundPairs {p : Plan} {i : Nat} (h : i ∈ p.tiles) : ∃ e ∈ boundPairs p, e.2 = i := by
  rw [← List.zipIdx_map_fst 0 p.tiles] at h
  obtain ⟨e, he, rfl⟩ := List.mem_map.mp h
  exact ⟨(e.2, e.1), List.mem_map.mpr ⟨e, he, rfl⟩, rfl⟩

/-! ### Programs -/

theorem thas_memoryFor (s : State) (p : Plan) {phases phase : Nat} (v : Nat) (h : phase < phases) : thas (memoryFor s p phases phase v) phase = true := by
  unfold memoryFor
  dsimp only
  split
  · exact List.any_eq_true.mpr ⟨_, List.mem_map.mpr ⟨phase, List.mem_range.mpr h, rfl⟩, beq_self_eq_true _⟩
  · simp [thas]

/-- Whatever a boundary does before its transfers, but for the records of the tiles: `u` is `s` with its counters' kinds, groups and counts. -/
def BoundaryOnly (s u : State) : Prop :=
  u = { s with
    tiles := u.tiles, remote.ctrs := u.remote.ctrs, fabric.groups := u.fabric.groups, job.replacements := u.job.replacements
    job.opened := u.job.opened, job.progressAt := u.job.progressAt }

theorem BoundaryOnly.refl (s : State) : BoundaryOnly s s := rfl
theorem BoundaryOnly.trans {s u v : State} (h : BoundaryOnly s u) (g : BoundaryOnly u v) : BoundaryOnly s v := by
  unfold BoundaryOnly at *
  rw [g, h]

theorem SeqOnly.boundaryOnly {s u : State} {t : Nat} (h : SeqOnly s u t) : BoundaryOnly s u := by
  obtain ⟨hu, -⟩ := h
  unfold BoundaryOnly
  rw [hu]

theorem boundaryOnly_foldl {α : Type} {f : State → α → State} (h : ∀ s a, BoundaryOnly s (f s a)) (l : List α) (s : State) : BoundaryOnly s (l.foldl f s) :=
  List.foldlRecOn l f (BoundaryOnly.refl s) fun u hu a _ => hu.trans (h u a)

/-- One tile's step of replacePrograms. -/
def replaceOne (p : Plan) (phases phase : Nat) (s : State) (e : Nat × Nat) : State :=
  if thas (tile s e.2).imem phase then s
  else updTile e.2 (fun r => { r with imem := memoryFor s p phases phase e.1 }) { s with job.replacements := s.job.replacements + 1 }

theorem replacePrograms_eq (p : Plan) (phases phase : Nat) (s : State) :
    replacePrograms p phases phase s = (boundPairs p).foldl (replaceOne p phases phase) s := rfl

theorem boundaryOnly_replacePrograms (p : Plan) (phases phase : Nat) (s : State) : BoundaryOnly s (replacePrograms p phases phase s) := by
  rw [replacePrograms_eq]
  refine boundaryOnly_foldl (fun s e => ?_) _ s
  unfold replaceOne
  split <;> rfl

/-- Every tile of the plan has the phase's programs (R70). -/
theorem replacePrograms_loads {p : Plan} {phases phase : Nat} (h : phase < phases) (s : State) {i : Nat} (hi : i ∈ p.tiles) :
    thas (tile (replacePrograms p phases phase s) i).imem phase = true := by
  obtain ⟨e, he, rfl⟩ := mem_boundPairs hi
  rw [replacePrograms_eq]
  refine foldl_makes (f := replaceOne p phases phase) (P := fun e s => thas (tile s e.2).imem phase = true) (fun s a => ?_) (fun s a b ha => ?_) _ s e he
  · unfold replaceOne
    split
    · assumption
    · rw [tile_updTile_self]
      exact thas_memoryFor s p _ h
  · unfold replaceOne
    split
    · exact ha
    · by_cases hab : a.2 = b.2
      · rw [hab, tile_updTile_self]
        exact thas_memoryFor s p _ h
      · rw [tile_updTile_ne hab]
        exact ha

/-! ### The tiles at the start of the phase -/

/-- The record of a tile that starts the programs of a phase. -/
def startRec (phase : Nat) (aw : List (Nat × Nat)) (r : TileRec) : TileRec :=
  let r := { r with phase, awaits := aw, outs := [], entries := [], children := [], completed := [], drained := [], nodes := [], stalled := none }
  { r with slots := startSlots r }

/-- The tile awaits the arrivals `aw` of a phase with an empty node store. -/
def AtStart (phase : Nat) (aw : List (Nat × Nat)) (r : TileRec) : Prop :=
  r.phase = phase ∧ r.awaits = aw ∧ r.entries = [] ∧ r.outs = [] ∧ r.completed = [] ∧ r.children = [] ∧ r.nodes = []

theorem atStart_startRec (phase : Nat) (aw : List (Nat × Nat)) (r : TileRec) : AtStart phase aw (startRec phase aw r) := ⟨rfl, rfl, rfl, rfl, rfl, rfl, rfl⟩

theorem AtStart.slotsOnly {phase : Nat} {aw : List (Nat × Nat)} {r u : TileRec} (h : SlotsOnly r u) (hr : AtStart phase aw r) : AtStart phase aw u := by
  obtain ⟨sl, m, rfl⟩ := h
  exact hr

theorem SlotsOnly.imem {r u : TileRec} (h : SlotsOnly r u) : u.imem = r.imem := by
  obtain ⟨sl, m, rfl⟩ := h
  rfl
theorem SlotsOnly.program {r u : TileRec} (h : SlotsOnly r u) (k : Nat) : program u k = program r k := by
  obtain ⟨sl, m, rfl⟩ := h
  rfl

theorem slot_startSlots (r : TileRec) {k : Nat} (hk : k < 8) : tget (startSlots r) k {} = startSlot (program r k) := by
  refine foldl_makes (f := fun m k => tset m k (startSlot (Machine.program r k)) {}) (P := fun k m => tget m k {} = startSlot (Machine.program r k))
    (fun m a => tget_tset_self ..) (fun m a b ha => ?_) (List.range 8) [] k (List.mem_range.mpr hk)
  by_cases hab : a = b
  · rw [hab, tget_tset_self]
  · rw [tget_tset_ne _ _ _ _ _ hab, ha]

theorem slot_startRec (phase : Nat) (aw : List (Nat × Nat)) (r : TileRec) {k : Nat} (hk : k < 8) :
    slot (startRec phase aw r) k = startSlot (program (startRec phase aw r) k) := slot_startSlots _ hk

theorem startTiles_eq (p : Plan) (ts : List Transfer) (phase : Nat) (s : State) :
    startTiles p ts phase s = (boundPairs p).foldl (fun s e => updTile e.2 (startRec phase (awaitsOf p ts e.2)) s) s := rfl

theorem boundaryOnly_startTiles (p : Plan) (ts : List Transfer) (phase : Nat) (s : State) : BoundaryOnly s (startTiles p ts phase s) := by
  rw [startTiles_eq]
  refine boundaryOnly_foldl (fun u e => ?_) _ s
  exact (seqOnly_updTile e.2 _ u).boundaryOnly

theorem startTiles_starts {p : Plan} (ts : List Transfer) (phase : Nat) (s : State) {i : Nat} (hi : i ∈ p.tiles) :
    ∃ r, tile (startTiles p ts phase s) i = startRec phase (awaitsOf p ts i) r := by
  obtain ⟨e, he, rfl⟩ := mem_boundPairs hi
  rw [startTiles_eq]
  refine foldl_makes (f := fun s (e : Nat × Nat) => updTile e.2 (startRec phase (awaitsOf p ts e.2)) s)
    (P := fun e s => ∃ r, tile s e.2 = startRec phase (awaitsOf p ts e.2) r) (fun s a => ⟨_, tile_updTile_self ..⟩) (fun s a b ha => ?_) _ s e he
  by_cases hab : a.2 = b.2
  · rw [hab]
    exact ⟨_, tile_updTile_self ..⟩
  · rw [tile_updTile_ne hab]
    exact ha

theorem startTiles_imem (p : Plan) (ts : List Transfer) (phase : Nat) (s : State) (j : Nat) : (tile (startTiles p ts phase s) j).imem = (tile s j).imem := by
  rw [startTiles_eq]
  refine List.foldlRecOn (motive := fun u => (tile u j).imem = (tile s j).imem) (boundPairs p) _ rfl fun u hu e _ => ?_
  by_cases hj : j = e.2
  · rw [hj, tile_updTile_self, ← hj]
    exact hu
  · rw [tile_updTile_ne hj, hu]

/-! ### The kinds of the counters -/

theorem tget_eq_or_entry {α : Type} (m : Table α) (k : Nat) (d : α) : tget m k d = d ∨ (k, tget m k d) ∈ m := by
  induction m with
  | nil => exact .inl rfl
  | cons e m ih =>
    obtain ⟨j, v⟩ := e
    rw [tget]
    split
    · next h => exact .inr (by rw [h]; exact List.mem_cons_self)
    · exact ih.imp_right (List.mem_cons_of_mem _)

theorem setKinds_only (flags : List Nat) (s : State) : setKinds flags s = { s with remote.ctrs := (setKinds flags s).remote.ctrs } := by
  have hstep : ∀ u k c, u = { s with remote.ctrs := u.remote.ctrs } → setCtr k c u = { s with remote.ctrs := (setCtr k c u).remote.ctrs } := by
    intro u k c hu
    unfold setCtr
    rw [hu]
  unfold setKinds
  dsimp only
  refine List.foldlRecOn (motive := fun u => u = { s with remote.ctrs := u.remote.ctrs }) flags _ ?_ fun u hu k _ => hstep u k _ hu
  rfl

/-- Every counter has the kind that the plan gives it (R563). -/
theorem isFlag_setKinds (flags : List Nat) (s : State) (j : Nat) : (ctr (setKinds flags s) j).isFlag = flags.contains j := by
  unfold setKinds
  dsimp only
  generalize hu : ({ s with remote.ctrs := _ } : State) = u
  by_cases hj : j ∈ flags
  · rw [List.contains_iff_mem.mpr hj]
    refine foldl_makes (f := fun s k => setCtr k { ctr s k with isFlag := true } s) (P := fun k s => (ctr s k).isFlag = true)
      (fun s a => ?_) (fun s a b ha => ?_) flags u j hj
    · rw [ctr_setCtr, if_pos rfl]
    · rw [ctr_setCtr]
      split
      · rfl
      · exact ha
  · have hnot : flags.contains j = false := by simpa using hj
    rw [hnot]
    refine List.foldlRecOn (motive := fun u => (ctr u j).isFlag = false) flags _ ?_ fun u hu k hk => ?_
    · obtain h | h := tget_eq_or_entry u.remote.ctrs j {}
      · rw [ctr, h]
      · rw [← hu] at h ⊢
        obtain ⟨hm, -⟩ := List.mem_filter.mp h
        obtain ⟨e, -, he⟩ := List.mem_map.mp hm
        obtain ⟨hkey, hval⟩ := Prod.mk.inj he
        rw [ctr, ← hval, hkey, hnot]
    · rw [ctr_setCtr, if_neg (fun h => hj (by rw [h]; exact hk))]
      exact hu

/-! ### Slots whose programs hold no instruction for a unit -/

/-- A slot at `v`, or at its end. -/
def AtOrIdle (v : Slot) (r : TileRec) (k : Nat) : Prop := (slot r k = v ∨ (slot r k).st = .idle) ∧ (slot r k).released = false

theorem slotsOnly_finish (t k j : Nat) (s : State) : SlotsOnly (tile s j) (tile (finish t k [] s) j) := by
  by_cases hj : j = t
  · subst hj
    rw [tile_finish]
    exact endRec_eq k _
  · rw [(seqOnly_finish t k s).2 j hj]
    exact SlotsOnly.refl _

theorem atOrIdle_finish {v : Slot} {i j : Nat} (t k : Nat) {s : State} (h : AtOrIdle v (tile s i) j) : AtOrIdle v (tile (finish t k [] s) i) j := by
  by_cases hi : i = t
  · subst hi
    rw [tile_finish]
    by_cases hj : j = k
    · subst hj
      obtain ⟨hv, hrel⟩ := h
      refine ⟨?_, released_endRec hrel⟩
      exact (slot_endRec_self hrel).elim (fun he => by rw [he]; exact hv) .inr
    · unfold AtOrIdle
      rw [slot_endRec_ne hj]
      exact h
  · rw [(seqOnly_finish t k s).2 i hi]
    exact h

/-- What every step of finishTiles keeps, it keeps. -/
theorem finishTiles_keeps {P : State → Prop} (h : ∀ t k s, P s → P (finish t k [] s)) (p : Plan) {s : State} (hs : P s) : P (finishTiles p s) :=
  List.foldlRecOn p.tiles _ hs fun _ hu t _ => List.foldlRecOn (List.range 8) _ hu fun u hu k _ => h t k u hu

/-! ### Transfers -/

/-- The tiles keep everything but their slots, and the groups and the phase that is open stay. -/
def PhaseKept (s u : State) : Prop := (∀ j, SlotsOnly (tile s j) (tile u j)) ∧ u.fabric.groups = s.fabric.groups ∧ u.job.opened = s.job.opened

theorem PhaseKept.refl (s : State) : PhaseKept s s := ⟨fun _ => SlotsOnly.refl _, rfl, rfl⟩
theorem PhaseKept.trans {s u v : State} (h : PhaseKept s u) (g : PhaseKept u v) : PhaseKept s v := by
  obtain ⟨ht, hg, ho⟩ := h
  obtain ⟨gt, gg, go⟩ := g
  exact ⟨fun j => (ht j).trans (gt j), gg.trans hg, go.trans ho⟩

theorem phaseKept_of_eq {s u : State} (ht : u.tiles = s.tiles) (hg : u.fabric.groups = s.fabric.groups) (ho : u.job.opened = s.job.opened) :
    PhaseKept s u := ⟨fun j => by unfold tile; rw [ht]; exact SlotsOnly.refl _, hg, ho⟩

theorem phaseKept_foldl {α : Type} {f : State → α → State} (h : ∀ s a, PhaseKept s (f s a)) (l : List α) (s : State) : PhaseKept s (l.foldl f s) :=
  List.foldlRecOn l f (PhaseKept.refl s) fun u hu a _ => hu.trans (h u a)

theorem phaseKept_finishTiles (p : Plan) (s : State) : PhaseKept s (finishTiles p s) := by
  refine finishTiles_keeps (P := PhaseKept s) (fun t k u hu => hu.trans ⟨fun j => slotsOnly_finish t k j u, ?_, ?_⟩) p (PhaseKept.refl s)
  · rw [(seqOnly_finish t k u).1]
  · rw [(seqOnly_finish t k u).1]

theorem phaseKept_stopA3 (code : Nat) (s : State) : PhaseKept s (stopA3 code s) := by
  unfold stopA3 declareFault
  split
  · refine ⟨fun j => ?_, rfl, rfl⟩
    obtain ⟨⟨sl, hsl⟩, -⟩ := slotsStopped_haltJob s j
    exact ⟨sl, _, hsl⟩
  · exact PhaseKept.refl s

theorem phaseKept_injectPacket (p : Packet) (tray : Bool) (s : State) : PhaseKept s (injectPacket p tray none s).2 := by
  unfold injectPacket
  split
  · exact phaseKept_of_eq rfl rfl rfl
  · split
    · exact phaseKept_of_eq rfl rfl rfl
    · dsimp only
      split
      · exact phaseKept_of_eq rfl rfl rfl
      · exact phaseKept_of_eq rfl rfl rfl

/-- A request of the copy engine. -/
theorem phaseKept_issue (t : Tile) (p : Packet) (ret : Nat) (counter : Option Nat) (tray : Bool) (s : State) :
    PhaseKept s (issue t none p ret counter tray s) := by
  unfold issue
  dsimp only
  split
  · refine PhaseKept.trans ?_ (phaseKept_stopA3 _ _)
    exact phaseKept_of_eq rfl rfl rfl
  · have hin := phaseKept_injectPacket { p with srcTile := BitVec.ofNat 8 t.val } tray s
    split
    · next h => rw [h] at hin; exact hin
    · next h => rw [h] at hin; exact hin.trans (phaseKept_of_eq rfl rfl rfl)

theorem phaseKept_sendCopy (fuel : Nat) (j : CopyJob) (s : State) : PhaseKept s (sendCopy fuel j s).2 := by
  induction fuel generalizing j s with
  | zero => exact PhaseKept.refl s
  | succ n ih =>
    unfold sendCopy
    split
    · exact PhaseKept.refl s
    · split
      · split
        · exact (phaseKept_foldl (fun s e => phaseKept_issue ..) _ s).trans (ih _ _)
        · exact PhaseKept.refl s
      · exact PhaseKept.refl s

theorem phaseKept_pumpCopies (s : State) : PhaseKept s (pumpCopies s) := by
  unfold pumpCopies
  refine phaseKept_foldl (fun u j => ?_) s.remote.copies s
  split
  · exact (phaseKept_sendCopy 2048 j u).trans (phaseKept_of_eq rfl rfl rfl)
  · exact PhaseKept.refl u

theorem phaseKept_transferPull (p : Plan) (x : Transfer) (s : State) : PhaseKept s (transferPull p x s) := by
  unfold transferPull
  dsimp only
  split
  · exact phaseKept_issue ..
  · exact PhaseKept.refl s

theorem phaseKept_startTransfers (p : Plan) (ts : List Transfer) (s : State) : PhaseKept s (startTransfers p ts s) := by
  unfold startTransfers
  refine PhaseKept.trans (phaseKept_foldl (fun u x => ?_) ts s) (phaseKept_pumpCopies _)
  split
  · exact phaseKept_transferPull ..
  · exact phaseKept_of_eq rfl rfl rfl

/-- Without transfers nothing starts. -/
theorem startTransfers_nil {p : Plan} {s : State} (h : s.remote.copies = []) : startTransfers p [] s = s := by
  rw [startTransfers, List.foldl_nil, pumpCopies, h, List.foldl_nil]

end Sys2Proof.Machine
end

section
/-! A phase boundary as a whole. -/
namespace Sys2Proof.Machine
open Sys2Proof

section
variable (p : Plan) (ts : List Transfer) (phases phase : Nat) (s : State)

/-- The state once a boundary has set tiles, counters and groups for the phase. -/
def started : State :=
  { setKinds (flagKeys p phase) (startTiles p ts phase (replacePrograms p phases phase s)) with
    fabric.groups := bindGroups p phase, job.opened := some phase }

/-- The state before a boundary's transfers start. -/
def opening : State := finishTiles p (started p ts phases phase s)

theorem startPhase_eq (m : ModPlan) : startPhase p m phases phase s =
    startTransfers p (tget m.transfers phase []) (opening p (tget m.transfers phase []) phases phase s) := rfl

theorem tile_started (j : Nat) : tile (started p ts phases phase s) j = tile (startTiles p ts phase (replacePrograms p phases phase s)) j := by
  change tile (setKinds (flagKeys p phase) (startTiles p ts phase (replacePrograms p phases phase s))) j = _
  rw [setKinds_only]
  rfl

/-- Slots with nothing to do run to their end. -/
theorem opening_kept : PhaseKept (started p ts phases phase s) (opening p ts phases phase s) := phaseKept_finishTiles p _

theorem opening_only : BoundaryOnly s (opening p ts phases phase s) := by
  have hstart := (boundaryOnly_replacePrograms p phases phase s).trans (boundaryOnly_startTiles p ts phase _)
  refine finishTiles_keeps (P := BoundaryOnly s) (fun t k u hu => hu.trans (seqOnly_finish t k u).boundaryOnly) p (hstart.trans ?_)
  unfold started
  generalize startTiles p ts phase (replacePrograms p phases phase s) = u
  have hk := setKinds_only (flagKeys p phase) u
  generalize setKinds (flagKeys p phase) u = v at *
  unfold BoundaryOnly
  rw [hk]

theorem opening_kinds (j : Nat) : (ctr (opening p ts phases phase s) j).isFlag = (flagKeys p phase).contains j := by
  refine finishTiles_keeps (P := fun u => (ctr u j).isFlag = (flagKeys p phase).contains j) (fun t k u hu => ?_) p (isFlag_setKinds ..)
  unfold ctr at *
  rw [(seqOnly_finish t k u).1]
  exact hu

variable {p}

/-- A tile of the plan awaits the phase's arrivals with an empty node store, its programs in its instruction memory. -/
theorem opening_atStart {i : Nat} (hi : i ∈ p.tiles) : AtStart phase (awaitsOf p ts i) (tile (opening p ts phases phase s) i) ∧
    (phase < phases → thas (tile (opening p ts phases phase s) i).imem phase = true) := by
  have hkept := (opening_kept p ts phases phase s).1 i
  rw [tile_started] at hkept
  obtain ⟨r, hr⟩ := startTiles_starts ts phase (replacePrograms p phases phase s) hi
  refine ⟨AtStart.slotsOnly hkept ?_, fun hp => ?_⟩
  · rw [hr]
    exact atStart_startRec ..
  · rw [hkept.imem, startTiles_imem]
    exact replacePrograms_loads hp s hi

/-- Its slots stand at the start of their programs, or at their end. -/
theorem opening_slots {i k : Nat} (hi : i ∈ p.tiles) (hk : k < 8) :
    slot (tile (opening p ts phases phase s) i) k = startSlot (program (tile (opening p ts phases phase s) i) k) ∨
      (slot (tile (opening p ts phases phase s) i) k).st = .idle := by
  obtain ⟨r, hr⟩ := startTiles_starts ts phase (replacePrograms p phases phase s) hi
  have hstart := (tile_started p ts phases phase s i).trans hr
  have hprog := ((opening_kept p ts phases phase s).1 i).program k
  have hat : AtOrIdle (startSlot (program (tile (started p ts phases phase s) i) k)) (tile (opening p ts phases phase s) i) k := by
    refine finishTiles_keeps (P := fun u => AtOrIdle _ (tile u i) k) (fun t j u hu => atOrIdle_finish t j hu) p ?_
    rw [hstart, AtOrIdle, slot_startRec phase _ r hk]
    refine ⟨.inl rfl, ?_⟩
    unfold startSlot
    split <;> rfl
  rw [hprog]
  exact hat.1

end

theorem exec_phaseBoundary {s : State} {im : Image} {p : Plan} {m : ModPlan} {phase : Nat} (him : s.job.image = some im) (hp : s.job.plan = some p)
    (hm : ownPlan s = some m) (hrun : jobRunning s = true) (hnone : s.job.phase = none) (hcoming : comingPhase s im = some phase)
    (hopen : s.job.opened ≠ some phase) :
    exec (.phaseBoundary phase) s = .next (startPhase p (boundaryPlan s im p m phase) im.phases.length phase s) := by
  change execPhaseBoundary phase s = _
  unfold execPhaseBoundary
  simp only [him, hp, hm, hrun, hnone, hcoming, hopen, ne_eq, not_false_eq_true, and_self, if_true]

/-- The boundary before the phase that comes (R69, R70, R294, R490, R563). -/
theorem startPhase_opens (p : Plan) (m : ModPlan) (phases phase : Nat) (s : State) : let ts := tget m.transfers phase []
    let u := startPhase p m phases phase s
    u.fabric.groups = bindGroups p phase ∧ u.job.opened = some phase ∧
    (∀ i ∈ p.tiles, (tile u i).phase = phase ∧ (tile u i).awaits = awaitsOf p ts i ∧ (tile u i).entries = [] ∧
      (tile u i).outs = [] ∧ (tile u i).completed = [] ∧ (tile u i).children = [] ∧ (tile u i).nodes = [] ∧
      (phase < phases → thas (tile u i).imem phase = true)) ∧
    (ts = [] → s.remote.copies = [] → u.mem = s.mem ∧ (∀ j, (ctr u j).isFlag = (flagKeys p phase).contains j) ∧
      ∀ i ∈ p.tiles, ∀ k, k < 8 → slot (tile u i) k = startSlot (program (tile u i) k) ∨ (slot (tile u i) k).st = .idle) := by
  intro ts u
  obtain ⟨-, hgroups, hopened⟩ := opening_kept p ts phases phase s
  obtain ⟨htiles, hg, ho⟩ := phaseKept_startTransfers p ts (opening p ts phases phase s)
  refine ⟨hg.trans hgroups, ho.trans hopened, fun i hi => ?_, fun hts hcopies => ?_⟩
  · obtain ⟨hstart, hloads⟩ := opening_atStart ts phases phase s hi
    obtain ⟨h1, h2, h3, h4, h5, h6, h7⟩ := AtStart.slotsOnly (htiles i) hstart
    exact ⟨h1, h2, h3, h4, h5, h6, h7, fun hp => (congrArg (thas · phase) (htiles i).imem).trans (hloads hp)⟩
  · have honly := opening_only p ts phases phase s
    have hu : u = opening p ts phases phase s := by
      refine (startPhase_eq p phases phase s m).trans ?_
      change startTransfers p ts (opening p ts phases phase s) = _
      rw [hts]
      refine startTransfers_nil ?_
      rw [← hts, honly]
      exact hcopies
    rw [hu]
    exact ⟨by rw [honly], opening_kinds p ts phases phase s, fun i hi k hk => opening_slots ts phases phase s hi hk⟩

end Sys2Proof.Machine
end

section
open Sys2Proof Sys2Proof.Machine

/-- Settles O19, clause by clause: gating, wake, the two steps of a shadow check, and the boundary before the phase that comes. -/
theorem gatingWakeShadowChecksAndPhases : Obligations.GatingWakeShadowChecksAndPhases := by
  unfold Obligations.GatingWakeShadowChecksAndPhases
  intro s t
  refine ⟨fun c => ⟨fun h => ?_, fun h => ?_⟩, fun h => ?_, fun h => ?_, fun hfa hu hc hh hv w hw => ?_, fun h => ?_, fun h w => ?_, fun x a b hx hfin => ?_,
    fun x a b hx hst => thirdTile_names hx hst, fun im p m phase him hp hm hrun hnone hcoming hopen => ?_⟩
  · exact ⟨_, (exec_unitClockGate ..).trans (congrArg Host.Outcome.next (if_pos h)), onlyTile_updTile .., tile_updTile_self ..⟩
  · exact (exec_unitClockGate ..).trans (congrArg Host.Outcome.next (if_neg (by rw [h]; exact Bool.false_ne_true)))
  · exact ⟨_, (exec_crownClockGate ..).trans (congrArg Host.Outcome.next (if_pos h)), onlyTile_updTile .., tile_updTile_self ..⟩
  · exact (exec_crownClockGate ..).trans (congrArg Host.Outcome.next (if_neg (by rw [h]; exact Bool.false_ne_true)))
  · exact ⟨_, exec_crownWake hfa hu hc hh hv hw, crownWake_leaves s t⟩
  · change execCrownWake t .signal s = _
    simp [execCrownWake, h]
  · change execCrownWake t w s = _
    simp [execCrownWake, h]
  · refine ⟨_, shadowCompare_finite hx hfin, onlyTile_setTile .., fun hd => ?_, fun hd => ?_⟩
    · rw [tile_setTile_self, hd]
      rfl
    · rw [tile_setTile_self, hd]
      refine ⟨List.mem_map.mpr ⟨x, List.mem_of_find?_eq_some hx, ?_⟩, List.length_map ..⟩
      rw [beq_self_eq_true]
      rfl
  · exact ⟨_, exec_phaseBoundary him hp hm hrun hnone hcoming hopen, startPhase_opens p (boundaryPlan s im p m phase) im.phases.length phase s⟩

end

section
/-! The vector unit (R64, R65, R67): operands and results lane by lane, conversions, and reads that fail. -/
namespace Sys2Proof.Machine
open Sys2Proof

/-! ### Lanes and operands -/

/-- A list of values that are all there. -/
theorem exists_map_some {α : Type} {fs : List (Option α)} (h : fs.all (·.isSome) = true) : ∃ xs : List α, fs = xs.map some := by
  induction fs with
  | nil => exact ⟨[], rfl⟩
  | cons f fs ih =>
    simp only [List.all_cons, Bool.and_eq_true] at h
    obtain ⟨hf, hfs⟩ := h
    obtain ⟨v, rfl⟩ := Option.isSome_iff_exists.mp hf
    obtain ⟨xs, rfl⟩ := ih hfs
    exact ⟨v :: xs, rfl⟩

/-- An element of a list of values that are all there. -/
theorem nth_of_map_some {α : Type} {xs : List α} {f : Nat → Option α} {n : Nat} (h : (List.range n).map f = xs.map some) {i : Nat} (hi : i < n) (d : α) :
    f i = some (nth xs i d) := by
  have hel : (xs.map some)[i]? = some (f i) := by
    rw [← h, List.getElem?_map, List.getElem?_range hi]
    rfl
  rw [List.getElem?_map] at hel
  obtain ⟨w, hw, hwf⟩ := Option.map_eq_some_iff.mp hel
  rw [nth, hw, ← hwf]
  rfl

section
variable {op : VecOp} {bf : Bool} {x y z v : List Word}

/-- Lane `i` of an operation. -/
def laneOf (op : VecOp) (bf : Bool) (x y z : List Word) (i : Nat) : Option Word :=
  if bf then vecPair16 op (nth x i 0) (nth y i 0) (nth z i 0) else some (vecLane op (nth x i 0) (nth y i 0) (nth z i 0))

theorem vecLanes_eq (op : VecOp) (bf : Bool) (x y z : List Word) : vecLanes op bf x y z =
    if ((List.range 64).map (laneOf op bf x y z)).all (·.isSome) then some (((List.range 64).map (laneOf op bf x y z)).filterMap id) else none := rfl

theorem lanes_of_vecLanes (h : vecLanes op bf x y z = some v) : (List.range 64).map (laneOf op bf x y z) = v.map some := by
  rw [vecLanes_eq] at h
  split at h
  · next hall =>
    obtain ⟨xs, hxs⟩ := exists_map_some hall
    rw [← Option.some.inj h, hxs]
    simp
  · exact nomatch h

theorem length_vecLanes (h : vecLanes op bf x y z = some v) : v.length = 64 := by
  have hl := congrArg List.length (lanes_of_vecLanes h)
  rw [List.length_map, List.length_map, List.length_range] at hl
  exact hl.symm

/-- A result holds each lane's value. -/
theorem vecLanes_lane (h : vecLanes op bf x y z = some v) {i : Nat} (hi : i < 64) : laneOf op bf x y z i = some (nth v i 0) :=
  nth_of_map_some (lanes_of_vecLanes h) hi 0

theorem vecLanes_fp32 (op : VecOp) (x y z : List Word) : (vecLanes op false x y z).isSome = true := by
  rw [vecLanes_eq, if_pos]
  · rfl
  · rw [List.all_eq_true]
    rintro e he
    obtain ⟨i, -, rfl⟩ := List.mem_map.mp he
    rfl

end

section
variable {r : TileRec}

theorem nth_append_left (xs ys : List Word) {i : Nat} (hi : i < xs.length) : nth (xs ++ ys) i 0 = nth xs i 0 := by
  rw [nth, nth, List.getElem?_append_left hi]

theorem nth_append_zeros (xs : List Word) (n i : Nat) : nth (xs ++ List.replicate n 0) i 0 = nth xs i 0 := by
  by_cases hi : i < xs.length
  · exact nth_append_left _ _ hi
  · rw [nth, nth, List.getElem?_append_right (by omega), List.getElem?_eq_none (l := xs) (by omega), List.getElem?_replicate]
    split <;> rfl

theorem argLanes_nth {a : VecArg} {x : List Word} (h : argLanes r a = some x) : ∃ vs, argVals r a = some vs ∧ ∀ i, nth x i 0 = nth vs i 0 := by
  obtain ⟨vs, hvs, rfl⟩ := Option.map_eq_some_iff.mp h
  exact ⟨vs, hvs, nth_append_zeros vs _⟩

/-- The operand of an epilogue holds the values of completed entries. -/
theorem argVals_entries {x0 n : Nat} {vs : List Word} (h : argVals r (.entries x0 n) = some vs) :
    n ≤ 64 ∧ ∀ i, i < n → ∃ e, entryOf r (x0 + i) = some e ∧ nth vs i 0 = e.value := by
  simp only [argVals] at h
  split at h
  · next hc =>
    obtain ⟨hn, hall⟩ := hc
    obtain ⟨es, hes⟩ := exists_map_some hall
    refine ⟨hn, fun i hi => ⟨_, nth_of_map_some hes hi ⟨0, 0, 0, false, 0, 0, 0⟩, ?_⟩⟩
    rw [← Option.some.inj h, hes, List.filterMap_map]
    have hval : es.filterMap ((fun d : Option Done => d.map (·.value)) ∘ some) = es.map (·.value) := congrFun List.filterMap_eq_map es
    rw [hval, nth, nth, List.getElem?_map]
    cases es[i]? <;> rfl
  · exact nomatch h

theorem argVals_missing {x0 n i : Nat} (hi : i < n) (h : ∀ y ∈ r.completed, y.x ≠ x0 + i) : argVals r (.entries x0 n) = none := by
  have hnone : entryOf r (x0 + i) = none := List.find?_eq_none.mpr fun y hy => by simpa using h y hy
  simp only [argVals]
  refine if_neg fun ⟨_, hall⟩ => ?_
  have hsome := List.all_eq_true.mp hall _ (List.mem_map.mpr ⟨i, List.mem_range.mpr hi, rfl⟩)
  rw [hnone] at hsome
  exact nomatch hsome

end

/-! ### Results in the place of completed entries -/

/-- An entry whose value is replaced; the poison of the operands is taken over (R67). -/
def replaced (v : Word) (bad : Bool) (d : Done) : Done := { d with value := v, poisoned := d.poisoned || bad }

/-- The first entry of output `x` replaced. -/
def putDone (x : Nat) (v : Word) (bad : Bool) (ds : List Done) : List Done :=
  match ds[ds.findIdx fun y => y.x == x]? with
  | some d => lset ds (ds.findIdx fun y => y.x == x) (replaced v bad d)
  | none => ds

/-- Values put into the first entries of outputs `x0 + m` on. -/
def putDones (x0 : Nat) (bad : Bool) (vs : List Word) (m : Nat) (ds : List Done) : List Done :=
  (vs.zipIdx m).foldl (fun ds e => putDone (x0 + e.2) e.1 bad ds) ds

theorem putEntries_eq (x0 : Nat) (vs : List Word) (bad : Bool) (r : TileRec) :
    putEntries x0 vs bad r = { r with completed := putDones x0 bad vs 0 r.completed } := rfl

section
variable (x x0 : Nat) (v : Word) (bad : Bool)

theorem putDone_cons (d : Done) (ds : List Done) : putDone x v bad (d :: ds) = if d.x = x then replaced v bad d :: ds else d :: putDone x v bad ds := by
  unfold putDone
  rw [List.findIdx_cons]
  by_cases h : d.x = x
  · rw [if_pos h, show (d.x == x) = true from beq_iff_eq.mpr h]
    rfl
  · rw [if_neg h, show (d.x == x) = false from beq_eq_false_iff_ne.mpr h]
    simp only [cond_false, List.getElem?_cons_succ]
    cases ds[ds.findIdx fun y => y.x == x]? <;> rfl

theorem map_x_putDone (ds : List Done) : (putDone x v bad ds).map (·.x) = ds.map (·.x) := by
  induction ds with
  | nil => rfl
  | cons d ds ih =>
    rw [putDone_cons]
    split
    · rfl
    · rw [List.map_cons, ih, List.map_cons]

theorem find_x_cons (y : Nat) (d : Done) (ds : List Done) :
    (d :: ds).find? (fun d => d.x == y) = if d.x = y then some d else ds.find? fun d => d.x == y := by
  rw [List.find?_cons]
  split
  · next h => rw [if_pos (beq_iff_eq.mp h)]
  · next h => rw [if_neg (beq_eq_false_iff_ne.mp h)]

theorem find_putDone (y : Nat) (ds : List Done) : (putDone x v bad ds).find? (fun d => d.x == y) =
    if y = x then (ds.find? fun d => d.x == y).map (replaced v bad) else ds.find? fun d => d.x == y := by
  induction ds with
  | nil => split <;> rfl
  | cons d ds ih =>
    have hx : (replaced v bad d).x = d.x := rfl
    rw [putDone_cons]
    by_cases hd : d.x = x
    · rw [if_pos hd, find_x_cons, find_x_cons, hx, hd]
      by_cases hy : x = y
      · rw [if_pos hy, if_pos hy.symm, if_pos hy]
        rfl
      · rw [if_neg hy, if_neg (Ne.symm hy), if_neg hy]
    · rw [if_neg hd, find_x_cons, find_x_cons, ih]
      by_cases hy : d.x = y
      · rw [if_pos hy, if_pos hy, if_neg (fun h => hd (hy.trans h))]
      · rw [if_neg hy, if_neg hy]

theorem map_x_putDones (vs : List Word) (m : Nat) (ds : List Done) : (putDones x0 bad vs m ds).map (·.x) = ds.map (·.x) :=
  List.foldlRecOn (motive := fun l => l.map (·.x) = ds.map (·.x)) (vs.zipIdx m) _ rfl fun l hl _ _ => (map_x_putDone _ _ _ l).trans hl

/-- Each of the first entries of outputs `x0 + m` on takes its value; the others stay. -/
theorem find_putDones (i : Nat) (vs : List Word) (m : Nat) (ds : List Done) : (putDones x0 bad vs m ds).find? (fun d => d.x == x0 + i) =
    if m ≤ i ∧ i < m + vs.length then (ds.find? fun d => d.x == x0 + i).map (replaced (nth vs (i - m) 0) bad) else ds.find? fun d => d.x == x0 + i := by
  induction vs generalizing m ds with
  | nil => rw [if_neg (by simp)]; rfl
  | cons w ws ih =>
    have hstep : putDones x0 bad (w :: ws) m ds = putDones x0 bad ws (m + 1) (putDone (x0 + m) w bad ds) := rfl
    rw [hstep, ih, find_putDone, List.length_cons]
    by_cases him : i = m
    · subst him
      rw [if_neg (by omega), if_pos rfl, if_pos (by omega), Nat.sub_self]
      rfl
    · rw [if_neg (show ¬x0 + i = x0 + m by omega)]
      by_cases hi : m ≤ i ∧ i < m + (ws.length + 1)
      · rw [if_pos (by omega), if_pos hi, show i - m = i - (m + 1) + 1 by omega]
        rfl
      · rw [if_neg (by omega), if_neg hi]

end

end Sys2Proof.Machine
end

section
/-! VECTOR_OP (R64, R65, R67, R82 to R84): the instruction as a whole. -/
namespace Sys2Proof.Machine
open Sys2Proof

/-- What the vector unit does with VECTOR_OP. -/
def vecWork (t k : Nat) (op : VecInstr) (parityOk : Bool) (ecc : Ecc) (s : State) : State :=
  let f := (vecEffect s t op).getD id
  let ecc := if vecReadsStore op then ecc else .ok
  let s := retire 2 t k s
  if !parityOk || ecc == .uncorrectable then crownUncorrectable t s
  else updTile t f (if ecc = .corrected then crownCorrected t s else s)

theorem exec_vectorOp (t : Tile) (k : SlotId) (fetch : List Ecc) (s : State) (op : VecInstr) (p : Bool) (e : Ecc) :
    exec (.vectorOp ⟨t, k, fetch⟩ op p e) s = .next (issued ⟨t, k, fetch⟩ 2 (vecEffect s t op).isSome (vecWork t k op p e) s) := rfl

/-- An instruction that its unit does not accept changes nothing. -/
theorem issued_refused {i : Issue} {n : Nat} {ok : Bool} {f : State → State} {s : State} (h : (canIssue s i.tile i.slot n && ok) = false) :
    issued i n ok f s = s := by
  rw [issued, h]
  rfl

theorem vectorOp_none {s : State} {t : Tile} {k : SlotId} {op : VecInstr} (h : vecEffect s t op = none) (p : Bool) (e : Ecc) :
    exec (.vectorOp ⟨t, k, []⟩ op p e) s = .next s := by
  rw [exec_vectorOp, issued_refused]
  rw [h]
  exact Bool.and_false _

/-! ### The effect -/

section
variable {s u : State} {t : Nat}

theorem argVals_congr {r w : TileRec} (hr : w.regs = r.regs) (hc : w.completed = r.completed) (a : VecArg) : argVals w a = argVals r a := by
  cases a with
  | reg i => simp only [argVals, vreg, hr]
  | entries x0 n =>
    have he : entryOf w = entryOf r := by
      funext x
      rw [entryOf, entryOf, hc]
    simp only [argVals, he]
theorem argLanes_congr {r w : TileRec} (hr : w.regs = r.regs) (hc : w.completed = r.completed) (a : VecArg) : argLanes w a = argLanes r a := by
  rw [argLanes, argVals_congr hr hc, argLanes]
theorem argPoison_congr {r w : TileRec} (hc : w.completed = r.completed) (a : VecArg) : argPoison w a = argPoison r a := by
  cases a <;> simp only [argPoison, entryOf, hc]
theorem convRnd_congr (hj : u.job.roundSeed = s.job.roundSeed) (hn : stepNow u = stepNow s) : convRnd u = convRnd s := by
  funext cv i
  rw [convRnd, convRnd, hj, hn]

/-- The effect depends on the registers, the completed entries, and the seed and step of the draws. -/
theorem vecEffect_congr (hr : (tile u t).regs = (tile s t).regs) (hc : (tile u t).completed = (tile s t).completed)
    (hj : u.job.roundSeed = s.job.roundSeed) (hn : stepNow u = stepNow s) (op : VecInstr) : vecEffect u t op = vecEffect s t op := by
  cases op <;> simp only [vecEffect, argLanes_congr hr hc, argVals_congr hr hc, argPoison_congr hc, convRnd_congr hj hn]

theorem vecEffect_begun (k : Nat) (op : VecInstr) : vecEffect (begun t k s) t op = vecEffect s t op := by
  refine vecEffect_congr ?_ ?_ ?_ ?_ op
  · rw [tile_begun]
    rfl
  · rw [tile_begun]
    rfl
  · rw [begun_frame]
  · unfold stepNow
    rw [begun_frame]

theorem vecEffect_lanes {op : VecOp} {bf : Bool} {d a b c : VecArg} {x y z : List Word} (ha : argLanes (tile s t) a = some x)
    (hb : argLanes (tile s t) b = some y) (hc : argLanes (tile s t) c = some z) (hd : (argVals (tile s t) d).isSome = true) :
    vecEffect s t (.lanes op bf d a b c) = (vecLanes op bf x y z).map fun v =>
      putLanes (argPoison (tile s t) a || argPoison (tile s t) b || argPoison (tile s t) c) v d := by
  obtain ⟨w, hw⟩ := Option.isSome_iff_exists.mp hd
  simp only [vecEffect, ha, hb, hc, hw]

theorem vecEffect_convert {cv : Convert} {d c : Fin 32} {a : VecArg} {vs : List Word} (ha : argVals (tile s t) a = some vs) :
    vecEffect s t (.convert cv d c a) = if convertible cv.fmt then
      some fun r => setVreg d (convRegs cv (convertRun cv ((convElems cv.bf16 vs).zipIdx.map fun e => (e.1, convRnd s cv e.2)))).1
        (setVreg c (convRegs cv (convertRun cv ((convElems cv.bf16 vs).zipIdx.map fun e => (e.1, convRnd s cv e.2)))).2 r)
    else none := by simp only [vecEffect, ha]

/-- Registers and completed entries: nothing else changes. -/
theorem putLanes_writes (bad : Bool) (v : List Word) (d : VecArg) (r : TileRec) : ∃ regs cs, putLanes bad v d r = { r with regs := regs, completed := cs } := by
  cases d with
  | reg i => exact ⟨_, _, rfl⟩
  | entries x0 n => exact ⟨_, _, rfl⟩

theorem vecEffect_writes {op : VecInstr} {f : TileRec → TileRec} (h : vecEffect s t op = some f) (r : TileRec) :
    ∃ regs cs, f r = { r with regs := regs, completed := cs } := by
  cases op with
  | lanes op bf d a b c =>
    simp only [vecEffect] at h
    split at h
    · obtain ⟨v, -, rfl⟩ := Option.map_eq_some_iff.mp h
      exact putLanes_writes ..
    · exact nomatch h
  | convert cv d c a =>
    simp only [vecEffect] at h
    split at h
    · split at h
      · obtain rfl := Option.some.inj h
        exact ⟨_, _, rfl⟩
      · exact nomatch h
    · exact nomatch h

end

/-! ### The instruction -/

section
variable {s : State} {t : Tile} {k : SlotId} {op : VecInstr} {f : TileRec → TileRec}

/-- An operation whose reads succeed writes its result and retires. -/
theorem vectorOp_writes (hc : canIssue s t k 2 = true) (hf : vecEffect s t op = some f) :
    ∃ u, exec (.vectorOp ⟨t, k, []⟩ op true .ok) s = .next u ∧ Issued s u t 2 k ∧
      ∃ sl m sl' m' lu g, tile u t =
        { f { tile s t with slots := sl, retired := m, lastUnit := lu, gated := g, awaits := [] } with slots := sl', retired := m' } := by
  refine ⟨_, exec_vectorOp .., ?_⟩
  have hwork : vecWork t k op true .ok (begun t k s) = updTile t f (retire 2 t k (begun t k s)) := by
    have hecc : (if vecReadsStore op then Ecc.ok else .ok) = .ok := ite_self _
    simp only [vecWork, vecEffect_begun, hf, hecc, Option.getD_some]
    rfl
  have htile : tile (vecWork t k op true .ok (begun t k s)) t = f (serve 2 k (tile (begun t k s) t)) := by rw [hwork, tile_updTile_self, tile_retire]
  obtain ⟨regs, cs, hw⟩ := vecEffect_writes hf (serve 2 k (tile (begun t k s) t))
  rw [hf, Option.isSome_some]
  obtain ⟨hissued, sl', m', hu⟩ := issued_of_worked (f := vecWork t k op true .ok) hc
    (by rw [hwork]; exact (worked_retire ..).trans (worked_updTile ..)) (by rw [hwork]; exact begun_time t k s)
    (by rw [htile, hw]; exact ⟨rfl, rfl, rfl, rfl, rfl, rfl, rfl⟩)
  obtain ⟨sl, m, lu, g, hserve⟩ := serve_begun 2 t k s
  refine ⟨hissued, sl, m, sl', m', lu, g, ?_⟩
  rw [hu, htile, hserve]

/-- A result of lanes in a register. -/
theorem vectorOp_register (hc : canIssue s t k 2 = true) {j : Fin 32} {bad : Bool} {v : List Word} (hf : vecEffect s t op = some (putLanes bad v (.reg j))) :
    ∃ u, exec (.vectorOp ⟨t, k, []⟩ op true .ok) s = .next u ∧ Issued s u t 2 k ∧
      ∃ sl m lu g, tile u t =
        { tile s t with
          slots := sl, retired := m, lastUnit := lu, gated := g, awaits := []
          regs := tset (tile s t).regs j v (List.replicate 64 0) } := by
  obtain ⟨u, hex, hissued, sl, m, sl', m', lu, g, hu⟩ := vectorOp_writes hc hf
  exact ⟨u, hex, hissued, sl', m', lu, g, hu⟩

/-- A result of lanes in the place of completed entries. -/
theorem vectorOp_entries (hc : canIssue s t k 2 = true) {x0 n : Nat} {bad : Bool} {v : List Word}
    (hf : vecEffect s t op = some (putLanes bad v (.entries x0 n))) :
    ∃ u, exec (.vectorOp ⟨t, k, []⟩ op true .ok) s = .next u ∧ Issued s u t 2 k ∧
      ∃ sl m lu g, tile u t =
        { tile s t with
          slots := sl, retired := m, lastUnit := lu, gated := g, awaits := []
          completed := putDones x0 bad (v.take n) 0 (tile s t).completed } := by
  obtain ⟨u, hex, hissued, sl, m, sl', m', lu, g, hu⟩ := vectorOp_writes hc hf
  rw [putLanes, putEntries_eq] at hu
  exact ⟨u, hex, hissued, sl', m', lu, g, hu⟩

theorem vectorOp_convert (hc : canIssue s t k 2 = true) {d c : Fin 32} {v w : List Word} (hf : vecEffect s t op = some fun r => setVreg d v (setVreg c w r)) :
    ∃ u, exec (.vectorOp ⟨t, k, []⟩ op true .ok) s = .next u ∧ Issued s u t 2 k ∧
      (tile u t).regs = tset (tset (tile s t).regs c w (List.replicate 64 0)) d v (List.replicate 64 0) := by
  obtain ⟨u, hex, hissued, sl, m, sl', m', lu, g, hu⟩ := vectorOp_writes hc hf
  exact ⟨u, hex, hissued, by rw [hu]; rfl⟩

/-- An operation one of whose reads fails writes nothing (R82, R83). -/
theorem vectorOp_fails (hc : canIssue s t k 2 = true) (hsome : (vecEffect s t op).isSome = true) {p : Bool} {e : Ecc}
    (hfail : p = false ∨ (e = .uncorrectable ∧ vecReadsStore op = true)) :
    ∃ u, exec (.vectorOp ⟨t, k, []⟩ op p e) s = .next u ∧
      OnlyFaults s { u with remote.ctrs := s.remote.ctrs, job.progressAt := s.job.progressAt } ∧ SameCrown s u t ∧
      ∃ f ∈ u.faults, f.code.toNat = errSramUncorr ∧ f.obj = BitVec.ofNat 32 t := by
  refine ⟨_, exec_vectorOp .., ?_⟩
  have hwork : vecWork t k op p e (begun t k s) = crownUncorrectable t (retire 2 t k (begun t k s)) := by
    unfold vecWork
    dsimp only
    refine if_pos ?_
    obtain rfl | ⟨rfl, hreads⟩ := hfail
    · rfl
    · rw [hreads]
      exact Bool.or_true _
  rw [hsome, issued_ok hc, hwork]
  obtain ⟨honly, hslots, hfault⟩ := crownUncorrectable_leaves t (retire 2 t k (begun t k s))
  obtain ⟨hseq, -⟩ := (seqOnly_retire 2 t k (begun t k s))
  obtain ⟨hfin, -⟩ := seqOnly_finish t k (crownUncorrectable t (retire 2 t k (begun t k s)))
  have hframe := begun_frame t k s
  have htile : ∃ sl m lu g, tile (finish t k [] (crownUncorrectable t (retire 2 t k (begun t k s)))) t =
      { tile s t with slots := sl, retired := m, lastUnit := lu, gated := g, awaits := [] } := by
    obtain ⟨⟨sl, hsl⟩, -⟩ := hslots t
    obtain ⟨sl', m', hend⟩ := endRec_eq k (tile (crownUncorrectable t (retire 2 t k (begun t k s))) t)
    obtain ⟨sl₀, m₀, lu, g, hserve⟩ := serve_begun 2 t k s
    rw [tile_finish, hend, hsl, tile_retire, hserve]
    exact ⟨_, _, _, _, rfl⟩
  generalize finish t k [] (crownUncorrectable t (retire 2 t k (begun t k s))) = u at *
  generalize crownUncorrectable t (retire 2 t k (begun t k s)) = w at *
  generalize retire 2 t k (begun t k s) = v at *
  generalize begun t k s = b at *
  obtain ⟨hw, hmade, hkeys⟩ := honly
  refine ⟨⟨?_, ?_, ?_⟩, ?_, ?_⟩
  · rw [hfin, hw, hseq, hframe]
  · rw [hfin]
    refine hmade.trans ?_
    rw [hseq, hframe]
  · rw [hfin]
    refine hkeys.trans ?_
    rw [hseq, hframe]
  · obtain ⟨sl, m, lu, g, hu⟩ := htile
    unfold SameCrown
    rw [hu]
    generalize tile s t = r
    exact ⟨rfl, rfl, rfl, rfl, rfl, rfl, rfl⟩
  · rw [hfin]
    exact hfault

end

end Sys2Proof.Machine
end

section
/-! What a fetch finds, for the instructions of the crown's units (R82, R84). -/
namespace Sys2Proof.Machine
open Sys2Proof

/-! ### A corrected fetch -/

@[simp] theorem tile_crownCorrected (t j : Nat) (s : State) : tile (crownCorrected t s) j = tile s j := rfl

theorem takeArrivals_crownCorrected (t : Nat) (s : State) : takeArrivals t (crownCorrected t s) = crownCorrected t (takeArrivals t s) :=
  List.foldl_hom (crownCorrected t) (l := (tile s t).awaits) (init := updTile t (fun r => { r with awaits := [] }) s)
    (g₁ := fun s (e : Nat × Nat) => setCtr (tileCtr t e.1) { ctr s (tileCtr t e.1) with value := (ctr s (tileCtr t e.1)).value - e.2 } s)
    (g₂ := fun s (e : Nat × Nat) => setCtr (tileCtr t e.1) { ctr s (tileCtr t e.1) with value := (ctr s (tileCtr t e.1)).value - e.2 } s)
    fun _ _ => rfl

/-- The count of a corrected fetch commutes with what comes before the instruction. -/
theorem begun_crownCorrected (t k : Nat) (s : State) : begun t k (crownCorrected t s) = crownCorrected t (begun t k s) := by
  unfold begun
  rw [takeArrivals_crownCorrected]
  generalize takeArrivals t s = v
  unfold ran
  rw [tile_crownCorrected]
  split <;> rfl

section
variable {s : State} {t : Tile} {k : SlotId} {n : Nat} {f : State → State}

/-- A slot that stands at an instruction for a unit fetches it first. -/
theorem issued_fetch (hn : n ≠ 7) (hset : settled (tile s t) k = slot (tile s t) k) (hc : canIssue s t k n = true) (e : Ecc) :
    issued ⟨t, k, [e]⟩ n true f s = fetched t k e (fun s => finish t k [] (f s)) (begun t k s) := by
  obtain ⟨-, -, -, hunit⟩ := canIssue_slot hc
  rw [nextUnit, hset] at hunit
  obtain ⟨i, hi, rfl⟩ := Option.map_eq_some_iff.mp hunit
  have hsteps : ∀ ecc, ownSteps (tile (takeArrivals t s) t) k ecc = { v := slot (tile s t) k, ecc } := by
    intro ecc
    rw [tile_takeArrivals, tile_updTile_self]
    exact ownSteps_at_unit hi hn ecc
  have hbegun : begun t k s = updTile t (fun r => { r with slots := tset r.slots k (slot (tile s t) k) {}, retired := (r.retired + 0) % 2 ^ 64 })
      (takeArrivals t s) := by
    unfold begun ran
    simp only [updTile, ranRec, hsteps, if_true]
  simp only [issued, hc, Bool.and_self, if_true, ownInstrs, hsteps, correctedTimes, Bool.false_eq_true, if_false, hbegun]
  rfl

/-- A corrected fetch is counted, and the instruction goes on (R82). -/
theorem issued_corrected (hn : n ≠ 7) (hset : settled (tile s t) k = slot (tile s t) k) (hc : canIssue s t k n = true) :
    issued ⟨t, k, [.corrected]⟩ n true f s = issued ⟨t, k, []⟩ n true f (crownCorrected t s) := by
  have hc' : canIssue (crownCorrected t s) t k n = true := hc
  rw [issued_fetch hn hset hc, issued_ok hc', begun_crownCorrected]
  rfl

/-- The programs that the loader restores (R84). -/
theorem reloadTile_leaves (t : Nat) (s : State) : (reloadTile t s).faults = s.faults ∧ ∃ m, tile (reloadTile t s) t = { tile s t with imem := m } := by
  unfold reloadTile
  split
  · exact ⟨rfl, _, rfl⟩
  · dsimp only
    split
    · exact ⟨rfl, _, tile_updTile_self ..⟩
    · exact ⟨rfl, _, rfl⟩

/-- A fetch that finds an error it cannot correct halts the slot with a fault record (R84). -/
theorem fetchFailed_leaves (t k : Nat) (s : State) : SameCrown s (fetchFailed t k s) t ∧ (slot (tile (fetchFailed t k s) t) k).st = .halted ∧
    ∃ f ∈ (fetchFailed t k s).faults, f.code.toNat = errSramUncorr ∧ f.obj = BitVec.ofNat 32 t := by
  unfold fetchFailed
  obtain ⟨-, hslots, hfault⟩ := crownUncorrectable_leaves t (haltSlot t k s)
  obtain ⟨hfaults, m, hm⟩ := reloadTile_leaves t (crownUncorrectable t (haltSlot t k s))
  obtain ⟨⟨sl, hsl⟩, hstays⟩ := hslots t
  have hhalt : tile (haltSlot t k s) t = setSlot k { slot (tile s t) k with st := .halted } (tile s t) := tile_updTile_self ..
  refine ⟨?_, ?_, ?_⟩
  · unfold SameCrown
    rw [hm, hsl, hhalt]
    exact ⟨rfl, rfl, rfl, rfl, rfl, rfl, rfl⟩
  · rw [hm]
    refine hstays k ?_
    rw [hhalt, setSlot, slot_tset, if_pos rfl]
  · rw [hfaults]
    exact hfault

theorem issued_uncorrectable (hn : n ≠ 7) (hset : settled (tile s t) k = slot (tile s t) k) (hc : canIssue s t k n = true) :
    let u := issued ⟨t, k, [.uncorrectable]⟩ n true f s
    SameCrown s u t ∧ (slot (tile u t) k).st = .halted ∧ ∃ f ∈ u.faults, f.code.toNat = errSramUncorr ∧ f.obj = BitVec.ofNat 32 t := by
  rw [issued_fetch hn hset hc]
  obtain ⟨hcrown, hrest⟩ := fetchFailed_leaves t k (begun t k s)
  refine ⟨?_, hrest⟩
  unfold SameCrown at *
  rw [tile_begun] at hcrown
  exact hcrown

/-! ### An instruction that a unit accepts leaves its mark -/

/-- The slot has retired one more instruction, or a stream waits where none did. -/
def Moved (r u : TileRec) : Prop := u.retired = (r.retired + 1) % 2 ^ 64 ∨ (r.stalled = none ∧ u.stalled ≠ none)

theorem retired_endRec (k : Nat) (r : TileRec) : (endRec k r).retired = r.retired ∨ ∃ m ≤ 65536, (endRec k r).retired = (r.retired + m) % 2 ^ 64 := by
  unfold endRec
  split
  · exact .inr ⟨_, (ownSteps_ok r k).2.2.2.1, rfl⟩
  · exact .inl rfl

/-- A slot retires fewer than 2^64 instructions at once, so its count tells. -/
theorem issued_ne (hn : n ≠ 7) (hset : settled (tile s t) k = slot (tile s t) k) (hc : canIssue s t k n = true)
    (hm : Moved (tile (begun t k s) t) (tile (f (begun t k s)) t)) : issued ⟨t, k, []⟩ n true f s ≠ s := by
  intro heq
  have htile : endRec k (tile (f (begun t k s)) t) = tile s t := by
    rw [← tile_finish, ← issued_ok hc, heq]
  obtain ⟨-, -, -, hunit⟩ := canIssue_slot hc
  rw [nextUnit, hset] at hunit
  obtain ⟨i, hi, rfl⟩ := Option.map_eq_some_iff.mp hunit
  have hcount : (tile (begun t k s) t).retired = (tile s t).retired % 2 ^ 64 := by
    rw [tile_begun]
    change ((tile s t).retired + (ownSteps (tile s t) k []).retired) % 2 ^ 64 = _
    rw [ownSteps_at_unit hi hn]
    rfl
  obtain hone | ⟨hnone, hsome⟩ := hm
  · have hend := retired_endRec k (tile (f (begun t k s)) t)
    rw [htile, hone, hcount] at hend
    obtain hend | ⟨m, hm, hend⟩ := hend <;> omega
  · obtain ⟨sl, m, he⟩ := endRec_eq k (tile (f (begun t k s)) t)
    have hst : (tile (f (begun t k s)) t).stalled = (tile s t).stalled := by rw [← htile, he]
    rw [tile_begun] at hnone
    exact hsome (hst.trans hnone)

end

/-! The work of each unit. -/

section
variable (t k : Nat) (s : State)

theorem retired_retire (n : Nat) : (tile (retire n t k s) t).retired = ((tile s t).retired + 1) % 2 ^ 64 := by
  rw [tile_retire]
  rfl

variable {t} in
theorem retired_updTile {f : TileRec → TileRec} (h : ∀ r, (f r).retired = r.retired) : (tile (updTile t f s) t).retired = (tile s t).retired := by
  rw [tile_updTile_self, h]

theorem retired_formed (src : Nat) (cs : List Child) : (tile (formed t src cs s) t).retired = (tile s t).retired := by
  obtain ⟨xs, hx⟩ := tile_formed t src cs s
  rw [hx]

theorem retired_crownUncorrectable : (tile (crownUncorrectable t s) t).retired = (tile s t).retired := by
  obtain ⟨-, hslots, -⟩ := crownUncorrectable_leaves t s
  obtain ⟨⟨sl, hsl⟩, -⟩ := hslots t
  rw [hsl]

theorem retired_failTensor (code : Nat) (own : Option (Nat × Nat)) : (tile (failTensor code own s) t).retired = (tile s t).retired := by
  have hhalt : (tile (haltJob s) t).retired = (tile s t).retired := by rw [tile_haltJob]
  unfold failTensor stopA2 stopF5 declareFault
  split
  · rfl
  · split
    · split
      · exact hhalt
      · rfl
    · split
      · exact hhalt
      · rfl

theorem retired_sramFinds (off req : Nat) (e : Ecc) : (tile (sramFinds t off req e s) t).retired = (tile s t).retired := by
  cases e with
  | ok => rfl
  | corrected => exact retired_updTile s (f := fun r => { r with corr := r.corr + 1 }) fun _ => rfl
  | uncorrectable => exact (retired_failTensor ..).trans (retired_updTile _ (f := fun r => { r with uncorr := r.uncorr + 1 }) fun _ => rfl)

theorem retired_readsFind (req : Nat) (ranges : List (Nat × Nat)) (ecc : List (Nat × Ecc)) :
    (tile (readsFind t req ranges ecc s) t).retired = (tile s t).retired :=
  List.foldlRecOn (motive := fun u => (tile u t).retired = (tile s t).retired) _ _ rfl fun u hu e _ => (retired_sramFinds t u e.1 req e.2).trans hu

theorem moved_runStream (st : Stream) (sw p : Bool) : Moved (tile s t) (tile (runStream t st sw p s) t) := by
  left
  have hretire : (tile (retire 0 t st.slot (updTile t (fun r => { r with stalled := none }) s)) t).retired = ((tile s t).retired + 1) % 2 ^ 64 := by
    rw [retired_retire, retired_updTile]
    exact fun _ => rfl
  unfold runStream
  dsimp only
  generalize retire 0 t st.slot _ = u at *
  split
  · rw [retired_crownUncorrectable, retired_updTile, hretire]
    exact fun _ => rfl
  · rw [retired_formed, retired_updTile]
    · split
      · rw [retired_updTile, hretire]
        exact fun _ => rfl
      · exact hretire
    · exact fun _ => rfl

theorem moved_arrayWork (acc : AccSpec) (rows : List Run) (sw p : Bool) (h : (tile s t).stalled = none) :
    Moved (tile s t) (tile (arrayWork t k acc rows sw p s) t) := by
  have hdown : tile (runsDown t 0 rows s) t = tile s t := tile_runsDown ..
  unfold arrayWork
  dsimp only
  split
  · rw [tile_updTile_self]
    exact .inr ⟨h, Option.some_ne_none _⟩
  · rw [← hdown]
    exact moved_runStream t _ _ sw p

theorem moved_loadWork (cols : List Run) : Moved (tile s t) (tile (loadWork t k cols s) t) := by
  left
  rw [loadWork, tile_updTile_self]
  have hset : ∀ r, (loadSet cols r).retired = r.retired := by
    intro r
    unfold loadSet
    dsimp only
    split <;> rfl
  rw [hset, retired_retire, tile_runsDown]

theorem moved_thinWork (acc : AccSpec) (vecs : Option (List (List Run))) (vs : List (List Run)) (ws : List RunRef) (p : Bool) (es : List (Nat × Ecc)) :
    Moved (tile s t) (tile (thinWork t k acc vecs vs ws p es s) t) := by
  left
  rw [← retired_retire t k s 1]
  unfold thinWork
  dsimp only
  split
  · rw [retired_formed, retired_updTile, tile_runsDown, tile_runsDown, retired_readsFind]
    exact fun _ => rfl
  · exact retired_crownUncorrectable ..

theorem moved_vecWork (op : VecInstr) (p : Bool) (e : Ecc) : Moved (tile s t) (tile (vecWork t k op p e s) t) := by
  left
  rw [← retired_retire t k s 2]
  unfold vecWork
  dsimp only
  generalize (if vecReadsStore op then e else Ecc.ok) = found
  have hf : ∀ r, ((vecEffect s t op).getD id r).retired = r.retired := by
    intro r
    cases heff : vecEffect s t op with
    | none => rfl
    | some f =>
      obtain ⟨regs, cs, hw⟩ := vecEffect_writes heff r
      rw [Option.getD_some, hw]
  split
  · exact retired_crownUncorrectable ..
  · rw [retired_updTile _ hf]
    split <;> rfl

theorem moved_reduceWork (kind : ReduceKind) (acc : AccSpec) (inputs : ReduceIn) : Moved (tile s t) (tile (reduceWork t k kind acc inputs s) t) := by
  left
  rw [reduceWork, retired_formed, retired_retire, tile_crossVertical]

end

end Sys2Proof.Machine
end

section
/-! The instructions of the crown's units as issues, and vector operations as a whole. -/
namespace Sys2Proof.Machine
open Sys2Proof

/-- `mk` makes instructions for a unit of the crown: whatever their fetch, an issue to it, which leaves its mark where the unit accepts it. -/
def UnitIssue (mk : Issue → Instr) (t : Tile) (k : SlotId) (s : State) : Prop :=
  ∃ n ok f, n ≠ 7 ∧ (∀ fetch, exec (mk ⟨t, k, fetch⟩) s = .next (issued ⟨t, k, fetch⟩ n ok f s)) ∧
    exec (mk ⟨t, k, []⟩) (crownCorrected t s) = .next (issued ⟨t, k, []⟩ n ok f (crownCorrected t s)) ∧
    (ok = true → Moved (tile (begun t k s) t) (tile (f (begun t k s)) t))

section
variable (t : Tile) (k : SlotId) (s : State)

theorem unitIssue_arrayStream (acc : AccSpec) (rows : List Run) (sw p : Bool) : UnitIssue (fun i => .arrayStream i acc rows sw p) t k s := by
  refine ⟨0, _, _, by decide, fun fetch => exec_arrayStream t k fetch s acc rows sw p, rfl, fun hok => moved_arrayWork t k _ acc rows sw p ?_⟩
  simp only [Bool.and_eq_true, Option.isNone_iff_eq_none] at hok
  obtain ⟨⟨hst, -⟩, -⟩ := hok
  rw [tile_begun]
  exact hst

theorem unitIssue_stationaryLoad (cols : List Run) : UnitIssue (fun i => .stationaryLoad i cols) t k s :=
  ⟨3, _, _, by decide, fun fetch => exec_stationaryLoad t k fetch s cols, rfl, fun _ => moved_loadWork t k _ cols⟩

theorem unitIssue_thinPathPass (acc : AccSpec) (vecs : Option (List (List Run))) (ws : List RunRef) (p : Bool) (es : List (Nat × Ecc)) :
    UnitIssue (fun i => .thinPathPass i acc vecs ws p es) t k s :=
  ⟨1, _, _, by decide, fun fetch => exec_thinPathPass t k fetch s acc vecs ws p es, rfl, fun _ => moved_thinWork t k _ acc vecs _ ws p es⟩

theorem unitIssue_vectorOp (op : VecInstr) (p : Bool) (e : Ecc) : UnitIssue (fun i => .vectorOp i op p e) t k s :=
  ⟨2, _, _, by decide, fun fetch => exec_vectorOp t k fetch s op p e, rfl, fun _ => moved_vecWork t k _ op p e⟩

theorem unitIssue_leafReduce (kind : ReduceKind) (acc : AccSpec) (inputs : ReduceIn) : UnitIssue (fun i => .leafReduce i kind acc inputs) t k s :=
  ⟨2, _, _, by decide, fun fetch => exec_leafReduce t k fetch s kind acc inputs, rfl, fun _ => moved_reduceWork t k _ kind acc inputs⟩
end

/-- What the fetch of an instruction for a unit finds (R82, R84). -/
theorem UnitIssue.fetch {mk : Issue → Instr} {t : Tile} {k : SlotId} {s : State} (h : UnitIssue mk t k s)
    (hset : settled (tile s t) k = slot (tile s t) k) :
    (exec (mk ⟨t, k, []⟩) s = .next s → exec (mk ⟨t, k, [.corrected]⟩) s = .next s) ∧
    (exec (mk ⟨t, k, []⟩) s ≠ .next s → exec (mk ⟨t, k, [.corrected]⟩) s = exec (mk ⟨t, k, []⟩) (crownCorrected t s)) ∧
    (exec (mk ⟨t, k, []⟩) s ≠ .next s → ∃ u, exec (mk ⟨t, k, [.uncorrectable]⟩) s = .next u ∧ SameCrown s u t ∧
      (slot (tile u t) k).st = .halted ∧ ∃ f ∈ u.faults, f.code.toNat = errSramUncorr ∧ f.obj = BitVec.ofNat 32 t) := by
  obtain ⟨n, ok, f, hn, hex, hexc, hmoved⟩ := h
  rw [hex, hex, hexc, hex]
  cases hacc : canIssue s t k n && ok with
  | false =>
    have hsame : ∀ fetch, issued ⟨t, k, fetch⟩ n ok f s = s := fun fetch => issued_refused hacc
    rw [hsame, hsame]
    exact ⟨fun _ => rfl, fun h => absurd rfl h, fun h => absurd rfl h⟩
  | true =>
    obtain ⟨hc, rfl⟩ := Bool.and_eq_true_iff.mp hacc
    have hne : issued ⟨t, k, []⟩ n true f s ≠ s := issued_ne hn hset hc (hmoved rfl)
    exact ⟨fun h => absurd (Host.Outcome.next.inj h) hne, fun _ => congrArg _ (issued_corrected hn hset hc),
      fun _ => ⟨_, rfl, issued_uncorrectable hn hset hc⟩⟩

/-! ### Results -/

theorem vreg_regs {r : TileRec} {m : Table (List Word)} {j : Nat} {v : List Word} (h : r.regs = tset m j v (List.replicate 64 0)) (i : Nat) :
    vreg r i = if i = j then v else tget m i (List.replicate 64 0) := by
  rw [vreg, h]
  split
  · next hi => rw [hi, tget_tset_self]
  · next hi => exact tget_tset_ne _ _ _ _ _ hi

section
variable {s : State} {t : Tile} {k : SlotId}

/-- What an operation lane by lane leaves, by its destination (R64, R65, R67). -/
theorem vectorOp_lanes (hc : canIssue s t k 2 = true) {op : VecOp} {bf : Bool} {d a b c : VecArg} {x y z v : List Word}
    (ha : argLanes (tile s t) a = some x) (hb : argLanes (tile s t) b = some y) (hz : argLanes (tile s t) c = some z)
    (hd : (argVals (tile s t) d).isSome = true) (hv : vecLanes op bf x y z = some v) :
    ∃ u, exec (.vectorOp ⟨t, k, []⟩ (.lanes op bf d a b c) true .ok) s = .next u ∧ Issued s u t 2 k ∧
      (tile u t).children = (tile s t).children ∧ (tile u t).setA = (tile s t).setA ∧ (tile u t).setB = (tile s t).setB ∧
      (tile u t).entries = (tile s t).entries ∧
      (∀ j : Fin 32, d = .reg j → vreg (tile u t) j = v ∧ (∀ i : Nat, i ≠ j → vreg (tile u t) i = vreg (tile s t) i) ∧
        (tile u t).completed = (tile s t).completed) ∧
      (∀ x0 n : Nat, d = .entries x0 n → (∀ i : Nat, vreg (tile u t) i = vreg (tile s t) i) ∧
        (tile u t).completed.map (·.x) = (tile s t).completed.map (·.x) ∧
        ∀ i, i < n → ∀ e, entryOf (tile s t) (x0 + i) = some e → entryOf (tile u t) (x0 + i) =
          some { e with
            value := nth v i 0
            poisoned := e.poisoned || argPoison (tile s t) a || argPoison (tile s t) b || argPoison (tile s t) c }) := by
  have hf := vecEffect_lanes (op := op) (bf := bf) ha hb hz hd
  rw [hv, Option.map_some] at hf
  cases d with
  | reg j =>
    obtain ⟨u, hex, hissued, sl, m, lu, g, hu⟩ := vectorOp_register hc hf
    have hregs : (tile u t).regs = tset (tile s t).regs j v (List.replicate 64 0) := by rw [hu]
    refine ⟨u, hex, hissued, by rw [hu], by rw [hu], by rw [hu], by rw [hu], fun i hi => ?_, fun x0 n h => nomatch h⟩
    obtain rfl := VecArg.reg.inj hi
    refine ⟨?_, fun i hi => ?_, by rw [hu]⟩
    · rw [vreg_regs hregs, if_pos rfl]
    · rw [vreg_regs hregs, if_neg hi, vreg]
  | entries x0 n =>
    obtain ⟨u, hex, hissued, sl, m, lu, g, hu⟩ := vectorOp_entries hc hf
    obtain ⟨w, hw⟩ := Option.isSome_iff_exists.mp hd
    obtain ⟨hn, -⟩ := argVals_entries hw
    have hlen : (v.take n).length = n := by rw [List.length_take, length_vecLanes hv]; omega
    refine ⟨u, hex, hissued, by rw [hu], by rw [hu], by rw [hu], by rw [hu], fun j hj => (nomatch hj), fun x0' n' h => ?_⟩
    obtain ⟨rfl, rfl⟩ := VecArg.entries.inj h
    refine ⟨fun i => by rw [vreg, hu, vreg], ?_, fun i hi e he => ?_⟩
    · rw [hu]
      exact map_x_putDones ..
    · have hnth : nth (v.take n) i 0 = nth v i 0 := by rw [nth, nth, List.getElem?_take_of_lt hi]
      rw [entryOf] at he
      rw [entryOf, hu]
      change (putDones _ _ _ _ _).find? _ = _
      rw [find_putDones, if_pos ⟨Nat.zero_le _, by omega⟩, he, Nat.sub_zero, hnth, Option.map_some, replaced, Bool.or_assoc, Bool.or_assoc, Bool.or_assoc]

/-- What a conversion leaves (R65, R100, R103). -/
theorem vectorOp_converts (hc : canIssue s t k 2 = true) {cv : Convert} {d c : Fin 32} {a : VecArg} {vs : List Word} (ha : argVals (tile s t) a = some vs)
    (hcv : convertible cv.fmt = true) (hdc : d ≠ c) :
    ∃ u, exec (.vectorOp ⟨t, k, []⟩ (.convert cv d c a) true .ok) s = .next u ∧ Issued s u t 2 k ∧
      (let q := convRegs cv (convertRun cv ((convElems cv.bf16 vs).zipIdx.map fun e => (e.1, convRnd s cv e.2)))
       vreg (tile u t) d = q.1 ∧ vreg (tile u t) c = q.2) ∧
      ∀ j : Nat, j ≠ d → j ≠ c → vreg (tile u t) j = vreg (tile s t) j := by
  have hf := vecEffect_convert (s := s) (cv := cv) (d := d) (c := c) ha
  rw [if_pos hcv] at hf
  obtain ⟨u, hex, hissued, hregs⟩ := vectorOp_convert hc hf
  have hcd : (c : Nat) ≠ d := fun h => hdc (Fin.val_injective h).symm
  refine ⟨u, hex, hissued, ⟨?_, ?_⟩, fun j hjd hjc => ?_⟩
  · rw [vreg_regs hregs, if_pos rfl]
  · rw [vreg_regs hregs, if_neg hcd, tget_tset_self]
  · rw [vreg_regs hregs, if_neg hjd, tget_tset_ne _ _ _ _ _ hjc, vreg]

end

end Sys2Proof.Machine
end

section
open Sys2Proof Sys2Proof.Machine

/-- Settles O15, clause by clause: lanes and operands, results, forms refused, reads that fail, and what a fetch finds. -/
theorem vectorOperationsLaneByLane : Obligations.VectorOperationsLaneByLane := by
  unfold Obligations.VectorOperationsLaneByLane
  intro s t k
  refine ⟨fun op x y z v => ⟨fun bf hv i hi => ?_, vecLanes_fp32 op x y z⟩, fun j x hx i _ => ?_, fun x0 n x hx => ?_,
    fun hc op bf d a b c x y z ha hb hz hd => ⟨fun hv => ?_, fun v hv => vectorOp_lanes hc ha hb hz hd hv⟩,
    fun hc cv d c a vs ha => ⟨fun hcv hdc => vectorOp_converts hc ha hcv hdc, fun hcv => vectorOp_none ?_⟩,
    fun op p e h => vectorOp_none h p e, fun x0 n i hi h => argVals_missing hi h, fun op p e hc hsome hfail => vectorOp_fails hc hsome hfail, ?_⟩
  · have hlane := vecLanes_lane hv hi
    cases bf with
    | true => exact hlane.symm
    | false => exact (Option.some.inj hlane).symm
  · obtain ⟨vs, hvs, hnth⟩ := argLanes_nth hx
    rw [hnth, Option.some.inj hvs]
  · obtain ⟨vs, hvs, hnth⟩ := argLanes_nth hx
    obtain ⟨hn, hvals⟩ := argVals_entries hvs
    refine ⟨hn, fun i hi => ?_⟩
    rw [hnth]
    exact hvals i hi
  · refine vectorOp_none ?_
    rw [vecEffect_lanes ha hb hz hd, hv]
    rfl
  · rw [vecEffect_convert ha, if_neg (by rw [hcv]; exact Bool.false_ne_true)]
  · intro acc rows cols sw p vecs ws op kind inputs e es mk hmk hset
    have hissue : UnitIssue mk t k s := by
      simp only [List.mem_cons, List.not_mem_nil, or_false] at hmk
      obtain rfl | rfl | rfl | rfl | rfl := hmk
      · exact unitIssue_arrayStream ..
      · exact unitIssue_stationaryLoad ..
      · exact unitIssue_thinPathPass ..
      · exact unitIssue_vectorOp ..
      · exact unitIssue_leafReduce ..
    exact hissue.fetch hset

end

section
/-! Parts of a canonical sum (R120, R121): whole runs of children keep their nodes apart from what follows, level after level. -/
namespace Sys2Proof.Machine
open Sys2Proof

/-- Runs of 8 that end with `xs` stay whole, so the nodes over what follows are formed apart (R115). -/
theorem nextLevel_append_of_dvd {α : Type} (op : α → α → α) (xs ys : List α) (h : 8 ∣ xs.length) :
    nextLevel op (xs ++ ys) = nextLevel op xs ++ nextLevel op ys := by
  induction xs using runs_induction with
  | nil => rfl
  | short x xs hshort =>
    have h7 : xs.length = 7 := by rw [List.length_cons] at h; omega
    rw [nextLevel_append op x xs ys h7, nextLevel_short op x xs hshort, List.singleton_append]
  | more x xs zs h7 _ ih =>
    have hzs : 8 ∣ zs.length := by rw [List.length_append, List.length_cons] at h; omega
    rw [List.append_assoc, nextLevel_append op x xs _ h7, nextLevel_append op x xs _ h7, ih hzs, List.cons_append]

/-- A first part of whole level-`e` nodes keeps its nodes apart from those over what follows (R120). -/
theorem nodesAt_append {α : Type} (op : α → α → α) : ∀ (e : Nat) (xs ys : List α), 8 ^ e ∣ xs.length →
    nodesAt op e (xs ++ ys) = nodesAt op e xs ++ nodesAt op e ys
  | 0, _, _, _ => rfl
  | e + 1, xs, ys, h => by
    obtain ⟨m, hm⟩ := h
    have hlen : xs.length = 8 * (8 ^ e * m) := by rw [hm, pow_succ']; ring
    have hnext : 8 ^ e ∣ (nextLevel op xs).length := ⟨m, by rw [length_nextLevel, hlen]; omega⟩
    rw [nodesAt, nextLevel_append_of_dvd op xs ys ⟨_, hlen⟩, nodesAt_append op e _ _ hnext]
    rfl

@[simp] theorem nodesAt_nil {α : Type} (op : α → α → α) : ∀ e, nodesAt op e ([] : List α) = []
  | 0 => rfl
  | e + 1 => nodesAt_nil op e

/-- The tree over the level-`e` nodes is the rest of the tree. -/
theorem nodesAt_nodesAt {α : Type} (op : α → α → α) (d : Nat) : ∀ (e : Nat) (xs : List α), nodesAt op d (nodesAt op e xs) = nodesAt op (e + d) xs
  | 0, xs => by rw [Nat.zero_add]; rfl
  | e + 1, xs => by
    rw [Nat.add_right_comm, nodesAt, nodesAt]
    exact nodesAt_nodesAt op d e _

/-- A level deep enough for all the children holds one node. -/
theorem length_nodesAt_eq_one {α : Type} (op : α → α → α) {d : Nat} {ws : List α} (hne : ws ≠ []) (h : ws.length ≤ 8 ^ d) :
    (nodesAt op d ws).length = 1 := by
  have hpos : 0 < ws.length := List.length_pos_iff.mpr hne
  rw [length_nodesAt]
  exact (Nat.div_eq_iff (by positivity)).mpr (by omega)

/-- An owner that builds the tree from the nodes of a level gets the canonical result (R121). -/
theorem canonicalTree_nodesAt {α : Type} (op : α → α → α) (e : Nat) (xs : List α) : canonicalTree op (nodesAt op e xs) = canonicalTree op xs := by
  by_cases hx : xs = []
  · rw [hx, nodesAt_nil]
  · have hpow : 8 ^ xs.length ≤ 8 ^ (e + xs.length) := Nat.pow_le_pow_right (by omega) (by omega)
    have hroot : (nodesAt op (e + xs.length) xs).length = 1 :=
      length_nodesAt_eq_one op hx ((Nat.lt_pow_self (by omega)).le.trans hpow)
    have howner := hroot
    rw [← nodesAt_nodesAt] at howner
    have hsame := canonicalTree_of_one op howner
    rw [nodesAt_nodesAt, canonicalTree_of_one op hroot] at hsame
    exact (List.singleton_inj.mp hsame).symm

theorem length_slice_of_le {α : Type} {xs : List α} {off len : Nat} (h : off + len ≤ xs.length) : (slice xs off len).length = len := by
  rw [slice, List.length_take, List.length_drop]; omega

/-- A list is what precedes a slice, the slice, and what follows it. -/
theorem take_append_slice_append_drop {α : Type} (xs : List α) (off len : Nat) : xs.take off ++ (slice xs off len ++ xs.drop (off + len)) = xs := by
  rw [slice, ← List.drop_drop, List.take_append_drop, List.take_append_drop]

/-- The middle one of three lists is a slice of the whole. -/
theorem slice_append {α : Type} (xs ys zs : List α) : slice (xs ++ (ys ++ zs)) xs.length ys.length = ys := by
  rw [slice, List.drop_left, List.take_left]

/-- The nodes over a part that begins at a whole node, and ends at one or with the last child, stand among the level's nodes between those over what
precedes the part and those over what follows it (R120). -/
theorem nodesAt_split {α : Type} (op : α → α → α) {xs : List α} {a n e : Nat} (ha : 8 ^ e ∣ a) (hb : 8 ^ e ∣ a + n ∨ a + n = xs.length)
    (hle : a + n ≤ xs.length) : nodesAt op e xs = nodesAt op e (xs.take a) ++ (nodesAt op e (slice xs a n) ++ nodesAt op e (xs.drop (a + n))) := by
  have hrest : nodesAt op e (slice xs a n ++ xs.drop (a + n)) = nodesAt op e (slice xs a n) ++ nodesAt op e (xs.drop (a + n)) := by
    obtain hb | hend := hb
    · exact nodesAt_append op e _ _ (by rw [length_slice_of_le hle]; exact (Nat.dvd_add_right ha).mp hb)
    · rw [hend, List.drop_length, nodesAt_nil, List.append_nil, List.append_nil]
  have htake : 8 ^ e ∣ (xs.take a).length := by rwa [List.length_take_of_le (by omega)]
  rw [← hrest, ← nodesAt_append op e _ _ htake, take_append_slice_append_drop]

/-- The nodes that precede a whole node's first child are counted by its index. -/
theorem length_nodesAt_of_dvd {α : Type} (op : α → α → α) {e : Nat} {xs : List α} (h : 8 ^ e ∣ xs.length) :
    (nodesAt op e xs).length = xs.length / 8 ^ e := by
  obtain ⟨m, hm⟩ := h
  have hpos : 0 < 8 ^ e := by positivity
  have hlt : 8 ^ e - 1 < 8 ^ e := Nat.sub_lt hpos one_pos
  rw [length_nodesAt, hm, Nat.mul_div_cancel_left m hpos, Nat.add_sub_assoc hpos, Nat.mul_add_div hpos, Nat.div_eq_of_lt hlt, Nat.add_zero]

end Sys2Proof.Machine
end

section
open Sys2Proof Sys2Proof.Machine

/-- Settles O17: a part's nodes stand whole between those before it and those after it, and the levels over the nodes are those of the whole tree. -/
theorem partsOfACanonicalSum : Obligations.PartsOfACanonicalSum := by
  unfold Obligations.PartsOfACanonicalSum
  intro α op xs a b e ha hb hab hbn
  obtain ⟨n, rfl⟩ := Nat.exists_eq_add_of_le hab
  rw [Nat.add_sub_cancel_left]
  have hcount : (nodesAt op e (slice xs a n)).length = (n + 8 ^ e - 1) / 8 ^ e := by rw [length_nodesAt, length_slice_of_le hbn]
  have htake : (xs.take a).length = a := List.length_take_of_le (by omega)
  have hbefore : (nodesAt op e (xs.take a)).length = a / 8 ^ e := by rw [length_nodesAt_of_dvd op (by rwa [htake]), htake]
  refine ⟨hcount, ?_, canonicalTree_nodesAt op e xs⟩
  rw [← hcount, ← hbefore, nodesAt_split op ha hb hbn, slice_append]

end

section
/-! The journal record of a step (Table 14-1): its length and its step number. -/
namespace Sys2Proof.Machine
open Sys2Proof

@[simp] theorem length_leBytes : ∀ k n : Nat, (leBytes k n).length = k
  | 0, _ => rfl
  | k + 1, n => congrArg (· + 1) (length_leBytes k (n / 256))

theorem leNat_leBytes : ∀ k n : Nat, leNat (leBytes k n) = n % 256 ^ k
  | 0, n => by rw [pow_zero, Nat.mod_one]; rfl
  | k + 1, n => by rw [leBytes, leNat, leNat_leBytes k, BitVec.toNat_ofNat, pow_succ' 256, Nat.mod_mul]

theorem length_journalRecord (s : State) (im : Image) (kind mbNext : Nat) (ds : List Decision) : (journalRecord s im kind mbNext ds).length = 1024 := by
  unfold journalRecord
  extract_lets snap decisions
  have hdecisions : decisions.length = 832 := by
    simp only [decisions, List.length_take, List.length_append, List.length_replicate]
    omega
  clear_value decisions
  obtain ⟨first, count⟩ := dataRanks s im
  simp only [List.length_append, length_leBytes, List.length_cons, List.length_nil, List.length_replicate, hdecisions]

/-- A record's step number stands after its magic, kind, version and module slot. -/
theorem journalRecord_step (s : State) (im : Image) (kind mbNext : Nat) (ds : List Decision) : ∃ rest : List Byte, journalRecord s im kind mbNext ds =
    ([0x4A, 0x52, 0x4E, 0x4C] ++ leBytes 1 kind ++ leBytes 1 1 ++ leBytes 2 (ownSlot s)) ++ (leBytes 8 s.job.step.toNat ++ rest) := by
  unfold journalRecord
  extract_lets snap decisions
  obtain ⟨first, count⟩ := dataRanks s im
  simp only [List.append_assoc]
  exact ⟨_, rfl⟩

theorem jStep_journalRecord (s : State) (im : Image) (kind mbNext : Nat) (ds : List Decision) :
    jStep (journalRecord s im kind mbNext ds) = s.job.step.toNat := by
  obtain ⟨rest, hrest⟩ := journalRecord_step s im kind mbNext ds
  have hstep : slice (journalRecord s im kind mbNext ds) 8 8 = leBytes 8 s.job.step.toNat := by
    rw [hrest]
    convert slice_append _ _ rest using 2
    all_goals simp only [List.length_append, length_leBytes, List.length_cons, List.length_nil]
  rw [jStep, field, hstep, leNat_leBytes]
  exact Nat.mod_eq_of_lt s.job.step.isLt

/-- A step without decisions writes one record (R628). -/
theorem journalRecords_nil (s : State) (im : Image) (mbNext : Nat) : journalRecords s im mbNext [] = [journalRecord s im 0 mbNext []] := rfl

end Sys2Proof.Machine
end

section
/-! What the boundary's Flume rounds, its mirror copy and its fault notices leave of the job and of recovery. -/
namespace Sys2Proof.Machine
open Sys2Proof

/-- Job and recovery keep all but the reduced tallies, B_noise, the shards' digest, the end hold, the module's own notice with its window, and the count
of mirrored records. -/
def BoundaryKept (s u : State) : Prop :=
  u.job = { s.job with
    reduced := u.job.reduced, bNoise := u.job.bNoise, shardDigest := u.job.shardDigest, shardCount := u.job.shardCount, drainHold := u.job.drainHold } ∧
  u.recov = { s.recov with window := u.recov.window, notices := u.recov.notices, toSend := u.recov.toSend, mirrored := u.recov.mirrored }

theorem boundaryKept_of_eq {s u : State} (hj : u.job = s.job) (hr : u.recov = s.recov) : BoundaryKept s u := by
  rw [BoundaryKept, hj, hr]
  exact ⟨rfl, rfl⟩
theorem BoundaryKept.refl (s : State) : BoundaryKept s s := ⟨rfl, rfl⟩
theorem BoundaryKept.trans {s u v : State} (h : BoundaryKept s u) (g : BoundaryKept u v) : BoundaryKept s v := by
  obtain ⟨hj, hr⟩ := h
  obtain ⟨gj, gr⟩ := g
  exact ⟨by rw [gj, hj], by rw [gr, hr]⟩

theorem boundaryKept_foldl {α : Type} {f : State → α → State} (h : ∀ s a, BoundaryKept s (f s a)) (l : List α) (s : State) : BoundaryKept s (l.foldl f s) :=
  List.foldlRecOn l f (BoundaryKept.refl s) fun u hu a _ => hu.trans (h u a)

theorem boundaryKept_declareFault (action code subject : Nat) (own quarantine : Bool) (s : State) :
    BoundaryKept s (declareFault action code subject own quarantine s) := by
  unfold declareFault
  split
  · cases own <;> exact ⟨rfl, rfl⟩
  · exact BoundaryKept.refl s

theorem boundaryKept_injectPacket (p : Packet) (tray : Bool) (preset : Option Nat) (s : State) : BoundaryKept s (injectPacket p tray preset s).2 := by
  unfold injectPacket
  split
  · exact boundaryKept_of_eq rfl rfl
  · split
    · exact boundaryKept_of_eq rfl rfl
    · split
      · exact boundaryKept_of_eq rfl rfl
      · cases preset <;> exact boundaryKept_of_eq rfl rfl

/-! ### The mirror copy -/

theorem boundaryKept_issue (t : Tile) (p : Packet) (ret : Nat) (counter : Option Nat) (tray : Bool) (s : State) :
    BoundaryKept s (issue t none p ret counter tray s) := by
  unfold issue
  dsimp only
  split
  · refine BoundaryKept.trans ?_ (boundaryKept_declareFault _ _ _ _ _ _)
    exact boundaryKept_of_eq rfl rfl
  · have hin := boundaryKept_injectPacket { p with srcTile := BitVec.ofNat 8 t.val } tray none s
    split
    · next h => rw [h] at hin; exact hin
    · next h => rw [h] at hin; exact hin.trans (boundaryKept_of_eq rfl rfl)

theorem boundaryKept_sendCopy (fuel : Nat) (j : CopyJob) (s : State) : BoundaryKept s (sendCopy fuel j s).2 := by
  induction fuel generalizing j s with
  | zero => exact BoundaryKept.refl s
  | succ n ih =>
    unfold sendCopy
    split
    · exact BoundaryKept.refl s
    · split
      · split
        · exact (boundaryKept_foldl (fun s e => boundaryKept_issue ..) _ s).trans (ih _ _)
        · exact BoundaryKept.refl s
      · exact BoundaryKept.refl s

theorem boundaryKept_pumpCopies (s : State) : BoundaryKept s (pumpCopies s) := by
  unfold pumpCopies
  refine boundaryKept_foldl (fun u j => ?_) s.remote.copies s
  split
  · exact (boundaryKept_sendCopy 2048 j u).trans (boundaryKept_of_eq rfl rfl)
  · exact BoundaryKept.refl u

theorem boundaryKept_mirrorRecord (r : List Byte) (s : State) : BoundaryKept s (mirrorRecord r s) := by
  have hcount : BoundaryKept s { s with recov.mirrored := s.recov.mirrored + 1 } := ⟨rfl, rfl⟩
  unfold mirrorRecord sendToKeeper
  dsimp only
  split
  · exact hcount
  · exact hcount.trans ((boundaryKept_of_eq rfl rfl).trans (boundaryKept_pumpCopies _))

/-- A record goes into the ring; its mirror copy and its notice leave the rest. -/
theorem boundaryKept_writeRecords (r : List Byte) (s : State) : BoundaryKept (putRecord r s) (writeRecords [r] s) :=
  (boundaryKept_mirrorRecord r (putRecord r s)).trans (boundaryKept_of_eq rfl rfl)

/-! ### The Flume rounds -/

theorem boundaryKept_sendPlane (kind : Nat) (d : Desc) (vals : Option (List DWord)) (ns : List FNode) (x : List Packet × Nat × State) (e : Nat × Nat) :
    BoundaryKept x.2.2 (sendPlane kind d vals ns x e).2.2 := by
  unfold sendPlane
  dsimp only
  split
  · exact BoundaryKept.refl _
  · exact List.foldlRecOn (motive := fun y : List Packet × State => BoundaryKept x.2.2 y.2) _ _ (BoundaryKept.refl _)
      fun y hy p _ => hy.trans (boundaryKept_injectPacket ..)

theorem boundaryKept_raiseTimeout (group seq : Word) (planes : Nat) (s : State) : BoundaryKept s (raiseTimeout group seq planes s) := by
  refine BoundaryKept.trans ?_ (boundaryKept_declareFault _ _ _ _ _ _)
  unfold raiseGroup
  split <;> exact boundaryKept_of_eq rfl rfl

theorem boundaryKept_sendFlume (op part kind : Nat) (slots : List Nat) (d : Desc) (ns : List FNode) (s : State) :
    BoundaryKept s (sendFlume op part kind slots d ns s) := by
  have planes (e : Desc) (v : Option (List DWord)) (es : List (Nat × Nat)) (u : State) :
      BoundaryKept u (es.foldl (sendPlane kind e v ns) ([], 0, u)).2.2 :=
    List.foldlRecOn (motive := fun x : List Packet × Nat × State => BoundaryKept u x.2.2) es _ (BoundaryKept.refl u)
      fun x hx e _ => hx.trans (boundaryKept_sendPlane ..)
  unfold sendFlume
  extract_lets d₁ d₂ f u r
  have hu : BoundaryKept s u := boundaryKept_of_eq rfl rfl
  split
  · exact hu.trans (boundaryKept_of_eq rfl rfl)
  · have hsent := hu.trans (planes d₂ (singleValues d₂.count ns) (pairPlanes u).zipIdx u)
    dsimp only
    refine hsent.trans ?_
    split
    · exact boundaryKept_raiseTimeout ..
    · exact boundaryKept_of_eq rfl rfl

theorem boundaryKept_deviceNodes (fop type count : Nat) (ns : List FNode) (s : State) : BoundaryKept s (deviceNodes fop type count ns s) := by
  unfold deviceNodes
  split
  · exact BoundaryKept.refl s
  · exact (boundaryKept_sendFlume ..).trans (boundaryKept_of_eq rfl rfl)

theorem boundaryKept_deviceFlumes (n fop type : Nat) (values : List DWord) (s : State) : BoundaryKept s (deviceFlumes n fop type values s) :=
  boundaryKept_foldl (fun _ _ => boundaryKept_deviceNodes ..) _ s

/-! ### The steps of Table 04-6a -/

theorem boundaryKept_reduceTallies (im : Image) (others : List Tally) (s : State) : BoundaryKept s (reduceTallies im others s) :=
  ((boundaryKept_deviceFlumes ..).trans (boundaryKept_deviceFlumes ..)).trans ⟨rfl, rfl⟩

/-- `s` with N2 `c` and the step's skip outcome as those of the last completed step (R164, R166). -/
def withNorm (c : DWord) (s : State) : State :=
  { s with job.n2 := c, job.skip := s.job.skipNow, job.skipsRun := if s.job.skipNow then s.job.skipsRun + 1 else 0 }

theorem BoundaryKept.withNorm {s u : State} (h : BoundaryKept s u) (c : DWord) : BoundaryKept (withNorm c s) (withNorm c u) := by
  obtain ⟨hj, hr⟩ := h
  refine ⟨?_, hr⟩
  unfold Machine.withNorm
  dsimp only
  rw [hj]

/-- The noise round of step 3, where the step has noise sums (R169). -/
def noiseRound (im : Image) (s : State) : State := if s.job.noise.isEmpty then s else sendRanks im (ownNoise s im) s

theorem boundaryKept_noiseRound (im : Image) (s : State) : BoundaryKept s (noiseRound im s) := by
  unfold noiseRound
  split
  · exact BoundaryKept.refl s
  · exact boundaryKept_deviceNodes ..

/-- Once the guard has run, the norm's close is the noise round and the new values (R164 to R170). -/
theorem closeNorm_eq {s : State} {c : DWord} (h : s.job.n2Now = some c) (im : Image) (n2 a : List (Nat × DWord)) :
    closeNorm im n2 a s = { withNorm c (noiseRound im s) with job.bNoise := (closeNorm im n2 a s).job.bNoise } := by
  have hguard : runGuard im n2 s = s := by rw [runGuard, h]
  obtain rfl : s.job.n2Now.getD 0 = c := by rw [h]; rfl
  unfold closeNorm
  rw [hguard]
  rfl

theorem boundaryKept_closeNorm {s : State} {c : DWord} (h : s.job.n2Now = some c) (im : Image) (n2 a : List (Nat × DWord)) :
    BoundaryKept (withNorm c s) (closeNorm im n2 a s) := by
  rw [closeNorm_eq h]
  exact ((boundaryKept_noiseRound im s).withNorm c).trans ⟨rfl, rfl⟩

theorem BoundaryKept.putRecord {s u : State} (h : BoundaryKept s u) (r : List Byte) : BoundaryKept (putRecord r s) (putRecord r u) := by
  obtain ⟨hj, hr⟩ := h
  refine ⟨hj, ?_⟩
  unfold Machine.putRecord
  dsimp only
  rw [hr]

theorem BoundaryKept.closeStep {s u : State} (h : BoundaryKept s u) (im : Image) (mb : Nat) : BoundaryKept (closeStep im mb s) (closeStep im mb u) := by
  obtain ⟨hj, hr⟩ := h
  unfold BoundaryKept Machine.closeStep iterBase iterStart stepIters closedCopy
  dsimp only
  rw [hj, hr]
  exact ⟨rfl, rfl⟩

theorem boundaryKept_formShards (im : Image) (s : State) : BoundaryKept s (formShards im s) := ⟨rfl, rfl⟩
theorem boundaryKept_programEnd (step : DWord) (s : State) : BoundaryKept s (programEnd step s) := ⟨rfl, rfl⟩
theorem boundaryKept_stopA4_raise (code kind unit obj peer : Nat) (det : List Byte) (s : State) :
    BoundaryKept s (stopA4 code (raise code kind unit obj peer det s)) :=
  (boundaryKept_of_eq rfl rfl).trans (boundaryKept_declareFault ..)

/-- The shards that the module digests hang on its plan alone. -/
theorem shardKeys_congr {s u : State} (h : u.job.plan = s.job.plan) (im : Image) : shardKeys u im = shardKeys s im := by
  rw [shardKeys, shardKeys, positions, positions, h]

/-- The round of the snapshot's agreed time, where a snapshot falls due (R635). -/
def triggerRound (s : State) : State := if s.recov.triggerDue.isSome then deviceFlume 2 3 [s.mtc.value] s else s

theorem boundaryKept_triggerRound (s : State) : BoundaryKept s (triggerRound s) := by
  unfold triggerRound
  split
  · exact boundaryKept_deviceNodes ..
  · exact BoundaryKept.refl s

/-- The program's end after the step of number `step`, unless a fault has stopped the job (R249). -/
def endAfter (im : Image) (step : DWord) (s : State) : State :=
  if im.lastStep ≠ 0 ∧ step.toNat = im.lastStep ∧ s.dev.st = .running ∧ !s.recov.window then programEnd step s else s

theorem boundaryKept_endAfter (im : Image) (step : DWord) (s : State) : BoundaryKept s (endAfter im step s) := by
  unfold endAfter
  split
  · exact boundaryKept_programEnd ..
  · exact BoundaryKept.refl s

end Sys2Proof.Machine
end

section
/-! A module alone in its job and without a keeper sends nothing at the boundary. -/
namespace Sys2Proof.Machine
open Sys2Proof

/-- The module is alone in its job, and has no keeper. -/
def SendsNothing (s : State) : Prop := s.job.rankMap.length ≤ 1 ∧ keeperNow s = 0xFFFF

/-- Memory, fault records, the device, the collection window and whom the module sends to stay. -/
structure Quiet (s u : State) : Prop where
  mem : u.mem = s.mem
  faults : u.faults = s.faults
  dev : u.dev = s.dev
  window : u.recov.window = s.recov.window
  keeper : u.recov.keeper = s.recov.keeper
  ranks : u.job.rankMap = s.job.rankMap

theorem Quiet.trans {s u v : State} (h : Quiet s u) (g : Quiet u v) : Quiet s v :=
  ⟨g.mem.trans h.mem, g.faults.trans h.faults, g.dev.trans h.dev, g.window.trans h.window, g.keeper.trans h.keeper, g.ranks.trans h.ranks⟩

theorem Quiet.sendsNothing {s u : State} (h : Quiet s u) (hs : SendsNothing s) : SendsNothing u := by
  obtain ⟨hranks, hkeeper⟩ := hs
  refine ⟨by rwa [h.ranks], ?_⟩
  rwa [keeperNow, ringKeeper, h.keeper, h.dev]

theorem deviceNodes_alone {s : State} (h : s.job.rankMap.length ≤ 1) (fop type count : Nat) (ns : List FNode) : deviceNodes fop type count ns s = s :=
  if_pos h

theorem deviceFlumes_alone {s : State} (h : s.job.rankMap.length ≤ 1) (n fop type : Nat) (values : List DWord) : deviceFlumes n fop type values s = s :=
  List.foldlRecOn (motive := fun u : State => u = s) _ _ rfl fun u hu _ _ => by rw [hu]; exact deviceNodes_alone h ..

theorem quiet_reduceTallies {s : State} (h : s.job.rankMap.length ≤ 1) (im : Image) (others : List Tally) : Quiet s (reduceTallies im others s) := by
  have hsend : sendTallies im s = s := by
    unfold sendTallies
    dsimp only
    rw [deviceFlumes_alone (s := s) h, deviceFlumes_alone h]
  unfold reduceTallies
  rw [hsend]
  exact ⟨rfl, rfl, rfl, rfl, rfl, rfl⟩

theorem quiet_closeNorm {s : State} {c : DWord} (h : s.job.rankMap.length ≤ 1) (hn : s.job.n2Now = some c) (im : Image) (n2 a : List (Nat × DWord)) :
    Quiet s (closeNorm im n2 a s) := by
  have hround : noiseRound im s = s := by
    unfold noiseRound
    split
    · rfl
    · exact deviceNodes_alone h ..
  rw [closeNorm_eq hn, hround]
  exact ⟨rfl, rfl, rfl, rfl, rfl, rfl⟩

theorem quiet_writeRecords {s : State} (h : SendsNothing s) (r : List Byte) : Quiet s (writeRecords [r] s) := by
  have hmirror : mirrorRecord r (putRecord r s) = { putRecord r s with recov.mirrored := s.recov.mirrored + 1 } := if_pos h.2
  rw [writeRecords, List.foldl_cons, List.foldl_nil, hmirror]
  exact ⟨rfl, rfl, rfl, rfl, rfl, rfl⟩

theorem quiet_closeStep (im : Image) (mb : Nat) (s : State) : Quiet s (closeStep im mb s) := ⟨rfl, rfl, rfl, rfl, rfl, rfl⟩
theorem quiet_formShards (im : Image) (s : State) : Quiet s (formShards im s) := ⟨rfl, rfl, rfl, rfl, rfl, rfl⟩

theorem triggerRound_alone {s : State} (h : s.job.rankMap.length ≤ 1) : triggerRound s = s := by
  unfold triggerRound
  split
  · exact deviceNodes_alone h ..
  · rfl

end Sys2Proof.Machine
end

section
/-! The step boundary of a step whose image has no rule of promotion or program and no replicated shard. -/
namespace Sys2Proof.Machine
open Sys2Proof

/-- The boundary meets no rule, no replica, no replay and no snapshot being saved, and the guard of its step has formed `c`. -/
structure PlainStep (s : State) (im : Image) (c : DWord) : Prop where
  promos : im.promos = []
  progs : im.progs = []
  shards : shardKeys s im = []
  replay : s.job.replayTo = none
  saving : s.recov.saving = none
  norm : s.job.n2Now = some c

theorem promoteAll_nil {im : Image} (h : im.promos = []) (s : State) : promoteAll im s = ([], s) := by rw [promoteAll, ruled, h]; rfl
theorem programRules_nil {im : Image} (h : im.progs = []) (promoted : List Nat) (s : State) : programRules im promoted s = ([], s, s.job.mb) := by
  rw [programRules, h]; rfl

theorem tensorOf_of_mem_numbered {im : Image} {i : Nat} {t : TensorRec} (h : (i, t) ∈ numbered im.tensors) : tensorOf im i = t := by
  obtain ⟨⟨u, j⟩, hmem, heq⟩ := List.mem_map.mp h
  obtain ⟨rfl, rfl⟩ := Prod.mk.inj heq
  rw [tensorOf, List.mem_zipIdx_iff_getElem?.mp hmem, Option.getD_some]

theorem changedFormats_same (im : Image) (s : State) : changedFormats im s.job.formats s = [] := by
  rw [changedFormats, List.map_eq_nil_iff, List.filter_eq_nil_iff]
  rintro ⟨i, t⟩ ht
  simp [fmtNow, tensorOf_of_mem_numbered ht]

/-- Steps 3 to 5: the tallies reduced, N2, B_noise and the skip outcome closed. -/
def normClosed (im : Image) (b : BoundaryIn) (s : State) : State := closeNorm im b.n2 b.a (reduceTallies im b.tallies s)
/-- The record of step 8. -/
def stepRecord (im : Image) (b : BoundaryIn) (s : State) : List Byte := journalRecord (normClosed im b s) im 0 s.job.mb []
/-- The step complete, its record written. -/
def stepClosed (im : Image) (b : BoundaryIn) (s : State) : State := closeStep im s.job.mb (writeRecords [stepRecord im b s] (normClosed im b s))

/-- With no snapshot being saved and no replay, the record is written and the step finished. -/
theorem recordStep_plain {s : State} (hsaving : s.recov.saving = none) (hreplay : s.job.replayTo = none) (im : Image) (p : Plan) (b : BoundaryIn)
    (mb : Nat) : recordStep im p b mb [] s = finishStep im p b mb [journalRecord s im 0 mb []] s := by
  have hcommit : commitSnapshot b.othersLanded s = s := by rw [commitSnapshot, hsaving]
  have hsame : ∀ rs, replayTest s rs = .same := fun rs => by rw [replayTest, hreplay]
  unfold recordStep
  rw [hsaving, Option.isSome_none, if_neg Bool.false_ne_true, hcommit]
  simp only [hsame, journalRecords_nil]

/-- Without rules and with no format changed, the record's step comes straight after the norm's close. -/
theorem boundaryAll_rules {im : Image} (hpromos : im.promos = []) (hprogs : im.progs = []) {s : State} (b : BoundaryIn) (p : Plan)
    (hformats : changedFormats im s.job.formats (normClosed im b s) = []) :
    boundaryAll im p b s = recordStep im p b (normClosed im b s).job.mb [] (normClosed im b s) := by
  -- The plan's fit stays opaque: the kernel would compute in it where no format has changed.
  obtain ⟨fit, hfit⟩ : ∃ f, f = fitFault := ⟨_, rfl⟩
  unfold boundaryAll
  rw [← hfit, ← normClosed]
  dsimp only
  rw [promoteAll_nil hpromos]
  dsimp only
  rw [programRules_nil hprogs]
  dsimp only
  rw [hformats]
  exact if_pos rfl

/-- The stop by the skip limit (R167). -/
def skipStop (im : Image) (step : DWord) (s : State) : State :=
  stopA4 errGradSkipLimit (raise errGradSkipLimit uCruise 0 (ownRank s im) none32 (detail [(step.toNat % 2 ^ 32, 4), (s.job.skipsRun, 4)]) s)
/-- What follows the record: the stop by the skip limit, or the shards' digest, the trigger's round and the program's end. -/
def afterRecord (im : Image) (step : DWord) (s : State) : State :=
  if im.safe.skipLimit ≤ s.job.skipsRun then skipStop im step s else endAfter im step (triggerRound (formShards im s))

theorem boundaryKept_afterRecord (im : Image) (step : DWord) (s : State) : BoundaryKept s (afterRecord im step s) := by
  unfold afterRecord
  split
  · exact boundaryKept_stopA4_raise ..
  · exact (boundaryKept_formShards im s).trans ((boundaryKept_triggerRound _).trans (boundaryKept_endAfter ..))

section
variable {s : State} {im : Image} {c : DWord} (hs : PlainStep s im c) (b : BoundaryIn)
include hs

theorem boundaryKept_normClosed : BoundaryKept (withNorm c s) (normClosed im b s) := by
  have hred := boundaryKept_reduceTallies im b.tallies s
  have hn : (reduceTallies im b.tallies s).job.n2Now = some c := by rw [hred.1]; exact hs.norm
  exact (hred.withNorm c).trans (boundaryKept_closeNorm hn im b.n2 b.a)

theorem boundaryKept_stepClosed : BoundaryKept (closeStep im s.job.mb (putRecord (stepRecord im b s) (withNorm c s))) (stepClosed im b s) :=
  (((boundaryKept_normClosed hs b).putRecord _).trans (boundaryKept_writeRecords _ _)).closeStep im s.job.mb

theorem jStep_stepRecord : jStep (stepRecord im b s) = s.job.step.toNat := by
  rw [stepRecord, jStep_journalRecord, (boundaryKept_normClosed hs b).1]
  rfl

theorem finishStep_eq (p : Plan) : finishStep im p b s.job.mb [stepRecord im b s] (normClosed im b s) = afterRecord im s.job.step (stepClosed im b s) := by
  have hstep : (normClosed im b s).job.step = s.job.step := by rw [(boundaryKept_normClosed hs b).1]; rfl
  have hplan : (formShards im (stepClosed im b s)).job.plan = s.job.plan := by rw [formShards, (boundaryKept_stepClosed hs b).1]; rfl
  have hshards : shardKeys (formShards im (stepClosed im b s)) im = [] := (shardKeys_congr hplan im).trans hs.shards
  unfold finishStep
  rw [hstep, ← stepClosed]
  dsimp only
  rw [hshards]
  rfl

/-- A plain boundary closes the norm, writes one record, and goes on to what follows it (Table 04-6a). -/
theorem boundaryAll_eq (p : Plan) : boundaryAll im p b s = afterRecord im s.job.step (stepClosed im b s) := by
  obtain ⟨hjob, hrecov⟩ := boundaryKept_normClosed hs b
  have hmb : (normClosed im b s).job.mb = s.job.mb := by rw [hjob]; rfl
  have hformats : s.job.formats = (normClosed im b s).job.formats := by rw [hjob]; rfl
  have hsaving : (normClosed im b s).recov.saving = none := by rw [hrecov]; exact hs.saving
  have hreplay : (normClosed im b s).job.replayTo = none := by rw [hjob]; exact hs.replay
  have hrules := boundaryAll_rules hs.promos hs.progs b p (hformats ▸ changedFormats_same im (normClosed im b s))
  rw [hrules, hmb, recordStep_plain hsaving hreplay, ← stepRecord, finishStep_eq hs b p]

theorem quiet_stepClosed (h : SendsNothing s) : Quiet s (stepClosed im b s) := by
  have hred := quiet_reduceTallies h.1 im b.tallies
  have hn : (reduceTallies im b.tallies s).job.n2Now = some c := by rw [(boundaryKept_reduceTallies im b.tallies s).1]; exact hs.norm
  have hnorm : Quiet s (normClosed im b s) := hred.trans (quiet_closeNorm (hred.sendsNothing h).1 hn im b.n2 b.a)
  exact (hnorm.trans (quiet_writeRecords (hnorm.sendsNothing h) _)).trans (quiet_closeStep ..)

end

theorem stepClosed_orFaulted (im : Image) (b : BoundaryIn) (s : State) : OrFaulted s.dev.st (stepClosed im b s).dev.st := by
  rw [stepClosed, closeStep_st]
  exact writeRecords_orFaulted _ _ (closeNorm_orFaulted _ _ _ _ (reduceTallies_orFaulted _ _ _ .rfl))

/-! ### The stop by the skip limit -/

theorem skipStop_faults (im : Image) (step : DWord) (s : State) : ∃ f : FaultRec,
    (skipStop im step s).faults = (f :: s.faults).take 256 ∧ f.code.toNat = errGradSkipLimit := by
  refine ⟨mkRec s errGradSkipLimit uCruise 0 (ownRank s im) none32 (detail [(step.toNat % 2 ^ 32, 4), (s.job.skipsRun, 4)]), ?_, rfl⟩
  unfold skipStop stopA4 declareFault
  split <;> rfl

theorem skipStop_mem (im : Image) (step : DWord) (s : State) : (skipStop im step s).mem = s.mem := by
  unfold skipStop stopA4 declareFault
  split <;> rfl

theorem skipStop_st (im : Image) (step : DWord) {s : State} (h : OrFaulted .running s.dev.st) : (skipStop im step s).dev.st = .faulted := by
  unfold skipStop stopA4 declareFault
  dsimp only
  obtain hrun | ⟨-, hfaulted⟩ := h
  · rw [if_pos (by simp [inJob, hrun])]
    exact enter_st ..
  · rw [if_neg (by simp [inJob, hfaulted])]
    simpa using hfaulted

/-! ### The program's end -/

theorem endAfter_mem (im : Image) (step : DWord) (s : State) : (endAfter im step s).mem = s.mem := by
  unfold endAfter
  split <;> rfl
theorem endAfter_faults (im : Image) (step : DWord) (s : State) : (endAfter im step s).faults = s.faults := by
  unfold endAfter
  split <;> rfl
theorem endAfter_st (im : Image) (step : DWord) {s : State} (hst : s.dev.st = .running) (hw : s.recov.window = false) :
    (endAfter im step s).dev.st = if im.lastStep ≠ 0 ∧ step.toNat = im.lastStep then .draining else .running := by
  simp only [endAfter, hst, hw, Bool.not_false, and_true]
  split
  · exact programEnd_st ..
  · exact hst

/-! ### What follows the record -/

/-- At the skip limit the job ends in FAULTED with its record newest (R167). -/
theorem afterRecord_limit {im : Image} {s : State} (step : DWord) (h : OrFaulted .running s.dev.st) (hlimit : im.safe.skipLimit ≤ s.job.skipsRun) :
    (afterRecord im step s).dev.st = .faulted ∧ ∃ f rest, (afterRecord im step s).faults = f :: rest ∧ f.code.toNat = errGradSkipLimit := by
  rw [afterRecord, if_pos hlimit]
  obtain ⟨f, hf, hcode⟩ := skipStop_faults im step s
  exact ⟨skipStop_st _ _ h, f, _, hf, hcode⟩

/-- A module that sends nothing keeps its memory; it records the skip limit alone, or goes on to the next step or to the program's end. -/
theorem afterRecord_alone {s u : State} (hs : SendsNothing s) (hu : Quiet s u) (hst : s.dev.st = .running) (hw : s.recov.window = false) (im : Image)
    (step : DWord) : (afterRecord im step u).mem = s.mem ∧
      (im.safe.skipLimit ≤ u.job.skipsRun → Recorded s (afterRecord im step u) errGradSkipLimit) ∧
      (u.job.skipsRun < im.safe.skipLimit → (afterRecord im step u).faults = s.faults ∧
        (afterRecord im step u).dev.st = if im.lastStep ≠ 0 ∧ step.toNat = im.lastStep then .draining else .running) := by
  unfold afterRecord
  split
  · next hlimit =>
    refine ⟨(skipStop_mem ..).trans hu.mem, fun _ => ?_, fun h => absurd hlimit (Nat.not_le.mpr h)⟩
    rw [Recorded, ← hu.faults]
    exact skipStop_faults ..
  · next hlimit =>
    have hdigest := hu.trans (quiet_formShards im u)
    rw [triggerRound_alone (hdigest.sendsNothing hs).1]
    refine ⟨(endAfter_mem ..).trans hdigest.mem, fun h => absurd h hlimit, fun _ => ⟨(endAfter_faults ..).trans hdigest.faults, ?_⟩⟩
    exact endAfter_st _ _ (hdigest.dev ▸ hst) (hdigest.window.trans hw)

/-! ### The command -/

theorem exec_stepBoundary {s : State} {im : Image} {p : Plan} (him : s.job.image = some im) (hp : s.job.plan = some p) (b : BoundaryIn) :
    exec (.stepBoundary b) s = .next (if boundaryReady s im then boundaryAll im p b (beginStep im s) else s) := by
  rw [exec, execStepBoundary, him, hp]

theorem beginStep_open {s : State} (h : s.job.stepOpen = true) (im : Image) : beginStep im s = s := if_pos h

theorem boundaryReady_window {s : State} {im : Image} (h : boundaryReady s im = true) : s.recov.window = false := by
  simp only [boundaryReady, jobRunning, Bool.and_eq_true, Bool.not_eq_true'] at h
  tauto

end Sys2Proof.Machine
end

section
open Sys2Proof Sys2Proof.Machine

/-- Settles O45: the boundary closes the norm and writes one record, and what follows the record leaves the job's counts and the ring. -/
theorem stepBoundaryWritesItsRecord : Obligations.StepBoundaryWritesItsRecord := by
  unfold Obligations.StepBoundaryWritesItsRecord
  intro s im p b him hp
  refine ⟨fun hready => ?_, fun c hready hopen hpromos hprogs hshards hreplay hsaving hn => ?_⟩
  · rw [exec_stepBoundary him hp, if_neg (by simp [hready])]
  · have hs : PlainStep s im c := ⟨hpromos, hprogs, hshards, hreplay, hsaving, hn⟩
    have hrunning := boundaryReady_running hready
    have hafter := boundaryKept_afterRecord im s.job.step (stepClosed im b s)
    obtain ⟨hjob, hrecov⟩ := (boundaryKept_stepClosed hs b).trans hafter
    have hskips : (afterRecord im s.job.step (stepClosed im b s)).job.skipsRun = (stepClosed im b s).job.skipsRun := by rw [hafter.1]
    have hrecord : tget (afterRecord im s.job.step (stepClosed im b s)).recov.journal s.recov.journalNext [] = stepRecord im b s := by
      rw [hrecov]
      exact tget_tput_self ..
    refine ⟨afterRecord im s.job.step (stepClosed im b s), ?_, ?_, ?_, ?_, ?_, ?_, ?_, ?_, ?_, ?_, ?_, ?_, ?_, ?_, ?_, ?_, ?_, ?_, ?_⟩
    · rw [exec_stepBoundary him hp, if_pos hready, beginStep_open hopen, boundaryAll_eq hs b p]
    · rw [hrecord, stepRecord, length_journalRecord]
    · rw [hrecord, jStep_stepRecord hs b]
    · rw [hrecov]; rfl
    -- The job's fields, from its step to its skips: what closeStep makes of them.
    iterate 12 · rw [hjob]; rfl
    · rw [hrecov]; rfl
    · rw [hskips]
      exact afterRecord_limit _ (hrunning ▸ stepClosed_orFaulted im b s)
    · intro hranks hkeeper
      rw [hskips]
      exact afterRecord_alone ⟨hranks, hkeeper⟩ (quiet_stepClosed hs b ⟨hranks, hkeeper⟩) hrunning (boundaryReady_window hready) im _

end

section
/-! The copies that the ops of a Tally program write (R188 to R206): what a conversion, a move of encoded elements and a result kept for the loop sum
leave and change. -/
namespace Sys2Proof.Machine
open Sys2Proof

/-! ### The moment of a conversion -/

/-- The job in `u` stands where it stands in `s`: its plan, its positions, and what the conversion of a result reads besides the copy that it writes. -/
structure SameMoment (s u : State) : Prop where
  plan : u.job.plan = s.job.plan
  opNext : u.job.opNext = s.job.opNext
  formats : u.job.formats = s.job.formats
  roundSeed : u.job.roundSeed = s.job.roundSeed
  step : u.job.step = s.job.step
  firstStep : u.job.firstStep = s.job.firstStep
  inInit : u.job.inInit = s.job.inInit
  iters : u.job.iters = s.job.iters
  item : u.job.item = s.job.item

theorem SameMoment.refl (s : State) : SameMoment s s := ⟨rfl, rfl, rfl, rfl, rfl, rfl, rfl, rfl, rfl⟩
theorem SameMoment.trans {s u v : State} (h : SameMoment s u) (g : SameMoment u v) : SameMoment s v :=
  ⟨g.plan.trans h.plan, g.opNext.trans h.opNext, g.formats.trans h.formats, g.roundSeed.trans h.roundSeed, g.step.trans h.step,
    g.firstStep.trans h.firstStep, g.inInit.trans h.inInit, g.iters.trans h.iters, g.item.trans h.item⟩

section
variable {s u : State} (h : SameMoment s u)
include h

theorem SameMoment.keyOf (im : Image) (pos tid : Nat) : keyOf u im pos tid = keyOf s im pos tid := by
  simp only [Machine.keyOf, instOf, uNow, stepNow, h.inInit, h.iters, h.step, h.firstStep]
theorem SameMoment.fmtNow (im : Image) (tid : Nat) : fmtNow u im tid = fmtNow s im tid := by rw [Machine.fmtNow, h.formats, Machine.fmtNow]
theorem SameMoment.rounding (tid w : Nat) (stochastic : Bool) : rounding u tid w stochastic = rounding s tid w stochastic := by
  funext i
  simp only [Machine.rounding, stepNow, h.roundSeed, h.inInit, h.step, h.firstStep]
theorem SameMoment.inLoopNow (im : Image) : inLoopNow u im = inLoopNow s im := by simp only [Machine.inLoopNow, h.item, h.inInit]

end

/-! ### One copy -/

/-- Of the state only the job changes. -/
def JobOnly (s u : State) : Prop := u = { s with job := u.job }

theorem JobOnly.trans {s u v : State} (h : JobOnly s u) (g : JobOnly u v) : JobOnly s v := by
  unfold JobOnly at *
  rw [g, h]

/-- The copy of key `k` and its loop sum in `u` are those of `s`. -/
def SameEntry (s u : State) (k : Nat) : Prop := tens u k = tens s k ∧ tget u.job.loopSums k [] = tget s.job.loopSums k []

theorem SameEntry.refl (s : State) (k : Nat) : SameEntry s s k := ⟨rfl, rfl⟩
theorem SameEntry.trans {s u v : State} {k : Nat} (h : SameEntry s u k) (g : SameEntry u v k) : SameEntry s v k := ⟨g.1.trans h.1, g.2.trans h.2⟩

theorem SameEntry.sameCopy {s u : State} {k : Nat} (h : SameEntry s u k) : SameCopy s u k := by
  unfold SameCopy
  rw [h.1]
  exact ⟨rfl, rfl, rfl, rfl⟩

theorem SameCopy.trans {s u v : State} {k : Nat} (h : SameCopy s u k) (g : SameCopy u v k) : SameCopy s v k := by
  obtain ⟨h1, h2, h3, h4⟩ := h
  obtain ⟨g1, g2, g3, g4⟩ := g
  exact ⟨g1.trans h1, g2.trans h2, g3.trans h3, g4.trans h4⟩

theorem HoldsStored.sameCopy {u v : State} {k : Nat} {c : Stored} (h : HoldsStored u k c) (g : SameCopy u v k) : HoldsStored v k c := by
  obtain ⟨h1, h2, h3, h4⟩ := h
  obtain ⟨g1, g2, g3, g4⟩ := g
  exact ⟨g1.trans h1, g2.trans h2, g3.trans h3, g4.trans h4⟩

/-- A result stays converted while its copy and its loop sum stay. -/
theorem Converted.keeps {s u v : State} {im : Image} {o : OpRec} {pos tid : Nat} {vs : List Val} (h : Converted s u im o pos tid vs)
    (hcopy : SameCopy u v (keyOf s im pos tid))
    (hsum : tget v.job.loopSums (keyOf s im pos tid) [] = tget u.job.loopSums (keyOf s im pos tid) []) : Converted s v im o pos tid vs := by
  unfold Converted at *
  dsimp only at *
  split
  · next hl =>
    rw [if_pos hl] at h
    exact ⟨hsum.trans h.1, h.2.trans hcopy⟩
  · next hl =>
    rw [if_neg hl] at h
    exact h.sameCopy hcopy

/-- A result converted from a state where the copy and the moment are those of `s` is converted from `s`. -/
theorem Converted.of_sameMoment {s u v : State} {im : Image} {o : OpRec} {pos tid : Nat} {vs : List Val} (h : Converted u v im o pos tid vs)
    (hm : SameMoment s u) (he : SameEntry s u (keyOf s im pos tid)) : Converted s v im o pos tid vs := by
  unfold Converted at *
  dsimp only at *
  rw [hm.keyOf, hm.inLoopNow, hm.fmtNow, hm.rounding, he.1, he.2] at h
  split
  · next hl =>
    rw [if_pos hl] at h
    exact ⟨h.1, he.sameCopy.trans h.2⟩
  · next hl =>
    rwa [if_neg hl] at h

/-! ### Writes -/

theorem sameEntry_putStored {k j : Nat} (h : j ≠ k) (c : Stored) (s : State) : SameEntry s (putStored k c s) j :=
  ⟨(tens_setTens ..).trans (if_neg h), rfl⟩
theorem holdsStored_putStored (k : Nat) (c : Stored) (s : State) : HoldsStored (putStored k c s) k c := by
  unfold HoldsStored putStored
  dsimp only
  rw [tens_setTens, if_pos rfl]
  exact ⟨rfl, rfl, rfl, rfl⟩

/-- A conversion is a write of the stored form, which a tally may count (R128, R205). -/
theorem convertInto_eq (im : Image) (pos tid : Nat) (sr : Bool) (vs : List Val) (s : State) :
    convertInto im pos tid sr vs s = { putStored (keyOf s im pos tid)
      (encodeVals (fmtNow s im tid) (geoTens im tid (fmtNow s im tid)) (rounding s tid (tens s (keyOf s im pos tid)).writes sr) vs) s with
      job.tallies := (convertInto im pos tid sr vs s).job.tallies } := by
  unfold convertInto
  dsimp only
  split <;> rfl

section
variable (im : Image) (o : OpRec) (pos tid : Nat) (vs : List Val) (s : State)

theorem jobOnly_writeOut : JobOnly s (writeOut im o pos tid vs s) := by
  unfold writeOut
  split
  · rfl
  · rw [convertInto_eq]
    rfl

theorem sameMoment_writeOut : SameMoment s (writeOut im o pos tid vs s) := by
  unfold writeOut
  split
  · exact ⟨rfl, rfl, rfl, rfl, rfl, rfl, rfl, rfl, rfl⟩
  · rw [convertInto_eq]
    exact ⟨rfl, rfl, rfl, rfl, rfl, rfl, rfl, rfl, rfl⟩

theorem rangeDrops_writeOut : (writeOut im o pos tid vs s).job.rangeDrops = s.job.rangeDrops := by
  unfold writeOut
  split
  · rfl
  · rw [convertInto_eq]
    rfl

variable {im pos tid s} in
theorem sameEntry_writeOut {k : Nat} (h : k ≠ keyOf s im pos tid) : SameEntry s (writeOut im o pos tid vs s) k := by
  unfold writeOut
  split
  · exact ⟨rfl, tget_tput_ne _ _ _ _ _ h⟩
  · rw [convertInto_eq]
    exact sameEntry_putStored h _ s

theorem converted_writeOut : Converted s (writeOut im o pos tid vs s) im o pos tid vs := by
  unfold Converted
  dsimp only
  split
  · next h =>
    have hsum : (decide (o.flags / 2 % 2 = 1) && inLoopNow s im) = true := by simpa using h
    rw [writeOut, if_pos hsum]
    exact ⟨tget_tput_self .., rfl, rfl, rfl, rfl⟩
  · next h =>
    have hnow : ¬ (decide (o.flags / 2 % 2 = 1) && inLoopNow s im) = true := by simpa using h
    rw [writeOut, if_neg hnow, convertInto_eq]
    exact holdsStored_putStored _ _ s

end

/-! ### The writes of an op -/

/-- The work of an op that writes `outs` from `s`: these results are converted, every other copy is as it was, and the job stands where it stood. -/
structure Wrote (s u : State) (im : Image) (o : OpRec) (pos : Nat) (outs : List (Nat × List Val)) : Prop where
  moment : SameMoment s u
  converted : ∀ e ∈ outs, Converted s u im o pos e.1 e.2
  others : ∀ k, (∀ e ∈ outs, k ≠ keyOf s im pos e.1) → SameEntry s u k

section
variable {s u v : State} {im : Image} {o : OpRec} {pos : Nat} {outs : List (Nat × List Val)}

/-- What changes no copy writes nothing. -/
theorem wrote_nothing (hm : SameMoment s u) (he : ∀ k, SameEntry s u k) : Wrote s u im o pos [] := ⟨hm, by simp, fun k _ => he k⟩

theorem Wrote.writeOut (h : Wrote s u im o pos outs) {tid : Nat} (hnew : ∀ e ∈ outs, keyOf s im pos tid ≠ keyOf s im pos e.1) (vs : List Val) :
    Wrote s (writeOut im o pos tid vs u) im o pos (outs ++ [(tid, vs)]) := by
  have hkey := h.moment.keyOf im pos tid
  refine ⟨h.moment.trans (sameMoment_writeOut ..), fun e he => ?_, fun k hk => ?_⟩
  · obtain he | he := List.mem_append.mp he
    · have hkept : SameEntry u (Machine.writeOut im o pos tid vs u) (keyOf s im pos e.1) :=
        sameEntry_writeOut o vs (by rw [hkey]; exact (hnew e he).symm)
      exact (h.converted e he).keeps hkept.sameCopy hkept.2
    · rw [List.mem_singleton.mp he]
      exact (converted_writeOut ..).of_sameMoment h.moment (h.others _ hnew)
  · refine (h.others k fun e he => hk e (List.mem_append_left _ he)).trans (sameEntry_writeOut o vs ?_)
    rw [hkey]
    exact hk (tid, vs) (List.mem_append_right _ (List.mem_singleton_self _))

/-- What changes no copy after the writes leaves them. -/
theorem Wrote.keeps (h : Wrote s u im o pos outs) (hm : SameMoment u v) (he : ∀ k, SameEntry u v k) : Wrote s v im o pos outs :=
  ⟨h.moment.trans hm, fun e hin => (h.converted e hin).keeps (he _).sameCopy (he _).2, fun k hk => (h.others k hk).trans (he k)⟩

variable (s im o pos) in
/-- An op with one output. -/
theorem wrote_writeOut (tid : Nat) (vs : List Val) : Wrote s (Machine.writeOut im o pos tid vs s) im o pos [(tid, vs)] :=
  (wrote_nothing (SameMoment.refl s) (SameEntry.refl s)).writeOut (by simp) vs

end

end Sys2Proof.Machine
end

section
/-! An op that retires on its position (R71, R191, R203, R294). -/
namespace Sys2Proof.Machine
open Sys2Proof

/-! ### Lists -/

theorem lset_eq_set {α : Type} (xs : List α) (i : Nat) (v : α) : lset xs i v = xs.set i v := by
  induction xs generalizing i with
  | nil => rfl
  | cons x xs ih =>
    cases i with
    | zero => rfl
    | succ i => rw [lset, List.set_cons_succ, ih]

theorem nth_lset_self {α : Type} {xs : List α} {i : Nat} (h : i < xs.length) (v d : α) : nth (lset xs i v) i d = v := by
  rw [nth, lset_eq_set, List.getElem?_set_self h, Option.getD_some]
theorem nth_lset_ne {α : Type} {i j : Nat} (h : j ≠ i) (xs : List α) (v d : α) : nth (lset xs i v) j d = nth xs j d := by
  rw [nth, lset_eq_set, List.getElem?_set_ne (Ne.symm h), nth]

/-! ### The arrivals of a position's tiles -/

theorem foldl_withJob {α : Type} {f : State → α → State} {j : Job} (hf : ∀ s a, f { s with job := j } a = { f s a with job := j }) (l : List α)
    (s : State) : l.foldl f { s with job := j } = { l.foldl f s with job := j } := by
  induction l generalizing s with
  | nil => rfl
  | cons a l ih => rw [List.foldl_cons, List.foldl_cons, hf, ih]

/-- Taking arrivals reads nothing of the job but the plan. -/
theorem takeRank_withJob {s : State} {j : Job} (h : j.plan = s.job.plan) (pos : Nat) :
    takeRank pos { s with job := j } = { takeRank pos s with job := j } := by
  have htiles : tilesAt { s with job := j } pos = tilesAt s pos := by simp only [tilesAt, h]
  unfold takeRank
  rw [htiles]
  refine foldl_withJob (fun s t => ?_) _ s
  exact foldl_withJob (fun s e => rfl) _ (updTile t (fun r => { r with awaits := [] }) s)

theorem takeRank_jobOnly {s u : State} (hj : JobOnly s u) (h : u.job.plan = s.job.plan) (pos : Nat) :
    takeRank pos u = { takeRank pos s with job := u.job } := by
  have hrank := takeRank_withJob h pos
  have hu : u = { s with job := u.job } := hj
  rwa [← hu] at hrank

/-! ### Retirement -/

/-- The op's retirement from `s`, where its work is done: the position goes on, copies and loop sums stay. -/
structure Retires (s u : State) (pos op : Nat) : Prop where
  frame : u = { takeRank pos s with job := u.job }
  opNext : u.job.opNext = lset s.job.opNext pos (op + 1)
  copies : ∀ k, SameCopy s u k
  loopSums : u.job.loopSums = s.job.loopSums
  rangeDrops : u.job.rangeDrops = s.job.rangeDrops
  awaitDone : u.job.awaitDone = s.job.awaitDone

theorem sameCopy_endInit (s : State) (k : Nat) : SameCopy s (endInit s) k := by
  unfold SameCopy tens endInit
  dsimp only
  rw [tget_tmap fun _ => rfl]
  split <;> exact ⟨rfl, rfl, rfl, rfl⟩

theorem jobOnly_noteReads (im : Image) (pos : Nat) (ins : List Nat) (s : State) : JobOnly s (noteReads im pos ins s) := rfl

theorem retires_retireOp (im : Image) (pos op : Nat) (ins : List Nat) (s : State) : Retires s (retireOp im pos op (noteReads im pos ins s)) pos op := by
  have hrank : takeRank pos (noteReads im pos ins s) = { takeRank pos s with job := (noteReads im pos ins s).job } :=
    takeRank_jobOnly (jobOnly_noteReads ..) rfl pos
  unfold retireOp
  rw [hrank]
  unfold endPhase
  split
  · dsimp only
    split
    · split
      · exact ⟨rfl, rfl, fun k => sameCopy_endInit _ k, rfl, rfl, rfl⟩
      · exact ⟨rfl, rfl, fun k => ⟨rfl, rfl, rfl, rfl⟩, rfl, rfl, rfl⟩
    · exact ⟨rfl, rfl, fun k => ⟨rfl, rfl, rfl, rfl⟩, rfl, rfl, rfl⟩
  · exact ⟨rfl, rfl, fun k => ⟨rfl, rfl, rfl, rfl⟩, rfl, rfl, rfl⟩

section
variable {s u v : State} {im : Image} {o : OpRec} {pos op a b : Nat} {c : Instr} {f : Image → OpRec → State → State} {outs : List (Nat × List Val)}

theorem Retires.converted (h : Retires u v pos op) {tid : Nat} {vs : List Val} (hc : Converted s u im o pos tid vs) : Converted s v im o pos tid vs :=
  hc.keeps (h.copies _) (by rw [h.loopSums])

theorem Retires.nth_opNext (h : Retires u v pos op) (hm : SameMoment s u) (hpos : pos < s.job.opNext.length) : nth v.job.opNext pos none32 = op + 1 := by
  rw [h.opNext, hm.opNext]
  exact nth_lset_self hpos ..

/-- Work that changes the job alone, and retirement. -/
theorem Retires.frame_of_jobOnly (h : Retires u v pos op) (hm : SameMoment s u) (hj : JobOnly s u) : v = { takeRank pos s with job := v.job } := by
  have hv := h.frame
  rw [takeRank_jobOnly hj hm.plan] at hv
  exact hv

theorem Retires.opRetired (h : Retires u v pos op) (hm : SameMoment s u) (hj : JobOnly s u) (hpos : pos < s.job.opNext.length) : OpRetired s v pos op := by
  refine ⟨h.nth_opNext hm hpos, fun q hq => ?_, h.frame_of_jobOnly hm hj⟩
  rw [h.opNext, hm.opNext]
  exact nth_lset_ne hq ..

/-- A ready op runs and retires. -/
theorem runOp_ready (h : OpReady s pos op a b im o) (f : Image → OpRec → State → State) :
    runOp pos op a b f s = retireOp im pos op (noteReads im pos o.ins (f im o s)) := by
  obtain ⟨hnext, -, hin⟩ := h
  rw [runOp, hnext]
  exact if_pos hin

theorem retires_runOp (h : OpReady s pos op a b im o) (f : Image → OpRec → State → State) : Retires (f im o s) (runOp pos op a b f s) pos op := by
  rw [runOp_ready h]
  exact retires_retireOp ..

/-- An op whose work is its writes. -/
theorem Wrote.opDone (hc : exec c s = .next (runOp pos op a b f s)) (h : OpReady s pos op a b im o) (hw : Wrote s (f im o s) im o pos outs)
    (hj : JobOnly s (f im o s)) : OpDone c s im o pos op outs := by
  have hret := retires_runOp h f
  refine ⟨_, hc, hret.opRetired hw.moment hj h.2.1, fun e he => hret.converted (hw.converted e he), fun k hk => ?_⟩
  exact (hw.others k hk).sameCopy.trans (hret.copies k)

/-- An op whose one result takes the place of its output. -/
theorem opDone_writeOut (hc : exec c s = .next (runOp pos op a b f s)) (h : OpReady s pos op a b im o) {tid : Nat} {vs : List Val}
    (hf : f im o s = writeOut im o pos tid vs s) : OpDone c s im o pos op [(tid, vs)] := by
  refine Wrote.opDone hc h ?_ ?_
  · rw [hf]
    exact wrote_writeOut ..
  · rw [hf]
    exact jobOnly_writeOut ..

end

end Sys2Proof.Machine
end

section
/-! The computing ops (R207 to R230). -/
namespace Sys2Proof.Machine
open Sys2Proof

theorem jobOnly_countDrops (n : Nat) (s : State) : JobOnly s (countDrops n s) := rfl
theorem sameMoment_countDrops (n : Nat) (s : State) : SameMoment s (countDrops n s) := ⟨rfl, rfl, rfl, rfl, rfl, rfl, rfl, rfl, rfl⟩
theorem sameEntry_countDrops (n : Nat) (s : State) (k : Nat) : SameEntry s (countDrops n s) k := ⟨rfl, rfl⟩

/-- An op that counts what lies off its axis beside its one result. -/
theorem opDone_countDrops {s : State} {pos op a b n tid : Nat} {im : Image} {o : OpRec} {vs : List Val} {c : Instr} {f : Image → OpRec → State → State}
    (hc : exec c s = .next (runOp pos op a b f s)) (h : OpReady s pos op a b im o) (hf : f im o s = countDrops n (writeOut im o pos tid vs s)) :
    OpDone c s im o pos op [(tid, vs)] ∧ ∃ u, exec c s = .next u ∧ u.job.rangeDrops = s.job.rangeDrops + n := by
  refine ⟨Wrote.opDone hc h ?_ ?_, _, hc, ?_⟩
  · rw [hf]
    exact (wrote_writeOut ..).keeps (sameMoment_countDrops ..) (sameEntry_countDrops n _)
  · rw [hf]
    exact (jobOnly_writeOut ..).trans (jobOnly_countDrops ..)
  · rw [(retires_runOp h f).rangeDrops, hf, countDrops, rangeDrops_writeOut]

end Sys2Proof.Machine
end

section
open Sys2Proof Sys2Proof.Machine

/-- Settles O40: each op is one write of the values it forms and its retirement; GATHER and SCATTER count what lies off the axis beside it. -/
theorem computingOpsConvertTheirResults : Obligations.ComputingOpsConvertTheirResults := by
  unfold Obligations.ComputingOpsConvertTheirResults
  intro s pos op im o
  exact ⟨fun h => opDone_writeOut rfl h rfl, fun h => opDone_writeOut rfl h rfl, fun h _ => opDone_writeOut rfl h rfl, fun h _ => opDone_writeOut rfl h rfl,
    fun h _ => opDone_writeOut rfl h rfl, fun h _ => opDone_writeOut rfl h rfl, fun h _ => opDone_writeOut rfl h rfl, fun h _ => opDone_writeOut rfl h rfl,
    fun h => opDone_countDrops rfl h rfl, fun h => opDone_countDrops rfl h rfl, fun h => opDone_countDrops rfl h rfl, fun h => opDone_writeOut rfl h rfl,
    fun h => opDone_writeOut rfl h rfl, fun h => opDone_writeOut rfl h rfl, fun h => opDone_writeOut rfl h rfl⟩

end

section
/-! Moves of encoded elements, and the results of an ATTEND that is no rotation (R222 to R224, R234, R238, R885). -/
namespace Sys2Proof.Machine
open Sys2Proof

/-! ### Moves -/

/-- The work of an op that moves the encoded elements `src` into its output from `s`. -/
structure Moves (s u : State) (im : Image) (o : OpRec) (pos : Nat) (src : List Src) : Prop where
  moment : SameMoment s u
  holds : HoldsStored u (keyOf s im pos (out0 o)) (assemble (fmtNow s im (out0 o)) (geoTens im (out0 o) (fmtNow s im (out0 o))) src)
  others : ∀ k, k ≠ keyOf s im pos (out0 o) → SameEntry s u k

section
variable {s u v : State} {im : Image} {o : OpRec} {pos op a b xf : Nat} {src : List Src} {c : Instr} {f : Image → OpRec → State → State}

theorem jobOnly_moveInto (im : Image) (o : OpRec) (pos xf : Nat) (src : List Src) (s : State) : JobOnly s (moveInto im o pos xf src s) := by
  unfold moveInto
  dsimp only
  split
  · rfl
  · exact jobOnly_writeOut ..

theorem sameMoment_moveInto (im : Image) (o : OpRec) (pos xf : Nat) (src : List Src) (s : State) : SameMoment s (moveInto im o pos xf src s) := by
  unfold moveInto
  dsimp only
  split
  · exact ⟨rfl, rfl, rfl, rfl, rfl, rfl, rfl, rfl, rfl⟩
  · exact sameMoment_writeOut ..

theorem sameEntry_moveInto {k : Nat} (h : k ≠ keyOf s im pos (out0 o)) (xf : Nat) (src : List Src) : SameEntry s (moveInto im o pos xf src s) k := by
  unfold moveInto
  dsimp only
  split
  · exact sameEntry_putStored h ..
  · exact sameEntry_writeOut o _ h

/-- Between tensors of one format, from a state with the copies and the moment of `s`. -/
theorem moves_moveInto (hm : SameMoment s u) (he : ∀ k, SameEntry s u k) (h : xf = fmtNow s im (out0 o)) :
    Moves s (moveInto im o pos xf src u) im o pos src := by
  have hmove : moveInto im o pos xf src u = putStored (keyOf s im pos (out0 o))
      (assemble (fmtNow s im (out0 o)) (geoTens im (out0 o) (fmtNow s im (out0 o))) src) u := by
    simp only [moveInto, hm.keyOf, hm.fmtNow, if_pos h]
  rw [hmove]
  exact ⟨hm.trans ⟨rfl, rfl, rfl, rfl, rfl, rfl, rfl, rfl, rfl⟩, holdsStored_putStored .., fun k hk => (he k).trans (sameEntry_putStored hk ..)⟩

/-- Between two formats a move is a conversion of the decoded values. -/
theorem wrote_moveInto (hm : SameMoment s u) (he : ∀ k, SameEntry s u k) (h : xf ≠ fmtNow s im (out0 o)) :
    Wrote s (moveInto im o pos xf src u) im o pos [(out0 o, movedVals src)] := by
  have hmove : moveInto im o pos xf src u = writeOut im o pos (out0 o) (movedVals src) u := by
    simp only [moveInto, hm.fmtNow, if_neg h]
  rw [hmove]
  exact (wrote_nothing hm he).writeOut (by simp) _

theorem Moves.keeps (h : Moves s u im o pos src) (hm : SameMoment u v) (he : ∀ k, SameEntry u v k) : Moves s v im o pos src :=
  ⟨h.moment.trans hm, h.holds.sameCopy (he _).sameCopy, fun k hk => (h.others k hk).trans (he k)⟩

/-- An op whose work is a move. -/
theorem Moves.opMoved (hc : exec c s = .next (runOp pos op a b f s)) (h : OpReady s pos op a b im o) (hw : Moves s (f im o s) im o pos src)
    (hj : JobOnly s (f im o s)) : OpMoved c s im o pos op src := by
  have hret := retires_runOp h f
  exact ⟨_, hc, hret.opRetired hw.moment hj h.2.1, hw.holds.sameCopy (hret.copies _), fun k hk => (hw.others k hk).sameCopy.trans (hret.copies k)⟩

/-- An op whose work is, in copies and moment, a move of its sources, encoded or decoded as the formats are. -/
theorem opMoved_or_opDone_of (hc : exec c s = .next (runOp pos op a b f s)) (h : OpReady s pos op a b im o) (hj : JobOnly s (f im o s))
    (hm : SameMoment (moveInto im o pos xf src s) (f im o s)) (he : ∀ k, SameEntry (moveInto im o pos xf src s) (f im o s) k) :
    (xf = fmtNow s im (out0 o) → OpMoved c s im o pos op src) ∧
      (xf ≠ fmtNow s im (out0 o) → OpDone c s im o pos op [(out0 o, movedVals src)]) :=
  ⟨fun hx => Moves.opMoved hc h ((moves_moveInto (SameMoment.refl s) (SameEntry.refl s) hx).keeps hm he) hj,
    fun hx => Wrote.opDone hc h ((wrote_moveInto (SameMoment.refl s) (SameEntry.refl s) hx).keeps hm he) hj⟩

theorem opMoved_or_opDone (hc : exec c s = .next (runOp pos op a b f s)) (h : OpReady s pos op a b im o) (hf : f im o s = moveInto im o pos xf src s) :
    (xf = fmtNow s im (out0 o) → OpMoved c s im o pos op src) ∧
      (xf ≠ fmtNow s im (out0 o) → OpDone c s im o pos op [(out0 o, movedVals src)]) := by
  refine opMoved_or_opDone_of hc h ?_ ?_ fun k => ?_
  · rw [hf]
    exact jobOnly_moveInto ..
  · rw [hf]
    exact SameMoment.refl _
  · rw [hf]
    exact SameEntry.refl _ k

theorem rangeDrops_moveInto (im : Image) (o : OpRec) (pos xf : Nat) (src : List Src) (s : State) :
    (moveInto im o pos xf src s).job.rangeDrops = s.job.rangeDrops := by
  unfold moveInto
  dsimp only
  split
  · rfl
  · exact rangeDrops_writeOut ..

end

/-! ### ATTEND over the stored K and V -/

section
variable {s u : State} {im : Image} {o : OpRec} {pos : Nat}

/-- The values of O, laid out from the query rows' results. -/
abbrev rowsLaid (im : Image) (o : OpRec) (rs : List (List Word × Word)) : List Val :=
  scatterRows im (out0 o) (attAxes o).2.2.2 ((axesOf im (in0 o)).filter (· != (attAxes o).2.2.1)) (rs.map (·.1))

theorem writeRows_one (h : o.outs[1]? = none) (rs : List (List Word × Word)) (s : State) :
    writeRows im o pos rs s = writeOut im o pos (out0 o) (rowsLaid im o rs) s := by
  unfold writeRows
  rw [h]

theorem writeRows_two {l : Nat} (h : o.outs[1]? = some l) (rs : List (List Word × Word)) (s : State) :
    writeRows im o pos rs s = writeOut im o pos l (rs.map fun r => .num (numW r.2)) (writeOut im o pos (out0 o) (rowsLaid im o rs) s) := by
  unfold writeRows
  rw [h]

/-- O and lse go to two copies. -/
theorem wrote_writeRows_two {l : Nat} (h : o.outs[1]? = some l) (hne : keyOf s im pos l ≠ keyOf s im pos (out0 o)) (rs : List (List Word × Word)) :
    Wrote s (writeRows im o pos rs s) im o pos [(out0 o, rowsLaid im o rs), (l, rs.map fun r => .num (numW r.2))] := by
  rw [writeRows_two h]
  exact (wrote_writeOut ..).writeOut (by simpa using hne) _

theorem jobOnly_writeRows (rs : List (List Word × Word)) (s : State) : JobOnly s (writeRows im o pos rs s) := by
  cases h : o.outs[1]? with
  | none =>
    rw [writeRows_one h]
    exact jobOnly_writeOut ..
  | some l =>
    rw [writeRows_two h]
    exact (jobOnly_writeOut ..).trans (jobOnly_writeOut ..)

theorem writeGrads_eq (s : State) : writeGrads im o pos s =
    writeOut im o pos (nth o.outs 2 0) (attendGrads s im o pos).2.2 (writeOut im o pos (nth o.outs 1 0) (attendGrads s im o pos).2.1
      (writeOut im o pos (nth o.outs 0 0) (attendGrads s im o pos).1 s)) := rfl

theorem jobOnly_writeGrads (s : State) : JobOnly s (writeGrads im o pos s) := by
  rw [writeGrads_eq]
  exact ((jobOnly_writeOut ..).trans (jobOnly_writeOut ..)).trans (jobOnly_writeOut ..)

/-- dQ, dK and dV go to three copies. -/
theorem wrote_writeGrads {a b c : Nat} (h : o.outs = [a, b, c]) (hab : keyOf s im pos a ≠ keyOf s im pos b)
    (hac : keyOf s im pos a ≠ keyOf s im pos c) (hbc : keyOf s im pos b ≠ keyOf s im pos c) :
    Wrote s (writeGrads im o pos s) im o pos
      [(a, (attendGrads s im o pos).1), (b, (attendGrads s im o pos).2.1), (c, (attendGrads s im o pos).2.2)] := by
  obtain ⟨ha, hb, hc⟩ : nth o.outs 0 0 = a ∧ nth o.outs 1 0 = b ∧ nth o.outs 2 0 = c := by
    rw [h]
    exact ⟨rfl, rfl, rfl⟩
  rw [writeGrads_eq, ha, hb, hc]
  exact ((wrote_writeOut ..).writeOut (by simpa using hab.symm) _).writeOut (by simpa using ⟨hac.symm, hbc.symm⟩) _

end

end Sys2Proof.Machine
end

section
/-! What the signals and requests of an op leave: the job's positions and copies, and what makes an op the next of its position. -/
namespace Sys2Proof.Machine
open Sys2Proof

/-! ### Positions and copies -/

/-- The job's positions and copies are as they were. -/
def PositionsKept (s u : State) : Prop := u.job.opNext = s.job.opNext ∧ u.job.tensors = s.job.tensors

theorem PositionsKept.trans {s u v : State} (h : PositionsKept s u) (g : PositionsKept u v) : PositionsKept s v := ⟨g.1.trans h.1, g.2.trans h.2⟩
theorem positionsKept_of_job {s u : State} (h : u.job = s.job) : PositionsKept s u := by
  unfold PositionsKept
  rw [h]
  exact ⟨rfl, rfl⟩
theorem BoundaryKept.positionsKept {s u : State} (h : BoundaryKept s u) : PositionsKept s u := by
  unfold PositionsKept
  rw [h.1]
  exact ⟨rfl, rfl⟩
theorem SeqOnly.positionsKept {s u : State} {t : Nat} (h : SeqOnly s u t) : PositionsKept s u := by
  unfold PositionsKept
  rw [h.1]
  exact ⟨rfl, rfl⟩

theorem positionsKept_foldl {α : Type} {f : State → α → State} (h : ∀ s a, PositionsKept s (f s a)) (l : List α) (s : State) :
    PositionsKept s (l.foldl f s) := List.foldlRecOn l f ⟨rfl, rfl⟩ fun u hu a _ => hu.trans (h u a)

theorem positionsKept_wakeWaiter (k : Nat) (w : Nat × Nat × Nat × Nat × Nat) (s : State) : PositionsKept s (wakeWaiter k w s) := by
  unfold wakeWaiter
  split
  · split
    · dsimp only
      split
      · exact (seqOnly_updTile ..).positionsKept
      · exact ((seqOnly_updTile ..).trans (seqOnly_resume ..)).positionsKept
    · exact ⟨rfl, rfl⟩
  · split
    · exact (positionsKept_of_job rfl).trans (boundaryKept_pumpCopies _).positionsKept
    · split <;> exact ⟨rfl, rfl⟩

theorem positionsKept_doSignal (k n ep t : Nat) (s : State) : PositionsKept s (doSignal k n ep t s) := by
  unfold doSignal
  dsimp only
  refine PositionsKept.trans ?_ (positionsKept_foldl (fun s w => positionsKept_wakeWaiter k w s) _ _)
  refine PositionsKept.trans ?_ (positionsKept_of_job (setCtr_job ..))
  split
  · exact positionsKept_of_job rfl
  · exact ⟨rfl, rfl⟩

theorem positionsKept_raiseSignal (code k n ep t op : Nat) (s : State) : PositionsKept s (raiseSignal code k n ep t op s) := by
  unfold raiseSignal
  dsimp only
  split <;> exact positionsKept_of_job rfl

theorem positionsKept_signalCtr (k n ep t op : Nat) (s : State) : PositionsKept s (signalCtr k n ep t op s) := by
  unfold signalCtr
  dsimp only
  split
  · exact positionsKept_doSignal ..
  · exact (positionsKept_raiseSignal ..).trans (boundaryKept_declareFault ..).positionsKept

/-! ### The next op -/

/-- The next op hangs on the job, on whether it runs, and on the arrivals at the position's tiles. -/
theorem nextOp_congr {s u : State} {pos : Nat} (hjob : u.job = s.job) (hst : u.dev.st = s.dev.st) (hrecov : u.recov = s.recov)
    (harr : rankArrived u pos = rankArrived s pos) (op a b : Nat) : nextOp u pos op a b = nextOp s pos op a b := by
  have hrun : jobRunning u = jobRunning s := by rw [jobRunning, hst, hrecov, jobRunning]
  have hpositions : positions u = positions s := by rw [positions, hjob, positions]
  have hturn : tileTurn u pos op = tileTurn s pos op := by rw [tileTurn, hjob, tileTurn]
  have hmates (im : Image) (first : Nat) : matesPast u im first op pos = matesPast s im first op pos := by
    simp only [matesPast, matesThere, groupPositions, rankOf, hpositions, hjob]
  unfold nextOp
  simp only [hjob, hrun, hpositions, hturn, harr, hmates]

/-- Whether the transfers have arrived hangs on the awaited counts and on the counters' values. -/
theorem rankArrived_congr {s u : State} (hjob : u.job = s.job) (htiles : u.tiles = s.tiles) (hvalue : ∀ k, (ctr u k).value = (ctr s k).value) (pos : Nat) :
    rankArrived u pos = rankArrived s pos := by
  have harrived (t : Nat) : arrived u t = arrived s t := by
    unfold arrived tile
    simp only [htiles, hvalue]
  rw [rankArrived, tilesAt, hjob, funext harrived, rankArrived, tilesAt]

theorem inputsReady_congr {s u : State} (hjob : u.job = s.job) (im : Image) (ins : List Nat) : inputsReady u im ins = inputsReady s im ins := by
  simp only [inputsReady, tens, keyOf, instOf, uNow, stepNow, hjob]

theorem OpReady.congr {s u : State} {pos op a b : Nat} {im : Image} {o : OpRec} (h : OpReady s pos op a b im o) (hjob : u.job = s.job)
    (hst : u.dev.st = s.dev.st) (hrecov : u.recov = s.recov) (harr : rankArrived u pos = rankArrived s pos) : OpReady u pos op a b im o := by
  obtain ⟨hnext, hpos, hin⟩ := h
  exact ⟨(nextOp_congr hjob hst hrecov harr ..).trans hnext, by rwa [hjob], (inputsReady_congr hjob ..).trans hin⟩

theorem sameMoment_of_job {s u : State} (h : u.job = s.job) : SameMoment s u := by constructor <;> rw [h]
theorem sameEntry_of_job {s u : State} (h : u.job = s.job) (k : Nat) : SameEntry s u k := by
  unfold SameEntry tens
  rw [h]
  exact ⟨rfl, rfl⟩

/-! ### Requests that leave, or find no plane -/

/-- `u` is `s` but for what was sent and recorded: its job runs on as in `s`, on the same tiles and counters. -/
structure RunsOn (s u : State) : Prop where
  job : u.job = s.job
  recov : u.recov = s.recov
  st : u.dev.st = s.dev.st
  ring : u.dev.ring = s.dev.ring
  tiles : u.tiles = s.tiles
  ctrs : u.remote.ctrs = s.remote.ctrs

theorem RunsOn.refl (s : State) : RunsOn s s := ⟨rfl, rfl, rfl, rfl, rfl, rfl⟩
theorem RunsOn.trans {s u v : State} (h : RunsOn s u) (g : RunsOn u v) : RunsOn s v :=
  ⟨g.job.trans h.job, g.recov.trans h.recov, g.st.trans h.st, g.ring.trans h.ring, g.tiles.trans h.tiles, g.ctrs.trans h.ctrs⟩

theorem RunsOn.opReady {s u : State} (h : RunsOn s u) {pos op a b : Nat} {im : Image} {o : OpRec} (hr : OpReady s pos op a b im o) :
    OpReady u pos op a b im o := by
  exact hr.congr h.job h.st h.recov (rankArrived_congr h.job h.tiles (fun k => by rw [ctr, h.ctrs, ctr]) pos)

theorem RunsOn.ownEndpoint {s u : State} (h : RunsOn s u) : ownEndpoint u = ownEndpoint s := by rw [Machine.ownEndpoint, h.ring, Machine.ownEndpoint]
theorem RunsOn.nativeMode {s u : State} (h : RunsOn s u) : nativeMode u = nativeMode s := by
  rw [Machine.nativeMode, policy, h.ring, Machine.nativeMode, policy]

theorem runsOn_injectPacket (p : Packet) (tray : Bool) (s : State) : RunsOn s (injectPacket p tray none s).2 := by
  unfold injectPacket
  split
  · exact ⟨rfl, rfl, rfl, rfl, rfl, rfl⟩
  · split
    · exact ⟨rfl, rfl, rfl, rfl, rfl, rfl⟩
    · dsimp only
      split <;> exact ⟨rfl, rfl, rfl, rfl, rfl, rfl⟩

/-- Outside native mode no request is refused at egress (R557). -/
theorem runsOn_issue {s : State} (hn : nativeMode s = false) (t : Tile) (p : Packet) (ret : Nat) (counter : Option Nat) (tray : Bool) :
    RunsOn s (issue t none p ret counter tray s) := by
  unfold issue
  dsimp only
  rw [if_neg (by simp [egressOk, hn])]
  have hin := runsOn_injectPacket { p with srcTile := BitVec.ofNat 8 t.val } tray s
  split
  · next h => rw [h] at hin; exact hin
  · next h => rw [h] at hin; exact hin.trans ⟨rfl, rfl, rfl, rfl, rfl, rfl⟩

end Sys2Proof.Machine
end

section
/-! The rotations of an ATTEND (R308 to R320). -/
namespace Sys2Proof.Machine
open Sys2Proof

/-! ### The rotation in hand -/

theorem runOf'_names (s : State) (pos op : Nat) : (runOf' s pos op).pos = pos ∧ (runOf' s pos op).op = op := by
  unfold runOf'
  cases h : s.job.rotations.find? fun y => y.pos == pos && y.op == op with
  | none => exact ⟨rfl, rfl⟩
  | some y => simpa using List.find?_some h

theorem runOf'_putRun {x : RingRun} {pos op : Nat} (hx : x.pos = pos ∧ x.op = op) (s : State) : runOf' (putRun x s) pos op = x := by
  obtain ⟨rfl, rfl⟩ := hx
  have hnone : (s.job.rotations.filter fun y => !(y.pos == x.pos && y.op == x.op)).find? (fun y => y.pos == x.pos && y.op == x.op) = none := by
    rw [List.find?_eq_none]
    intro y hy
    simpa [Classical.or_iff_not_imp_left] using (List.mem_filter.mp hy).2
  rw [runOf', putRun, List.find?_append, hnone]
  simp

/-! ### The turns of an ATTEND -/

section
variable {s : State} {pos op v : Nat} {im : Image} {o : OpRec} {g : OpRec × RingRec} {gs : List (OpRec × RingRec)}
  {turn : Nat → Nat → Image → OpRec → OpRec × RingRec → List (OpRec × RingRec) → RingRun → State → State} {stored : State → State}

theorem turnedOr_none (h : nextOp s pos op 4 v = none) : turnedOr v pos op turn stored s = s := by rw [turnedOr, h]

theorem turnedOr_stored (h : nextOp s pos op 4 v = some (im, o)) (hrot : rotates s op = false) : turnedOr v pos op turn stored s = stored s := by
  rw [turnedOr, h]
  exact if_neg (by simp [hrot])

/-- The waits of the step of a rotation in hand. -/
abbrev waitsOf (s : State) (pos op : Nat) (gs : List (OpRec × RingRec)) : List (Nat × Nat) := stepWaits (gs.map (·.2)) (runOf' s pos op).step

/-- The inputs of an ATTEND that no ring brings. -/
abbrev unturned (o : OpRec) (gs : List (OpRec × RingRec)) : List Nat := o.ins.filter fun t => !gs.any fun e => out0 e.1 == t

theorem turnedOr_waits (h : nextOp s pos op 4 v = some (im, o)) (hrot : rotates s op = true) (hrings : ringsAt s im o pos = some (g :: gs))
    (hin : inputsReady s im (unturned o (g :: gs)) = false) : turnedOr v pos op turn stored s = waitInput pos s := by
  rw [turnedOr, h]
  dsimp only
  rw [if_pos hrot, hrings]
  exact if_pos (by rw [hin]; rfl)

theorem turnedOr_turns (h : nextOp s pos op 4 v = some (im, o)) (hrot : rotates s op = true) (hrings : ringsAt s im o pos = some (g :: gs))
    (hin : inputsReady s im (unturned o (g :: gs)) = true) {u : State} (hask : (waitsOf s pos op (g :: gs)).foldl (askBlock g.2.tile pos op) s = u) :
    turnedOr v pos op turn stored s =
      if (waitsOf s pos op (g :: gs)).all fun w => (runOf' u pos op).got.contains w.1 then turn pos op im o g (g :: gs) (runOf' u pos op) u else u := by
  rw [turnedOr, h]
  dsimp only
  rw [if_pos hrot, hrings]
  dsimp only
  rw [if_neg (by rw [hin]; exact Bool.false_ne_true), hask]

/-- What has been asked for is not asked for again. -/
theorem askBlock_asked {tile : Nat} {w : Nat × Nat} (h : w.1 ∈ (runOf' s pos op).asked) : askBlock tile pos op s w = s :=
  if_pos (List.contains_iff_mem.mpr h)

theorem asks_asked {tile : Nat} {ws : List (Nat × Nat)} (h : ∀ w ∈ ws, w.1 ∈ (runOf' s pos op).asked) : ws.foldl (askBlock tile pos op) s = s :=
  List.foldlRecOn (motive := fun u : State => u = s) ws _ rfl fun u hu w hw => by
    rw [hu]
    exact askBlock_asked (h w hw)

/-- A block that has not come is waited for. -/
theorem askBlock_waits {tile : Nat} {w : Nat × Nat} (h : w.1 ∉ (runOf' s pos op).asked) (hwait : (ctr s w.1).waiters ≠ [] ∨ (ctr s w.1).value < w.2) :
    askBlock tile pos op s w = putRun { runOf' s pos op with asked := (runOf' s pos op).asked ++ [w.1] }
      (setCtr w.1 { ctr s w.1 with waiters := (ctr s w.1).waiters ++ [(3, tile, pos, w.2, s.job.waitTimeout)] } s) := by
  have hno : ¬ ((ctr s w.1).waiters.isEmpty = true ∧ w.2 ≤ (ctr s w.1).value) := by
    rw [List.isEmpty_iff]
    rintro ⟨he, hle⟩
    exact hwait.elim (fun hne => hne he) fun hlt => absurd hle (Nat.not_le.mpr hlt)
  unfold askBlock
  dsimp only
  rw [if_neg (by simpa using h), doWait]
  dsimp only
  rw [if_neg hno]
  rfl

end

/-! ### The end of a step -/

theorem positionsKept_releaseBlock (r : RingRec) (step : Nat) (s : State) : PositionsKept s (releaseBlock r step s) := by
  unfold releaseBlock
  dsimp only
  split
  · exact ⟨rfl, rfl⟩
  · split
    · exact positionsKept_signalCtr ..
    · split
      · exact (boundaryKept_issue ..).positionsKept
      · exact ⟨rfl, rfl⟩

/-- A block whose upstream neighbour is another module is released by a request. -/
theorem runsOn_releaseBlock {r : RingRec} {s : State} (hn : nativeMode s = false)
    (hup : nth s.job.rankMap (nth r.members ((r.index + 1) % r.members.length) 0) 0xFFFF ≠ ownEndpoint s) (step : Nat) :
    RunsOn s (releaseBlock r step s) := by
  unfold releaseBlock
  dsimp only
  rw [if_neg hup]
  split
  · exact RunsOn.refl s
  · split
    · exact runsOn_issue hn ..
    · exact RunsOn.refl s

theorem runsOn_releases {gs : List (OpRec × RingRec)} {s : State} (hn : nativeMode s = false)
    (hup : ∀ e ∈ gs, nth s.job.rankMap (nth e.2.members ((e.2.index + 1) % e.2.members.length) 0) 0xFFFF ≠ ownEndpoint s) (step : Nat) :
    RunsOn s (gs.foldl (fun s e => releaseBlock e.2 step s) s) := by
  refine List.foldlRecOn (motive := RunsOn s) gs _ (RunsOn.refl s) fun u hu e he => hu.trans (runsOn_releaseBlock ?_ ?_ step)
  · rw [hu.nativeMode, hn]
  · rw [hu.job, hu.ownEndpoint]
    exact hup e he

section
variable {s : State} {pos op : Nat} {g : OpRec × RingRec} {gs : List (OpRec × RingRec)} {run : RingRun} {last : State → State}

/-- After a step before the last the next one comes, and no position has gone on. -/
theorem nextTurn_next (h : run.step + 1 < g.2.members.length) (hrun : run.pos = pos ∧ run.op = op) :
    PositionsKept s (nextTurn pos op g gs run last s) ∧
      runOf' (nextTurn pos op g gs run last s) pos op = { run with step := run.step + 1, asked := [], got := [] } := by
  unfold nextTurn
  dsimp only
  rw [if_neg (by omega)]
  exact ⟨(positionsKept_foldl (fun s e => positionsKept_releaseBlock e.2 run.step s) gs s).trans ⟨rfl, rfl⟩,
    runOf'_putRun (x := { run with step := run.step + 1, asked := [], got := [] }) hrun _⟩

theorem nextTurn_last (h : g.2.members.length ≤ run.step + 1) :
    nextTurn pos op g gs run last s = dropRun pos op (last (gs.foldl (fun s e => releaseBlock e.2 run.step s) s)) := if_pos h

end

end Sys2Proof.Machine
end

section
/-! ATTEND as a rotation, step by step (R309, R311, R317 to R319), and the copy ops. -/
namespace Sys2Proof.Machine
open Sys2Proof

section
variable {s : State} {pos op v : Nat} {im : Image} {o : OpRec} {g : OpRec × RingRec} {gs : List (OpRec × RingRec)}
  {turn : Nat → Nat → Image → OpRec → OpRec × RingRec → List (OpRec × RingRec) → RingRun → State → State} {stored : State → State}

theorem attendForward_stored (h : nextOp s pos op 4 0 = some (im, o)) (hrot : rotates s op = false) :
    exec (.attendForward pos op) s = .next (runOp pos op 4 0 (fun im o s => writeRows im o pos (attendRows s im o pos) s) s) :=
  congrArg Host.Outcome.next (turnedOr_stored h hrot)
theorem attendBackward_stored (h : nextOp s pos op 4 1 = some (im, o)) (hrot : rotates s op = false) :
    exec (.attendBackward pos op) s = .next (runOp pos op 4 1 (fun im o s => writeGrads im o pos s) s) :=
  congrArg Host.Outcome.next (turnedOr_stored h hrot)

/-! ### The turns -/

/-- While a block that has been asked for has not come, nothing changes. -/
theorem turnedOr_lacks (h : nextOp s pos op 4 v = some (im, o)) (hrot : rotates s op = true) (hrings : ringsAt s im o pos = some (g :: gs))
    (hin : inputsReady s im (unturned o (g :: gs)) = true) (hasked : ∀ w ∈ waitsOf s pos op (g :: gs), w.1 ∈ (runOf' s pos op).asked)
    (hlacks : ∃ w ∈ waitsOf s pos op (g :: gs), w.1 ∉ (runOf' s pos op).got) : turnedOr v pos op turn stored s = s := by
  rw [turnedOr_turns h hrot hrings hin (asks_asked hasked)]
  obtain ⟨w, hw, hgot⟩ := hlacks
  exact if_neg fun hall => hgot (List.contains_iff_mem.mp (List.all_eq_true.mp hall w hw))

/-- One block that has not come is asked for. -/
theorem turnedOr_asks (h : nextOp s pos op 4 v = some (im, o)) (hrot : rotates s op = true) (hrings : ringsAt s im o pos = some (g :: gs))
    (hin : inputsReady s im (unturned o (g :: gs)) = true) {w : Nat × Nat} (hw : waitsOf s pos op (g :: gs) = [w])
    (hasked : w.1 ∉ (runOf' s pos op).asked) (hgot : w.1 ∉ (runOf' s pos op).got) (hwait : (ctr s w.1).waiters ≠ [] ∨ (ctr s w.1).value < w.2) :
    turnedOr v pos op turn stored s = putRun { runOf' s pos op with asked := (runOf' s pos op).asked ++ [w.1] }
      (setCtr w.1 { ctr s w.1 with waiters := (ctr s w.1).waiters ++ [(3, g.2.tile, pos, w.2, s.job.waitTimeout)] } s) := by
  have hask := askBlock_waits (tile := g.2.tile) hasked hwait
  rw [turnedOr_turns h hrot hrings hin (u := askBlock g.2.tile pos op s w) (by rw [hw]; rfl), hask]
  refine if_neg ?_
  rw [hw, runOf'_putRun (by exact runOf'_names s pos op)]
  simpa using hgot

/-- With every block there, the rotation takes its step. -/
theorem turnedOr_steps (h : nextOp s pos op 4 v = some (im, o)) (hrot : rotates s op = true) (hrings : ringsAt s im o pos = some (g :: gs))
    (hin : inputsReady s im (unturned o (g :: gs)) = true)
    (hthere : ∀ w ∈ waitsOf s pos op (g :: gs), w.1 ∈ (runOf' s pos op).asked ∧ w.1 ∈ (runOf' s pos op).got) :
    turnedOr v pos op turn stored s = turn pos op im o g (g :: gs) (runOf' s pos op) s := by
  rw [turnedOr_turns h hrot hrings hin (asks_asked fun w hw => (hthere w hw).1)]
  exact if_pos (List.all_eq_true.mpr fun w hw => List.contains_iff_mem.mpr (hthere w hw).2)

/-- Before the last step a turn takes the rotation on by one, and no position goes on; a forward one has folded the step's blocks into its rows. -/
def TurnsOn (v : Nat) (turn : Nat → Nat → Image → OpRec → OpRec × RingRec → List (OpRec × RingRec) → RingRun → State → State) : Prop :=
  ∀ (pos op : Nat) (im : Image) (o : OpRec) (g : OpRec × RingRec) (gs : List (OpRec × RingRec)) (run : RingRun) (s : State),
    run.pos = pos ∧ run.op = op → run.step + 1 < g.2.members.length →
    PositionsKept s (turn pos op im o g gs run s) ∧ (runOf' (turn pos op im o g gs run s) pos op).step = run.step + 1 ∧
      (v = 0 → (runOf' (turn pos op im o g gs run s) pos op).rows = rotateRows s im o pos g gs run)

theorem turnsOn_rotateOp : TurnsOn 0 rotateOp := by
  intro pos op im o g gs run s hrun hstep
  unfold rotateOp
  extract_lets rows
  obtain ⟨hkept, hnext⟩ := nextTurn_next (s := s) (gs := gs) (run := { run with rows })
    (last := fun s => runOp pos op 4 0 (fun im o s => writeRows im o pos (rows.map fun r => rowOut (axisLen im (attAxes o).2.2.2) r.root) s) s) hstep hrun
  rw [hnext]
  exact ⟨hkept, rfl, fun _ => rfl⟩

theorem positionsKept_sendGrads (r : RingRec) (op step : Nat) (dk dv : List Word) (s : State) : PositionsKept s (sendGrads r op step dk dv s) := by
  unfold sendGrads
  dsimp only
  split <;> exact ⟨rfl, rfl⟩

theorem turnsOn_rotateGrads : TurnsOn 1 rotateGrads := by
  intro pos op im o g gs run s hrun hstep
  unfold rotateGrads
  extract_lets js k rows first inBlock part dk dv folded run' s'
  have hsent : PositionsKept s s' := positionsKept_sendGrads ..
  obtain ⟨hkept, hnext⟩ := nextTurn_next (s := s') (gs := gs) (run := run')
    (last := fun s => runOp pos op 4 1 (fun im o s => turnedGrads im o pos run' s) s) hstep hrun
  exact ⟨hsent.trans hkept, congrArg RingRun.step hnext, fun h => absurd h Nat.one_ne_zero⟩

/-- An ATTEND of either variant takes its turns so, or runs over the stored K and V as an op of its class. -/
theorem attend_turns {c : Instr × Nat} (hc : c ∈ [(Instr.attendForward pos op, 0), (.attendBackward pos op, 1)]) :
    ∃ turn f, exec c.1 s = .next (turnedOr c.2 pos op turn (runOp pos op 4 c.2 f) s) ∧ TurnsOn c.2 turn := by
  obtain rfl | rfl : c = (.attendForward pos op, 0) ∨ c = (.attendBackward pos op, 1) := by simpa using hc
  · exact ⟨rotateOp, _, rfl, turnsOn_rotateOp⟩
  · exact ⟨rotateGrads, _, rfl, turnsOn_rotateGrads⟩

/-! ### The last turn -/

theorem inputsReady_filter {ins : List Nat} (h : inputsReady s im ins = true) (p : Nat → Bool) : inputsReady s im (ins.filter p) = true :=
  List.all_eq_true.mpr fun t ht => List.all_eq_true.mp h t (List.mem_filter.mp ht).1

/-- O and lse of the rows whose roots the fold has formed by the end of the step in hand. -/
abbrev rootRows (s : State) (im : Image) (o : OpRec) (pos : Nat) (g : OpRec × RingRec) (gs : List (OpRec × RingRec)) (run : RingRun) :
    List (List Word × Word) := (rotateRows s im o pos g gs run).map fun r => rowOut (axisLen im (attAxes o).2.2.2) r.root

/-- After the last step the blocks are released, the roots' rows are written and the op retires. -/
theorem rotateOp_last {run : RingRun} (h : g.2.members.length ≤ run.step + 1) : rotateOp pos op im o g gs run s =
    dropRun pos op (runOp pos op 4 0 (fun im' o' u => writeRows im' o' pos
      ((rotateRows s im o pos g gs run).map fun r => rowOut (axisLen im' (attAxes o').2.2.2) r.root) u)
      (gs.foldl (fun s e => releaseBlock e.2 run.step s) s)) := nextTurn_last h

/-- O takes the values of the roots at the last step of a forward rotation whose neighbours are other modules. -/
theorem rotateOp_converts {run : RingRun} (h : OpReady s pos op 4 0 im o) (houts : o.outs = [out0 o]) (hn : nativeMode s = false)
    (hup : ∀ e ∈ gs, nth s.job.rankMap (nth e.2.members ((e.2.index + 1) % e.2.members.length) 0) 0xFFFF ≠ ownEndpoint s)
    (hlast : g.2.members.length ≤ run.step + 1) :
    nth (rotateOp pos op im o g gs run s).job.opNext pos none32 = op + 1 ∧
      Converted s (rotateOp pos op im o g gs run s) im o pos (out0 o) (rowsLaid im o (rootRows s im o pos g gs run)) ∧
      ∀ k, k ≠ keyOf s im pos (out0 o) → SameCopy s (rotateOp pos op im o g gs run s) k := by
  rw [rotateOp_last hlast]
  have hruns := runsOn_releases hn hup run.step
  have hret := retires_runOp (hruns.opReady h) fun im' o' u => writeRows im' o' pos
    ((rotateRows s im o pos g gs run).map fun r => rowOut (axisLen im' (attAxes o').2.2.2) r.root) u
  have hone : o.outs[1]? = none := by rw [houts]; rfl
  rw [writeRows_one hone] at hret
  have hw := (wrote_nothing (o := o) (im := im) (pos := pos) (sameMoment_of_job hruns.job) (sameEntry_of_job hruns.job)).writeOut (tid := out0 o) (by simp)
    (rowsLaid im o (rootRows s im o pos g gs run))
  refine ⟨hret.nth_opNext hw.moment h.2.1, ?_, fun k hk => ?_⟩
  · exact (hret.converted (hw.converted _ (List.mem_singleton_self _))).keeps ⟨rfl, rfl, rfl, rfl⟩ rfl
  · exact ((hw.others k (by simpa using hk)).sameCopy.trans (hret.copies k)).trans ⟨rfl, rfl, rfl, rfl⟩

end

end Sys2Proof.Machine
end

section
open Sys2Proof Sys2Proof.Machine

/-- Settles O41: what the ATTEND over the stored K and V writes, the turns of a rotation up to its last, and the moves of the two copy ops. -/
theorem attendAndCopyOps : Obligations.AttendAndCopyOps := by
  unfold Obligations.AttendAndCopyOps
  intro s pos op im o
  refine ⟨fun h hrot => ⟨fun houts => ?_, fun l houts hne => ?_⟩, fun v c hc hv g gs hnext hrot hrings hin => ?_,
    fun g gs h hrot hrings houts hn hup hthere hlast => ?_, fun a b c h hrot houts hab hac hbc => ?_, fun h => ?_, fun h => ?_⟩
  · refine Wrote.opDone (attendForward_stored h.1 hrot) h ?_ (jobOnly_writeRows ..)
    rw [writeRows_one (by rw [houts]; rfl)]
    exact wrote_writeOut ..
  · exact Wrote.opDone (attendForward_stored h.1 hrot) h (wrote_writeRows_two (by rw [houts]; rfl) hne _) (jobOnly_writeRows ..)
  · subst hv
    obtain ⟨turn, stored, hexec, hturn⟩ := attend_turns hc
    refine ⟨fun hasked hlacks => ?_, fun w hw hasked hgot hwait => ?_, fun hthere hstep => ?_⟩
    · rw [hexec, turnedOr_lacks hnext hrot hrings hin hasked hlacks]
    · rw [hexec, turnedOr_asks hnext hrot hrings hin hw hasked hgot hwait]
      refine ⟨_, rfl, ?_, fun j hj => ?_, ?_, ?_, rfl⟩
      · exact (ctr_setCtr ..).trans (if_pos rfl)
      · exact (ctr_setCtr ..).trans (if_neg hj)
      · rw [runOf'_putRun (by exact runOf'_names s pos op)]
        exact List.mem_append_right _ (List.mem_singleton_self _)
      · rw [runOf'_putRun (by exact runOf'_names s pos op)]
    · obtain ⟨⟨hpos, hcopies⟩, hnextStep, hrows⟩ := hturn pos op im o g (g :: gs) (runOf' s pos op) s (runOf'_names s pos op) hstep
      exact ⟨_, by rw [hexec, turnedOr_steps hnext hrot hrings hin hthere], hpos, hcopies, hnextStep, hrows⟩
  · have hexec : exec (.attendForward pos op) s = .next (rotateOp pos op im o g (g :: gs) (runOf' s pos op) s) :=
      congrArg Host.Outcome.next (turnedOr_steps h.1 hrot hrings (inputsReady_filter h.2.2 _) hthere)
    exact ⟨_, hexec, rotateOp_converts h houts hn hup hlast⟩
  · exact Wrote.opDone (attendBackward_stored h.1 hrot) h (wrote_writeGrads houts hab hac hbc) (jobOnly_writeGrads ..)
  · obtain ⟨hmoved, hdone⟩ := opMoved_or_opDone_of (c := .copyBox pos op) rfl h ((jobOnly_moveInto ..).trans (jobOnly_countDrops ..))
      (sameMoment_countDrops ..) (sameEntry_countDrops (boxDrops s im o) _)
    refine ⟨hmoved, hdone, _, rfl, ?_⟩
    rw [(retires_runOp h _).rangeDrops, countDrops]
    exact congrArg (· + boxDrops s im o) (rangeDrops_moveInto ..)
  · exact opMoved_or_opDone (c := .copyReshape pos op) rfl h rfl

end

section
/-! The collectives (R231 to R236, R603, R669). -/
namespace Sys2Proof.Machine
open Sys2Proof

section
variable {s u : State} {im : Image} {o : OpRec} {pos op v : Nat} {ms : List MemberX} {cs : List (Tens × Geo)}
  {f : Image → OpRec → List (Tens × Geo) → State → State} {wait : Image → OpRec → State → State}

/-- With every member's data there the op runs. -/
theorem collectiveOp_runs (h : OpReady s pos op 10 v im o) (hms : memberCopies s im o pos op ms = some cs) :
    collectiveOp v pos op ms f wait s = runOp pos op 10 v (fun im o s => f im o cs s) s := by
  obtain ⟨hnext, -, hin⟩ := h
  rw [collectiveOp, hnext]
  dsimp only
  rw [if_neg (by simp [hin]), hms]

/-- Until then the rank waits. -/
theorem collectiveOp_waits (h : OpReady s pos op 10 v im o) (hms : memberCopies s im o pos op ms = none) :
    collectiveOp v pos op ms f wait s = wait im o s := by
  obtain ⟨hnext, -, hin⟩ := h
  rw [collectiveOp, hnext]
  dsimp only
  rw [if_neg (by simp [hin]), hms]

/-- A reduction that placement does not run in the tree, with none in flight, does nothing while it waits. -/
theorem bulkWait_outside (hb : s.flume.bulks = []) (htree : inTree s op = false) (fop kind : Nat) (slices : Image → OpRec → List (Nat × List Nat))
    (use : Image → OpRec → List DWord → State → State) : bulkWait v pos op fop kind slices use im o s = s := by
  rw [bulkWait, hb]
  exact if_neg (by simp [htree])

theorem exec_collective_runs {c : Instr} (hc : exec c s = .next (collectiveOp v pos op ms f wait s)) (h : OpReady s pos op 10 v im o)
    (hms : memberCopies s im o pos op ms = some cs) : exec c s = .next (runOp pos op 10 v (fun im o s => f im o cs s) s) := by
  rw [hc, collectiveOp_runs h hms]

/-! ### Noise statistics -/

theorem jobOnly_noteNoise (im : Image) (o : OpRec) (pos : Nat) (s : State) : JobOnly s (noteNoise im o pos s) := by
  unfold noteNoise
  dsimp only
  split <;> rfl

theorem wrote_noteNoise (im : Image) (o : OpRec) (pos : Nat) (s : State) : Wrote s (noteNoise im o pos s) im o pos [] := by
  unfold noteNoise
  dsimp only
  split
  · exact wrote_nothing ⟨rfl, rfl, rfl, rfl, rfl, rfl, rfl, rfl, rfl⟩ fun k => ⟨rfl, rfl⟩
  · exact wrote_nothing (SameMoment.refl s) (SameEntry.refl s)

/-- A reduction that notes its X for the noise statistics and writes its result. -/
theorem opDone_reduction {c : Instr} {g : Image → OpRec → State → State} {vs : List Val} (hc : exec c s = .next (runOp pos op 10 v g s))
    (h : OpReady s pos op 10 v im o) (hg : g im o s = writeOut im o pos (out0 o) vs (noteNoise im o pos s)) :
    OpDone c s im o pos op [(out0 o, vs)] := by
  refine Wrote.opDone hc h ?_ ?_
  · rw [hg]
    exact (wrote_noteNoise ..).writeOut (by simp) vs
  · rw [hg]
    exact (jobOnly_noteNoise ..).trans (jobOnly_writeOut ..)

/-! ### The versions that a gather sends -/

theorem BoundaryKept.sameMoment (h : BoundaryKept s u) : SameMoment s u := by constructor <;> rw [h.1]
theorem BoundaryKept.sameEntry (h : BoundaryKept s u) (k : Nat) : SameEntry s u k := by
  unfold SameEntry tens
  rw [h.1]
  exact ⟨rfl, rfl⟩

theorem boundaryKept_sendVersions (im : Image) (o : OpRec) (pos : Nat) (s : State) : BoundaryKept s (sendVersions im o pos s) := by
  unfold sendVersions
  split
  · exact BoundaryKept.refl s
  · dsimp only
    split
    · split
      · exact BoundaryKept.refl s
      · exact boundaryKept_foldl (fun s m => boundaryKept_issue ..) _ s
    · exact BoundaryKept.refl s

/-- Only a parameter or an optimizer state has a version to send. -/
theorem sendVersions_none (h : 1 < (tensorOf im (in0 o)).role) : sendVersions im o pos s = s := by
  unfold sendVersions
  split
  · rfl
  · dsimp only
    split <;> rfl

/-! ### Gathers -/

/-- Sources of Y's elements in a gather: slice i is member i's X (R232, R234). -/
abbrev gatheredSrc (im : Image) (o : OpRec) (cs : List (Tens × Geo)) : List Src :=
  srcOf cs (((List.range (product (dimsOf im (out0 o)))).map fun e =>
    nth (unravel (dimsOf im (out0 o)) e) (axisPosOf o) 0 / nth (dimsOf im (in0 o)) (axisPosOf o) 1).zip
      (shiftAxis (dimsOf im (in0 o)) (dimsOf im (out0 o)) (axisPosOf o) fun j => j % nth (dimsOf im (in0 o)) (axisPosOf o) 1))

/-- What a gather does with the members' data. -/
abbrev gatherWork (pos : Nat) (cs : List (Tens × Geo)) (im : Image) (o : OpRec) (s : State) : State :=
  moveInto im o pos (fmtNow s im (in0 o)) (gatheredSrc im o cs) (sendVersions im o pos s)

theorem exec_gather_runs (h : OpReady s pos op 10 2 im o) (hstored : turnedGather s im op = false) (hms : memberCopies s im o pos op ms = some cs) :
    exec (.collectiveGather pos op ms) s = .next (runOp pos op 10 2 (gatherWork pos cs) s) := by
  refine congrArg Host.Outcome.next ?_
  rw [gatherOp, h.1]
  dsimp only
  rw [if_neg (by simp [hstored]), collectiveOp_runs h hms]

theorem exec_gather_waits (h : OpReady s pos op 10 2 im o) (hstored : turnedGather s im op = false) (hms : memberCopies s im o pos op ms = none) :
    exec (.collectiveGather pos op ms) s = .next s := by
  refine congrArg Host.Outcome.next ?_
  rw [gatherOp, h.1]
  dsimp only
  rw [if_neg (by simp [hstored]), collectiveOp_waits h hms]

theorem exec_gather_turned (h : OpReady s pos op 10 2 im o) (hturned : turnedGather s im op = true) :
    exec (.collectiveGather pos op ms) s = .next (runOp pos op 10 2 (fun im o s => sendVersions im o pos s) s) := by
  refine congrArg Host.Outcome.next ?_
  rw [gatherOp, h.1]
  exact if_pos hturned

theorem sameMoment_gatherWork (s : State) (im : Image) (o : OpRec) (pos : Nat) (cs : List (Tens × Geo)) : SameMoment s (gatherWork pos cs im o s) :=
  (boundaryKept_sendVersions im o pos s).sameMoment.trans (sameMoment_moveInto ..)

theorem sameEntry_gatherWork (cs : List (Tens × Geo)) {k : Nat} (h : k ≠ keyOf s im pos (out0 o)) : SameEntry s (gatherWork pos cs im o s) k := by
  have hsent := boundaryKept_sendVersions im o pos s
  refine (hsent.sameEntry k).trans (sameEntry_moveInto ?_ ..)
  rwa [hsent.sameMoment.keyOf]

theorem moves_gatherWork (hx : fmtNow s im (in0 o) = fmtNow s im (out0 o)) : Moves s (gatherWork pos cs im o s) im o pos (gatheredSrc im o cs) :=
  have hsent := boundaryKept_sendVersions im o pos s
  moves_moveInto hsent.sameMoment hsent.sameEntry hx
theorem converted_gatherWork (hx : fmtNow s im (in0 o) ≠ fmtNow s im (out0 o)) :
    Converted s (gatherWork pos cs im o s) im o pos (out0 o) (movedVals (gatheredSrc im o cs)) := by
  have hsent := boundaryKept_sendVersions im o pos s
  have hw := wrote_moveInto (pos := pos) (src := gatheredSrc im o cs) hsent.sameMoment hsent.sameEntry hx
  exact hw.converted (out0 o, movedVals (gatheredSrc im o cs)) (List.mem_singleton_self _)

/-- Without a version to send a gather changes the job alone. -/
theorem jobOnly_gatherWork (h : 1 < (tensorOf im (in0 o)).role) : JobOnly s (gatherWork pos cs im o s) := by
  rw [gatherWork, sendVersions_none h]
  exact jobOnly_moveInto ..

/-! ### Barriers -/

/-- Every group index is one of the module's own ranks or named. -/
theorem barrier_all {idx : List Nat} (h : ∀ i, i < groupSize im o.machine →
      (∃ q ∈ groupPositions s im o.machine pos, i = groupIndex im o.machine (rankOf s im q)) ∨ i ∈ idx) :
    ((List.range (groupSize im o.machine)).all fun i =>
      ((groupPositions s im o.machine pos).map fun q => groupIndex im o.machine (rankOf s im q)).contains i || idx.contains i) = true := by
  refine List.all_eq_true.mpr fun i hi => ?_
  rw [Bool.or_eq_true, List.contains_iff_mem, List.contains_iff_mem, List.mem_map]
  exact (h i (List.mem_range.mp hi)).imp_left fun ⟨q, hq, he⟩ => ⟨q, hq, he.symm⟩

theorem exec_barrier {idx : List Nat} (h : nextOp s pos op 10 6 = some (im, o)) : exec (.collectiveBarrier pos op idx) s = .next (
    if !matesThere s im o pos op then s
    else if (List.range (groupSize im o.machine)).all fun i =>
      ((groupPositions s im o.machine pos).map fun q => groupIndex im o.machine (rankOf s im q)).contains i || idx.contains i
    then runOp pos op 10 6 (fun _ _ s => s) s
    else flumeWait 6 pos op 5 (fun _ _ => 0) (fun _ _ _ s => s) im o s) := by
  refine congrArg Host.Outcome.next ?_
  rw [h]

end

end Sys2Proof.Machine
end

section
open Sys2Proof Sys2Proof.Machine

/-- Settles O42: with every member's data each collective is one write or one move, a gather behind the versions that it sends; without it the
reductions outside the tree and the moves wait. -/
theorem collectivesOverTheirMembers : Obligations.CollectivesOverTheirMembers := by
  unfold Obligations.CollectivesOverTheirMembers
  intro s pos op im o ms cs
  refine ⟨fun hms => ⟨fun h => ?_, fun h => ?_, fun h => ?_, fun h hstored => ?_, fun h => ?_, fun h => ?_⟩, fun h hturned => ?_,
    fun hms => ⟨fun h hstored => exec_gather_waits h hstored hms, fun h => ?_, fun h => ?_, fun hb htree => ⟨fun h => ?_, fun h => ?_⟩⟩,
    fun idx h => ⟨fun hmates => ?_, fun hmates hall => ?_⟩⟩
  · exact opDone_reduction (exec_collective_runs (c := .collectiveReduce pos op ms) rfl h hms) h rfl
  · exact opDone_reduction (exec_collective_runs (c := .collectiveReduceScatter pos op ms) rfl h hms) h rfl
  · exact opDone_writeOut (exec_collective_runs (c := .collectiveScalarReduce pos op ms) rfl h hms) h rfl
  · have hret := retires_runOp h (gatherWork pos cs)
    have hm := sameMoment_gatherWork s im o pos cs
    refine ⟨_, exec_gather_runs h hstored hms, hret.nth_opNext hm h.2.1, fun k hk => ?_, fun hx => ?_, fun hx => ?_, fun hrole => ?_⟩
    · exact (sameEntry_gatherWork cs hk).sameCopy.trans (hret.copies k)
    · have hheld := (moves_gatherWork (pos := pos) (cs := cs) hx).holds.sameCopy (hret.copies _)
      rwa [← hx] at hheld
    · exact hret.converted (converted_gatherWork hx)
    · exact hret.frame_of_jobOnly hm (jobOnly_gatherWork hrole)
  · exact opMoved_or_opDone (exec_collective_runs (c := .collectiveAllToAll pos op ms) rfl h hms) h rfl
  · exact opMoved_or_opDone (exec_collective_runs (c := .collectiveBroadcast pos op ms) rfl h hms) h rfl
  · have hret := retires_runOp h fun im o s => sendVersions im o pos s
    have hsent := boundaryKept_sendVersions im o pos s
    exact ⟨_, exec_gather_turned h hturned, hret.nth_opNext hsent.sameMoment h.2.1, fun k => (hsent.sameEntry k).sameCopy.trans (hret.copies k)⟩
  · exact congrArg Host.Outcome.next (collectiveOp_waits h hms)
  · exact congrArg Host.Outcome.next (collectiveOp_waits h hms)
  · exact congrArg Host.Outcome.next ((collectiveOp_waits h hms).trans (bulkWait_outside hb htree ..))
  · exact congrArg Host.Outcome.next ((collectiveOp_waits h hms).trans (bulkWait_outside hb htree ..))
  · rw [exec_barrier h.1, if_pos (by rw [hmates]; rfl)]
  · have hexec : exec (.collectiveBarrier pos op idx) s = .next (runOp pos op 10 6 (fun _ _ s => s) s) := by
      rw [exec_barrier h.1, if_neg (by simp [hmates]), if_pos (barrier_all hall)]
    exact Wrote.opDone hexec h (wrote_nothing (SameMoment.refl s) (SameEntry.refl s)) rfl

end

section
/-! What keeps an op waiting, and the host signals of a program (R191, R203, R241, R567). -/
namespace Sys2Proof.Machine
open Sys2Proof

section
variable {s : State} {pos op a b : Nat} {im : Image} {o : OpRec}

/-! ### The next op of a position -/

/-- The op that a command names runs only while the job runs, as the next of its position and of the command's kind, in its turn, with its transfers
in. -/
theorem nextOp_some (h : nextOp s pos op a b = some (im, o)) : jobRunning s = true ∧ nth s.job.opNext pos none32 = op ∧ im.ops[op]? = some o ∧
    o.opcode = a ∧ o.variant = b ∧ pos < positions s ∧ tileTurn s pos op = true ∧ rankArrived s pos = true := by
  unfold nextOp at h
  split at h
  · split at h
    · next hop =>
      split at h
      · next hcond =>
        obtain ⟨rfl, rfl⟩ := Prod.mk.inj (Option.some.inj h)
        simp only [Bool.and_eq_true, decide_eq_true_eq, beq_iff_eq] at hcond
        obtain ⟨⟨⟨⟨⟨⟨⟨⟨hrun, hpos⟩, hnext⟩, -⟩, hcode⟩, hvar⟩, hturn⟩, -⟩, harr⟩ := hcond
        exact ⟨hrun, hnext, hop, hcode, hvar, hpos, hturn, harr⟩
      · cases h
    · cases h
    · cases h
  · cases h
  · cases h

theorem runOp_none (h : nextOp s pos op a b = none) (f : Image → OpRec → State → State) : runOp pos op a b f s = s := by rw [runOp, h]

/-- An op waits for an input whose copy is not marked for this iteration. -/
theorem runOp_waits (h : nextOp s pos op a b = some (im, o)) (hin : inputsReady s im o.ins = false) (f : Image → OpRec → State → State) :
    runOp pos op a b f s = { s with job.waitingInput := sinsert s.job.waitingInput pos } := by
  rw [runOp, h]
  exact if_neg (by simp [hin])

/-- The command `c` runs op `op` of this class and variant where nothing else is asked of it. -/
def RunsOp (c : Instr) (s : State) (pos op a b : Nat) : Prop := ∃ f, exec c s = .next (runOp pos op a b f s)

theorem RunsOp.waits {c : Instr} (h : RunsOp c s pos op a b) : (nextOp s pos op a b = none → exec c s = .next s) ∧
    (∀ im o, nextOp s pos op a b = some (im, o) → inputsReady s im o.ins = false →
      exec c s = .next { s with job.waitingInput := sinsert s.job.waitingInput pos }) := by
  obtain ⟨f, hc⟩ := h
  exact ⟨fun hnone => by rw [hc, runOp_none hnone], fun im o hnext hin => by rw [hc, runOp_waits hnext hin]⟩

/-! ### Tiles with nothing to await -/

theorem awaits_takeArrivals (t j : Nat) (s : State) : (tile (takeArrivals t s) j).awaits = if j = t then [] else (tile s j).awaits := by
  rw [tile_takeArrivals]
  split
  · next h => rw [h, tile_updTile_self]
  · next h => rw [tile_updTile_ne h]

/-- Without awaited arrivals taking them leaves the counters. -/
theorem takeRank_remote (h : ∀ t ∈ tilesAt s pos, (tile s t).awaits = []) : (takeRank pos s).remote = s.remote := by
  refine (List.foldlRecOn (motive := fun u : State => u.remote = s.remote ∧ ∀ t ∈ tilesAt s pos, (tile u t).awaits = []) (tilesAt s pos) _
    ⟨rfl, h⟩ fun u hu t ht => ⟨?_, fun j hj => ?_⟩).1
  · rw [← hu.1, takeArrivals, hu.2 t ht]
    rfl
  · rw [awaits_takeArrivals, hu.2 j hj, ite_self]

@[simp] theorem takeRank_mem (pos : Nat) (s : State) : (takeRank pos s).mem = s.mem :=
  foldl_keeps State.mem (fun s t => by rw [takeArrivals_eq]; rfl) _ s

theorem rankArrived_of_awaits (h : ∀ t ∈ tilesAt s pos, (tile s t).awaits = []) : rankArrived s pos = true :=
  List.all_eq_true.mpr fun t ht => by rw [arrived, h t ht]; rfl

/-! ### An op that changes nothing itself -/

theorem opRetired_idle {c : Instr} {f : Image → OpRec → State → State} (hc : exec c s = .next (runOp pos op a b f s)) (h : OpReady s pos op a b im o)
    (hf : f im o s = s) : ∃ u, exec c s = .next u ∧ OpRetired s u pos op := by
  have hret := retires_runOp h f
  rw [hf] at hret
  exact ⟨_, hc, hret.opRetired (SameMoment.refl s) rfl h.2.1⟩

/-- An op whose work leaves the job and the tiles, on tiles that await nothing: the counters are those after its work. -/
theorem Retires.ctr_eq {u v : State} (h : Retires u v pos op) (hjob : u.job = s.job) (htiles : u.tiles = s.tiles)
    (haw : ∀ t ∈ tilesAt s pos, (tile s t).awaits = []) (j : Nat) : ctr v j = ctr u j := by
  have hrank : (takeRank pos u).remote = u.remote := takeRank_remote fun t ht => by
    rw [tilesAt, hjob] at ht
    rw [tile, htiles]
    exact haw t ht
  rw [ctr, h.frame]
  exact congrArg (fun r : Remote => tget r.ctrs j {}) hrank

/-! ### Signals and waits of the host counters -/

/-- `s` with the notice to the host where the signal of counter `k` by `n` reaches a watch (R575). -/
def watched (k n : Nat) (s : State) : State :=
  match watchHit s k (ctr s k).value ((ctr s k).value + n) with
  | some conn => notifyConn conn 1 ((ctr s k).value + n) [] s
  | none => s

theorem watched_frame (k n : Nat) (s : State) :
    watched k n s = { s with out := (watched k n s).out, hauler.conns := (watched k n s).hauler.conns } := by
  unfold watched
  split <;> rfl

/-- A signal of a counter that no one waits for raises its value. -/
theorem doSignal_nobody {k : Nat} (h : (ctr s k).waiters = []) (n ep t : Nat) : doSignal k n ep t s =
    setCtr k { ctr s k with value := (ctr s k).value + n, waiters := [], lastEp := BitVec.ofNat 16 ep, lastTile := t } (watched k n s) := by
  unfold doSignal
  dsimp only
  rw [h]
  rfl

/-- What HOST_SIGNAL_NOTIFY does: position 0 signals for the module. -/
abbrev notifyWork (pos : Nat) (_ : Image) (o : OpRec) (s : State) : State :=
  if pos = 0 then signalCtr (hostCtr (hostH o)) (hostN o) (ownEndpoint s).toNat 0 5 s else s

theorem exec_hostSignalNotify (pos op : Nat) (s : State) : exec (.hostSignalNotify pos op) s = .next (runOp pos op 12 0 (notifyWork pos) s) := rfl

theorem notifyWork_nobody (hfault : signalFault (ctr s (hostCtr (hostH o))) (hostN o) = 0) (hw : (ctr s (hostCtr (hostH o))).waiters = []) :
    notifyWork 0 im o s = setCtr (hostCtr (hostH o)) { ctr s (hostCtr (hostH o)) with
      value := (ctr s (hostCtr (hostH o))).value + hostN o, waiters := [], lastEp := BitVec.ofNat 16 (ownEndpoint s).toNat, lastTile := 0 }
      (watched (hostCtr (hostH o)) (hostN o) s) := by
  rw [notifyWork, if_pos rfl, signalCtr]
  dsimp only
  rw [if_pos hfault, doSignal_nobody hw]

/-- A signal of position 0 that no one waits for raises the host counter, and the op retires. -/
theorem hostSignalNotify_signals {k : Nat} (hk : k = hostCtr (hostH o)) (h : OpReady s 0 op 12 0 im o) (haw : ∀ t ∈ tilesAt s 0, (tile s t).awaits = [])
    (hfault : signalFault (ctr s k) (hostN o) = 0) (hw : (ctr s k).waiters = []) :
    ∃ u, exec (.hostSignalNotify 0 op) s = .next u ∧ (ctr u k).value = (ctr s k).value + hostN o ∧ (∀ j, j ≠ k → ctr u j = ctr s j) ∧
      nth u.job.opNext 0 none32 = op + 1 ∧ u.mem = s.mem := by
  subst hk
  have hret := retires_runOp h (notifyWork 0)
  rw [notifyWork_nobody hfault hw, watched_frame] at hret
  have hctr := hret.ctr_eq rfl rfl haw
  refine ⟨_, exec_hostSignalNotify 0 op s, ?_, fun j hj => ?_, hret.nth_opNext (sameMoment_of_job rfl) h.2.1, ?_⟩
  · rw [hctr, ctr_setCtr, if_pos rfl]
  · rw [hctr, ctr_setCtr, if_neg hj]
    rfl
  · rw [hret.frame]
    exact takeRank_mem ..

theorem exec_hostSignalAwait (h : nextOp s pos op 12 1 = some (im, o)) : exec (.hostSignalAwait pos op) s = .next (
    if pos ≠ 0 then (if op < nth s.job.opNext 0 0 then runOp pos op 12 1 (fun _ _ s => s) s else s)
    else if s.job.awaitDone.contains pos then
      runOp pos op 12 1 (fun _ _ s => { s with job.awaitDone := s.job.awaitDone.filter (· != pos) }) s
    else if awaits s (hostCtr (hostH o)) pos then s
    else
      let w := doWait (hostCtr (hostH o)) (2, rankOf s im pos, pos, hostN o, hostTimeout o) s
      if w.1 then runOp pos op 12 1 (fun _ _ s => s) w.2 else w.2) := by
  refine congrArg Host.Outcome.next ?_
  rw [h]

/-- Where no one waits and the count is there, a wait takes it. -/
theorem doWait_now {k : Nat} {w : Nat × Nat × Nat × Nat × Nat} (h : (ctr s k).waiters = []) (hle : w.2.2.2.1 ≤ (ctr s k).value) :
    doWait k w s = (true, setCtr k { ctr s k with value := (ctr s k).value - w.2.2.2.1 } s) := if_pos ⟨by rw [h]; rfl, hle⟩
/-- Else it waits at the end of the line. -/
theorem doWait_later {k : Nat} {w : Nat × Nat × Nat × Nat × Nat} (hlt : (ctr s k).value < w.2.2.2.1) :
    doWait k w s = (false, setCtr k { ctr s k with waiters := (ctr s k).waiters ++ [w] } s) := if_neg fun h => absurd h.2 (Nat.not_le.mpr hlt)

theorem awaits_nobody {k : Nat} (h : (ctr s k).waiters = []) : awaits s k pos = false := by rw [awaits, h]; rfl

/-- Position 0 takes its count at once where no one waits before it and the count is there. -/
theorem hostSignalAwait_takes {k : Nat} (hk : k = hostCtr (hostH o)) (h : OpReady s 0 op 12 1 im o) (hdone : 0 ∉ s.job.awaitDone)
    (haw : ∀ t ∈ tilesAt s 0, (tile s t).awaits = []) (hw : (ctr s k).waiters = []) (hn : hostN o ≤ (ctr s k).value) :
    ∃ u, exec (.hostSignalAwait 0 op) s = .next u ∧ ctr u k = { ctr s k with value := (ctr s k).value - hostN o } ∧
      nth u.job.opNext 0 none32 = op + 1 := by
  subst hk
  have hready : OpReady (setCtr (hostCtr (hostH o))
      { ctr s (hostCtr (hostH o)) with value := (ctr s (hostCtr (hostH o))).value - hostN o } s) 0 op 12 1 im o :=
    h.congr rfl rfl rfl (by rw [rankArrived_of_awaits haw]; exact rankArrived_of_awaits haw)
  have hret := retires_runOp hready fun _ _ s => s
  refine ⟨_, ?_, ?_, hret.nth_opNext (SameMoment.refl _) h.2.1⟩
  · rw [exec_hostSignalAwait h.1, if_neg (by simp), if_neg (by simpa using hdone), if_neg (by simp [awaits_nobody hw])]
    dsimp only
    rw [doWait_now hw hn]
    rfl
  · rw [hret.ctr_eq (s := s) rfl rfl haw, ctr_setCtr, if_pos rfl]

/-- Who waits for a counter does not make an op the next, or no longer the next. -/
theorem OpReady.withWaiters (h : OpReady s pos op a b im o) (k : Nat) (ws : List (Nat × Nat × Nat × Nat × Nat)) :
    OpReady (setCtr k { ctr s k with waiters := ws } s) pos op a b im o := by
  refine h.congr rfl rfl rfl (rankArrived_congr (by rfl) (by rfl) (fun j => ?_) pos)
  rw [ctr_setCtr]
  split
  · next hj => rw [hj]
  · rfl

/-- Position 0 waits at the end of the line while the count is not there, and a wait in progress changes nothing. -/
theorem hostSignalAwait_waits {k : Nat} (hk : k = hostCtr (hostH o)) (h : OpReady s 0 op 12 1 im o) (hdone : 0 ∉ s.job.awaitDone)
    (hw : (ctr s k).waiters = []) (hn : (ctr s k).value < hostN o) :
    ∃ u, exec (.hostSignalAwait 0 op) s = .next u ∧ (ctr u k).value = (ctr s k).value ∧
      (ctr u k).waiters = [(2, rankOf s im 0, 0, hostN o, hostTimeout o)] ∧ u = { s with remote.ctrs := u.remote.ctrs } ∧
      exec (.hostSignalAwait 0 op) u = .next u := by
  subst hk
  refine ⟨setCtr (hostCtr (hostH o)) { ctr s (hostCtr (hostH o)) with waiters := [(2, rankOf s im 0, 0, hostN o, hostTimeout o)] } s, ?_, ?_, ?_, rfl, ?_⟩
  · rw [exec_hostSignalAwait h.1, if_neg (by simp), if_neg (by simpa using hdone), if_neg (by simp [awaits_nobody hw])]
    dsimp only
    rw [doWait_later hn, hw]
    rfl
  · rw [ctr_setCtr, if_pos rfl]
  · rw [ctr_setCtr, if_pos rfl]
  · rw [exec_hostSignalAwait (h.withWaiters ..).1, if_neg (by simp), if_neg (by simpa using hdone)]
    refine congrArg Host.Outcome.next (if_pos ?_)
    rw [awaits, ctr_setCtr, if_pos rfl]
    rfl

end

end Sys2Proof.Machine
end

section
open Sys2Proof Sys2Proof.Machine

/-- Settles O43: what the next op is, what an op without its inputs does, and position 0 at the host's counters. -/
theorem opsRunInOrderAndWaitForInputs : Obligations.OpsRunInOrderAndWaitForInputs := by
  unfold Obligations.OpsRunInOrderAndWaitForInputs
  intro s pos op
  refine ⟨fun a b im o h => nextOp_some h, ?_, fun c hc => ?_, fun im o h => ⟨fun hpos => ?_, fun hpos haw hfault hw => ?_⟩,
    fun im o h => ⟨fun hpos hop => ?_, fun hpos hop => ?_, fun hpos hdone => ?_, fun hpos hdone haw hw hn => ?_, fun hpos hdone hw hn => ?_⟩⟩
  · have hops : ∀ e ∈ [(Instr.contract pos op, 1, 0), (.map pos op, 2, 0), (.reduceSum pos op, 3, 0), (.reduceSumOfSquares pos op, 3, 1),
        (.reduceMax pos op, 3, 2), (.reduceMin pos op, 3, 3),
        (.normaliseRms pos op, 5, 0), (.normaliseLayer pos op, 5, 1), (.gather pos op, 6, 0), (.scatterAdd pos op, 7, 0),
        (.scatterReplace pos op, 7, 1), (.cast pos op, 8, 0), (.drawBits pos op, 9, 0), (.drawUniform pos op, 9, 1),
        (.drawBernoulli pos op, 9, 2), (.copyBox pos op, 11, 0), (.copyReshape pos op, 11, 1), (.hostSignalNotify pos op, 12, 0)],
        RunsOp e.1 s pos op e.2.1 e.2.2 := by
      simp only [List.forall_mem_cons]
      exact ⟨⟨_, rfl⟩, ⟨_, rfl⟩, ⟨_, rfl⟩, ⟨_, rfl⟩, ⟨_, rfl⟩, ⟨_, rfl⟩, ⟨_, rfl⟩, ⟨_, rfl⟩, ⟨_, rfl⟩, ⟨_, rfl⟩,
        ⟨_, rfl⟩, ⟨_, rfl⟩, ⟨_, rfl⟩, ⟨_, rfl⟩, ⟨_, rfl⟩, ⟨_, rfl⟩, ⟨_, rfl⟩, ⟨_, rfl⟩, by simp⟩
    exact fun e he => (hops e he).waits
  · obtain ⟨turn, f, hexec, -⟩ := attend_turns (s := s) hc
    refine ⟨fun hnone => ?_, fun im o hnext hrot hin => ?_, fun im o g gs hnext hrot hrings hin => ?_⟩
    · rw [hexec, turnedOr_none hnone]
    · rw [hexec, turnedOr_stored hnext hrot, runOp_waits hnext hin]
    · rw [hexec, turnedOr_waits hnext hrot hrings hin]
      rfl
  · exact opRetired_idle (exec_hostSignalNotify ..) h (if_neg hpos)
  · subst hpos
    exact hostSignalNotify_signals rfl h haw hfault hw
  · exact opRetired_idle (by rw [exec_hostSignalAwait h.1, if_pos hpos, if_pos hop]) h rfl
  · rw [exec_hostSignalAwait h.1, if_pos hpos, if_neg (Nat.not_lt.mpr hop)]
  · have hret := retires_runOp h fun _ _ s => { s with job.awaitDone := s.job.awaitDone.filter (· != pos) }
    refine ⟨_, by rw [exec_hostSignalAwait h.1, if_neg (by simpa using hpos), if_pos (by simpa using hdone)],
      hret.opRetired ⟨rfl, rfl, rfl, rfl, rfl, rfl, rfl, rfl, rfl⟩ rfl h.2.1, ?_⟩
    rw [hret.awaitDone]
    simp
  · subst hpos
    exact hostSignalAwait_takes rfl h hdone haw hw hn
  · subst hpos
    exact hostSignalAwait_waits rfl h hdone hw hn

end

section
/-! The gradient-norm guard of a module whose planes of the pair carry nothing (R164, R589, R599): its FLUME_UP cannot leave, and the operation times
out at once. -/
namespace Sys2Proof.Machine
open Sys2Proof

section
variable {s : State}

/-- A fault of this module stops the job that it holds. -/
theorem stopA3_st (h : inJob s = true) (code : Nat) : (stopA3 code s).dev.st = .faulted := by
  unfold stopA3 declareFault
  rw [if_pos h]
  rfl

theorem raiseTimeout_st (h : inJob s = true) (group seq : Word) (planes : Nat) : (raiseTimeout group seq planes s).dev.st = .faulted := by
  refine stopA3_st ?_ _
  unfold raiseGroup
  split <;> exact h

theorem sendPlane_noLane {e : Nat × Nat} (h : laneOfPlane s e.1 = none) (kind : Nat) (d : Desc) (vals : Option (List DWord)) (ns : List FNode)
    (ps : List Packet) (planes : Nat) : sendPlane kind d vals ns (ps, planes, s) e = (ps, planes, s) := by
  unfold sendPlane
  dsimp only
  rw [h]

/-- With no lane of the pair's planes a contribution stops the job. -/
theorem sendFlume_noLane {slots : List Nat} (hjob : inJob s = true) (htop : (groupTree s slots).1 ≠ 0) (hlane : ∀ p, laneOfPlane s p = none)
    (op part kind : Nat) (d : Desc) (ns : List FNode) : (sendFlume op part kind slots d ns s).dev.st = .faulted := by
  have hplanes (e : Desc) (v : Option (List DWord)) (u : State) (hu : ∀ p, laneOfPlane u p = none) (es : List (Nat × Nat)) :
      es.foldl (sendPlane kind e v ns) ([], 0, u) = ([], 0, u) :=
    List.foldlRecOn (motive := fun x => x = ([], 0, u)) es _ rfl fun x hx e _ => by
      rw [hx]
      exact sendPlane_noLane (hu e.1) ..
  unfold sendFlume
  extract_lets d₁ d₂ f u r
  have htop₂ : ¬ d₂.top = 0 := htop
  rw [if_neg htop₂, hplanes _ _ u hlane]
  exact raiseTimeout_st (s := u) hjob ..

/-- The guard's round of the device set, in a job of several modules (R164). -/
theorem runGuard_noLane {im : Image} (hjob : inJob s = true) (hn : s.job.n2Now = none) (hranks : 1 < s.job.rankMap.length)
    (htop : (groupTree s (deviceSlots s)).1 ≠ 0) (hlane : ∀ p, laneOfPlane s p = none) (n2 : List (Nat × DWord)) :
    (runGuard im n2 s).dev.st = .faulted := by
  unfold runGuard sendRanks deviceNodes
  rw [hn, if_neg (by omega)]
  exact sendFlume_noLane hjob htop hlane ..

/-- RUN of an update phase leaves the device state where the guard has brought it. -/
theorem runPhase_st {im : Image} {ph : Nat} (hkind : ((im.phases[ph]?).getD ⟨0, 0, 0⟩).kind = 2) (hdue : s.recov.triggerDue = none)
    (n2 : List (Nat × DWord)) : (runPhase im ph n2 s).dev.st = (runGuard im n2 s).dev.st := by
  unfold runPhase
  rw [if_pos hkind, if_neg (by simp [hdue])]
  dsimp only
  split
  · rfl
  · split
    · rfl
    · exact openPhase_st ..

end

/-! ### The refuting state -/

/-- An image whose step is one update phase of one op. -/
def updateImage : Image := { phases := [⟨2, 0, 1⟩], items := [(1, 0)] }

/-- A running job of two modules at that phase, on a module none of whose lanes is up. -/
def darkModule : State :=
  { State.reset with
    dev := { State.reset.dev with st := .running }
    job := { image := some updateImage, plan := some { r := 1, n := 2, w := 1 }, rankMap := [5, 6], stepOpen := true } }

theorem laneOfPlane_darkModule (p : Nat) : laneOfPlane darkModule p = none := by
  have hdark : ∀ l ∈ List.range 144, carries darkModule l = false := by decide +kernel
  rw [laneOfPlane, List.find?_eq_none]
  intro l hl
  simp [hdark l hl]

theorem runGuard_darkModule : (runGuard updateImage [] darkModule).dev.st = .faulted :=
  runGuard_noLane rfl rfl (by decide) (by decide +kernel) laneOfPlane_darkModule []

end Sys2Proof.Machine
end

section
open Sys2Proof Sys2Proof.Machine

/-- Refutes O44: where no lane of the pair's planes is up, the guard's round of the device set times out at once (R599), and RUN of the update phase
brings the module of a job of two from RUNNING to FAULTED, while the statement has the device state stay. -/
theorem not_stepItemsRunInOrder : ¬ Obligations.StepItemsRunInOrder := by
  unfold Obligations.StepItemsRunInOrder
  intro h
  obtain ⟨-, -, hrun, -⟩ := h darkModule updateImage
  obtain ⟨-, -, -, hguard, -⟩ := hrun 0 [] rfl rfl rfl (by decide) (by decide)
  obtain ⟨u, hu, -, hdev, -⟩ := hguard rfl rfl
  have hexec : exec (.run 0 []) darkModule = .next (runPhase updateImage 0 [] darkModule) := rfl
  rw [hexec] at hu
  have hst : u.dev.st = .faulted := by
    rw [← Host.Outcome.next.inj hu, runPhase_st rfl rfl, runGuard_darkModule]
  rw [hdev] at hst
  exact absurd hst (by decide)

end

section
/-! ring_fold as a tree builder (R319, R320): the states that wait after any leaves have arrived are those of the nodes that the leaves form and whose
parents they do not form yet. -/
namespace Sys2Proof.Machine
open Sys2Proof

/-! The nodes of R223's tree, by level and index, and the groups of ring_fold's insertion. -/

/-- Nodes of level `l` over `n` leaves. -/
abbrev ringWidth (n l : Nat) : Nat := (n + 8 ^ l - 1) / 8 ^ l

/-- Node `i` of level `l` of the canonical tree over the states of `n` leaves; none where the level has no such node. -/
def ringNode (comb : AttState → AttState → AttState) (n : Nat) (leaf : Nat → AttState) (l i : Nat) : Option AttState :=
  (nodesAt comb l ((List.range n).map leaf))[i]?

variable {comb : AttState → AttState → AttState} {n : Nat} {leaf : Nat → AttState}

/-- A level has as many nodes as it is wide. -/
theorem ringNode_isSome {l i : Nat} : (ringNode comb n leaf l i).isSome ↔ i < ringWidth n l := by
  rw [ringNode, isSome_getElem?, length_nodesAt, List.length_map, List.length_range]

theorem lt_ringWidth_of_ringNode {l i : Nat} {x : AttState} (h : ringNode comb n leaf l i = some x) : i < ringWidth n l :=
  ringNode_isSome.mp (by rw [h]; rfl)

theorem mul_lt_of_lt_ringWidth {l i : Nat} (h : i < ringWidth n l) : i * 8 ^ l < n := by
  have hpos : 0 < 8 ^ l := by positivity
  rw [← Nat.add_one_le_iff, ringWidth, Nat.le_div_iff_mul_le hpos, Nat.add_mul] at h
  omega

theorem div_lt_ringWidth {j : Nat} (h : j < n) (l : Nat) : j / 8 ^ l < ringWidth n l := by
  rw [Nat.lt_iff_add_one_le, ← Nat.add_div_right j (by positivity)]
  exact Nat.div_le_div_right (by omega)

/-- The nodes above a leaf are in the tree. -/
theorem exists_ringNode_above {j : Nat} (h : j < n) (l : Nat) : ∃ y, ringNode comb n leaf l (j / 8 ^ l) = some y :=
  Option.isSome_iff_exists.mp (ringNode_isSome.mpr (div_lt_ringWidth h l))

theorem ringNode_zero {j : Nat} (h : j < n) : ringNode comb n leaf 0 j = some (leaf j) := by
  simp [ringNode, nodesAt, h]

/-- A node of the next level combines a run of 8 (R115). -/
theorem getElem?_nextLevel {α : Type} (op : α → α → α) (ws : List α) (g : Nat) :
    (nextLevel op ws)[g]? = foldNode op ((ws.drop (8 * g)).take 8) := by
  induction ws using runs_induction generalizing g with
  | nil => simp [nextLevel, chunksOf, foldNode]
  | short x xs h =>
    rw [nextLevel_short op x xs h]
    match g with
    | 0 => rw [Nat.mul_zero, List.drop_zero, List.take_of_length_le (by simp; omega)]; rfl
    | g + 1 => rw [List.drop_eq_nil_of_le (by simp; omega)]; rfl
  | more x xs ys h _ ih =>
    have h8 : (x :: xs).length = 8 := by simp [h]
    rw [nextLevel_append op x xs ys h]
    match g with
    | 0 => rw [Nat.mul_zero, List.drop_zero, ← h8, List.take_left]; rfl
    | g + 1 =>
      have hdrop : (x :: xs ++ ys).drop (8 * (g + 1)) = ys.drop (8 * g) := by
        rw [Nat.mul_succ, Nat.add_comm, ← List.drop_drop, ← h8, List.drop_left]
      rw [List.getElem?_cons_succ, ih, hdrop]

theorem mem_ringGroup {m i c : Nat} : c ∈ ringGroup m i ↔ c / 8 = i / 8 ∧ c < m := by
  simp only [ringGroup, List.mem_filter, List.mem_map, List.mem_range, decide_eq_true_eq, and_congr_left_iff]
  refine fun _ => ⟨fun ⟨k, hk, hc⟩ => by omega, fun h => ⟨c % 8, by omega, by omega⟩⟩

/-- A group is a run of its level's indices. -/
theorem ringGroup_eq_Ico (m i : Nat) : ringGroup m i = List.Ico (8 * (i / 8)) (min (8 * (i / 8) + 8) m) := by
  rw [← List.Ico.filter_lt, List.Ico, Nat.add_sub_cancel_left, List.range'_eq_map_range]
  rfl

theorem mapM_some {α β : Type} {f : α → Option β} {g : α → β} : ∀ {xs : List α},
    (∀ x ∈ xs, f x = some (g x)) → xs.mapM f = some (xs.map g)
  | [], _ => rfl
  | x :: xs, h => by
    rw [List.mapM_cons, h x List.mem_cons_self, mapM_some fun y hy => h y (List.mem_cons_of_mem x hy)]
    rfl

theorem mapM_eq_none {α β : Type} {f : α → Option β} {c : α} (hf : f c = none) : ∀ {xs : List α}, c ∈ xs → xs.mapM f = none
  | x :: xs, h => by
    rw [List.mapM_cons]
    obtain rfl | h := List.mem_cons.mp h
    · rw [hf]; rfl
    · rw [mapM_eq_none hf h]; cases f x <;> rfl

/-- The nodes of a group, combined from left to right, are the group's node of the next level. -/
theorem mapM_ringGroup {f : Nat → Option AttState} {l i : Nat}
    (hf : ∀ c ∈ ringGroup (ringWidth n l) i, f c = ringNode comb n leaf l c) :
    ∃ vs, (ringGroup (ringWidth n l) i).mapM f = some vs ∧ foldNode comb vs = ringNode comb n leaf (l + 1) (i / 8) := by
  set ws := nodesAt comb l ((List.range n).map leaf) with hws
  have hlen : ws.length = ringWidth n l := by rw [length_nodesAt, List.length_map, List.length_range]
  have hmap : (ringGroup ws.length i).map (fun c => ws.getD c (leaf 0)) = (ws.drop (8 * (i / 8))).take 8 := by
    rw [ringGroup_eq_Ico]
    refine List.ext_getElem (by simp; omega) fun c hc _ => ?_
    have hlt : 8 * (i / 8) + c < ws.length := by rw [List.length_map, List.Ico.length] at hc; omega
    simp [List.Ico, hlt]
  refine ⟨(ws.drop (8 * (i / 8))).take 8, ?_, ?_⟩
  · rw [mapM_some (g := fun c => ws.getD c (leaf 0)), ← hlen, hmap]
    intro c hc
    have hlt : c < ws.length := hlen ▸ (mem_ringGroup.mp hc).2
    rw [hf c hc, ringNode, ← hws, List.getElem?_eq_getElem hlt, List.getD_eq_getElem _ _ hlt]
  · rw [← getElem?_nextLevel, hws, ringNode, ← nodesAt_nodesAt comb 1 l]
    rfl

/-! Nodes formed by the leaves that have arrived. -/

/-- Every leaf under node `i` of level `l` is in `S`. -/
def Formed (n : Nat) (S : Set Nat) (l i : Nat) : Prop := ∀ j, j < n → j / 8 ^ l = i → j ∈ S

/-- Node `i` of level `l`, below the top, is formed by the leaves of `S`, and its parent is not. -/
def Waits (n : Nat) (S : Set Nat) (l i : Nat) : Prop := l < topOf n ∧ Formed n S l i ∧ ¬ Formed n S (l + 1) (i / 8)

theorem div_pow_succ (j l : Nat) : j / 8 ^ (l + 1) = j / 8 ^ l / 8 := by rw [pow_succ, Nat.div_div_eq_div_mul]

theorem formed_succ {S : Set Nat} {l p : Nat} : Formed n S (l + 1) p ↔ ∀ c, c / 8 = p → Formed n S l c :=
  ⟨fun h c hc j hj hjc => h j hj (by rw [div_pow_succ, hjc, hc]), fun h j hj hjp => h _ (by rw [← div_pow_succ, hjp]) j hj rfl⟩

/-- Beyond the width of its level no node has a leaf. -/
theorem formed_of_width_le {S : Set Nat} {l i : Nat} (h : ringWidth n l ≤ i) : Formed n S l i := by
  rintro j hj rfl
  exact absurd (div_lt_ringWidth hj l) (by omega)

section Arrival
variable {S : Set Nat} {j : Nat}

/-- A leaf that arrives forms no node but those above it. -/
theorem formed_insert_of_ne {l i : Nat} (h : i ≠ j / 8 ^ l) : Formed n (insert j S) l i ↔ Formed n S l i := by
  refine ⟨fun hf k hk hki => (hf k hk hki).resolve_left ?_, fun hf k hk hki => .inr (hf k hk hki)⟩
  rintro rfl
  exact h hki.symm

theorem not_formed_above (hj : j < n) (hS : j ∉ S) (l : Nat) : ¬ Formed n S l (j / 8 ^ l) := fun h => hS (h j hj rfl)

theorem Formed.of_above {l m : Nat} (hlm : l ≤ m) (h : Formed n S m (j / 8 ^ m)) : Formed n S l (j / 8 ^ l) := by
  obtain ⟨d, rfl⟩ := Nat.exists_eq_add_of_le hlm
  refine fun k hk hkl => h k hk ?_
  rw [pow_add, ← Nat.div_div_eq_div_mul, hkl, Nat.div_div_eq_div_mul]

/-- Where the leaf that arrives does not complete its node of a level, it forms no node of that level. -/
theorem formed_insert_of_not (hj : j < n) (hS : j ∉ S) {l : Nat} (h : ¬ Formed n (insert j S) l (j / 8 ^ l)) (i : Nat) :
    Formed n (insert j S) l i ↔ Formed n S l i := by
  by_cases hi : i = j / 8 ^ l
  · exact iff_of_false (hi ▸ h) (hi ▸ not_formed_above hj hS l)
  · exact formed_insert_of_ne hi

/-- What waits while the leaf `j` goes up, before its node of level `lvl` is held: below that level the leaf counts as arrived. -/
def WaitsRising (n : Nat) (S : Set Nat) (j lvl l i : Nat) : Prop := Waits n (if l < lvl then insert j S else S) l i

theorem waitsRising_top {l i : Nat} : WaitsRising n S j (topOf n) l i ↔ Waits n (insert j S) l i := by
  unfold WaitsRising
  split
  · rfl
  · next h => exact iff_of_false (fun hw => h hw.1) (fun hw => h hw.1)

/-- The node that the leaf reaches is not held yet. -/
theorem not_waitsRising_self (hj : j < n) (hS : j ∉ S) (l : Nat) : ¬ WaitsRising n S j l l (j / 8 ^ l) := by
  rintro ⟨-, hf, -⟩
  rw [if_neg (lt_irrefl l)] at hf
  exact not_formed_above hj hS l hf

/-- Once the leaf's node of level `lvl` is held, every node of its group waits where the group's parent is formed. -/
theorem waitsRising_or_self_of_formed (hj : j < n) (hS : j ∉ S) {lvl c : Nat} (hlvl : lvl < topOf n)
    (hp : Formed n (insert j S) (lvl + 1) (j / 8 ^ (lvl + 1))) (hc : c / 8 = j / 8 ^ lvl / 8) : WaitsRising n S j lvl lvl c ∨ c = j / 8 ^ lvl := by
  rw [or_iff_not_imp_right]
  intro hne
  rw [WaitsRising, if_neg (lt_irrefl lvl)]
  rw [← div_pow_succ] at hc
  exact ⟨hlvl, (formed_insert_of_ne hne).mp (formed_succ.mp hp c hc), hc ▸ not_formed_above hj hS (lvl + 1)⟩

/-- The group of a formed parent leaves its level, and the leaf has risen by one. -/
theorem waitsRising_succ_iff {lvl l i : Nat} (hp : Formed n (insert j S) (lvl + 1) (j / 8 ^ (lvl + 1))) :
    WaitsRising n S j (lvl + 1) l i ↔
      (WaitsRising n S j lvl l i ∨ (l = lvl ∧ i = j / 8 ^ lvl)) ∧ ¬ (l = lvl ∧ i / 8 = j / 8 ^ lvl / 8) := by
  unfold WaitsRising
  by_cases hl : l = lvl
  · subst hl
    rw [if_pos (Nat.lt_succ_self l), if_neg (lt_irrefl l), ← div_pow_succ]
    by_cases hi : i / 8 = j / 8 ^ (l + 1)
    · exact iff_of_false (fun hw => hw.2.2 (hi ▸ hp)) (fun hw => hw.2 ⟨rfl, hi⟩)
    · have hne : i ≠ j / 8 ^ l := fun h => hi (by rw [h, div_pow_succ])
      simp [Waits, formed_insert_of_ne hne, formed_insert_of_ne hi, hne, hi]
  · simp only [hl, false_and, or_false, not_false_eq_true, and_true, show l < lvl + 1 ↔ l < lvl by omega]

/-- Where the parent is not formed the leaf's node stays, and nothing above changes. -/
theorem waits_insert_iff (hj : j < n) (hS : j ∉ S) {lvl l i : Nat} (hlvl : lvl < topOf n) (hf : Formed n (insert j S) lvl (j / 8 ^ lvl))
    (hp : ¬ Formed n (insert j S) (lvl + 1) (j / 8 ^ (lvl + 1))) :
    Waits n (insert j S) l i ↔ WaitsRising n S j lvl l i ∨ (l = lvl ∧ i = j / 8 ^ lvl) := by
  have habove : ∀ m, lvl < m → ∀ c, Formed n (insert j S) m c ↔ Formed n S m c :=
    fun m hm c => formed_insert_of_not hj hS (fun h => hp (h.of_above hm)) c
  unfold WaitsRising
  obtain hl | rfl | hl := lt_trichotomy l lvl
  · simp [hl, hl.ne]
  · rw [if_neg (lt_irrefl l), Waits, Waits, habove (l + 1) (Nat.lt_succ_self l)]
    by_cases hi : i = j / 8 ^ l
    · have hpar := not_formed_above hj hS (l + 1)
      rw [div_pow_succ, ← hi] at hpar
      simp [hi, hlvl, hf, hi ▸ hpar]
    · simp [hi, formed_insert_of_ne hi]
  · simp [Waits, habove l hl, habove (l + 1) (by omega), hl.ne', Nat.not_lt.mpr hl.le]

end Arrival

/-! What ring_fold holds. -/

/-- The state `x` of a level and index is held (R319). -/
def ringHold (l i : Nat) (x : AttState) (r : RingAcc) : RingAcc := { r with held := r.held ++ [((l, i), x)] }

/-- The states of the indices `g` of a level leave (R319). -/
def ringRelease (l : Nat) (g : List Nat) (r : RingAcc) : RingAcc :=
  { r with held := r.held.filter fun e => !(e.1.1 == l && g.contains e.1.2) }

@[simp] theorem held_ringHold (l i : Nat) (x : AttState) (r : RingAcc) : (ringHold l i x r).held = r.held ++ [((l, i), x)] := rfl
@[simp] theorem held_ringRelease (l : Nat) (g : List Nat) (r : RingAcc) :
    (ringRelease l g r).held = r.held.filter fun e => !(e.1.1 == l && g.contains e.1.2) := rfl

/-- ring_fold holds the nodes that `W` names, each once and with its value in the tree, and no other state. -/
structure RingHolds (comb : AttState → AttState → AttState) (n : Nat) (leaf : Nat → AttState) (W : Nat → Nat → Prop)
    (r : RingAcc) : Prop where
  nodup : (r.held.map (·.1)).Nodup
  mem : ∀ l i x, ((l, i), x) ∈ r.held ↔ W l i ∧ ringNode comb n leaf l i = some x

section Holds
variable {W V : Nat → Nat → Prop} {r : RingAcc}

theorem RingHolds.congr (h : RingHolds comb n leaf W r) (hWV : ∀ l i, i < ringWidth n l → (W l i ↔ V l i)) : RingHolds comb n leaf V r := by
  refine ⟨h.nodup, fun l i x => (h.mem l i x).trans (and_congr_left fun hx => hWV l i (lt_ringWidth_of_ringNode hx))⟩

theorem RingAcc.at_eq_some {l i : Nat} {x : AttState} (hnd : (r.held.map (·.1)).Nodup) : r.at l i = some x ↔ ((l, i), x) ∈ r.held := by
  unfold RingAcc.at
  rw [Option.map_eq_some_iff]
  constructor
  · rintro ⟨⟨k, y⟩, hfind, rfl⟩
    obtain rfl : k = (l, i) := by simpa using List.find?_some hfind
    exact List.mem_of_find?_eq_some hfind
  · intro hmem
    obtain ⟨e, he⟩ := Option.isSome_iff_exists.mp (List.find?_isSome (p := fun e => e.1 == (l, i)) |>.mpr ⟨_, hmem, beq_self_eq_true _⟩)
    have hkey : e.1 = (l, i) := by simpa using List.find?_some he
    obtain rfl := List.inj_on_of_nodup_map hnd (List.mem_of_find?_eq_some he) hmem hkey
    exact ⟨_, he, rfl⟩

theorem RingHolds.at_eq_ringNode (h : RingHolds comb n leaf W r) {l i : Nat} (hW : W l i) : r.at l i = ringNode comb n leaf l i := by
  refine Option.ext fun x => ?_
  rw [RingAcc.at_eq_some h.nodup, h.mem]
  exact and_iff_right hW

theorem RingHolds.at_eq_none (h : RingHolds comb n leaf W r) {l i : Nat} (hW : ¬ W l i) : r.at l i = none := by
  refine Option.eq_none_iff_forall_ne_some.mpr fun x hx => hW ?_
  exact ((h.mem l i x).mp ((RingAcc.at_eq_some h.nodup).mp hx)).1

/-- A node that is not held yet joins those that are. -/
theorem RingHolds.hold (h : RingHolds comb n leaf W r) {l i : Nat} {x : AttState} (hW : ¬ W l i) (hx : ringNode comb n leaf l i = some x) :
    RingHolds comb n leaf (fun m c => W m c ∨ (m = l ∧ c = i)) (ringHold l i x r) := by
  constructor
  · have hfresh : (l, i) ∉ r.held.map (·.1) := by
      rw [List.mem_map]
      rintro ⟨⟨k, y⟩, hmem, rfl⟩
      exact hW ((h.mem l i y).mp hmem).1
    simpa [List.nodup_append, h.nodup] using fun a b y hmem ha hb => hfresh (List.mem_map.mpr ⟨((a, b), y), hmem, Prod.ext ha hb⟩)
  · intro m c y
    simp only [held_ringHold, List.mem_append, List.mem_singleton, h.mem, Prod.mk.injEq, or_and_right]
    refine or_congr_right (and_congr_right ?_)
    rintro ⟨rfl, rfl⟩
    rw [hx, Option.some_inj, eq_comm]

/-- The states of a group leave. -/
theorem RingHolds.release (h : RingHolds comb n leaf W r) (l : Nat) (g : List Nat) :
    RingHolds comb n leaf (fun m c => W m c ∧ ¬ (m = l ∧ c ∈ g)) (ringRelease l g r) := by
  constructor
  · exact h.nodup.sublist (List.filter_sublist.map _)
  · intro m c y
    simp only [held_ringRelease, List.mem_filter, h.mem, Bool.not_eq_true', Bool.and_eq_false_iff, beq_eq_false_iff_ne,
      List.contains_eq_mem, decide_eq_false_iff_not]
    tauto

end Holds

/-! Insertion (R319). -/

/-- Where a state of the group is missing, the insertion ends. -/
theorem ringInsert_of_missing {up lvl idx c : Nat} {x : AttState} {r : RingAcc} (hc : c ∈ ringGroup (ringWidth n lvl) idx)
    (hat : (ringHold lvl idx x r).at lvl c = none) :
    ringInsert comb n (up + 1) lvl idx x r = ringHold lvl idx x r := by
  have hnone := mapM_eq_none hat hc
  simp only [ringHold] at hnone ⊢
  rw [ringInsert]
  dsimp only
  rw [hnone]

/-- Where the group is held, its states leave and what they combine to goes up. -/
theorem ringInsert_of_group {up lvl idx : Nat} {x y : AttState} {vs : List AttState} {r : RingAcc}
    (hvs : (ringGroup (ringWidth n lvl) idx).mapM ((ringHold lvl idx x r).at lvl) = some vs)
    (hy : foldNode comb vs = some y) :
    ringInsert comb n (up + 1) lvl idx x r = ringInsert comb n up (lvl + 1) (idx / 8) y
      (ringRelease lvl (ringGroup (ringWidth n lvl) idx) (ringHold lvl idx x r)) := by
  simp only [ringHold, ringRelease] at hvs ⊢
  rw [ringInsert]
  dsimp only
  rw [hvs]
  cases vs with
  | nil => simp [foldNode] at hy
  | cons v vs =>
    rw [foldNode, Option.some_inj] at hy
    dsimp only
    rw [hy]

/-- ring_fold after the leaves of `S`: what waits, and the root once every leaf is in. -/
structure RingAfter (comb : AttState → AttState → AttState) (n : Nat) (leaf : Nat → AttState) (S : Set Nat) (r : RingAcc) : Prop where
  holds : RingHolds comb n leaf (Waits n S) r
  root : Formed n S (topOf n) 0 → r.root = ringNode comb n leaf (topOf n) 0

theorem ringAfter_empty (hn : 0 < n) : RingAfter comb n leaf ∅ {} := by
  refine ⟨⟨List.nodup_nil, fun l i x => iff_of_false List.not_mem_nil ?_⟩, fun h => ?_⟩
  · rintro ⟨⟨-, hf, -⟩, hx⟩
    exact hf (i * 8 ^ l) (mul_lt_of_lt_ringWidth (lt_ringWidth_of_ringNode hx)) (Nat.mul_div_cancel i (by positivity))
  · exact absurd (h 0 hn (Nat.zero_div _)) (Set.notMem_empty 0)

/-- A node of the leaf `j`, formed by its arrival, brings ring_fold to the leaves with `j` (R319): the insertion ends at the first level whose group
is not whole, or with the root. -/
theorem ringAfter_ringInsert (htop : n ≤ 8 ^ topOf n) {S : Set Nat} {j : Nat} (hj : j < n) (hS : j ∉ S) :
    ∀ (up lvl : Nat) (x : AttState) (r : RingAcc), lvl + up = topOf n → Formed n (insert j S) lvl (j / 8 ^ lvl) →
    ringNode comb n leaf lvl (j / 8 ^ lvl) = some x →
    RingHolds comb n leaf (WaitsRising n S j lvl) r → RingAfter comb n leaf (insert j S) (ringInsert comb n up lvl (j / 8 ^ lvl) x r)
  | 0, lvl, x, r, hlvl, _, hx, hr => by
    obtain rfl : lvl = topOf n := hlvl
    rw [Nat.div_eq_of_lt (hj.trans_le htop)] at hx
    have hr := hr.congr fun l i _ => waitsRising_top
    exact ⟨⟨hr.nodup, hr.mem⟩, fun _ => hx.symm⟩
  | up + 1, lvl, x, r, hlvl, hf, hx, hr => by
    have hlt : lvl < topOf n := by omega
    have hhold := hr.hold (not_waitsRising_self hj hS lvl) hx
    by_cases hp : Formed n (insert j S) (lvl + 1) (j / 8 ^ (lvl + 1))
    · have hheld : ∀ c ∈ ringGroup (ringWidth n lvl) (j / 8 ^ lvl),
          (ringHold lvl (j / 8 ^ lvl) x r).at lvl c = ringNode comb n leaf lvl c := fun c hc =>
        hhold.at_eq_ringNode ((waitsRising_or_self_of_formed hj hS hlt hp (mem_ringGroup.mp hc).1).imp_right fun h => ⟨rfl, h⟩)
      obtain ⟨vs, hvs, hfold⟩ := mapM_ringGroup hheld
      rw [← div_pow_succ] at hfold
      obtain ⟨y, hy⟩ := exists_ringNode_above (comb := comb) (leaf := leaf) hj (lvl + 1)
      rw [ringInsert_of_group hvs (hfold.trans hy), ← div_pow_succ]
      refine ringAfter_ringInsert htop hj hS up (lvl + 1) y _ (by omega) hp hy ((hhold.release lvl _).congr fun l i hi => ?_)
      rw [waitsRising_succ_iff hp]
      refine and_congr_right fun _ => not_congr (and_congr_right ?_)
      rintro rfl
      rw [mem_ringGroup, and_iff_left hi]
    · obtain ⟨c, hc, hcf⟩ : ∃ c, c / 8 = j / 8 ^ lvl / 8 ∧ ¬ Formed n (insert j S) lvl c := by
        simpa [formed_succ, div_pow_succ] using hp
      have hwidth : c < ringWidth n lvl := lt_of_not_ge fun h => hcf (formed_of_width_le h)
      have hholds := hhold.congr fun l i _ => (waits_insert_iff hj hS hlt hf hp).symm
      rw [ringInsert_of_missing (mem_ringGroup.mpr ⟨hc, hwidth⟩) (hholds.at_eq_none fun hw => hcf hw.2.1)]
      refine ⟨hholds, fun hall => absurd (Formed.of_above (j := j) hlt ?_) hp⟩
      rwa [Nat.div_eq_of_lt (hj.trans_le htop)]

/-- The order in which the leaves arrive is of no account (R320). -/
theorem ringAfter_ringTakeBy (hn : 0 < n) (htop : n ≤ 8 ^ topOf n) (js : List Nat) : js.Nodup → (∀ j ∈ js, j < n) →
    RingAfter comb n leaf {j | j ∈ js} (ringTakeBy comb n leaf js {}) := by
  induction js using List.reverseRecOn with
  | nil => intro _ _; simpa [ringTakeBy] using ringAfter_empty hn
  | append_singleton js j ih =>
    intro hnd hlt
    obtain ⟨hjs, -, hfresh⟩ := List.nodup_append.mp hnd
    have hS : j ∉ {i | i ∈ js} := fun h => hfresh j h j List.mem_cons_self rfl
    have hj : j < n := hlt j (by simp)
    have hset : {i | i ∈ js ++ [j]} = insert j {i | i ∈ js} := by ext i; simp [or_comm]
    have hrun := ih hjs fun i hi => hlt i (List.mem_append_left _ hi)
    have hins := ringAfter_ringInsert htop hj hS (topOf n) 0 (leaf j) _ (Nat.zero_add _) ?_ ?_ (hrun.holds.congr fun l i _ => ?_)
    · rw [hset, ringTakeBy, List.foldl_append]
      simpa [ringTakeBy] using hins
    · intro k _ hk
      left
      simpa using hk
    · simpa using ringNode_zero hj
    · rw [WaitsRising, if_neg (Nat.not_lt_zero l)]

/-- With every leaf in, the root is that of the canonical tree (R223). -/
theorem RingAfter.root_eq_canonicalTree (hn : 0 < n) (htop : n ≤ 8 ^ topOf n) {S : Set Nat} {r : RingAcc} (h : RingAfter comb n leaf S r)
    (hall : ∀ j, j < n → j ∈ S) : r.root = canonicalTree comb ((List.range n).map leaf) := by
  have hne : (List.range n).map leaf ≠ [] := by simp; omega
  have hone := length_nodesAt_eq_one comb hne (d := topOf n) (by simpa using htop)
  have htree := congrArg (·[0]?) (canonicalTree_of_one comb hone)
  rw [h.root fun j hj _ => hall j hj, ringNode]
  obtain ⟨v, hv⟩ := List.length_eq_one_iff.mp hone
  simpa [hv] using htree

/-! How many states wait. -/

/-- The group of a parent that is not formed has at most 7 nodes that wait. -/
theorem card_waits_of_parent_le {S : Set Nat} {l p : Nat} {s : Finset Nat} (hs : ∀ i ∈ s, Waits n S l i ∧ i / 8 = p) : s.card ≤ 7 := by
  obtain rfl | ⟨i, hi⟩ := s.eq_empty_or_nonempty
  · simp
  · obtain ⟨⟨-, -, hparent⟩, hip⟩ := hs i hi
    obtain ⟨c, hc, hcf⟩ : ∃ c, c / 8 = i / 8 ∧ ¬ Formed n S l c := by simpa [formed_succ] using hparent
    have hsub : s ⊆ (Finset.Ico (8 * p) (8 * p + 8)).erase c := fun k hk => by
      obtain ⟨⟨-, hkf, -⟩, hkp⟩ := hs k hk
      exact Finset.mem_erase.mpr ⟨fun h => hcf (h ▸ hkf), Finset.mem_Ico.mpr (by omega)⟩
    refine (Finset.card_le_card hsub).trans ?_
    rw [Finset.card_erase_of_mem (Finset.mem_Ico.mpr (by omega)), Nat.card_Ico]
    omega

/-- At most 7 of a group's states are held. -/
theorem RingAfter.card_group_le {S : Set Nat} {r : RingAcc} (h : RingAfter comb n leaf S r) (q : Nat × Nat) :
    ((r.held.map (·.1)).toFinset.filter fun k => (k.1, k.2 / 8) = q).card ≤ 7 := by
  obtain ⟨l, p⟩ := q
  rw [← Finset.card_image_of_injOn (f := Prod.snd)]
  · refine card_waits_of_parent_le (n := n) (S := S) (l := l) (p := p) fun i hi => ?_
    obtain ⟨⟨m, c⟩, hk, rfl⟩ := Finset.mem_image.mp hi
    obtain ⟨hheld, hq⟩ := Finset.mem_filter.mp hk
    obtain ⟨rfl, rfl⟩ := Prod.mk.inj hq
    obtain ⟨x, hx⟩ : ∃ x, ((m, c), x) ∈ r.held := by simpa using hheld
    exact ⟨((h.holds.mem m c x).mp hx).1, rfl⟩
  · intro k hk q hq hkq
    have hk := congrArg Prod.fst (Finset.mem_filter.mp hk).2
    have hq := congrArg Prod.fst (Finset.mem_filter.mp hq).2
    exact Prod.ext (hk.trans hq.symm) hkq

/-- The groups over the leaves `a` and `b` at each of `d` levels, by level and parent. -/
def groupsOver (d a b : Nat) : Finset (Nat × Nat) := (Finset.range d ×ˢ {a, b}).image fun q => (q.1, q.2 / 8 ^ (q.1 + 1))

theorem mem_groupsOver {d a b l p : Nat} (hl : l < d) (hp : p = a / 8 ^ (l + 1) ∨ p = b / 8 ^ (l + 1)) : (l, p) ∈ groupsOver d a b := by
  obtain rfl | rfl := hp
  · exact Finset.mem_image.mpr ⟨(l, a), by simp [hl], rfl⟩
  · exact Finset.mem_image.mpr ⟨(l, b), by simp [hl], rfl⟩

theorem card_groupsOver_le (d a b : Nat) : (groupsOver d a b).card ≤ d * 2 := by
  refine Finset.card_image_le.trans ?_
  rw [Finset.card_product, Finset.card_range]
  exact Nat.mul_le_mul_left d Finset.card_le_two

/-- Where every parent of a waiting node stands over one of two leaves, at most 14 states wait at a level. -/
theorem RingAfter.length_held_le {S : Set Nat} {r : RingAcc} (h : RingAfter comb n leaf S r) (a b : Nat)
    (hab : ∀ l i x, ((l, i), x) ∈ r.held → i / 8 = a / 8 ^ (l + 1) ∨ i / 8 = b / 8 ^ (l + 1)) : r.held.length ≤ 2 * 7 * topOf n := by
  have hlen : r.held.length = (r.held.map (·.1)).toFinset.card := by rw [List.toFinset_card_of_nodup h.holds.nodup, List.length_map]
  have hparents : ∀ k ∈ (r.held.map (·.1)).toFinset, (k.1, k.2 / 8) ∈ groupsOver (topOf n) a b := by
    rintro ⟨l, i⟩ hk
    obtain ⟨x, hx⟩ : ∃ x, ((l, i), x) ∈ r.held := by simpa using hk
    obtain ⟨⟨hl, -, -⟩, -⟩ := (h.holds.mem l i x).mp hx
    exact mem_groupsOver hl (hab l i x hx)
  calc r.held.length
    _ ≤ 7 * (groupsOver (topOf n) a b).card := hlen ▸ Finset.card_le_mul_card_image_of_maps_to hparents 7 fun q _ => h.card_group_le q
    _ ≤ 7 * (topOf n * 2) := Nat.mul_le_mul_left 7 (card_groupsOver_le _ a b)
    _ = 2 * 7 * topOf n := by ring

/-! The order of arrival on a rotating ring: the leaves from `a` on, then those before it. -/

/-- The key leaves as they arrive where the member's own block starts at leaf `a` (R319). -/
def arrivalOrder (n a : Nat) : List Nat := (List.range (n - a)).map (a + ·) ++ List.range a

theorem mem_take_arrivalOrder {a k j : Nat} (ha : a < n) :
    j ∈ (arrivalOrder n a).take k ↔ (a ≤ j ∧ j < n ∧ j < a + k) ∨ (j < a ∧ j + (n - a) < k) := by
  simp only [arrivalOrder, List.take_append, List.length_map, List.length_range, ← List.map_take, List.take_range, List.mem_append,
    List.mem_map, List.mem_range]
  constructor
  · rintro (⟨i, hi, rfl⟩ | h) <;> omega
  · rintro (h | h)
    · exact .inl ⟨j - a, by omega, by omega⟩
    · exact .inr (by omega)

theorem mem_arrivalOrder {a j : Nat} (ha : a < n) : j ∈ arrivalOrder n a ↔ j < n := by
  simp only [arrivalOrder, List.mem_append, List.mem_map, List.mem_range]
  constructor
  · rintro (⟨i, hi, rfl⟩ | h) <;> omega
  · intro h
    by_cases hja : j < a
    · exact .inr hja
    · exact .inl ⟨j - a, by omega, by omega⟩

theorem length_arrivalOrder {a : Nat} (ha : a < n) : (arrivalOrder n a).length = n := by
  simp only [arrivalOrder, List.length_append, List.length_map, List.length_range]
  omega

theorem nodup_arrivalOrder (n a : Nat) : (arrivalOrder n a).Nodup := by
  refine List.nodup_append.mpr ⟨List.nodup_range.map fun _ _ h => Nat.add_left_cancel h, List.nodup_range, ?_⟩
  simp only [List.mem_map, List.mem_range]
  rintro _ ⟨i, -, rfl⟩ _ hj rfl
  omega

/-- The leaf that comes next after the first `k`, or the end of the leaves. -/
def ringNext (n a k : Nat) : Nat := if k ≤ n - a then a + k else k - (n - a)

/-- A node with some leaves in and some still to come stands over leaf `a` or over the leaf that comes next. -/
theorem over_start_or_next {a k x y q p : Nat} (ha : a < n) (hx : x ∈ (arrivalOrder n a).take k) (hy : y ∉ (arrivalOrder n a).take k)
    (hyn : y < n) (hxp : x / q = p) (hyp : y / q = p) : p = a / q ∨ p = ringNext n a k / q := by
  rw [mem_take_arrivalOrder ha] at hx hy
  have hbetween : ∀ c, (x ≤ c ∧ c ≤ y) ∨ (y ≤ c ∧ c ≤ x) → p = c / q := by
    rintro c (⟨h1, h2⟩ | ⟨h1, h2⟩)
    · exact le_antisymm (hxp ▸ Nat.div_le_div_right h1) (hyp ▸ Nat.div_le_div_right h2)
    · exact le_antisymm (hyp ▸ Nat.div_le_div_right h1) (hxp ▸ Nat.div_le_div_right h2)
  have hcase : ((x ≤ a ∧ a ≤ y) ∨ (y ≤ a ∧ a ≤ x)) ∨
      (x ≤ ringNext n a k ∧ ringNext n a k ≤ y) ∨ (y ≤ ringNext n a k ∧ ringNext n a k ≤ x) := by
    unfold ringNext
    split <;> omega
  exact hcase.imp (hbetween a) (hbetween _)

/-- A waiting node's parent is the group that straddles leaf `a`, or the group that the current run is filling (R320). -/
theorem parent_over_start_or_next {a k l i : Nat} (ha : a < n) (hi : i < ringWidth n l) (h : Waits n {j | j ∈ (arrivalOrder n a).take k} l i) :
    i / 8 = a / 8 ^ (l + 1) ∨ i / 8 = ringNext n a k / 8 ^ (l + 1) := by
  obtain ⟨-, hf, hp⟩ := h
  have hfirst : i * 8 ^ l / 8 ^ l = i := Nat.mul_div_cancel i (by positivity)
  obtain ⟨y, hyn, hyp, hy⟩ : ∃ y, y < n ∧ y / 8 ^ (l + 1) = i / 8 ∧ y ∉ (arrivalOrder n a).take k := by simpa [Formed] using hp
  exact over_start_or_next ha (hf (i * 8 ^ l) (mul_lt_of_lt_ringWidth hi) hfirst) hy hyn (by rw [div_pow_succ, hfirst]) hyp

end Sys2Proof.Machine
end

section
open Sys2Proof Sys2Proof.Machine

/-- Settles O60: after any leaves ring_fold holds the nodes whose parents are not formed yet, so with all of them in it has the root; after a first
part of the two runs those parents are at most two at a level. -/
theorem ringFoldGivesTheRoot : Obligations.RingFoldGivesTheRoot := by
  unfold Obligations.RingFoldGivesTheRoot
  intro n a leaf hn hmax ha
  have htop : n ≤ 8 ^ topOf n := le_pow_topLevel 16 n hmax
  have hafter : ∀ k, RingAfter attentionCombine n leaf {j | j ∈ (arrivalOrder n a).take k}
      (ringTake n leaf ((arrivalOrder n a).take k) {}) := fun k =>
    ringAfter_ringTakeBy hn htop _ ((nodup_arrivalOrder n a).sublist (List.take_sublist k _)) fun j hj =>
      (mem_arrivalOrder ha).mp (List.mem_of_mem_take hj)
  refine ⟨?_, htop, fun d hd => lt_of_not_ge fun h => hd.not_ge (topLevel_le 16 h), fun k _ => Nat.add_le_add_right ?_ 1⟩
  · have hall := hafter n
    rw [List.take_of_length_le (length_arrivalOrder ha).le] at hall
    exact hall.root_eq_canonicalTree hn htop fun j hj => (mem_arrivalOrder ha).mpr hj
  · refine (hafter k).length_held_le a (ringNext n a k) fun l i x hx => ?_
    obtain ⟨hw, hnode⟩ := ((hafter k).holds.mem l i x).mp hx
    exact parent_over_start_or_next ha (lt_ringWidth_of_ringNode hnode) hw

end

section
/-! The scrub walk (R337, R338, R341, R342): what the reads of a line find, the words that are cleaned, and the bank's row. -/
namespace Sys2Proof.Machine
open Sys2Proof

/-! ### An uncorrectable error handled by the tensor's role -/

/-- An error in a live tensor's word stops at most slots and copies and sends a notice; outside a live tensor it stops nothing (R341). -/
theorem failTensor_leaves (code : Nat) (own : Option (Nat × Nat)) (s : State) :
    OnlyFaults s (failTensor code own s) ∧ (failTensor code own s).faults = s.faults ∧ ∀ j, SlotsStopped (tile s j) (tile (failTensor code own s) j) := by
  unfold failTensor
  split
  · exact ⟨⟨rfl, rfl, rfl⟩, rfl, fun j => SlotsStopped.refl _⟩
  · split
    · unfold stopA2 declareFault
      split
      · exact ⟨⟨rfl, rfl, rfl⟩, rfl, slotsStopped_haltJob s⟩
      · exact ⟨⟨rfl, rfl, rfl⟩, rfl, fun j => SlotsStopped.refl _⟩
    · exact stopF5_leaves code s

@[simp] theorem failTensor_mem (code : Nat) (own : Option (Nat × Nat)) (s : State) : (failTensor code own s).mem = s.mem := by
  obtain ⟨⟨h, -⟩, -⟩ := failTensor_leaves code own s
  rw [h]
@[simp] theorem failTensor_job (code : Nat) (own : Option (Nat × Nat)) (s : State) : (failTensor code own s).job = s.job := by
  obtain ⟨⟨h, -⟩, -⟩ := failTensor_leaves code own s
  rw [h]
@[simp] theorem failTensor_faults (code : Nat) (own : Option (Nat × Nat)) (s : State) : (failTensor code own s).faults = s.faults := by
  obtain ⟨-, h, -⟩ := failTensor_leaves code own s
  exact h
@[simp] theorem uncorr_failTensor (code : Nat) (own : Option (Nat × Nat)) (s : State) (j : Nat) :
    (tile (failTensor code own s) j).uncorr = (tile s j).uncorr := by
  obtain ⟨-, -, h⟩ := failTensor_leaves code own s
  obtain ⟨⟨sl, hsl⟩, -⟩ := h j
  rw [hsl]

/-! ### Reads of an SRAM word and of a line -/

/-- A read of an SRAM word changes no byte and no row of the walk: memory is as it was but for poison. -/
theorem sramFinds_mem (t off req : Nat) (e : Ecc) (s : State) :
    (sramFinds t off req e s).mem = { s.mem with poison := (sramFinds t off req e s).mem.poison } := by
  cases e with
  | ok => rfl
  | corrected => rfl
  | uncorrectable => rw [sramFinds, failTensor_mem]; rfl

/-- A corrected word is counted, and nothing else of the tile, the memory or the fault records changes (R337). -/
theorem sramFinds_corrected (t off req : Nat) (s : State) :
    (tile (sramFinds t off req .corrected s) t).corr = (tile s t).corr + 1 ∧ (sramFinds t off req .corrected s).faults = s.faults ∧
      (sramFinds t off req .corrected s).mem = s.mem :=
  ⟨congrArg TileRec.corr (tile_updTile_self t (fun r => { r with corr := r.corr + 1 }) s), rfl, rfl⟩

/-- An uncorrectable word is poisoned, counted and recorded, and the job stays (R338, R341). -/
theorem sramFinds_uncorrectable (t off req : Nat) (s : State) :
    (sramFinds t off req .uncorrectable s).mem = poisonAt s.mem (sramAddr t off / 8 * 8) ∧
      (sramFinds t off req .uncorrectable s).job = s.job ∧
      (tile (sramFinds t off req .uncorrectable s) t).uncorr = (tile s t).uncorr + 1 ∧
      Recorded s (sramFinds t off req .uncorrectable s) errSramUncorr := by
  refine ⟨?_, ?_, ?_, ?_⟩
  · rw [sramFinds, failTensor_mem]; rfl
  · rw [sramFinds, failTensor_job]; rfl
  · rw [sramFinds, uncorr_failTensor]
    exact congrArg TileRec.uncorr (tile_updTile_self t (fun r => { r with uncorr := r.uncorr + 1 }) _)
  · refine ⟨_, (failTensor_faults ..).trans rfl, rfl⟩

/-- The reads of the eight words of the line at an SRAM offset by the scrubber, requester 5 of Table 08-1. -/
def lineFinds (t off : Nat) (ecc : List Ecc) (s : State) : State :=
  (ecc.take 8).zipIdx.foldl (fun s e => sramFinds t (off + 8 * e.2) 5 e.1 s) s

theorem lineFinds_mem (t off : Nat) (ecc : List Ecc) (s : State) :
    (lineFinds t off ecc s).mem = { s.mem with poison := (lineFinds t off ecc s).mem.poison } := by
  refine List.foldlRecOn (motive := fun u : State => u.mem = { s.mem with poison := u.mem.poison }) _ _ rfl fun u hu e _ => ?_
  rw [sramFinds_mem, hu]

/-- A line whose words are all good is read without effect. -/
theorem lineFinds_ok {t off : Nat} {ecc : List Ecc} (h : ∀ e ∈ ecc, e = .ok) (s : State) : lineFinds t off ecc s = s := by
  refine List.foldlRecOn (motive := fun u : State => u = s) _ _ rfl fun u hu e he => ?_
  have hok : e.1 = .ok := h _ (List.mem_of_mem_take (List.fst_mem_of_mem_zipIdx he))
  rw [hok, hu]
  rfl

@[simp] theorem lineFinds_one (t off : Nat) (e : Ecc) (s : State) : lineFinds t off [e] s = sramFinds t off 5 e s := rfl

/-! ### Poison -/

theorem mem_sinsert_self (l : List Nat) (n : Nat) : n ∈ sinsert l n := by
  induction l with
  | nil => exact List.mem_singleton_self n
  | cons m ms ih =>
    unfold sinsert
    split
    · exact List.mem_cons_of_mem m ih
    · split
      · next h => exact h ▸ List.mem_cons_self
      · exact List.mem_cons_self

theorem unitOf_mem_poisonAt (m : Mem) (a : Nat) : unitOf a ∈ (poisonAt m a).poison := mem_sinsert_self ..

/-- An SRAM address that 8 divides is that of its protected word (R336). -/
theorem unitOf_sram {a : Nat} (hsram : sramBase ≤ a) (h8 : a % 8 = 0) : unitOf a = a := by
  have hbase : hbmEnd ≤ sramBase := by decide
  rw [unitOf, granule, if_neg (hbase.trans hsram).not_gt]
  omega

/-! ### Cleaning -/

/-- Which tensor lies at an address is a matter of the job alone. -/
theorem ownerOf_congr {s u : State} (h : u.job = s.job) (a : Nat) : ownerOf u a = ownerOf s a := by
  have hjob (v : State) : ownerOf v a = ownerOf { s with job := v.job } a := rfl
  rw [hjob u, h]

/-- The overwriting of one word of a line (R341). -/
def cleanWord (a : Nat) (s : State) (i : Nat) : State :=
  if s.mem.poison.contains (a + 8 * i) && (ownerOf s (a + 8 * i)).isNone then { s with mem := zeroRange s.mem (a + 8 * i) 8 } else s

theorem cleanLine_eq (a : Nat) (s : State) : cleanLine a s = (List.range 8).foldl (cleanWord a) s := rfl

/-- Nothing but cells and poison change while words are cleaned. -/
theorem cleanWords_frame (a : Nat) (is : List Nat) (s : State) : is.foldl (cleanWord a) s =
    { s with mem.cells := (is.foldl (cleanWord a) s).mem.cells, mem.poison := (is.foldl (cleanWord a) s).mem.poison } := by
  refine List.foldlRecOn (motive := fun u : State => u = { s with mem.cells := u.mem.cells, mem.poison := u.mem.poison }) _ _ rfl
    fun u hu i _ => ?_
  unfold cleanWord
  split
  · rw [hu]; rfl
  · exact hu

@[simp] theorem cleanLine_tiles (a : Nat) (s : State) : (cleanLine a s).tiles = s.tiles := by rw [cleanLine_eq, cleanWords_frame]
@[simp] theorem cleanLine_faults (a : Nat) (s : State) : (cleanLine a s).faults = s.faults := by rw [cleanLine_eq, cleanWords_frame]
@[simp] theorem cleanLine_scrub (a : Nat) (s : State) : (cleanLine a s).mem.scrub = s.mem.scrub := by rw [cleanLine_eq, cleanWords_frame]

theorem cleanLine_unpoisoned {s : State} (h : s.mem.poison = []) (a : Nat) : cleanLine a s = s := by
  rw [cleanLine_eq]
  refine List.foldlRecOn (motive := fun u : State => u = s) _ _ rfl fun u hu i _ => ?_
  rw [hu, cleanWord, h]
  rfl

theorem length_cells_cleanLine (a : Nat) (s : State) : (cleanLine a s).mem.cells.length ≤ s.mem.cells.length := by
  rw [cleanLine_eq]
  refine List.foldlRecOn (motive := fun u : State => u.mem.cells.length ≤ s.mem.cells.length) _ _ le_rfl fun u hu i _ => ?_
  unfold cleanWord
  split
  · exact (List.length_filter_le ..).trans hu
  · exact hu

/-- A live tensor's word stays poisoned while words from it on are cleaned (R341). -/
theorem cleanWord_keeps_owned {a : Nat} {s : State} (hown : ownerOf s a ≠ none) (hbad : a ∈ s.mem.poison) (i : Nat) :
    a ∈ (cleanWord a s i).mem.poison := by
  unfold cleanWord
  split
  · next hclean =>
    have hi : i ≠ 0 := by
      rintro rfl
      simp [hown] at hclean
    refine List.mem_filter.mpr ⟨hbad, ?_⟩
    simp only [Bool.not_and, Bool.or_eq_true, Bool.not_eq_true', decide_eq_false_iff_not]
    omega
  · exact hbad

theorem cleanLine_keeps_owned {a : Nat} {s : State} (hown : ownerOf s a ≠ none) (hbad : a ∈ s.mem.poison) : a ∈ (cleanLine a s).mem.poison := by
  have hfold (is : List Nat) : (is.foldl (cleanWord a) s).job = s.job ∧ a ∈ (is.foldl (cleanWord a) s).mem.poison := by
    refine List.foldlRecOn (motive := fun u : State => u.job = s.job ∧ a ∈ u.mem.poison) _ _ ⟨rfl, hbad⟩ fun u hu i _ => ?_
    obtain ⟨hjob, hmem⟩ := hu
    refine ⟨?_, cleanWord_keeps_owned (by rwa [ownerOf_congr hjob]) hmem i⟩
    rw [← hjob, cleanWord]
    split <;> rfl
  obtain ⟨-, hmem⟩ := hfold (List.range 8)
  rwa [cleanLine_eq]

/-! ### SCRUB_WALK -/

/-- The row that the walk reads next in a bank, and the SRAM offset of its line (R331, R342). -/
abbrev scrubRow (s : State) (t bank : Nat) : Nat := tget s.mem.scrub (scrubKey t bank) 0
abbrev lineAt (row bank : Nat) : Nat := (row * 32 + bank) * 64

/-- The line of a bank's next row once it is read and cleaned. -/
def lineScrubbed (t bank : Nat) (ecc : List Ecc) (s : State) : State :=
  cleanLine (sramAddr t (lineAt (scrubRow s t bank) bank)) (lineFinds t (lineAt (scrubRow s t bank) bank) ecc s)

/-- The row behind `row` is the bank's next. -/
def rowAdvanced (k row : Nat) (s : State) : State := { s with mem.scrub := tset s.mem.scrub k (if row = 6143 then 0 else row + 1) 0 }

theorem exec_scrubWalk {s : State} {t : Tile} {bank : Fin 32} (ecc : List Ecc) (hst : s.dev.st ≠ .lookout) (ht : tileUsable s t = true) :
    exec (.scrubWalk t bank ecc) s = .next (rowAdvanced (scrubKey t bank) (scrubRow s t bank) (lineScrubbed t bank ecc s)) := by
  change execScrubWalk t bank ecc s = _
  rw [execScrubWalk, if_neg (by simp [hst, ht])]
  dsimp only [rowAdvanced, lineScrubbed, lineFinds]

theorem exec_scrubWalk_off {s : State} {t : Tile} (bank : Fin 32) (ecc : List Ecc) (h : s.dev.st = .lookout ∨ tileUsable s t = false) :
    exec (.scrubWalk t bank ecc) s = .next s :=
  congrArg Host.Outcome.next (if_pos (by simpa using h))

/-- Reading and cleaning a line leave the rows of the walk. -/
theorem lineScrubbed_scrub (t bank : Nat) (ecc : List Ecc) (s : State) : (lineScrubbed t bank ecc s).mem.scrub = s.mem.scrub := by
  rw [lineScrubbed, cleanLine_scrub, lineFinds_mem]

theorem lineScrubbed_ok {t bank : Nat} {ecc : List Ecc} {s : State} (h : ∀ e ∈ ecc, e = .ok) (hp : s.mem.poison = []) :
    lineScrubbed t bank ecc s = s := by
  rw [lineScrubbed, lineFinds_ok h, cleanLine_unpoisoned hp]

theorem lineScrubbed_corrected (t bank : Nat) (s : State) :
    (tile (lineScrubbed t bank [.corrected] s) t).corr = (tile s t).corr + 1 ∧ (lineScrubbed t bank [.corrected] s).faults = s.faults ∧
      (lineScrubbed t bank [.corrected] s).mem.cells.length ≤ s.mem.cells.length := by
  obtain ⟨hcorr, hfaults, hmem⟩ := sramFinds_corrected t (lineAt (scrubRow s t bank) bank) 5 s
  rw [lineScrubbed, lineFinds_one]
  refine ⟨?_, ?_, ?_⟩
  · rwa [tile, cleanLine_tiles]
  · rwa [cleanLine_faults]
  · exact (length_cells_cleanLine ..).trans (by rw [hmem])

/-- The first word of a bank's line is a protected word of its own. -/
theorem sramAddr_lineAt_word (t row bank : Nat) : sramAddr t (lineAt row bank) / 8 * 8 = sramAddr t (lineAt row bank) ∧
    unitOf (sramAddr t (lineAt row bank)) = sramAddr t (lineAt row bank) := by
  have h8 : sramAddr t (lineAt row bank) % 8 = 0 := by simp only [sramAddr, sramBase, lineAt]; omega
  exact ⟨by omega, unitOf_sram (by simp only [sramAddr]; omega) h8⟩

theorem lineScrubbed_uncorrectable (t bank : Nat) (s : State) :
    (tile (lineScrubbed t bank [.uncorrectable] s) t).uncorr = (tile s t).uncorr + 1 ∧
      Recorded s (lineScrubbed t bank [.uncorrectable] s) errSramUncorr ∧
      (ownerOf s (sramAddr t (lineAt (scrubRow s t bank) bank)) ≠ none →
        sramAddr t (lineAt (scrubRow s t bank) bank) ∈ (lineScrubbed t bank [.uncorrectable] s).mem.poison) := by
  obtain ⟨hmem, hjob, huncorr, f, hf, hcode⟩ := sramFinds_uncorrectable t (lineAt (scrubRow s t bank) bank) 5 s
  obtain ⟨hword, hunit⟩ := sramAddr_lineAt_word t (scrubRow s t bank) bank
  rw [lineScrubbed, lineFinds_one]
  refine ⟨?_, ⟨f, ?_, hcode⟩, fun hown => cleanLine_keeps_owned ?_ ?_⟩
  · rwa [tile, cleanLine_tiles]
  · rwa [cleanLine_faults]
  · rwa [ownerOf_congr hjob]
  · rw [hmem, hword]
    have hmark := unitOf_mem_poisonAt s.mem (sramAddr t (lineAt (scrubRow s t bank) bank))
    rwa [hunit] at hmark

end Sys2Proof.Machine
end

section
/-! The patrol scrub and self-refresh of a stack (R357, R358, R409, R742, R743). -/
namespace Sys2Proof.Machine
open Sys2Proof

@[simp] theorem hbm_updHbm_self (m : Nat) (f : StackRec → StackRec) (s : State) : hbm (updHbm m f s) m = f (hbm s m) :=
  (hbm_setHbm ..).trans (if_pos rfl)
theorem hbm_updHbm_ne {m j : Nat} (h : j ≠ m) (f : StackRec → StackRec) (s : State) : hbm (updHbm m f s) j = hbm s j :=
  (hbm_setHbm ..).trans (if_neg h)

/-- Change of one stack's record alone. -/
theorem updHbm_alone (m : Nat) (f : StackRec → StackRec) (s : State) : hbm (updHbm m f s) m = f (hbm s m) ∧
    updHbm m f s = { s with mem.hbms := (updHbm m f s).mem.hbms } ∧ ∀ j, j ≠ m → hbm (updHbm m f s) j = hbm s j :=
  ⟨hbm_updHbm_self .., rfl, fun _ h => hbm_updHbm_ne h ..⟩

theorem cleanPage_unpoisoned {s : State} (h : s.mem.poison = []) (a : Nat) : cleanPage a s = s := by
  rw [cleanPage, h]
  rfl

/-- Reading pages moves the stack's pointer past them, whatever the reads find. -/
theorem patrol_patrolRead (m n : Nat) (ecc : List (Nat × Ecc)) (s : State) :
    (hbm (patrolRead m n ecc s) m).patrol = ((hbm s m).patrol + n) % stackPages :=
  congrArg StackRec.patrol (hbm_updHbm_self ..)

/-- Reads that find nothing, where nothing is poisoned, move the pointer alone. -/
theorem patrolRead_clean {s : State} (hp : s.mem.poison = []) (m n : Nat) :
    patrolRead m n [] s = updHbm m (fun r => { r with patrol := ((hbm s m).patrol + n) % stackPages }) s := by
  refine congrArg (updHbm m fun r => { r with patrol := ((hbm s m).patrol + n) % stackPages }) ?_
  refine List.foldlRecOn (motive := fun u : State => u = s) _ _ rfl fun u hu i _ => ?_
  rw [hu, cleanPage_unpoisoned hp]

theorem exec_hbmPatrolScrub {s : State} {m : Stack} (ecc : List (Nat × Ecc)) (hlook : s.dev.st ≠ .lookout) (hstart : s.dev.st ≠ .starting)
    (hfa : isFA s = false) (hm : stackLost s m = false) : exec (.hbmPatrolScrub m ecc) s = .next (
      if (hbm s m).selfRefresh then updHbm m (fun r => { r with due := min 10000 (r.due + 1) }) s else patrolRead m 1 ecc s) :=
  congrArg Host.Outcome.next (if_neg (by simp [hlook, hstart, hfa, hm]))

theorem exec_hbmPatrolScrub_lost {s : State} {m : Stack} (ecc : List (Nat × Ecc)) (h : stackLost s m = true) :
    exec (.hbmPatrolScrub m ecc) s = .next s :=
  congrArg Host.Outcome.next (if_pos (by simp [h]))

theorem exec_hbmPatrolBurst {s : State} {m : Stack} (ecc : List (Nat × Ecc)) (hrefresh : (hbm s m).selfRefresh = true) (hm : stackLost s m = false) :
    exec (.hbmPatrolBurst m ecc) s = .next (updHbm m (fun r => { r with due := 0, selfRefresh := true }) (patrolRead m (hbm s m).due ecc s)) :=
  congrArg Host.Outcome.next (if_pos (by simp [hrefresh, hm]))

theorem exec_hbmPatrolBurst_off {s : State} {m : Stack} (ecc : List (Nat × Ecc)) (h : (hbm s m).selfRefresh = false ∨ stackLost s m = true) :
    exec (.hbmPatrolBurst m ecc) s = .next s :=
  congrArg Host.Outcome.next (if_neg (by rcases h with h | h <;> simp [h]))

/-- The states of R742 in which a stack without requests enters self-refresh. -/
abbrev RefreshesIn (st : DevState) : Prop := st = .ready ∨ st = .loading ∨ st = .faulted ∨ st = .quarantined ∨ st = .relaying

theorem exec_hbmSelfRefreshEntry {s : State} (m : Stack) (hfa : isFA s = false) (h : RefreshesIn s.dev.st) :
    exec (.hbmSelfRefreshEntry m) s = .next (updHbm m (fun r => { r with selfRefresh := true }) s) :=
  congrArg Host.Outcome.next (if_pos ⟨by simp [hfa], h⟩)

theorem exec_hbmSelfRefreshEntry_off {s : State} (m : Stack) (h : ¬ RefreshesIn s.dev.st) : exec (.hbmSelfRefreshEntry m) s = .next s :=
  congrArg Host.Outcome.next (if_neg fun hc => h hc.2)

end Sys2Proof.Machine
end

section
/-! The corner-turn read (R345 to R349): packed rows, the turned block and its halves, and the turn buffers. -/
namespace Sys2Proof.Machine
open Sys2Proof

/-! ### Packed rows (R96) -/

/-- The value that a packed row spells. -/
abbrev packedValue (w : Nat) (xs : List Nat) : Nat := xs.foldr (fun x n => n * 2 ^ w + x % 2 ^ w) 0

theorem packedValue_lt (w : Nat) : ∀ xs : List Nat, packedValue w xs < 2 ^ (w * xs.length)
  | [] => Nat.two_pow_pos _
  | x :: xs => by
    have hx : x % 2 ^ w < 2 ^ w := Nat.mod_lt _ (Nat.two_pow_pos w)
    calc packedValue w xs * 2 ^ w + x % 2 ^ w < (packedValue w xs + 1) * 2 ^ w := by rw [Nat.succ_mul]; omega
      _ ≤ 2 ^ (w * xs.length) * 2 ^ w := Nat.mul_le_mul_right _ (packedValue_lt w xs)
      _ = 2 ^ (w * (xs.length + 1)) := by rw [← pow_add, Nat.mul_succ]

/-- Element `r` of a packed row. -/
theorem packedValue_elem (w : Nat) : ∀ (xs : List Nat) (r : Nat), packedValue w xs / 2 ^ (r * w) % 2 ^ w = nth xs r 0 % 2 ^ w
  | [], r => by simp [nth]
  | x :: xs, 0 => by simp [nth]
  | x :: xs, r + 1 => by
    have htail : packedValue w (x :: xs) / 2 ^ w = packedValue w xs := by
      rw [packedValue, List.foldr_cons, Nat.mul_comm, Nat.mul_add_div (Nat.two_pow_pos w), Nat.div_eq_of_lt (Nat.mod_lt _ (Nat.two_pow_pos w)), add_zero]
    rw [Nat.succ_mul, Nat.add_comm, pow_add, ← Nat.div_div_eq_div_mul, htail]
    exact packedValue_elem w xs r

theorem length_packRow {xs : List Nat} (h : xs.length = 256) (w : Nat) : (packRow w xs).length = 32 * w := by
  rw [packRow, length_leBytes, h]
  omega

/-- 256 elements fill whole bytes, which spell them all. -/
theorem leNat_packRow {xs : List Nat} (h : xs.length = 256) (w : Nat) : leNat (packRow w xs) = packedValue w xs := by
  have hlen : (w * 256 + 7) / 8 = 32 * w := by omega
  have hlt := packedValue_lt w xs
  rw [packRow, leNat_leBytes, h, hlen]
  refine Nat.mod_eq_of_lt (hlt.trans_eq ?_)
  rw [h, show (256 : Nat) ^ (32 * w) = (2 ^ 8) ^ (32 * w) from rfl, ← pow_mul]
  congr 1
  omega

/-! ### The turned block -/

/-- Column `c` of a block at `base`, 0 outside the block (R345, R346). -/
def turnColumn (m : Mem) (base pitch rows cols w c : Nat) : List Nat :=
  (List.range 256).map fun r => if c < cols ∧ r < rows then packedElem m (base + r * pitch) w c else 0

theorem length_turnColumn (m : Mem) (base pitch rows cols w c : Nat) : (turnColumn m base pitch rows cols w c).length = 256 := by
  simp [turnColumn]

theorem turnBlock_eq (m : Mem) (base pitch rows cols w first n : Nat) :
    turnBlock m base pitch rows cols w first n = (List.range n).map fun i => packRow w (turnColumn m base pitch rows cols w (first + i)) := rfl

theorem length_turnBlock (m : Mem) (base pitch rows cols w first n : Nat) : (turnBlock m base pitch rows cols w first n).length = n := by
  simp [turnBlock_eq]

theorem turnBlock_append (m : Mem) (base pitch rows cols w first n k : Nat) : turnBlock m base pitch rows cols w first (n + k) =
    turnBlock m base pitch rows cols w first n ++ turnBlock m base pitch rows cols w (first + n) k := by
  simp only [turnBlock_eq, List.range_add, List.map_append, List.map_map, Function.comp_def, Nat.add_assoc]

theorem length_row_turnBlock {m : Mem} {base pitch rows cols w first n : Nat} {row : List Byte} (h : row ∈ turnBlock m base pitch rows cols w first n) :
    row.length = 32 * w := by
  rw [turnBlock_eq, List.mem_map] at h
  obtain ⟨i, -, rfl⟩ := h
  exact length_packRow (length_turnColumn ..) w

/-- Element `r` of the emitted row of column `c`. -/
theorem turnBlock_elem (m : Mem) (base pitch rows cols w : Nat) {c r : Nat} (hc : c < 256) (hr : r < 256) :
    leNat (nth (turnBlock m base pitch rows cols w 0 256) c []) / 2 ^ (r * w) % 2 ^ w =
      if c < cols ∧ r < rows then packedElem m (base + r * pitch) w c else 0 := by
  have hrow : nth (turnBlock m base pitch rows cols w 0 256) c [] = packRow w (turnColumn m base pitch rows cols w c) := by
    simp [nth, turnBlock_eq, hc]
  have helem : nth (turnColumn m base pitch rows cols w c) r 0 = if c < cols ∧ r < rows then packedElem m (base + r * pitch) w c else 0 := by
    simp [nth, turnColumn, hr]
  rw [hrow, leNat_packRow (length_turnColumn ..), packedValue_elem, helem]
  split
  · exact Nat.mod_mod ..
  · exact Nat.zero_mod _

/-! ### The turn buffers -/

/-- A tile's record with a half or block in the turn buffer whose turn it is (R349). -/
def turnFilled (b : List (List Byte)) (r : TileRec) : TileRec :=
  if r.turnNext then { r with turnB := b, turnNext := false } else { r with turnA := b, turnNext := true }

section
variable (t w : Nat) (b sc : List (List Byte)) (k : Nat) (bad : Bool) (s : State)

theorem turnOut_frame : turnOut t w b sc k bad s = { s with tiles := (turnOut t w b sc k bad s).tiles, out := s.out ++ [.turned t w b sc k bad] } := rfl
/-- Two halves leave one after the other. -/
theorem turnOut_twice_frame (c : List (List Byte)) (k' : Nat) : turnOut t w c sc k' bad (turnOut t w b sc k bad s) =
    { s with tiles := (turnOut t w c sc k' bad (turnOut t w b sc k bad s)).tiles, out := s.out ++ [.turned t w b sc k bad, .turned t w c sc k' bad] } := by
  have hout : (turnOut t w c sc k' bad (turnOut t w b sc k bad s)).out = s.out ++ [.turned t w b sc k bad, .turned t w c sc k' bad] :=
    List.append_assoc ..
  rw [← hout]
  rfl

theorem tile_turnOut_self : tile (turnOut t w b sc k bad s) t = turnFilled b (tile s t) :=
  tile_updTile_self t (turnFilled b) s
theorem tile_turnOut_ne {j : Nat} (h : j ≠ t) : tile (turnOut t w b sc k bad s) j = tile s j :=
  tile_updTile_ne h (turnFilled b) s

end

/-- Two halves fill both buffers, and the turn is again whose it was. -/
theorem turnFilled_twice (b c : List (List Byte)) (r : TileRec) :
    turnFilled c (turnFilled b r) = if r.turnNext then { r with turnB := b, turnA := c } else { r with turnA := b, turnB := c } := by
  cases h : r.turnNext <;> simp [turnFilled, h]

/-! ### CORNER_TURN_READ -/

/-- The block, the scale arrays and the poison that a corner-turn read meets. -/
abbrev turnedBlock (s : State) (t base pitch rows cols w : Nat) : List (List Byte) := turnBlock s.mem (sramAddr t base) pitch rows cols w 0 256
abbrev turnScales (s : State) (t : Nat) (scales : List (Nat × Nat)) : List (List Byte) := scales.map fun x => readBytes s.mem (sramAddr t x.1) x.2
abbrev turnBad (s : State) (t base pitch rows cols w : Nat) (scales : List (Nat × Nat)) : Bool :=
  (turnReads base pitch rows cols w scales).any fun x => poisoned s.mem (sramAddr t x.1) x.2

theorem turnedBlock_halves (s : State) (t base pitch rows cols w : Nat) :
    (turnedBlock s t base pitch rows cols w).take 128 = turnBlock s.mem (sramAddr t base) pitch rows cols w 0 128 ∧
      (turnedBlock s t base pitch rows cols w).drop 128 = turnBlock s.mem (sramAddr t base) pitch rows cols w 128 128 := by
  rw [turnedBlock, turnBlock_append _ _ _ _ _ _ 0 128 128]
  exact ⟨List.take_left' (length_turnBlock ..), List.drop_left' (length_turnBlock ..)⟩

/-- A read whose words are all good sends the block whole or in its two halves; `k` and `k'` are the cycles that they take (R350). -/
theorem exec_cornerTurnRead {s : State} {t : Tile} {base pitch rows cols width : Nat} {scales : List (Nat × Nat)} (hrows : 1 ≤ rows ∧ rows ≤ 256)
    (hcols : 1 ≤ cols ∧ cols ≤ 256) (hwidth : width ∈ [1, 2, 3, 4, 6, 8, 16, 32]) (hfit : blockFits base pitch rows cols width = true)
    (hscales : scales.length ≤ 2 ∧ ∀ x ∈ scales, x.1 + x.2 ≤ 0xC00000) (ht : tileUsable s t = true) :
    ∃ k k' : Nat, exec (.cornerTurnRead t base pitch rows cols width scales []) s = .next (
      let b := turnedBlock s t base pitch rows cols width
      let sc := turnScales s t scales
      let bad := turnBad s t base pitch rows cols width scales
      if width = 32 then turnOut t 32 (b.drop 128) sc k' bad (turnOut t 32 (b.take 128) sc k bad s) else turnOut t width b sc k bad s) := by
  obtain ⟨hlo, hhi⟩ := turnedBlock_halves s t base pitch rows cols width
  have hall : scales.all (fun x => decide (x.1 + x.2 ≤ 0xC00000)) = true := List.all_eq_true.mpr fun x hx => decide_eq_true (hscales.2 x hx)
  have hexec : exec (.cornerTurnRead t base pitch rows cols width scales []) s = .next _ := congrArg Host.Outcome.next
    (if_pos ⟨hrows.1, hrows.2, hcols.1, hcols.2, List.contains_iff_mem.mpr hwidth, hfit, hscales.1, hall, ht⟩)
  dsimp only [readsFind_none] at hexec
  dsimp only
  rw [hexec, hlo, hhi]
  by_cases h : width = 32
  · simp only [if_pos h]
    exact ⟨_, _, rfl⟩
  · simp only [if_neg h]
    exact ⟨_, 0, rfl⟩

end Sys2Proof.Machine
end

section
open Sys2Proof Sys2Proof.Machine

/-- Settles O39: a scrubbed line, the patrol's pointer and due pages, self-refresh, and the turned block in its buffers. -/
theorem scrubsRefreshAndCornerTurn : Obligations.ScrubsRefreshAndCornerTurn := by
  unfold Obligations.ScrubsRefreshAndCornerTurn
  intro s
  refine ⟨fun t bank ecc hst ht => ?_, fun t bank ecc h => exec_scrubWalk_off bank ecc h, fun m ecc hlook hstart hfa hm => ⟨fun hr => ?_, fun hr => ?_⟩,
    fun m ecc hm => ⟨exec_hbmPatrolScrub_lost ecc hm, exec_hbmPatrolBurst_off ecc (.inr hm)⟩, fun m ecc hr hm => ?_,
    fun m ecc hr => exec_hbmPatrolBurst_off ecc (.inl hr), fun m hfa h => ?_, fun m h => exec_hbmSelfRefreshEntry_off m ?_,
    fun t base pitch rows cols width scales hrows hrows' hcols hcols' hwidth hfit hscales hrange ht => ?_⟩
  · refine ⟨_, exec_scrubWalk ecc hst ht, tget_tset_self .., fun j hj => ?_, fun hok hp => ?_, ?_, ?_⟩
    · rw [← lineScrubbed_scrub t bank ecc s]
      exact tget_tset_ne _ _ _ _ _ hj
    · rw [lineScrubbed_ok hok hp]
      rfl
    · rintro rfl
      have hline := lineScrubbed_corrected t bank s
      generalize lineScrubbed t bank [.corrected] s = v at hline
      exact hline
    · rintro rfl
      have hline := lineScrubbed_uncorrectable t bank s
      generalize lineScrubbed t bank [.uncorrectable] s = v at hline
      exact hline
  · exact ⟨_, (exec_hbmPatrolScrub ecc hlook hstart hfa hm).trans (congrArg _ (if_pos hr)), updHbm_alone ..⟩
  · refine ⟨_, (exec_hbmPatrolScrub ecc hlook hstart hfa hm).trans (congrArg _ (if_neg (by simp [hr]))), patrol_patrolRead .., ?_⟩
    rintro rfl hp
    rw [patrolRead_clean hp]
    rfl
  · refine ⟨_, exec_hbmPatrolBurst ecc hr hm, ?_⟩
    rw [hbm_updHbm_self]
    exact ⟨rfl, rfl, patrol_patrolRead ..⟩
  · exact ⟨_, exec_hbmSelfRefreshEntry m hfa h, updHbm_alone ..⟩
  · rcases h with h | h | h | h | h | h <;> simp [RefreshesIn, h]
  · obtain ⟨k, k', hexec⟩ := exec_cornerTurnRead ⟨hrows, hrows'⟩ ⟨hcols, hcols'⟩ hwidth hfit ⟨hscales, hrange⟩ ht
    refine ⟨_, turnedBlock s t base pitch rows cols width, k, k', hexec, ?_, length_turnBlock .., fun row => length_row_turnBlock,
      fun c r hc hr => turnBlock_elem _ _ _ _ _ _ hc hr, fun j hj => ?_, ?_⟩
    · dsimp only
      split
      · exact turnOut_twice_frame ..
      · exact turnOut_frame ..
    · dsimp only
      split
      · rw [tile_turnOut_ne _ _ _ _ _ _ _ hj, tile_turnOut_ne _ _ _ _ _ _ _ hj]
      · exact tile_turnOut_ne _ _ _ _ _ _ _ hj
    · dsimp only
      split
      · rw [tile_turnOut_self, tile_turnOut_self, turnFilled_twice]
      · rw [tile_turnOut_self, turnFilled]

end

section
/-! The lookout's hold of a lost Q0 (R408) outlasts MOD_RST_N (R825): the reset of the V48 domain leaves it. -/
namespace Sys2Proof.Machine
open Sys2Proof

theorem fallToStarting_q0Held (s : State) : (fallToStarting s).dev.q0Held = s.dev.q0Held := rfl

theorem noteInterrupted_q0Held (s : State) : (noteInterrupted s).dev.q0Held = s.dev.q0Held := by
  rw [noteInterrupted_frame]

/-- Outside LOOKOUT MOD_RST_N brings STARTING, and Q0 stays held if it was. -/
theorem exec_modRstNAssert {s : State} (hup : lookoutUp s = true) (hst : s.dev.st ≠ .lookout) :
    ∃ t, exec .modRstNAssert s = .next t ∧ t.dev.q0Held = s.dev.q0Held := by
  refine ⟨fallToStarting (noteInterrupted { s with pins.modRstN := false }), ?_, ?_⟩
  · have h : (lookoutUp { s with pins.modRstN := false } && s.dev.st != .lookout) = true :=
      Bool.and_eq_true_iff.mpr ⟨hup, bne_iff_ne.mpr hst⟩
    rw [exec, execModRstNAssert]
    exact congrArg _ (if_pos h)
  · rw [fallToStarting_q0Held, noteInterrupted_q0Held]

/-- A module that a loss of Q0 holds in STARTING, with VAUX on and AUX_RST_N high. -/
def heldByQ0 : State := { State.reset with dev.st := .starting, dev.q0Held := true, pins.vaux := true, pins.auxRstN := true }

end Sys2Proof.Machine
end

section
open Sys2Proof Sys2Proof.Machine

/-- Refutes O10: the statement says of MOD_RST_N that Q0 is not held afterwards, but the reset of the V48 domain leaves the lookout's hold of a lost
Q0, here that of a module in STARTING whose Q0 is lost. -/
theorem not_resetsOfTheV48Domain : ¬ Obligations.ResetsOfTheV48Domain := by
  unfold Obligations.ResetsOfTheV48Domain
  intro h
  obtain ⟨hreset, -⟩ := h heldByQ0
  obtain ⟨t, ht, -, -, hclear⟩ := hreset rfl (by decide)
  obtain ⟨u, hu, hheld⟩ := exec_modRstNAssert (s := heldByQ0) rfl (by decide)
  have htu : t = u := Host.Outcome.next.inj (ht.symm.trans hu)
  rw [htu, hheld] at hclear
  exact absurd hclear (by decide)

end

section
/-! Die links: the two directions of a link, what a pump of one direction leaves and adds, replays, and the check of a transfer (R378 to R382). -/
namespace Sys2Proof.Machine
open Sys2Proof

/-! ### The directions of a link -/

@[simp] theorem dirOf_setDir_self (l : DLink) (d : Nat) (r : DLinkDir) : dirOf (setDir l d r) d = r := by
  unfold dirOf setDir
  split <;> rfl
theorem dirOf_setDir_ne {d e : Nat} (h : ¬ (e = 0 ↔ d = 0)) (l : DLink) (r : DLinkDir) : dirOf (setDir l d r) e = dirOf l e := by
  unfold dirOf setDir
  by_cases hd : d = 0 <;> by_cases he : e = 0 <;> simp_all
@[simp] theorem setDir_setDir (l : DLink) (d : Nat) (r r' : DLinkDir) : setDir (setDir l d r) d r' = setDir l d r' := by
  unfold setDir
  split <;> rfl
@[simp] theorem setDir_dirOf (l : DLink) (d : Nat) : setDir l d (dirOf l d) = l := by
  unfold setDir dirOf
  split <;> rfl
@[simp] theorem setDir_width (l : DLink) (d : Nat) (r : DLinkDir) : (setDir l d r).width = l.width := by
  unfold setDir
  split <;> rfl

@[simp] theorem dlink_setDlink_self (k : Nat) (l : DLink) (s : State) : dlink (setDlink k l s) k = l := by
  rw [dlink_setDlink, if_pos rfl]
theorem dlink_setDlink_ne {k j : Nat} (h : j ≠ k) (l : DLink) (s : State) : dlink (setDlink k l s) j = dlink s j := by
  rw [dlink_setDlink, if_neg h]

/-- One direction of link `k` is `r` in `u`; its other direction, the other links and the rest of the state are as in `s`, but for what was sent. -/
def DirSet (k d : Nat) (r : DLinkDir) (s u : State) : Prop :=
  u = { s with stacking.links := u.stacking.links, out := u.out } ∧ (∀ j, j ≠ k → dlink u j = dlink s j) ∧ dlink u k = setDir (dlink s k) d r

theorem dirSet_setDlink (k d : Nat) (r : DLinkDir) (s : State) : DirSet k d r s (setDlink k (setDir (dlink s k) d r) s) :=
  ⟨rfl, fun _ hj => dlink_setDlink_ne hj _ _, dlink_setDlink_self ..⟩
theorem DirSet.dir {k d : Nat} {r : DLinkDir} {s u : State} (h : DirSet k d r s u) : dirOf (dlink u k) d = r := by
  rw [h.2.2, dirOf_setDir_self]
theorem DirSet.other {k d e : Nat} {r : DLinkDir} {s u : State} (h : DirSet k d r s u) (he : ¬ (e = 0 ↔ d = 0)) :
    dirOf (dlink u k) e = dirOf (dlink s k) e := by
  rw [h.2.2, dirOf_setDir_ne he]

/-! ### Sending -/

/-- `r'` is `r` with more transfers sent and held (R380). -/
def DirSent (r r' : DLinkDir) : Prop :=
  ∃ more, r' = { r with held := r.held ++ more, txSeq := r'.txSeq, waiting := r'.waiting, queued := r'.queued, lastServed := r'.lastServed }

theorem DirSent.refl (r : DLinkDir) : DirSent r r := ⟨[], by rw [List.append_nil]⟩
theorem DirSent.trans {r r' r'' : DLinkDir} (h : DirSent r r') (g : DirSent r' r'') : DirSent r r'' := by
  obtain ⟨xs, hr⟩ := h
  obtain ⟨ys, hr'⟩ := g
  exact ⟨xs ++ ys, by rw [hr', hr, List.append_assoc]⟩

/-- `u` is `s` after direction `d` of link `k` has sent what it could: the transfers sent are held, packets leave their queues, and nothing else
changes. -/
def Pumped (k d : Nat) (s u : State) : Prop :=
  u = { s with fabric := u.fabric, stacking.links := u.stacking.links, out := u.out } ∧ (∀ j, j ≠ k → dlink u j = dlink s j) ∧
    (∃ r, dlink u k = setDir (dlink s k) d r ∧ DirSent (dirOf (dlink s k) d) r) ∧ s.out <+: u.out

theorem Pumped.of_fabric {s u : State} (k d : Nat) (h : u = { s with fabric := u.fabric }) : Pumped k d s u := by
  have hlinks : ∀ j, dlink u j = dlink s j := fun j => by rw [h]; rfl
  exact ⟨by rw [h], fun j _ => hlinks j, ⟨_, by rw [hlinks, setDir_dirOf], DirSent.refl _⟩, by rw [h]⟩
theorem Pumped.refl (k d : Nat) (s : State) : Pumped k d s s := Pumped.of_fabric k d rfl
theorem Pumped.trans {k d : Nat} {s u v : State} (h : Pumped k d s u) (g : Pumped k d u v) : Pumped k d s v := by
  obtain ⟨hu, hj, ⟨r, hk, hr⟩, ho⟩ := h
  obtain ⟨gu, gj, ⟨r', gk, gr⟩, go⟩ := g
  rw [hk, dirOf_setDir_self] at gr
  exact ⟨by rw [gu, hu], fun j hne => (gj j hne).trans (hj j hne), ⟨r', by rw [gk, hk, setDir_setDir], hr.trans gr⟩, ho.trans go⟩

/-- A direction's record may become one that has sent more. -/
theorem pumped_setDlink {k d : Nat} {s : State} {r : DLinkDir} (h : DirSent (dirOf (dlink s k) d) r) :
    Pumped k d s (setDlink k (setDir (dlink s k) d r) s) :=
  ⟨rfl, fun _ hj => dlink_setDlink_ne hj _ _, ⟨r, dlink_setDlink_self .., h⟩, List.prefix_refl _⟩
theorem pumped_sendTransfer (k d : Nat) (bs : List Byte) (s : State) : Pumped k d s (sendTransfer k d bs s) := by
  have hset : Pumped k d s (setDlink k (setDir (dlink s k) d { dirOf (dlink s k) d with
      txSeq := seqNext (dirOf (dlink s k) d).txSeq, held := (dirOf (dlink s k) d).held ++ [((dirOf (dlink s k) d).txSeq, bs)] }) s) :=
    pumped_setDlink ⟨[_], rfl⟩
  obtain ⟨hu, hj, hk, -⟩ := hset
  exact ⟨rfl, hj, hk, List.prefix_append ..⟩

theorem pumped_pumpVertical (k d : Nat) : ∀ (n : Nat) (s : State), Pumped k d s (pumpVertical k d n s)
  | 0, s => Pumped.refl k d s
  | n + 1, s => by
    have unheld : ∀ (r : DLinkDir) (w : List (List Byte)) (q : Table (List Byte)) (c : Nat),
        DirSent r { r with waiting := w, queued := q, lastServed := c } := fun r w q c => ⟨[], by rw [List.append_nil]⟩
    rw [pumpVertical]
    split
    · exact Pumped.refl k d s
    · split
      · exact ((pumped_setDlink (unheld ..)).trans (pumped_sendTransfer ..)).trans (pumped_pumpVertical k d n _)
      · split
        · exact Pumped.refl k d s
        · exact ((pumped_setDlink (unheld ..)).trans (pumped_sendTransfer ..)).trans (pumped_pumpVertical k d n _)

/-- The service of an output port changes the fabric's pointers and tokens only. -/
theorem served_frame (ctr v : Nat) (h : Queued) (s : State) : served ctr v h s = { s with fabric := (served ctr v h s).fabric } := by
  unfold served
  split <;> rfl
theorem countPort_frame (key : Nat) (f : PortCtr → PortCtr) (s : State) : countPort key f s = { s with fabric := (countPort key f s).fabric } := rfl
theorem setHeld_frame (key : Nat) (h h' : Queued) (s : State) : setHeld key h h' s = { s with fabric := (setHeld key h h' s).fabric } := rfl

theorem pumped_pumpBridge (k d : Nat) : ∀ (n : Nat) (s : State), Pumped k d s (pumpBridge k d n s)
  | 0, s => Pumped.refl k d s
  | n + 1, s => by
    rw [pumpBridge]
    dsimp only
    split
    · split
      · exact Pumped.refl k d s
      · next v h _ =>
        generalize hheld : setHeld _ h _ s = u
        have hserved : Pumped k d s (served (meshCtr (bridgePort k d).1 (bridgePort k d).2) v h u) :=
          .of_fabric k d (by rw [served_frame, ← hheld, setHeld_frame])
        exact (hserved.trans (pumped_sendTransfer ..)).trans
          (Pumped.trans (.of_fabric k d (countPort_frame ..)) (pumped_pumpBridge k d n _))
    · exact Pumped.refl k d s

theorem pumped_pumpDir (k d : Nat) (s : State) : Pumped k d s (pumpDir k d s) := by
  unfold pumpDir
  split
  · exact pumped_pumpVertical ..
  · exact pumped_pumpBridge ..

/-- A vertical link's direction with nothing to send sends nothing. -/
theorem pumpDir_nothing {k d : Nat} {s : State} (hk : k < 256) (hw : (dirOf (dlink s k) d).waiting = []) (hq : (dirOf (dlink s k) d).queued = []) :
    pumpDir k d s = s := by
  rw [pumpDir, if_pos hk, pumpVertical]
  split
  · rfl
  · simp [hw, hq]
/-- What crosses a vertical link leaves the routers and lanes as they are. -/
theorem pumpDir_fabric {k : Nat} (hk : k < 256) (d : Nat) (s : State) : (pumpDir k d s).fabric = s.fabric := by
  rw [pumpDir, if_pos hk, (linkOnly_pumpVertical k d 8 s).1]

/-! ### Replays -/

/-- A transfer hangs on its link alone. -/
theorem transferOut_congr {s u : State} {k : Nat} (h : dlink u k = dlink s k) (d : Nat) (x : Option (Nat × List Byte)) :
    transferOut u k d x = transferOut s k d x := by
  rw [transferOut, transferOut, h]

theorem resendHeld_eq (k d : Nat) (held : List (Nat × List Byte)) (s : State) :
    resendHeld k d held s = { s with out := s.out ++ held.map fun q => transferOut s k d (some q) } := by
  induction held generalizing s with
  | nil => simp [resendHeld]
  | cons q held ih =>
    have hstep : resendHeld k d (q :: held) s = resendHeld k d held (emit (transferOut s k d (some q)) s) := rfl
    have hsame : ∀ x, transferOut (emit (transferOut s k d (some q)) s) k d x = transferOut s k d x := transferOut_congr rfl d
    rw [hstep, ih]
    simp only [hsame]
    simp only [emit, List.map_cons, List.append_assoc, List.singleton_append]

/-- A direction's record after a replay of what it holds (R381, R383). -/
def replayed (now : Nat) (r : DLinkDir) : DLinkDir :=
  if r.held.isEmpty then r
  else { r with again := r.again + 1, recent := now :: r.recent.filter fun t => now < t + 1000000, retries := r.retries + 1 }

theorem replayed_held (now : Nat) (r : DLinkDir) : (replayed now r).held = r.held := by
  unfold replayed
  split <;> rfl
theorem replayed_waiting (now : Nat) (r : DLinkDir) : (replayed now r).waiting = r.waiting := by
  unfold replayed
  split <;> rfl
theorem replayed_queued (now : Nat) (r : DLinkDir) : (replayed now r).queued = r.queued := by
  unfold replayed
  split <;> rfl
theorem replayed_counts {r : DLinkDir} (h : r.held ≠ []) (now : Nat) :
    (replayed now r).again = r.again + 1 ∧ (replayed now r).retries = r.retries + 1 := by
  rw [replayed, if_neg (by simpa using h)]
  exact ⟨rfl, rfl⟩

theorem replayed_of_empty {r : DLinkDir} (h : r.held = []) (now : Nat) : replayed now r = r := by
  rw [replayed, if_pos (by simpa using h)]

theorem replayDir_of_empty {k d : Nat} {s : State} (h : (dirOf (dlink s k) d).held = []) : replayDir k d s = s := by
  rw [replayDir, if_pos (by simpa using h)]
theorem replayDir_of_held {k d : Nat} {s : State} (h : (dirOf (dlink s k) d).held ≠ []) :
    replayDir k d s = resendHeld k d (dirOf (dlink s k) d).held
      (setDlink k (setDir (dlink s k) d (replayed s.time (dirOf (dlink s k) d))) s) := by
  have hne : ¬ (dirOf (dlink s k) d).held.isEmpty = true := by simpa using h
  rw [replayDir, if_neg hne, replayed, if_neg hne]

/-- A replay counts, and sends what the direction holds with what this end has accepted of the other direction. -/
theorem replayDir_spec {k d : Nat} (hd : ¬ (1 - d = 0 ↔ d = 0)) (s : State) :
    DirSet k d (replayed s.time (dirOf (dlink s k) d)) s (replayDir k d s) ∧
      (replayDir k d s).out = s.out ++ (dirOf (dlink s k) d).held.map fun h => transferOut s k d (some h) := by
  by_cases hempty : (dirOf (dlink s k) d).held = []
  · rw [replayDir_of_empty hempty, replayed_of_empty hempty, hempty]
    exact ⟨⟨rfl, fun _ _ => rfl, (setDir_dirOf ..).symm⟩, (List.append_nil _).symm⟩
  · rw [replayDir_of_held hempty, resendHeld_eq]
    obtain ⟨-, hne, hk⟩ := dirSet_setDlink k d (replayed s.time (dirOf (dlink s k) d)) s
    generalize replayed s.time (dirOf (dlink s k) d) = r at hne hk
    have hsame : ∀ x, transferOut (setDlink k (setDir (dlink s k) d r) s) k d x = transferOut s k d x := fun x => by
      rw [transferOut, transferOut, hk, setDir_width, dirOf_setDir_ne hd]
    exact ⟨⟨rfl, hne, hk⟩, congrArg (s.out ++ ·) (List.map_congr_left fun h _ => hsame (some h))⟩

/-- A replay or none: the direction holds and has yet to send what it did. -/
theorem replayIf_spec {k d : Nat} (hd : ¬ (1 - d = 0 ↔ d = 0)) (b : Prop) [Decidable b] (s : State) :
    ∃ r, (r.held = (dirOf (dlink s k) d).held ∧ r.waiting = (dirOf (dlink s k) d).waiting ∧ r.queued = (dirOf (dlink s k) d).queued) ∧
      DirSet k d r s (if b then replayDir k d s else s) ∧
      (if b then replayDir k d s else s).out =
        s.out ++ if b then (dirOf (dlink s k) d).held.map fun h => transferOut s k d (some h) else [] := by
  split
  · exact ⟨_, ⟨replayed_held .., replayed_waiting .., replayed_queued ..⟩, replayDir_spec hd s⟩
  · exact ⟨_, ⟨rfl, rfl, rfl⟩, ⟨rfl, fun _ _ => rfl, (setDir_dirOf ..).symm⟩, (List.append_nil _).symm⟩

/-! ### The check of a transfer -/

theorem crcByte_lt {poly : Nat} (hp : poly < 2 ^ 32) : ∀ {k c : Nat}, c < 2 ^ 32 → crcByte poly k c < 2 ^ 32
  | 0, _, hc => hc
  | k + 1, c, hc => by
    rw [crcByte]
    refine crcByte_lt hp ?_
    split
    · exact Nat.xor_lt_two_pow (by omega) hp
    · omega

theorem crc32_lt (bs : List Byte) : crc32 bs < 2 ^ 32 := by
  refine Nat.xor_lt_two_pow (List.foldlRecOn (motive := fun c : Nat => c < 2 ^ 32) bs _ (by decide) fun c hc b _ => ?_) (by decide)
  exact crcByte_lt (by decide) (Nat.xor_lt_two_pow hc (by have := b.isLt; omega))

/-- The control bits of a transfer (Table 09-3): valid and number, the last number accepted of the other direction, and nak. -/
def transferCtl (x : Option (Nat × List Byte)) (ack : Nat) (nak : Bool) : Nat :=
  (match x with | some q => q.1 * 1024 + 4 | none => 0) + ack * 16 + if nak then 8 else 0

theorem transferCtl_lt {x : Option (Nat × List Byte)} {ack : Nat} (hx : ∀ q, x = some q → q.1 < 64) (ha : ack < 64) (nak : Bool) :
    transferCtl x ack nak < 65536 := by
  have hnak : (if nak then 8 else 0) ≤ 8 := by split <;> omega
  cases x with
  | none => unfold transferCtl; dsimp only; omega
  | some q => have := hx q rfl; unfold transferCtl; dsimp only; omega

/-- One segment of a transfer (R378): 512 B of data, and the control bits with their CRC. -/
def segmentOver (i ctl : Nat) (data : List Byte) : Segment :=
  ⟨Fin.ofNat 16 i, data, BitVec.ofNat 48 (crc32 (data ++ leBytes 2 ctl) * 65536 + ctl)⟩

/-- What a segment carries of a transfer's bytes, filled up with zeros. -/
def segmentData (x : Option (Nat × List Byte)) (i : Nat) : List Byte :=
  let part := slice (match x with | some q => q.2 | none => []) (512 * i) 512
  part ++ List.replicate (512 - part.length) 0

theorem length_segmentData (x : Option (Nat × List Byte)) (i : Nat) : (segmentData x i).length = 512 := by
  have hpart : ∀ bs : List Byte, (slice bs (512 * i) 512).length ≤ 512 := fun bs => List.length_take_le ..
  unfold segmentData
  rw [List.length_append, List.length_replicate]
  have := hpart (match x with | some q => q.2 | none => [])
  omega

theorem transferOver_eq (ss : List Nat) (x : Option (Nat × List Byte)) (ack : Nat) (nak : Bool) :
    transferOver ss x ack nak = ss.zipIdx.map fun e => segmentOver e.1 (transferCtl x ack nak) (segmentData x e.2) := rfl

theorem segmentOver_ctl_toNat {ctl : Nat} (hc : ctl < 65536) (i : Nat) (data : List Byte) :
    (segmentOver i ctl data).ctl.toNat = crc32 (data ++ leBytes 2 ctl) * 65536 + ctl := by
  have hcrc := crc32_lt (data ++ leBytes 2 ctl)
  exact (BitVec.toNat_ofNat ..).trans (Nat.mod_eq_of_lt (by omega))
theorem ctlBits_segmentOver {ctl : Nat} (hc : ctl < 65536) (i : Nat) (data : List Byte) : ctlBits (segmentOver i ctl data) = ctl := by
  rw [ctlBits, segmentOver_ctl_toNat hc]
  omega

/-- A segment made with control bits that fit passes its check (R378). -/
theorem segmentGood_segmentOver {ctl : Nat} (hc : ctl < 65536) (i : Nat) {data : List Byte} (hd : data.length = 512) :
    segmentGood (segmentOver i ctl data) = true := by
  have hdata : (segmentOver i ctl data).data = data := rfl
  rw [segmentGood, ctlBits_segmentOver hc, segmentOver_ctl_toNat hc, hdata]
  simp only [hd, decide_true, Bool.true_and, beq_iff_eq]
  omega

theorem activeSegs_lt {w : Width} : ∀ i ∈ activeSegs w, i < 16 := by
  cases w <;> decide
theorem activeSegs_ne_nil {w : Width} (h : w ≠ .fenced) : activeSegs w ≠ [] := by
  cases w with
  | fenced => exact absurd rfl h
  | full | lower | upper => decide

/-- What goes out over the active segments of a width passes the far end's checks (R378, R379). -/
theorem transferGood_transferOver {w : Width} {x : Option (Nat × List Byte)} {ack : Nat} (hx : ∀ q, x = some q → q.1 < 64) (ha : ack < 64)
    (hw : w ≠ .fenced) (nak : Bool) : transferGood w (transferOver (activeSegs w) x ack nak) = true := by
  have hc := transferCtl_lt hx ha nak
  rw [transferOver_eq]
  have hplaces : ((activeSegs w).zipIdx.map fun e => segmentOver e.1 (transferCtl x ack nak) (segmentData x e.2)).map (·.seg.val) =
      activeSegs w := by
    rw [List.map_map]
    refine (List.map_congr_left fun e he => ?_).trans (List.zipIdx_map_fst 0 (activeSegs w))
    exact Nat.mod_eq_of_lt (activeSegs_lt _ (List.fst_mem_of_mem_zipIdx he))
  have hgood : ∀ y ∈ (activeSegs w).zipIdx.map fun e => segmentOver e.1 (transferCtl x ack nak) (segmentData x e.2),
      segmentGood y = true ∧ ctlBits y = transferCtl x ack nak := by
    intro y hy
    obtain ⟨e, -, rfl⟩ := List.mem_map.mp hy
    exact ⟨segmentGood_segmentOver hc _ (length_segmentData ..), ctlBits_segmentOver hc _ _⟩
  have hne : (activeSegs w).zipIdx.map (fun e => segmentOver e.1 (transferCtl x ack nak) (segmentData x e.2)) ≠ [] := by
    simpa using activeSegs_ne_nil hw
  generalize (activeSegs w).zipIdx.map (fun e => segmentOver e.1 (transferCtl x ack nak) (segmentData x e.2)) = ys at hplaces hgood hne
  cases ys with
  | nil => exact absurd rfl hne
  | cons y ys =>
    have hall : (y :: ys).all segmentGood = true := List.all_eq_true.mpr fun z hz => (hgood z hz).1
    rw [transferGood, hplaces, hall]
    simp only [decide_true, Bool.true_and, List.all_eq_true, beq_iff_eq]
    intro z hz
    rw [(hgood z (List.mem_cons_of_mem _ hz)).2, (hgood y List.mem_cons_self).2]

/-! ### The instructions -/

theorem fin2_opposite (d : Fin 2) : ¬ (1 - d.val = 0 ↔ d.val = 0) := by omega
theorem fin2_opposite' (d : Fin 2) : ¬ (d.val = 0 ↔ 1 - d.val = 0) := by omega
theorem fin2_opposite_opposite (d : Fin 2) : 1 - (1 - d.val) = d.val := by omega

section
variable {s : State} {k : Fin 288} {d : Fin 2}

theorem exec_dieLinkTransfer_stopped (h : (dlink s k).width = .fenced ∨ (dlink s k).paused = true) (segs : List Segment) :
    exec (.dieLinkTransfer k d segs) s = .next s := by
  have hs : (!hasLink s k || (dlink s k).width == .fenced || (dlink s k).paused) = true := by
    obtain h | h := h <;> simp [h]
  rw [exec, execDieLinkTransfer.eq_def, if_pos hs]
theorem exec_dieLinkReplayTimeout_stopped (h : (dlink s k).width = .fenced ∨ (dlink s k).paused = true) :
    exec (.dieLinkReplayTimeout k d) s = .next s := by
  have hs : ((dlink s k).width == .fenced || (dlink s k).paused) = true := by
    obtain h | h := h <;> simp [h]
  rw [exec, execDieLinkReplayTimeout, if_pos hs]
theorem exec_dieLinkReplayTimeout (hw : (dlink s k).width ≠ .fenced) (hp : (dlink s k).paused = false) :
    exec (.dieLinkReplayTimeout k d) s = .next (replayDir k d s) := by
  rw [exec, execDieLinkReplayTimeout, if_neg (by simp [hw, hp])]

theorem not_stopped (hl : hasLink s k = true) (hw : (dlink s k).width ≠ .fenced) (hp : (dlink s k).paused = false) :
    ¬ (!hasLink s k || (dlink s k).width == .fenced || (dlink s k).paused) = true := by simp [hl, hw, hp]

/-- A transfer that fails is answered with an idle one that carries nak (R379, R381). -/
theorem exec_dieLinkTransfer_bad (hl : hasLink s k = true) (hw : (dlink s k).width ≠ .fenced) (hp : (dlink s k).paused = false)
    {segs : List Segment} (hg : transferGood (dlink s k).width segs = false) :
    let refused := setDlink k (setDir (dlink s k) d { dirOf (dlink s k) d with nak := true }) s
    exec (.dieLinkTransfer k d segs) s = .next (emit (transferOut refused k (1 - d) none) refused) := by
  dsimp only
  rw [exec, execDieLinkTransfer.eq_def, if_neg (not_stopped hl hw hp)]
  dsimp only
  rw [if_neg (by simp [hg])]

/-- A direction's record after transfer `c` (its control bits) has been checked (R379, R380). -/
def checkedDir (c : Nat) (r : DLinkDir) : DLinkDir :=
  if c / 4 % 2 == 1 then
    if c / 4 % 2 == 1 && c / 1024 % 64 == seqNext r.rxLast then { r with rxLast := c / 1024 % 64, nak := false } else { r with nak := true }
  else r

theorem checkedDir_next {c : Nat} {r : DLinkDir} (hv : c / 4 % 2 = 1) (hq : c / 1024 % 64 = seqNext r.rxLast) :
    checkedDir c r = { r with rxLast := c / 1024 % 64, nak := false } := by simp [checkedDir, hv, hq]
theorem checkedDir_out_of_order {c : Nat} {r : DLinkDir} (hv : c / 4 % 2 = 1) (hq : c / 1024 % 64 ≠ seqNext r.rxLast) :
    checkedDir c r = { r with nak := true } := by simp [checkedDir, hv, hq]
theorem checkedDir_idle {c : Nat} {r : DLinkDir} (hv : c / 4 % 2 = 0) : checkedDir c r = r := by simp [checkedDir, hv]

/-- The link as an accepted transfer leaves it: one direction has taken it, the other its ack. -/
def acceptedLink (d c : Nat) (l : DLink) : DLink :=
  setDir (setDir l d (checkedDir c (dirOf l d))) (1 - d) (takeAck (dirOf (setDir l d (checkedDir c (dirOf l d))) (1 - d)) (c / 16 % 64))

/-- The state as an accepted transfer leaves it, before the replay that its nak asks for. -/
def acceptTransfer (k d c : Nat) (s : State) : State :=
  setDlink k (acceptedLink d c (dlink s k))
    (if c / 4 % 2 == 1 && c / 1024 % 64 == seqNext (dirOf (dlink s k) d).rxLast then markTaken k d (c / 1024 % 64) s else s)

theorem exec_dieLinkTransfer_good (hl : hasLink s k = true) (hw : (dlink s k).width ≠ .fenced) (hp : (dlink s k).paused = false)
    {x : Segment} {rest : List Segment} (hg : transferGood (dlink s k).width (x :: rest) = true) :
    let t := acceptTransfer k d (ctlBits x) s
    exec (.dieLinkTransfer k d (x :: rest)) s = .next (pumpDir k (1 - d) (if ctlBits x / 8 % 2 = 1 then replayDir k (1 - d) t else t)) := by
  dsimp only
  rw [exec, execDieLinkTransfer.eq_def, if_neg (not_stopped hl hw hp)]
  dsimp only
  rw [if_pos hg]
  rfl

end

theorem markTaken_frame (k d q : Nat) (s : State) : markTaken k d q s = { s with fabric := (markTaken k d q s).fabric } := by
  unfold markTaken
  split
  · rfl
  · refine List.foldlRecOn (motive := fun u : State => u = { s with fabric := u.fabric }) _ _ rfl fun u hu v _ => ?_
    rw [hu]
    rfl

theorem acceptTransfer_frame (k d c : Nat) (s : State) :
    acceptTransfer k d c s = { s with stacking.links := (acceptTransfer k d c s).stacking.links, fabric := (acceptTransfer k d c s).fabric } := by
  unfold acceptTransfer
  split
  · rw [markTaken_frame]
    rfl
  · rfl
theorem dlink_acceptTransfer (k d c j : Nat) (s : State) :
    dlink (acceptTransfer k d c s) j = if j = k then acceptedLink d c (dlink s k) else dlink s j := by
  unfold acceptTransfer
  rw [dlink_setDlink]
  split
  · rfl
  · split
    · rw [markTaken_frame]
      rfl
    · rfl
theorem acceptTransfer_fabric {k : Nat} (hk : k < 256) (d c : Nat) (s : State) : (acceptTransfer k d c s).fabric = s.fabric := by
  unfold acceptTransfer
  split
  · rw [markTaken, if_pos hk]
    rfl
  · rfl

/-- After a replay or none, what waits for the direction goes out; the other direction is as it was. -/
theorem pumpDir_replayIf (k : Nat) (d : Fin 2) (b : Prop) [Decidable b] (s : State) :
    let r := dirOf (dlink s k) (1 - d)
    let u := pumpDir k (1 - d) (if b then replayDir k (1 - d) s else s)
    u = { s with fabric := u.fabric, stacking.links := u.stacking.links, out := u.out } ∧ (∀ j, j ≠ k → dlink u j = dlink s j) ∧
      dirOf (dlink u k) d = dirOf (dlink s k) d ∧ (k < 256 → u.fabric = s.fabric) ∧
      ∃ more sent, (dirOf (dlink u k) (1 - d)).held = r.held ++ more ∧
        u.out = s.out ++ (if b then r.held.map fun h => transferOut s k (1 - d) (some h) else []) ++ sent ∧
        (k < 256 → r.waiting = [] → r.queued = [] → more = [] ∧ sent = []) := by
  have hd : ¬ (1 - (1 - d.val) = 0 ↔ 1 - d.val = 0) := by omega
  obtain ⟨r', ⟨hheld, hwaiting, hqueued⟩, hset, hout⟩ := replayIf_spec (k := k) hd b s
  have hr' := hset.dir
  have hother := hset.other (fin2_opposite' d)
  obtain ⟨hframe, hne, -⟩ := hset
  dsimp only
  generalize (if b then replayDir k (1 - d) s else s) = w at *
  generalize hr : dirOf (dlink s k) (1 - d) = r at *
  obtain ⟨hpframe, hpne, ⟨p, hpk, more, hp⟩, sent, hsent⟩ := pumped_pumpDir k (1 - d) w
  generalize hu : pumpDir k (1 - d) w = u at *
  refine ⟨by rw [hpframe, hframe], fun j hj => (hpne j hj).trans (hne j hj), ?_, fun hk => ?_, ?_⟩
  · rw [hpk, dirOf_setDir_ne (fin2_opposite' d), hother]
  · rw [← hu, pumpDir_fabric hk, hframe]
  · by_cases hidle : k < 256 ∧ r.waiting = [] ∧ r.queued = []
    · obtain ⟨hk, hwait, hqueue⟩ := hidle
      have hstay : u = w := hu.symm.trans (pumpDir_nothing hk (by rw [hr', hwaiting]; exact hwait) (by rw [hr', hqueued]; exact hqueue))
      refine ⟨[], [], ?_, ?_, fun _ _ _ => ⟨rfl, rfl⟩⟩
      · rw [hstay, hr', hheld, List.append_nil]
      · rw [hstay, hout, List.append_nil]
    · refine ⟨more, sent, ?_, ?_, fun h1 h2 h3 => absurd ⟨h1, h2, h3⟩ hidle⟩
      · rw [hpk, dirOf_setDir_self, hp, hr', hheld]
      · rw [← hsent, hout]

theorem takeAck_waiting (r : DLinkDir) (a : Nat) : (takeAck r a).waiting = r.waiting := by
  unfold takeAck
  dsimp only
  split <;> rfl
theorem takeAck_queued (r : DLinkDir) (a : Nat) : (takeAck r a).queued = r.queued := by
  unfold takeAck
  dsimp only
  split <;> rfl

@[simp] theorem acceptedLink_width (d c : Nat) (l : DLink) : (acceptedLink d c l).width = l.width := by simp [acceptedLink]
theorem dirOf_acceptedLink (d : Fin 2) (c : Nat) (l : DLink) : dirOf (acceptedLink d c l) d = checkedDir c (dirOf l d) := by
  rw [acceptedLink, dirOf_setDir_ne (fin2_opposite' d), dirOf_setDir_self]
theorem dirOf_acceptedLink_other (d : Fin 2) (c : Nat) (l : DLink) :
    dirOf (acceptedLink d c l) (1 - d) = takeAck (dirOf l (1 - d)) (c / 16 % 64) := by
  rw [acceptedLink, dirOf_setDir_self, dirOf_setDir_ne (fin2_opposite d)]

end Sys2Proof.Machine
end

section
open Sys2Proof Sys2Proof.Machine

/-- Settles O27, clause by clause: the discard, the acceptance with its ack and replay, the timeout, the check of what is sent, and a stopped link. -/
theorem dieLinkTransfersAreTakenInOrder : Obligations.DieLinkTransfersAreTakenInOrder := by
  unfold Obligations.DieLinkTransfersAreTakenInOrder
  refine fun s k d segs => ⟨fun hl hw hp hg => ?_, fun x rest hsegs hl hw hp hg => ?_, fun hw hp => ?_,
    fun w x ack nak hx ha hw => transferGood_transferOver hx ha hw nak, fun h => ?_⟩
  · have hset := dirSet_setDlink k d { dirOf (dlink s k) d with nak := true } s
    refine ⟨_, exec_dieLinkTransfer_bad hl hw hp hg, hset.dir, hset.other (fin2_opposite d), ?_, rfl, hset.2.1⟩
    rw [transferOut, fin2_opposite_opposite, hset.dir, hset.2.2, setDir_width]
    rfl
  · subst hsegs
    refine ⟨_, exec_dieLinkTransfer_good hl hw hp hg, ?_⟩
    have hne : ∀ j : Nat, j ≠ k → dlink (acceptTransfer k d (ctlBits x) s) j = dlink s j := fun j hj => by rw [dlink_acceptTransfer, if_neg hj]
    have hk : dlink (acceptTransfer k d (ctlBits x) s) k = acceptedLink d (ctlBits x) (dlink s k) := by rw [dlink_acceptTransfer, if_pos rfl]
    have hframe := acceptTransfer_frame k d (ctlBits x) s
    have hfabric := fun hk : k.val < 256 => acceptTransfer_fabric hk d (ctlBits x) s
    generalize acceptTransfer k d (ctlBits x) s = t at hne hk hframe hfabric
    have hdir := (congrArg (dirOf · d.val) hk).trans (dirOf_acceptedLink ..)
    have hother := (congrArg (dirOf · (1 - d.val)) hk).trans (dirOf_acceptedLink_other ..)
    have hwidth := (congrArg DLink.width hk).trans (acceptedLink_width ..)
    have hout : t.out = s.out := by rw [hframe]
    have hpump := pumpDir_replayIf k d (ctlBits x / 8 % 2 = 1) t
    dsimp only at hdir hother hwidth hpump ⊢
    generalize pumpDir k (1 - d) (if ctlBits x / 8 % 2 = 1 then replayDir k (1 - d) t else t) = u at hpump
    obtain ⟨huframe, hune, hudir, hufabric, more, sent, hheld, huout, hidle⟩ := hpump
    rw [hdir] at hudir
    rw [hother] at hheld huout hidle
    rw [hudir]
    refine ⟨fun hv hq => ?_, fun hv hq => ?_, fun hv => ?_, ⟨more, sent, hheld, ?_, fun hk256 hw hq => ?_⟩, fun hk256 => ?_, ?_, fun j hj => ?_⟩
    · rw [checkedDir_next hv hq]
      exact ⟨rfl, rfl⟩
    · rw [checkedDir_out_of_order hv hq]
      exact ⟨rfl, rfl⟩
    · rw [checkedDir_idle hv]
      exact ⟨rfl, rfl⟩
    · rw [huout, hout]
      simp only [transferOut, fin2_opposite_opposite, hdir, hwidth]
    · exact hidle hk256 (by rw [takeAck_waiting, hw]) (by rw [takeAck_queued, hq])
    · rw [hufabric hk256, hfabric hk256]
    · rw [huframe, hframe]
    · rw [hune j hj, hne j hj]
  · obtain ⟨hset, hout⟩ := replayDir_spec (k := k) (fin2_opposite d) s
    have hdir := hset.dir
    refine ⟨_, exec_dieLinkReplayTimeout hw hp, hout, ?_, fun hne => ?_, hset.other (fin2_opposite d), hset.1, hset.2.1⟩
    · rw [hdir, replayed_held]
    · rw [hdir]
      exact replayed_counts hne s.time
  · exact ⟨exec_dieLinkTransfer_stopped h segs, exec_dieLinkReplayTimeout_stopped h⟩

end

section
/-! What the routing of packets leaves: it adds to the queues, the counters, what lanes and bridge links have sent and what was sent, and nothing else
(Chapters 10 and 11). -/
namespace Sys2Proof.Machine
open Sys2Proof

/-- `l'` is the record `l` of a link with more transfers sent. -/
def LinkSent (l l' : DLink) : Prop :=
  l' = { l with toCrown := l'.toCrown, toRoot := l'.toRoot } ∧ DirSent l.toCrown l'.toCrown ∧ DirSent l.toRoot l'.toRoot

theorem LinkSent.refl (l : DLink) : LinkSent l l := ⟨rfl, .refl _, .refl _⟩
theorem LinkSent.trans {l l' l'' : DLink} (h : LinkSent l l') (g : LinkSent l' l'') : LinkSent l l'' := by
  obtain ⟨hl, hc, hr⟩ := h
  obtain ⟨gl, gc, gr⟩ := g
  exact ⟨by rw [gl, hl], hc.trans gc, hr.trans gr⟩
theorem LinkSent.width {l l' : DLink} (h : LinkSent l l') : l'.width = l.width := by rw [h.1]
theorem LinkSent.paused {l l' : DLink} (h : LinkSent l l') : l'.paused = l.paused := by rw [h.1]
theorem LinkSent.clockMissing {l l' : DLink} (h : LinkSent l l') : l'.clockMissing = l.clockMissing := by rw [h.1]
theorem LinkSent.dir {l l' : DLink} (h : LinkSent l l') (d : Nat) : DirSent (dirOf l d) (dirOf l' d) := by
  unfold dirOf
  split
  · exact h.2.1
  · exact h.2.2

/-- A direction that has sent more makes a link that has. -/
theorem linkSent_setDir {d : Nat} {l : DLink} {r : DLinkDir} (h : DirSent (dirOf l d) r) : LinkSent l (setDir l d r) := by
  unfold setDir
  unfold dirOf at h
  split <;> simp_all [LinkSent, DirSent.refl]

/-- `u` is `s` after links and routers have worked: packets queued, sent by lanes and bridge links, delivered or dropped, and bytes sent over vertical
links. -/
def Traffic (s u : State) : Prop :=
  u = { s with out := u.out, fabric := u.fabric, optics.lanes := u.optics.lanes, optics.links := u.optics.links, stacking.links := u.stacking.links
               mem.hbms := u.mem.hbms, remote.protectDrops := u.remote.protectDrops } ∧
    s.out <+: u.out ∧ (∀ j, lane u j = { lane s j with sentTill := (lane u j).sentTill }) ∧ ∀ j, LinkSent (dlink s j) (dlink u j)

theorem Traffic.trans {s u v : State} (h : Traffic s u) (g : Traffic u v) : Traffic s v := by
  obtain ⟨hu, ho, hl, hd⟩ := h
  obtain ⟨gu, go, gl, gd⟩ := g
  exact ⟨by rw [gu, hu], ho.trans go, fun j => by rw [gl, hl], fun j => (hd j).trans (gd j)⟩

/-- What a link sends is traffic. -/
theorem Pumped.traffic {k d : Nat} {s u : State} (h : Pumped k d s u) : Traffic s u := by
  obtain ⟨hu, hne, ⟨r, hr, hsent⟩, ho⟩ := h
  refine ⟨by rw [hu], ho, fun j => by rw [hu]; rfl, fun j => ?_⟩
  by_cases hj : j = k
  · rw [hj, hr]
    exact linkSent_setDir hsent
  · rw [hne j hj]
    exact .refl _

/-- `u` is `s` after packets have been routed: traffic that leaves the vertical links alone. -/
def Routed (s u : State) : Prop := Traffic s u ∧ ∀ j, j < 256 → dlink u j = dlink s j

theorem Routed.trans {s u v : State} (h : Routed s u) (g : Routed u v) : Routed s v :=
  ⟨h.1.trans g.1, fun j hj => (g.2 j hj).trans (h.2 j hj)⟩

/-- Neither a lane nor a die link sends. -/
theorem Routed.of_frame {s u : State}
    (h : u = { s with out := u.out, fabric := u.fabric, optics.links := u.optics.links, mem.hbms := u.mem.hbms
                      remote.protectDrops := u.remote.protectDrops })
    (ho : s.out <+: u.out) : Routed s u := by
  have hlane : ∀ j, lane u j = lane s j := fun j => by rw [h]; rfl
  have hdlink : ∀ j, dlink u j = dlink s j := fun j => by rw [h]; rfl
  exact ⟨⟨by rw [h], ho, fun j => by rw [hlane], fun j => by rw [hdlink]; exact .refl _⟩, fun j _ => hdlink j⟩
theorem Routed.of_fabric {s u : State} (h : u = { s with fabric := u.fabric }) : Routed s u :=
  .of_frame (by rw [h]) (by rw [h])
theorem Routed.refl (s : State) : Routed s s := .of_fabric rfl

theorem Routed.foldl {α : Type} {f : State → α → State} (h : ∀ s a, Routed s (f s a)) (l : List α) (s : State) : Routed s (l.foldl f s) :=
  List.foldlRecOn l f (Routed.refl s) fun u hu a _ => hu.trans (h u a)
theorem Routed.ite {c : Prop} [Decidable c] {s u v : State} (hu : Routed s u) (hv : Routed s v) : Routed s (if c then u else v) := by
  split
  · exact hu
  · exact hv

/-- What a bridge link sends is routed. -/
theorem Pumped.routed {k d : Nat} {s u : State} (hk : 256 ≤ k) (h : Pumped k d s u) : Routed s u :=
  ⟨h.traffic, fun j hj => h.2.1 j (by omega)⟩

/-! ### Queues and counters -/

theorem routed_pushQueue (key : Nat) (h : Queued) (s : State) : Routed s (pushQueue key h s) := .of_fabric rfl
theorem routed_setQueue (key : Nat) (q : List Queued) (s : State) : Routed s (setQueue key q s) := .of_fabric rfl
theorem routed_countPort (key : Nat) (f : PortCtr → PortCtr) (s : State) : Routed s (countPort key f s) := .of_fabric rfl
theorem routed_served (ctr v : Nat) (h : Queued) (s : State) : Routed s (served ctr v h s) := .of_fabric (served_frame ..)
theorem routed_emit (o : Out) (s : State) : Routed s (emit o s) := .of_frame rfl (List.prefix_append ..)
theorem routed_setLink (k : Nat) (r : Link) (s : State) : Routed s (setLink k r s) := .of_frame rfl (List.prefix_refl _)

/-! ### Links (Chapter 10) -/

theorem routed_frameOut (l : Nat) (f : Frame) (s : State) : Routed s (frameOut l f s) := by
  refine ⟨⟨rfl, List.prefix_append .., fun j => ?_, fun j => .refl _⟩, fun _ _ => rfl⟩
  have hset : lane (frameOut l f s) j = if j = l then { lane s l with sentTill := (lane s l).sentTill + 1056 } else lane s j := lane_setLane ..
  rw [hset]
  split
  · next hj => rw [hj]
  · rfl

theorem routed_sendFrame (k kind : Nat) (flits : List Byte) (vcs : List Nat) (s : State) : Routed s (sendFrame k kind flits vcs s) := by
  unfold sendFrame putFrame
  exact (routed_setLink ..).trans (Routed.trans (.ite (routed_setLink ..) (.refl _)) (routed_frameOut ..))

theorem routed_pumpPackets (k : Nat) : ∀ (n : Nat) (s : State), Routed s (pumpPackets k n s)
  | 0, s => .refl s
  | n + 1, s => by
    rw [pumpPackets]
    split
    · split
      · exact .refl s
      · exact ((routed_setQueue ..).trans (routed_served ..)).trans
          (((routed_sendFrame ..).trans (routed_countPort ..)).trans (routed_pumpPackets k n _))
    · exact .refl s

theorem routed_sendHeld (k : Nat) (h : Queued) (s : State) : Routed s (sendHeld k h s) := by
  unfold sendHeld pumpLink
  exact ((routed_pushQueue ..).trans (routed_countPort ..)).trans (.ite (routed_pumpPackets ..) (.refl _))

/-! ### Routers (Chapter 11) -/

theorem bridgeOf_ge {t port k : Nat} (h : bridgeOf t port = some k) : 256 ≤ k := by
  unfold bridgeOf at h
  grind

theorem routed_pushPort (t port : Nat) (vc : VC) (h : Queued) (s : State) : Routed s (pushPort t port vc h s) := by
  unfold pushPort
  dsimp only
  have hqueued : Routed s (countDepth (meshCtr t port) (vcCode vc) (fullness (pushQueue (queueKey t port (vcCode vc)) h s) t port (vcCode vc))
      (pushQueue (queueKey t port (vcCode vc)) h s)) := (routed_pushQueue ..).trans (routed_countPort ..)
  split
  · next k hk => exact hqueued.trans ((pumped_pumpBridge k _ 8 _).routed (bridgeOf_ge hk))
  · exact hqueued

theorem routed_hopToward (t u : Nat) (vc : VC) (descended : Bool) (h : Queued) (s : State) : Routed s (hopToward t u vc descended h s) := by
  unfold hopToward
  split
  · split
    · exact routed_pushPort ..
    · exact routed_pushQueue ..
  · split
    · exact .ite (routed_pushPort ..) (routed_pushQueue ..)
    · exact routed_pushQueue ..

theorem routed_dropCrc (t : Nat) (p : Packet) (s : State) : Routed s (dropCrc t p s) := .of_fabric rfl

theorem routed_acceptRelay (t : Nat) (p : Packet) (s : State) : Routed s (acceptRelay t p s) :=
  .ite (routed_dropCrc ..) (.ite (.of_fabric rfl) (routed_emit ..))

theorem routed_updHbm (m : Nat) (f : StackRec → StackRec) (s : State) : Routed s (updHbm m f s) := .of_frame rfl (List.prefix_refl _)
theorem routed_touchHbm (a n : Nat) (write : Bool) (s : State) : Routed s (touchHbm a n write s) :=
  .ite (.foldl (fun _ _ => routed_updHbm ..) ..) (.refl s)

theorem routed_acceptAt (t : Nat) (p : Packet) (s : State) : Routed s (acceptAt t p s) :=
  .ite (routed_dropCrc ..) (.ite (.of_fabric rfl) (.ite (.of_frame rfl (List.prefix_refl _))
    (Routed.trans (.ite (routed_touchHbm ..) (.refl s)) (routed_emit ..))))

theorem routed_arriveAt (t : Nat) (vc : VC) (h : Queued) (s : State) : Routed s (arriveAt t vc h s) :=
  .ite (routed_pushQueue ..) (routed_acceptAt ..)

theorem routed_detour (t : Nat) (vc : VC) (h : Queued) (us : List Nat) (s : State) : Routed s (detour t vc h us s) :=
  .foldl (fun _ _ => routed_hopToward ..) ..

theorem routed_routeMulticast (t port : Nat) (vc : VC) (h : Queued) (s : State) : Routed s (routeMulticast t port vc h s) := by
  have hbranches : ∀ s, Routed s ((multicastPorts t port (tget s.fabric.groups h.p.group.toNat 0)).foldl (fun u o =>
      if portUnfenced u t o then pushPort t o (escapeVc vc) h u
      else detour t vc h (behindPort t o (tget s.fabric.groups h.p.group.toNat 0)) u) s) :=
    fun s => .foldl (fun _ _ => .ite (routed_pushPort ..) (routed_detour ..)) ..
  exact .ite ((hbranches s).trans (routed_acceptAt ..)) (hbranches s)

theorem routed_crossTo (t l : Nat) (vc : VC) (down : Bool) (h : Queued) (s : State) : Routed s (crossTo t l vc down h s) :=
  .ite (routed_sendHeld ..) (routed_hopToward ..)

theorem routed_routeHeaded (x : Heading) (t : Nat) (vc : VC) (down : Bool) (h : Queued) (s : State) : Routed s (routeHeaded x t vc down h s) := by
  cases x with
  | tile u => exact .ite (routed_acceptAt ..) (routed_hopToward ..)
  | lane l => exact routed_crossTo ..

theorem routed_routePacket (t port : Nat) (vc : VC) (h : Queued) (s : State) : Routed s (routePacket t port vc h s) := by
  unfold routePacket
  dsimp only
  split
  · exact routed_routeHeaded ..
  · refine .ite (routed_routeMulticast ..) (.ite (.ite (routed_acceptRelay ..) (.ite (routed_arriveAt ..) (routed_hopToward ..)))
      (.ite ?_ (.ite (routed_countPort ..) ?_)))
    · split
      · exact .ite (routed_sendHeld ..) (routed_hopToward ..)
      · exact routed_countPort ..
    · split
      · exact .ite (routed_sendHeld ..) (routed_hopToward ..)
      · exact routed_countPort ..

theorem routed_retryParked (kind : Nat) (s : State) : Routed s (retryParked kind s) :=
  Routed.trans (.foldl (fun _ _ => routed_setQueue ..) ..) (.foldl (fun _ _ => .foldl (fun _ _ => routed_routePacket ..) ..) ..)

/-- Where no packet waits none tries again. -/
theorem retryParked_nothing {kind : Nat} {s : State} (h : parked s kind = []) : retryParked kind s = s := by
  rw [retryParked, h]
  rfl

end Sys2Proof.Machine
end

section
/-! Relink (R383 to R391): what a test finds of one segment and of a link, the resumption, the repair map and the fence. -/
namespace Sys2Proof.Machine
open Sys2Proof

/-! ### The resumption (R385) -/

/-- A link's record as it resumes: cut anew where a vertical link has narrowed, running, its counts begun anew. -/
def resumedLink (k : Nat) (narrowed : Bool) (l : DLink) : DLink :=
  let l := if narrowed && decide (k < 256) then { l with toCrown := recut l.width l.toCrown, toRoot := recut l.width l.toRoot } else l
  { l with paused := false, toCrown.again := 0, toCrown.recent := [], toRoot.again := 0, toRoot.recent := [] }

/-- The link runs again and has replayed what both directions hold. -/
def resumeStart (k : Nat) (narrowed : Bool) (s : State) : State :=
  let l := resumedLink k narrowed (dlink s k)
  resendHeld k 1 l.toRoot.held (resendHeld k 0 l.toCrown.held (setDlink k l s))

theorem resumeLink_eq (k : Nat) (narrowed : Bool) (s : State) :
    resumeLink k narrowed s = retryParked 6 (retryParked 5 (pumpDir k 1 (pumpDir k 0 (resumeStart k narrowed s)))) := rfl

@[simp] theorem resumedLink_width (k : Nat) (narrowed : Bool) (l : DLink) : (resumedLink k narrowed l).width = l.width := by
  unfold resumedLink
  dsimp only
  split <;> rfl
@[simp] theorem resumedLink_paused (k : Nat) (narrowed : Bool) (l : DLink) : (resumedLink k narrowed l).paused = false := rfl

/-- Both directions' held transfers go out again, each with the last number accepted of the other direction. -/
theorem resumeStart_out (k : Nat) (s : State) :
    let l := dlink s k
    (resumeStart k false s).out = s.out ++
      l.toCrown.held.map (fun h => Out.transfer k 0 (transferOver (activeSegs l.width) (some h) l.toRoot.rxLast l.toRoot.nak)) ++
      l.toRoot.held.map (fun h => Out.transfer k 1 (transferOver (activeSegs l.width) (some h) l.toCrown.rxLast l.toCrown.nak)) := by
  unfold resumeStart
  simp only [resendHeld_eq]
  have hl : ∀ os, dlink { setDlink k (resumedLink k false (dlink s k)) s with out := os } k = resumedLink k false (dlink s k) :=
    fun _ => dlink_setDlink_self ..
  simp only [transferOut, hl]
  rfl

theorem resumeStart_frame (k : Nat) (narrowed : Bool) (s : State) :
    let u := resumeStart k narrowed s
    u = { s with stacking.links := u.stacking.links, out := u.out } ∧ (∀ j, j ≠ k → dlink u j = dlink s j) ∧
      dlink u k = resumedLink k narrowed (dlink s k) := by
  unfold resumeStart
  simp only [resendHeld_eq]
  exact ⟨rfl, fun j hj => dlink_setDlink_ne hj _ _, dlink_setDlink_self ..⟩

/-- What follows the replay is traffic. -/
theorem traffic_resumeLink (k : Nat) (narrowed : Bool) (s : State) : Traffic (resumeStart k narrowed s) (resumeLink k narrowed s) :=
  ((pumped_pumpDir k 0 _).traffic.trans (pumped_pumpDir k 1 _).traffic).trans
    ((routed_retryParked 5 _).trans (routed_retryParked 6 _)).1

/-- A vertical link that has nothing to send sends nothing more. -/
theorem resumeLink_nothing {k : Nat} {s : State} (hk : k < 256)
    (hcw : (dlink s k).toCrown.waiting = []) (hcq : (dlink s k).toCrown.queued = [])
    (hrw : (dlink s k).toRoot.waiting = []) (hrq : (dlink s k).toRoot.queued = []) :
    resumeLink k false s = retryParked 6 (retryParked 5 (resumeStart k false s)) := by
  obtain ⟨-, -, hl⟩ := resumeStart_frame k false s
  have hcrown : pumpDir k 0 (resumeStart k false s) = resumeStart k false s := pumpDir_nothing hk (by rw [hl]; exact hcw) (by rw [hl]; exact hcq)
  have hroot : pumpDir k 1 (resumeStart k false s) = resumeStart k false s := pumpDir_nothing hk (by rw [hl]; exact hrw) (by rw [hl]; exact hrq)
  rw [resumeLink_eq, hcrown, hroot]

/-! ### A segment's test (Table 09-4) -/

theorem seg_setSeg (r : DLinkDir) (i j : Nat) (v : Seg) : seg (setSeg r i v) j = if j = i then v else seg r j := by
  unfold seg setSeg
  split
  · next h => rw [h]; exact tget_tset_self _ _ _ _
  · next h => exact tget_tset_ne _ _ _ _ _ h

/-- The groups of a segment with a failing wire, where all failures are in one. -/
theorem filter_group (a : Fin 17) : (List.range 17).filter (fun g => a.val == g) = [a.val] := by
  revert a
  decide

/-- A data wire is neither a clock wire nor a group's spare (Table 09-2). -/
theorem dataWire {n : Nat} (h : n < 32) : (n == 32) = false ∧ (n == 33) = false ∧ (n == 34) = false := by
  simp only [beq_eq_false_iff_ne]
  omega

section
variable {f g : WireFail} {v : Seg}

/-- One failing data wire takes the group's spare (R386, R387). -/
theorem relinkSeg_one (k d sg : Nat) (hf : f.real = true) (hw : f.wire.val < 32) (hv : v.failed = false) (hs : thas v.spares f.group = false) :
    relinkSeg k d sg v [f] = ({ v with spares := tput v.spares f.group f.wire },
      [{ link := k, dir := d, seg := sg, group := f.group.val, wire := f.wire.val, kind := 1, origin := 1 }]) := by
  obtain ⟨h32, h33, h34⟩ := dataWire hw
  simp [relinkSeg, hf, hw, hv, hs, h32, h33, h34, filter_group]

/-- Two failing data wires of one group fail the segment (R386). -/
theorem relinkSeg_two (k d sg : Nat) (hg : f.group = g.group) (hne : f.wire ≠ g.wire) (hf : f.real = true) (hg' : g.real = true)
    (hw : f.wire.val < 32) (hw' : g.wire.val < 32) (hv : v.failed = false) (hs : thas v.spares f.group = false) :
    relinkSeg k d sg v [f, g] = ({ v with failed := true },
      [{ link := k, dir := d, seg := sg, group := 0xFF, wire := 0xFF, kind := 3, origin := 1 }]) := by
  obtain ⟨h32, h33, h34⟩ := dataWire hw
  obtain ⟨g32, g33, g34⟩ := dataWire hw'
  have hvals : f.wire.val ≠ g.wire.val := fun h => hne (Fin.ext h)
  simp [relinkSeg, hf, hg', hw, hw', hv, hs, h32, h33, h34, g32, g33, g34, ← hg, filter_group, hvals]

end

/-! ### The failed segments and the width after a test (R386) -/

theorem mem_failedSegs {l : DLink} {i : Nat} : i ∈ failedSegs l ↔ i < 16 ∧ ∃ d : Fin 2, (seg (dirOf l d) i).failed = true := by
  rw [failedSegs, List.mem_filter, List.mem_range, Bool.or_eq_true]
  refine and_congr_right fun _ => ⟨fun h => ?_, fun ⟨d, h⟩ => ?_⟩
  · obtain h | h := h
    · exact ⟨0, h⟩
    · exact ⟨1, h⟩
  · obtain ⟨d, hd⟩ := d
    obtain rfl | rfl : d = 0 ∨ d = 1 := by omega
    · exact .inl h
    · exact .inr h

/-- A link with another record of one segment. -/
def setSegment (l : DLink) (d sg : Nat) (v : Seg) : DLink := setDir l d (setSeg (dirOf l d) sg v)

@[simp] theorem setSegment_width (l : DLink) (d sg : Nat) (v : Seg) : (setSegment l d sg v).width = l.width := setDir_width ..
theorem seg_setSegment_self (l : DLink) (d sg : Nat) (v : Seg) : seg (dirOf (setSegment l d sg v) d) sg = v := by
  rw [setSegment, dirOf_setDir_self, seg_setSeg, if_pos rfl]
theorem seg_setSegment (l : DLink) (d : Fin 2) (sg : Nat) (v : Seg) (e : Fin 2) (i : Nat) :
    seg (dirOf (setSegment l d sg v) e) i = if e = d ∧ i = sg then v else seg (dirOf l e) i := by
  by_cases he : e = d
  · rw [he, setSegment, dirOf_setDir_self, seg_setSeg]
    simp
  · rw [setSegment, dirOf_setDir_ne (by omega), if_neg (fun h => he h.1)]

/-- A repair leaves the failed segments. -/
theorem failedSegs_setSegment_same {l : DLink} {d : Fin 2} {sg : Nat} {v : Seg} (h : v.failed = (seg (dirOf l d) sg).failed) :
    failedSegs (setSegment l d sg v) = failedSegs l := by
  have hseg : ∀ (e : Fin 2) (i : Nat), (seg (dirOf (setSegment l d sg v) e) i).failed = (seg (dirOf l e) i).failed := fun e i => by
    rw [seg_setSegment]
    split
    · next he => rw [he.1, he.2, h]
    · rfl
  have hc := hseg 0
  have hr := hseg 1
  exact List.filter_congr fun i _ => congrArg₂ or (hc i) (hr i)

/-- A segment that fails joins those that have failed. -/
theorem mem_failedSegs_setSegment {l : DLink} {d : Fin 2} {sg : Nat} {v : Seg} (hv : v.failed = true) (hs : sg < 16) {i : Nat} :
    i ∈ failedSegs (setSegment l d sg v) ↔ i = sg ∨ i ∈ failedSegs l := by
  simp only [mem_failedSegs, seg_setSegment]
  constructor
  · rintro ⟨hi, e, he⟩
    split at he
    · next h => exact .inl h.2
    · exact .inr ⟨hi, e, he⟩
  · rintro (rfl | ⟨hi, e, he⟩)
    · exact ⟨hs, d, by simpa using hv⟩
    · refine ⟨hi, e, ?_⟩
      split
      · exact hv
      · exact he

theorem widthAfter_congr {l l' : DLink} (hw : l'.width = l.width) (hf : failedSegs l' = failedSegs l) : widthAfter l' = widthAfter l := by
  rw [widthAfter, widthAfter, hf, hw]

/-- A full-width link with failures in the lower half alone goes on with the upper one. -/
theorem widthAfter_upper {l : DLink} (hw : l.width = .full) (hlo : ∃ i ∈ failedSegs l, i < 8) (hhi : ∀ i ∈ failedSegs l, i < 8) :
    widthAfter l = .upper := by
  have lo : (failedSegs l).any (· < 8) = true := by simpa using hlo
  have hi : (failedSegs l).any (8 ≤ ·) = false := by simpa using hhi
  rw [widthAfter, lo, hi, hw]
  rfl
/-- A link on its lower half is fenced when that fails. -/
theorem widthAfter_fenced {l : DLink} (hw : l.width = .lower) (hlo : ∃ i ∈ failedSegs l, i < 8) : widthAfter l = .fenced := by
  have lo : (failedSegs l).any (· < 8) = true := by simpa using hlo
  rw [widthAfter, lo, hw]
  rfl

/-! ### The repair map (R387, R400) -/

/-- The map takes a repair while it has room. -/
theorem addRepair_room {s : State} (h : s.bark.repairs.length < 8191) (e : Repair) :
    addRepair e s = { s with bark := (addRepair e s).bark } ∧ (addRepair e s).bark.repairs = s.bark.repairs ++ [e] := by
  unfold addRepair
  extract_lets u w
  have hw : w = { s with bark := w.bark } := rfl
  have hr : w.bark.repairs = s.bark.repairs := rfl
  clear_value w
  rw [← hr] at h ⊢
  rw [if_pos h]
  exact ⟨by rw [hw], rfl⟩

/-! ### A test of one segment (R384, R386, R389) -/

theorem segFails_of_all {fails : List WireFail} {d sg : Nat} (h : ∀ f ∈ fails, f.dir.val = d ∧ f.seg.val = sg) : segFails fails d sg = fails :=
  List.filter_eq_self.mpr fun f hf => by simp [h f hf]
theorem segFails_elsewhere {fails : List WireFail} {d sg e i : Nat} (h : ∀ f ∈ fails, f.dir.val = d ∧ f.seg.val = sg) (hne : (e, i) ≠ (d, sg)) :
    segFails fails e i = [] := by
  refine List.filter_eq_nil_iff.mpr fun f hf hmatch => hne ?_
  obtain ⟨hd, hs⟩ := h f hf
  simp_all

/-- The segments of a link's two directions, in the order of a test. -/
def segmentPlaces : List (Nat × Nat) := (List.range 2).flatMap fun d => (List.range 16).map fun i => (d, i)

theorem filter_segmentPlaces (d : Fin 2) (sg : Fin 16) : segmentPlaces.filter (· == (d.val, sg.val)) = [(d.val, sg.val)] := by
  revert d sg
  decide

/-- Where all failures are in one segment, the test touches that one. -/
theorem touched_one {fails : List WireFail} {d : Fin 2} {sg : Fin 16} (hne : fails ≠ []) (h : ∀ f ∈ fails, f.dir.val = d ∧ f.seg.val = sg) :
    segmentPlaces.filter (fun e => !(segFails fails e.1 e.2).isEmpty) = [(d.val, sg.val)] := by
  refine (List.filter_congr fun e _ => ?_).trans (filter_segmentPlaces d sg)
  by_cases he : e = (d.val, sg.val)
  · rw [he, segFails_of_all h]
    simpa using hne
  · rw [segFails_elsewhere h he]
    simp [he]

/-- What a test does to link `k` once its segments' records and the repair map are written: a fence, or the width `w` with the record of a loss of
width. -/
def settleWidth (k d sg : Nat) (before w : Width) (det : List Byte) (s : State) : State :=
  if w == .fenced && before != .fenced then fenceLink k d false s
  else
    let s := setDlink k { dlink s k with width := w } s
    if w != before then
      addRepair { link := k, dir := d, seg := sg, group := 0xFF, wire := 0xFF, kind := if w == .upper then 5 else 4, origin := 1 }
        (raise errLaneDegraded (linkUnitKind k) (linkUnit k) k (linkTile k d) det s)
    else s

theorem applyTest_one {fails : List WireFail} {d : Fin 2} {sg : Fin 16} (hne : fails ≠ []) (h : ∀ f ∈ fails, f.dir.val = d ∧ f.seg.val = sg)
    {k : Nat} {s : State} {v : Seg} {rs : List Repair} (hv : relinkSeg k d sg (seg (dirOf (dlink s k) d) sg) fails = (v, rs)) :
    let l := setSegment (dlink s k) d sg v
    ∃ det, applyTest k fails [] false s =
      settleWidth k d sg (dlink s k).width (widthAfter l) det (rs.foldl (fun s e => addRepair e s) (setDlink k l s)) := by
  intro l'
  obtain ⟨u, hu⟩ : ∃ u, applyTest k fails [] false s = u := ⟨_, rfl⟩
  rw [hu]
  unfold applyTest at hu
  extract_lets l one touched at hu
  have ht : touched = [(d.val, sg.val)] := touched_one hne h
  have hone : touched.foldl one (l, []) = (l', rs) := by
    rw [ht]
    simp only [one, List.foldl_cons, List.foldl_nil, segFails_of_all h, l, hv, List.nil_append]
    rfl
  have hplace : ((touched.filter fun e => (seg (dirOf l' e.1) e.2).failed).head?.or touched.head?).getD (0, (failedSegs l').headD 0) =
      (d.val, sg.val) := by
    rw [ht]
    cases hf : (seg (dirOf l' d) sg).failed <;> simp [hf]
  rw [hone] at hu
  dsimp only at hu
  rw [hplace] at hu
  exact ⟨_, hu.symm⟩

/-- A test without failures of a link whose width stands leaves the link. -/
theorem applyTest_nothing {k : Nat} {s : State} (hw : widthAfter (dlink s k) = (dlink s k).width) (hf : (dlink s k).width ≠ .fenced) :
    let t := applyTest k [] [] false s
    t = { s with stacking.links := t.stacking.links } ∧ ∀ j, dlink t j = dlink s j := by
  intro t
  have hnone : ((List.range 2).flatMap fun d => (List.range 16).map fun i => (d, i)).filter (fun e => !(segFails [] e.1 e.2).isEmpty) = [] :=
    List.filter_eq_nil_iff.mpr fun _ _ => by simp [segFails]
  have ht : t = setDlink k (dlink s k) (setDlink k (dlink s k) s) := by
    simp only [t, applyTest, hnone, List.foldl_nil, hw]
    simp [hf]
  rw [ht]
  refine ⟨rfl, fun j => ?_⟩
  rw [dlink_setDlink, dlink_setDlink]
  split
  · next hj => rw [hj]
  · rfl

/-! ### The instructions -/

/-- What holds of a link and of the state after its resumption. -/
theorem resumeLink_keeps (k : Nat) (narrowed : Bool) (s : State) :
    let u := resumeLink k narrowed s
    (dlink u k).width = (dlink s k).width ∧ (dlink u k).paused = false ∧
      (∀ d i, seg (dirOf (dlink u k) d) i = seg (dirOf (dlink s k) d) i) ∧ u.faults = s.faults ∧ u.bark = s.bark := by
  dsimp only
  obtain ⟨hstart, -, hl⟩ := resumeStart_frame k narrowed s
  obtain ⟨hu, -, -, hsent⟩ := traffic_resumeLink k narrowed s
  have hk := hsent k
  rw [hl] at hk
  have hcut : ∀ (w : Width) (r : DLinkDir), (recut w r).segs = r.segs := fun w r => by
    unfold recut takeAck
    dsimp only
    split <;> rfl
  have hsegs : ∀ d, (dirOf (resumedLink k narrowed (dlink s k)) d).segs = (dirOf (dlink s k) d).segs := fun d => by
    unfold resumedLink dirOf
    dsimp only
    split <;> split <;> simp only [hcut]
  refine ⟨by rw [hk.width, resumedLink_width], by rw [hk.paused, resumedLink_paused], fun d i => ?_, by rw [hu, hstart], by rw [hu, hstart]⟩
  obtain ⟨more, hd⟩ := hk.dir d
  rw [seg, seg, hd, hsegs]

section
variable {s : State} {k : Fin 288}

theorem exec_relinkStart {d : Fin 2} (hl : hasLink s k = true) (hw : (dlink s k).width ≠ .fenced) (hp : (dlink s k).paused = false)
    (hc : 4 ≤ (dirOf (dlink s k) d).again ∨ 64 ≤ recentReplays s (dirOf (dlink s k) d)) :
    exec (.relinkStart k d) s = .next (setDlink k { dlink s k with paused := true, relinks := satInc 255 (dlink s k).relinks } s) := by
  rw [exec, execRelinkStart, if_pos (by simp [hl, hw, hp, hc])]
theorem exec_relinkStart_few {d : Fin 2} (ha : (dirOf (dlink s k) d).again < 4) (hr : recentReplays s (dirOf (dlink s k) d) < 64) :
    exec (.relinkStart k d) s = .next s := by
  rw [exec, execRelinkStart, if_neg (by simp; omega)]

theorem exec_relinkComplete_running (hp : (dlink s k).paused = false) (fails : List WireFail) (codes : List (Fin 2 × Fin 16 × Nat)) :
    exec (.relinkComplete k fails codes) s = .next s := by
  rw [exec, execRelinkComplete, if_neg (by simp [hp])]
theorem exec_relinkComplete_resumes (hp : (dlink s k).paused = true) {fails : List WireFail} {t : State} (ht : applyTest k fails [] false s = t)
    (hw : (dlink t k).width ≠ .fenced) :
    exec (.relinkComplete k fails []) s = .next (resumeLink k ((dlink t k).width != (dlink s k).width) t) := by
  have h : applyTest k fails ([].map fun c : Fin 2 × Fin 16 × Nat => (c.1.val, c.2.1.val, c.2.2)) false s = t := ht
  rw [exec, execRelinkComplete, if_pos hp, h]
  dsimp only
  rw [if_neg (by simpa using hw)]
theorem exec_relinkComplete_fences (hp : (dlink s k).paused = true) {fails : List WireFail} {t : State} (ht : applyTest k fails [] false s = t)
    (hw : (dlink t k).width = .fenced) : exec (.relinkComplete k fails []) s = .next t := by
  have h : applyTest k fails ([].map fun c : Fin 2 × Fin 16 × Nat => (c.1.val, c.2.1.val, c.2.2)) false s = t := ht
  rw [exec, execRelinkComplete, if_pos hp, h]
  dsimp only
  rw [if_pos (by simpa using hw)]

end

theorem parked_congr {s u : State} (h : u.fabric = s.fabric) (kind : Nat) : parked u kind = parked s kind := by
  rw [parked, parked, h]

/-- A resumption at the link's width: what is replayed, what goes on after it, and that nothing does where nothing waits. -/
theorem resumeLink_same (k : Nat) (s : State) :
    let l := dlink s k
    let u := resumeLink k false s
    (dlink u k).toCrown.again = 0 ∧ (dlink u k).toRoot.again = 0 ∧
      ∃ m0 m1 rest, (dlink u k).toCrown.held = l.toCrown.held ++ m0 ∧ (dlink u k).toRoot.held = l.toRoot.held ++ m1 ∧
        u.out = s.out ++ l.toCrown.held.map (fun h => Out.transfer k 0 (transferOver (activeSegs l.width) (some h) l.toRoot.rxLast l.toRoot.nak)) ++
          l.toRoot.held.map (fun h => Out.transfer k 1 (transferOver (activeSegs l.width) (some h) l.toCrown.rxLast l.toCrown.nak)) ++ rest ∧
        (k < 256 → l.toCrown.waiting = [] → l.toCrown.queued = [] → l.toRoot.waiting = [] → l.toRoot.queued = [] →
          (m0 = [] ∧ m1 = []) ∧ (parked s 5 = [] → parked s 6 = [] →
            rest = [] ∧ u = { s with stacking.links := u.stacking.links, out := u.out })) := by
  dsimp only
  have hout := resumeStart_out k s
  obtain ⟨hframe, -, hl⟩ := resumeStart_frame k false s
  obtain ⟨-, ⟨rest, hrest⟩, -, hsent⟩ := traffic_resumeLink k false s
  have hk := hsent k
  rw [hl] at hk
  obtain ⟨-, ⟨m0, hcrown⟩, ⟨m1, hroot⟩⟩ := hk
  have hheld0 : (dlink (resumeLink k false s) k).toCrown.held = (dlink s k).toCrown.held ++ m0 := congrArg DLinkDir.held hcrown
  have hheld1 : (dlink (resumeLink k false s) k).toRoot.held = (dlink s k).toRoot.held ++ m1 := congrArg DLinkDir.held hroot
  refine ⟨congrArg DLinkDir.again hcrown, congrArg DLinkDir.again hroot, m0, m1, rest, hheld0, hheld1, ?_, fun hk256 hcw hcq hrw hrq => ?_⟩
  · rw [← hrest, hout]
  · have hu := resumeLink_nothing hk256 hcw hcq hrw hrq
    have hlink : dlink (resumeLink k false s) k = resumedLink k false (dlink s k) := by
      rw [hu, ((routed_retryParked 5 _).trans (routed_retryParked 6 _)).2 k hk256, hl]
    refine ⟨⟨?_, ?_⟩, fun h5 h6 => ?_⟩
    · rw [hlink] at hheld0
      exact List.self_eq_append_right.mp hheld0
    · rw [hlink] at hheld1
      exact List.self_eq_append_right.mp hheld1
    · have hparked := parked_congr (s := s) (u := resumeStart k false s) (by rw [hframe])
      rw [retryParked_nothing (kind := 5) ((hparked 5).trans h5), retryParked_nothing ((hparked 6).trans h6)] at hu
      rw [hu] at hrest ⊢
      exact ⟨List.self_eq_append_right.mp hrest.symm, hframe⟩

/-! ### A repair, a loss of width and a fence -/

theorem settleWidth_same {k d sg : Nat} {w : Width} (hw : w ≠ .fenced) (det : List Byte) (s : State) :
    settleWidth k d sg w w det s = setDlink k { dlink s k with width := w } s := by
  simp [settleWidth, hw]

section
variable {s : State} {k : Fin 288}

/-- A test that finds one repair to enter, for which the map has room. -/
theorem applyTest_repair {fails : List WireFail} {d : Fin 2} {sg : Fin 16} (hne : fails ≠ []) (h : ∀ f ∈ fails, f.dir.val = d ∧ f.seg.val = sg)
    {v : Seg} {e : Repair} (hv : relinkSeg k d sg (seg (dirOf (dlink s k) d) sg) fails = (v, [e])) (hroom : s.bark.repairs.length < 8191) :
    let l := setSegment (dlink s k) d sg v
    ∃ det tested, applyTest k fails [] false s = settleWidth k d sg (dlink s k).width (widthAfter l) det tested ∧
      tested = { s with stacking.links := tested.stacking.links, bark := tested.bark } ∧ dlink tested k = l ∧
      tested.bark.repairs = s.bark.repairs ++ [e] := by
  intro l
  obtain ⟨det, ht⟩ := applyTest_one hne h hv
  obtain ⟨hframe, hrepairs⟩ := addRepair_room (s := setDlink k l s) hroom e
  refine ⟨det, addRepair e (setDlink k l s), ht, ?_, ?_, hrepairs⟩
  · rw [hframe]
    rfl
  · rw [hframe]
    exact dlink_setDlink_self ..

/-- One failing data wire: the link's new record, the map's new entry, and no fault record (R386, R387). -/
theorem applyTest_spare {f : WireFail} (hw : widthAfter (dlink s k) = (dlink s k).width) (hne : (dlink s k).width ≠ .fenced)
    (hf : f.real = true) (hwire : f.wire.val < 32) (hv : (seg (dirOf (dlink s k) f.dir) f.seg).failed = false)
    (hs : thas (seg (dirOf (dlink s k) f.dir) f.seg).spares f.group = false) (hroom : s.bark.repairs.length < 8191) :
    let t := applyTest k [f] [] false s
    (dlink t k).width = (dlink s k).width ∧ tget (seg (dirOf (dlink t k) f.dir) f.seg).spares f.group 99 = f.wire.val ∧ t.faults = s.faults ∧
      t.bark.repairs = s.bark.repairs ++
        [{ link := k.val, dir := f.dir.val, seg := f.seg.val, group := f.group.val, wire := f.wire.val, kind := 1, origin := 1 }] := by
  intro t
  obtain ⟨v, hvdef⟩ : ∃ v : Seg, v = { seg (dirOf (dlink s k) f.dir) f.seg with
    spares := tput (seg (dirOf (dlink s k) f.dir) f.seg).spares f.group f.wire } := ⟨_, rfl⟩
  obtain ⟨det, tested, ht, hframe, hl, hrepairs⟩ := applyTest_repair (s := s) (List.cons_ne_nil f []) (by simp)
    (hvdef ▸ relinkSeg_one k.val f.dir f.seg hf hwire hv hs) hroom
  have hwidth : widthAfter (setSegment (dlink s k) f.dir f.seg v) = (dlink s k).width :=
    (widthAfter_congr (setSegment_width ..) (failedSegs_setSegment_same (by rw [hvdef]))).trans hw
  have ht' : t = setDlink k { dlink tested k with width := (dlink s k).width } tested := by
    rw [hwidth, settleWidth_same hne] at ht
    exact ht
  have hd : dlink t k = { setSegment (dlink s k) f.dir f.seg v with width := (dlink s k).width } := by rw [ht', dlink_setDlink_self, hl]
  have hseg : seg (dirOf (dlink t k) f.dir) f.seg = v := by
    rw [hd]
    exact seg_setSegment_self ..
  refine ⟨by rw [hd], ?_, ?_, by rw [ht']; exact hrepairs⟩
  · rw [hseg, hvdef]
    exact tget_tput_self ..
  · rw [ht', hframe]
    rfl

/-- Two failing data wires of one group fail their segment, which enters the map. -/
theorem applyTest_fails {f g : WireFail} (hd : f.dir = g.dir) (hsg : f.seg = g.seg) (hgr : f.group = g.group) (hne : f.wire ≠ g.wire)
    (hf : f.real = true) (hg : g.real = true) (hwf : f.wire.val < 32) (hwg : g.wire.val < 32) (hnew : f.seg.val ∉ failedSegs (dlink s k))
    (hs : thas (seg (dirOf (dlink s k) f.dir) f.seg).spares f.group = false) (hroom : s.bark.repairs.length < 8191) :
    ∃ det tested v e, applyTest k [f, g] [] false s =
        settleWidth k f.dir f.seg (dlink s k).width (widthAfter (setSegment (dlink s k) f.dir f.seg v)) det tested ∧ v.failed = true ∧
      tested = { s with stacking.links := tested.stacking.links, bark := tested.bark } ∧ dlink tested k = setSegment (dlink s k) f.dir f.seg v ∧
      tested.bark.repairs = s.bark.repairs ++ [e] := by
  have hv : (seg (dirOf (dlink s k) f.dir) f.seg).failed = false := by
    by_contra hfailed
    exact hnew (mem_failedSegs.mpr ⟨f.seg.isLt, f.dir, by simpa using hfailed⟩)
  obtain ⟨det, tested, ht, hrest⟩ := applyTest_repair (s := s) (List.cons_ne_nil f [g]) (by simp [hd, hsg])
    (relinkSeg_two k.val f.dir f.seg hgr hne hf hg hwf hwg hv hs) hroom
  exact ⟨det, tested, _, _, ht, rfl, hrest⟩

/-- A full-width link that loses its lower half goes on with the upper one; a record and the map tell of it (R386, R414). -/
theorem settleWidth_upper {d sg : Nat} (det : List Byte) (hroom : s.bark.repairs.length < 8191) :
    let t := settleWidth k d sg .full .upper det s
    (dlink t k).width = .upper ∧ Recorded s t errLaneDegraded ∧ t.bark.repairs.length = s.bark.repairs.length + 1 := by
  intro t
  obtain ⟨w, hw⟩ : ∃ w, w = raise errLaneDegraded (linkUnitKind k) (linkUnit k) k (linkTile k d) det
    (setDlink k { dlink s k with width := .upper } s) := ⟨_, rfl⟩
  obtain ⟨hframe, hrepairs⟩ := addRepair_room (s := w) (by rw [hw]; exact hroom)
    { link := k, dir := d, seg := sg, group := 0xFF, wire := 0xFF, kind := 5, origin := 1 }
  have ht : t = addRepair { link := k, dir := d, seg := sg, group := 0xFF, wire := 0xFF, kind := 5, origin := 1 } w := by rw [hw]; rfl
  rw [ht]
  refine ⟨?_, ?_, ?_⟩
  · have hl : dlink w k = { dlink s k with width := .upper } := by
      rw [hw]
      exact dlink_setDlink_self ..
    rw [hframe]
    exact congrArg DLink.width hl
  · rw [hframe, hw]
    exact ⟨_, rfl, rfl⟩
  · rw [hrepairs, hw]
    exact List.length_append

end

/-! ### The fence of a vertical link (R389, R391) -/

theorem tellAccepted_frame (k d : Nat) (s : State) : tellAccepted k d s = { s with out := (tellAccepted k d s).out } := by
  unfold tellAccepted
  dsimp only
  split <;> rfl

/-- A fault whose action is a rollback halts the job's slots and sends the notice; the device state and the tiles' gates stay (R649). -/
theorem stopA2_frame (code : Nat) (s : State) :
    let t := stopA2 code s
    t = { s with out := t.out, tiles := t.tiles, recov := t.recov, remote.copies := t.remote.copies } ∧
      ∀ j, (tile t j).crownGated = (tile s j).crownGated := by
  intro t
  by_cases h : inJob s = true
  · have ht : t = sendNotice (mkNotice s 2 code 0xFFFF false) s := if_pos h
    rw [ht]
    refine ⟨rfl, fun j => ?_⟩
    have hgate := congrArg TileRec.crownGated (tile_haltJob s j)
    exact hgate
  · have ht : t = s := if_neg h
    rw [ht]
    exact ⟨rfl, fun _ => rfl⟩

/-- A vertical link's record when it is fenced. -/
def fencedLink (l : DLink) : DLink :=
  { l with width := .fenced, paused := false, toCrown := emptied l.toCrown, toRoot := emptied l.toRoot }

theorem fenceLink_vertical {k : Nat} (hk : k < 256) (d : Nat) {s : State}
    (hpass : ((passedSegs (dlink s k) 0).isEmpty && (passedSegs (dlink s k) 1).isEmpty) = false) :
    ∃ det, fenceLink k d false s = stopA2 errDieLinkFenced (fenceTile k
      (addRepair { link := k, dir := d, seg := 0, group := 0xFF, wire := 0xFF, kind := 6, origin := 1 }
        (raise errDieLinkFenced (linkUnitKind k) (linkUnit k) k (linkTile k d) det
          (setDlink k (fencedLink (dlink s k)) (tellAccepted k 1 (tellAccepted k 0 s)))))) := by
  obtain ⟨u, hu⟩ : ∃ u, fenceLink k d false s = u := ⟨_, rfl⟩
  rw [hu]
  unfold fenceLink reinject at hu
  simp only [hpass, hk, if_true, Bool.false_eq_true, if_false] at hu
  exact ⟨_, hu.symm⟩

/-- A vertical link with a segment that passes is fenced with its tile; the job rolls back, and the device state stays. -/
theorem fenceLink_facts {k : Nat} (hk : k < 256) (d : Nat) {s : State}
    (hpass : ((passedSegs (dlink s k) 0).isEmpty && (passedSegs (dlink s k) 1).isEmpty) = false) (hroom : s.bark.repairs.length < 8191) :
    let t := fenceLink k d false s
    (dlink t k).width = .fenced ∧ Recorded s t errDieLinkFenced ∧ t.stacking.fenced.getLsbD k = true ∧ (tile t k).crownGated = true ∧
      t.dev.st = s.dev.st := by
  intro t
  obtain ⟨det, ht⟩ := fenceLink_vertical hk d hpass
  obtain ⟨told, htold⟩ : ∃ u, u = tellAccepted k 1 (tellAccepted k 0 s) := ⟨_, rfl⟩
  have hframe : told = { s with out := told.out } := by rw [htold, tellAccepted_frame, tellAccepted_frame]
  rw [← htold] at ht
  generalize hn : raise errDieLinkFenced (linkUnitKind k) (linkUnit k) k (linkTile k d) det (setDlink k (fencedLink (dlink s k)) told) = noted at ht
  obtain ⟨hmap, -⟩ := addRepair_room (s := noted) (by rw [← hn, hframe]; exact hroom)
    { link := k, dir := d, seg := 0, group := 0xFF, wire := 0xFF, kind := 6, origin := 1 }
  generalize addRepair _ noted = mapped at ht hmap
  obtain ⟨hstop, hgate⟩ := stopA2_frame errDieLinkFenced (fenceTile k mapped)
  have ht' : t = stopA2 errDieLinkFenced (fenceTile k mapped) := ht
  rw [ht']
  refine ⟨?_, ?_, ?_, ?_, ?_⟩
  · have hl : dlink noted k = fencedLink (dlink s k) := by
      rw [← hn]
      exact dlink_setDlink_self ..
    rw [hstop, hmap]
    exact congrArg DLink.width hl
  · rw [hstop, hmap, ← hn, hframe]
    exact ⟨_, rfl, rfl⟩
  · have hbit : (mapped.stacking.fenced ||| BitVec.ofNat 256 (2 ^ k)).getLsbD k = true := by
      rw [BitVec.getLsbD_or, BitVec.getLsbD_ofNat]
      simp [hk]
    rw [hstop]
    exact hbit
  · rw [hgate]
    exact congrArg TileRec.crownGated (tile_updTile_self ..)
  · rw [hstop, hmap, ← hn, hframe]
    rfl

/-- A segment that has not failed passes in both directions. -/
theorem passedSegs_nonempty {l : DLink} {i : Nat} (hi : i < 16) (h : i ∉ failedSegs l) :
    ((passedSegs l 0).isEmpty && (passedSegs l 1).isEmpty) = false := by
  have hpass : (seg (dirOf l (0 : Fin 2)) i).failed = false := by
    by_contra hfailed
    exact h (mem_failedSegs.mpr ⟨hi, 0, by simpa using hfailed⟩)
  have hmem : i ∈ passedSegs l 0 := List.mem_filter.mpr ⟨List.mem_range.mpr hi, by simpa using hpass⟩
  have hne : (passedSegs l 0).isEmpty = false := by simpa using List.ne_nil_of_mem hmem
  rw [hne, Bool.false_and]

/-! ### Two failing wires of a group (R386, R389) -/

section
variable {s : State} {k : Fin 288} {f g : WireFail}

/-- On a full-width link without failed segments, in the lower half: the upper half goes on, and a record and the map tell of it. -/
theorem applyTest_upper (hw : (dlink s k).width = .full) (hnone : failedSegs (dlink s k) = []) (hd : f.dir = g.dir) (hsg : f.seg = g.seg)
    (hgr : f.group = g.group) (hne : f.wire ≠ g.wire) (hf : f.real = true) (hg : g.real = true) (hwf : f.wire.val < 32) (hwg : g.wire.val < 32)
    (hlow : f.seg.val < 8) (hs : thas (seg (dirOf (dlink s k) f.dir) f.seg).spares f.group = false) (hroom : s.bark.repairs.length + 2 < 8191) :
    let t := applyTest k [f, g] [] false s
    (dlink t k).width = .upper ∧ Recorded s t errLaneDegraded ∧ t.bark.repairs.length = s.bark.repairs.length + 2 := by
  obtain ⟨det, tested, v, e, ht, hv, hframe, -, hrepairs⟩ := applyTest_fails hd hsg hgr hne hf hg hwf hwg (by simp [hnone]) hs (by omega)
  have hmem : ∀ i, i ∈ failedSegs (setSegment (dlink s k) f.dir f.seg v) ↔ i = f.seg.val := fun i => by
    rw [mem_failedSegs_setSegment hv f.seg.isLt, hnone]
    simp
  have hwidth : widthAfter (setSegment (dlink s k) f.dir f.seg v) = .upper :=
    widthAfter_upper ((setSegment_width ..).trans hw) ⟨f.seg, (hmem _).mpr rfl, hlow⟩ fun i hi => by rw [(hmem i).mp hi]; exact hlow
  have hlen : tested.bark.repairs.length = s.bark.repairs.length + 1 := by rw [hrepairs]; exact List.length_append
  obtain ⟨hupper, ⟨x, hx, hcode⟩, hmap⟩ := settleWidth_upper (k := k) (d := f.dir) (sg := f.seg) (s := tested) det (by omega)
  rw [hwidth, hw] at ht
  rw [ht]
  exact ⟨hupper, ⟨x, by rw [hx, hframe], hcode⟩, by rw [hmap, hlen]⟩

/-- On a vertical link that runs on its lower half, in that half: the link and its tile are fenced. -/
theorem applyTest_fenced (hk : k.val < 256) (hw : (dlink s k).width = .lower) (hlower : ∀ i, i < 8 → i ∉ failedSegs (dlink s k))
    (hd : f.dir = g.dir) (hsg : f.seg = g.seg) (hgr : f.group = g.group) (hne : f.wire ≠ g.wire) (hf : f.real = true) (hg : g.real = true)
    (hwf : f.wire.val < 32) (hwg : g.wire.val < 32) (hlow : f.seg.val < 8)
    (hs : thas (seg (dirOf (dlink s k) f.dir) f.seg).spares f.group = false) (hroom : s.bark.repairs.length + 2 < 8191) :
    let t := applyTest k [f, g] [] false s
    (dlink t k).width = .fenced ∧ Recorded s t errDieLinkFenced ∧ t.stacking.fenced.getLsbD k = true ∧ (tile t k).crownGated = true ∧
      t.dev.st = s.dev.st := by
  obtain ⟨det, tested, v, e, ht, hv, hframe, hl, hrepairs⟩ := applyTest_fails hd hsg hgr hne hf hg hwf hwg (hlower _ hlow) hs (by omega)
  have hmem : ∀ i, i ∈ failedSegs (setSegment (dlink s k) f.dir f.seg v) ↔ i = f.seg.val ∨ i ∈ failedSegs (dlink s k) := fun i =>
    mem_failedSegs_setSegment hv f.seg.isLt
  have hwidth : widthAfter (setSegment (dlink s k) f.dir f.seg v) = .fenced :=
    widthAfter_fenced ((setSegment_width ..).trans hw) ⟨f.seg, (hmem _).mpr (.inl rfl), hlow⟩
  have hlen : tested.bark.repairs.length = s.bark.repairs.length + 1 := by rw [hrepairs]; exact List.length_append
  have hpass : ((passedSegs (dlink tested k) 0).isEmpty && (passedSegs (dlink tested k) 1).isEmpty) = false := by
    refine passedSegs_nonempty (i := if f.seg.val = 0 then 1 else 0) (by split <;> omega) ?_
    rw [hl, hmem, not_or]
    exact ⟨by split <;> omega, hlower _ (by split <;> omega)⟩
  obtain ⟨hfenced, ⟨x, hx, hcode⟩, hmap, hgate, hst⟩ := fenceLink_facts hk f.dir hpass (by omega)
  rw [hwidth, hw] at ht
  have ht' : applyTest k [f, g] [] false s = fenceLink k f.dir false tested := ht
  rw [ht']
  exact ⟨hfenced, ⟨x, by rw [hx, hframe], hcode⟩, hmap, hgate, by rw [hst, hframe]⟩

end

end Sys2Proof.Machine
end

section
open Sys2Proof Sys2Proof.Machine

/-- Settles O28, clause by clause: the pause, a test that finds nothing, a spare taken, a half lost and a fence. -/
theorem relinkRepairsOrFences : Obligations.RelinkRepairsOrFences := by
  unfold Obligations.RelinkRepairsOrFences
  refine fun s k => ⟨fun d hl hw hp hc => ?_, fun d ha hr => exec_relinkStart_few ha hr,
    fun fails codes hp => exec_relinkComplete_running hp fails codes, fun hp hf hw => ?_, fun f hp hw hwidth hf hwire hv hs hroom => ?_,
    fun f g hp hw hnone hd hsg hgr hne hf hg hwf hwg hlow hs hroom => ?_,
    fun f g hk hp hw hlower hd hsg hgr hne hf hg hwf hwg hlow hs hroom => ?_⟩
  · exact ⟨_, exec_relinkStart hl hw hp hc, dlink_setDlink_self .., rfl, fun j hj => dlink_setDlink_ne hj _ _⟩
  · obtain ⟨hframe, hlinks⟩ := applyTest_nothing hw hf
    have hexec := exec_relinkComplete_resumes hp (fails := []) rfl (by rw [hlinks]; exact hf)
    generalize applyTest k [] [] false s = t at hframe hlinks hexec
    have hl := hlinks k
    have hsame : ((dlink t k).width != (dlink s k).width) = false := by rw [hl]; exact bne_self_eq_false _
    rw [hsame] at hexec
    obtain ⟨hwidth, hrun, -⟩ := resumeLink_keeps k false t
    obtain ⟨hcrown, hroot, m0, m1, rest, hheld0, hheld1, hout, hnothing⟩ := resumeLink_same k t
    refine ⟨_, hexec, by rw [hwidth, hl], hrun, hcrown, hroot, m0, m1, rest, by rw [hheld0, hl], by rw [hheld1, hl], ?_, ?_, ?_⟩
    · rw [hout, hl, hframe]
    · rw [hl] at hnothing
      exact fun hk hcw hcq hrw hrq => (hnothing hk hcw hcq hrw hrq).1
    · rw [hl] at hnothing
      have hparked := parked_congr (s := s) (u := t) (by rw [hframe])
      intro hk hcw hcq hrw hrq h5 h6
      obtain ⟨hrest, hu⟩ := (hnothing hk hcw hcq hrw hrq).2 ((hparked 5).trans h5) ((hparked 6).trans h6)
      exact ⟨hrest, by rw [hu, hframe]⟩
  · obtain ⟨hw', hspare, hfaults, hrepairs⟩ := applyTest_spare hwidth hw hf hwire hv hs hroom
    have hexec := exec_relinkComplete_resumes hp (fails := [f]) rfl (by rw [hw']; exact hw)
    generalize applyTest k [f] [] false s = t at *
    obtain ⟨huw, hrun, hseg, huf, hub⟩ := resumeLink_keeps k ((dlink t k).width != (dlink s k).width) t
    exact ⟨_, hexec, by rw [huw, hw'], hrun, by rw [hseg, hspare], fun _ _ => by rw [huf, hfaults], by rw [hub, hrepairs]⟩
  · obtain ⟨hw', ⟨x, hx, hcode⟩, hmap⟩ := applyTest_upper hw hnone hd hsg hgr hne hf hg hwf hwg hlow hs hroom
    have hexec := exec_relinkComplete_resumes hp (fails := [f, g]) rfl (by rw [hw']; decide)
    generalize applyTest k [f, g] [] false s = t at *
    obtain ⟨huw, hrun, -, huf, hub⟩ := resumeLink_keeps k ((dlink t k).width != (dlink s k).width) t
    exact ⟨_, hexec, by rw [huw, hw'], hrun, fun _ _ => ⟨x, huf.trans hx, hcode⟩, by rw [hub, hmap]⟩
  · have ht := applyTest_fenced hk hw hlower hd hsg hgr hne hf hg hwf hwg hlow hs hroom
    exact ⟨_, exec_relinkComplete_fences hp rfl ht.1, ht⟩

end

section
/-! Missing clocks and lost quadrants (R406 to R413): what the loss of a quadrant changes of lanes, links, records and the job. -/
namespace Sys2Proof.Machine
open Sys2Proof

/-! ### The lanes of a lost quadrant (R409, R412) -/

/-- A lane's record when its quadrant is lost. -/
def lostLane (r : LaneRec) : LaneRec := { unlocked r with st := .disabled, retraining := false }

/-- Lane `i` of quadrant `q` goes out of use. -/
def loseLane (q : Nat) (s : State) (i : Nat) : State :=
  let l := 36 * q + i
  let s' := updLane l lostLane s
  if laneUp s l then
    let s' := portDown l 4 (sendReach l false (tellTray s s' (linkOf s l)))
    if s'.mtc.parent = some l then switchParent s' else s'
  else if (lane s l).retraining then portDown l 2 s'
  else s'

theorem loseLanes_eq (q : Nat) (s : State) : loseLanes q s = (List.range 36).foldl (loseLane q) s := by
  unfold loseLanes loseLane lostLane
  rfl

/-- Between `s` and `u` fault records have been written of lanes that went down, and of no other fault: the latest 256 are kept (R865). -/
def DownsRecorded (s u : State) : Prop :=
  ∃ more : List FaultRec, u.faults.take 256 = (more ++ s.faults).take 256 ∧ ∀ g ∈ more, g.code.toNat = errLaneDown

theorem DownsRecorded.of_eq {s u : State} (h : u.faults = s.faults) : DownsRecorded s u := ⟨[], by rw [h]; rfl, by simp⟩
theorem DownsRecorded.trans {s u v : State} (h : DownsRecorded s u) (g : DownsRecorded u v) : DownsRecorded s v := by
  obtain ⟨xs, hu, hxs⟩ := h
  obtain ⟨ys, hv, hys⟩ := g
  refine ⟨ys ++ xs, ?_, fun x hx => (List.mem_append.mp hx).elim (hys x) (hxs x)⟩
  have hcut : ∀ zs : List FaultRec, (ys ++ zs).take 256 = (ys ++ zs.take 256).take 256 := fun zs => by
    rw [List.take_append, List.take_append, List.take_take]
    congr 2
    omega
  rw [hv, hcut, hu, ← hcut, List.append_assoc]

/-- `u` is `s` but for what going down changes beside a lane's own record: what is told of it, its link, the fault record and the time parent. -/
def LaneTold (s u : State) : Prop :=
  u = { s with out := u.out, faults := u.faults, regs := u.regs, dev.startFault := u.dev.startFault, hauler.conns := u.hauler.conns
               optics.links := u.optics.links, fabric.queues := u.fabric.queues, mtc.parent := u.mtc.parent, mtc.locked := u.mtc.locked } ∧
    DownsRecorded s u

theorem LaneTold.of_frame {s u : State}
    (h : u = { s with out := u.out, optics.links := u.optics.links, fabric.queues := u.fabric.queues, mtc.parent := u.mtc.parent
                      mtc.locked := u.mtc.locked }) : LaneTold s u := ⟨by rw [h], .of_eq (by rw [h])⟩
theorem LaneTold.refl (s : State) : LaneTold s s := .of_frame rfl
theorem LaneTold.trans {s u v : State} (h : LaneTold s u) (g : LaneTold u v) : LaneTold s v := ⟨by rw [g.1, h.1], h.2.trans g.2⟩

theorem laneTold_tellTray (s₀ s : State) (k : Nat) : LaneTold s (tellTray s₀ s k) := by
  unfold tellTray
  split <;> exact .of_frame rfl
theorem laneTold_sendReach (l : Nat) (restoral : Bool) (s : State) : LaneTold s (sendReach l restoral s) := by
  unfold sendReach
  split <;> exact .of_frame rfl
theorem laneTold_switchParent (s : State) : LaneTold s (switchParent s) := by
  unfold switchParent
  split
  · exact .refl s
  · split <;> exact .of_frame rfl
theorem laneTold_raiseDown (l cause before frames : Nat) (s : State) : LaneTold s (raiseDown l cause before frames s) := by
  obtain ⟨f, hf, hcode⟩ : ∃ f : FaultRec, (raiseDown l cause before frames s).faults = (f :: s.faults).take 256 ∧ f.code.toNat = errLaneDown :=
    ⟨_, rfl, rfl⟩
  refine ⟨rfl, [f], ?_, fun g hg => by rw [List.mem_singleton.mp hg, hcode]⟩
  rw [hf, List.take_take]
  rfl
theorem laneTold_portDown (l before : Nat) (s : State) : LaneTold s (portDown l before s) := by
  unfold portDown
  dsimp only
  split
  · have hdrop : LaneTold s (dropLink (linkOf s l) s).2 := .of_frame rfl
    exact hdrop.trans (laneTold_raiseDown ..)
  · exact .refl s

theorem laneTold_loseLane (q i : Nat) (s : State) : LaneTold (updLane (36 * q + i) lostLane s) (loseLane q s i) := by
  unfold loseLane
  dsimp only
  split
  · generalize updLane (36 * q + i) lostLane s = lost
    have hdown := ((laneTold_tellTray s lost (linkOf s (36 * q + i))).trans (laneTold_sendReach (36 * q + i) false _)).trans
      (laneTold_portDown (36 * q + i) 4 _)
    split
    · exact hdown.trans (laneTold_switchParent _)
    · exact hdown
  · split
    · exact laneTold_portDown ..
    · exact .refl _

/-- The lane's own record is that of a lost lane; the others stay. -/
theorem lane_loseLane (q i : Nat) (s : State) (j : Nat) :
    lane (loseLane q s i) j = if j = 36 * q + i then lostLane (lane s j) else lane s j := by
  have htold : lane (loseLane q s i) j = lane (updLane (36 * q + i) lostLane s) j := by
    rw [(laneTold_loseLane q i s).1]
    rfl
  rw [htold, updLane, lane_setLane]
  split
  · next h => rw [h]
  · rfl

/-- `u` is `s` after lanes of quadrant `q` have gone out of use. -/
def LanesLost (q : Nat) (s u : State) : Prop :=
  u = { s with out := u.out, faults := u.faults, regs := u.regs, dev.startFault := u.dev.startFault, hauler.conns := u.hauler.conns
               optics.lanes := u.optics.lanes, optics.links := u.optics.links, fabric.queues := u.fabric.queues, mtc.parent := u.mtc.parent
               mtc.locked := u.mtc.locked } ∧
    DownsRecorded s u ∧ ∀ j, j / 36 ≠ q → lane u j = lane s j

theorem LanesLost.trans {q : Nat} {s u v : State} (h : LanesLost q s u) (g : LanesLost q u v) : LanesLost q s v := by
  obtain ⟨hu, hdowns, hlane⟩ := h
  obtain ⟨gu, gdowns, glane⟩ := g
  exact ⟨by rw [gu, hu], hdowns.trans gdowns, fun j hj => (glane j hj).trans (hlane j hj)⟩

theorem lanesLost_loseLane {q i : Nat} (hi : i < 36) (s : State) : LanesLost q s (loseLane q s i) := by
  obtain ⟨hframe, hdowns⟩ := laneTold_loseLane q i s
  refine ⟨by rw [hframe]; rfl, (DownsRecorded.of_eq rfl).trans hdowns, fun j hj => ?_⟩
  rw [lane_loseLane, if_neg (by omega)]

theorem lanesLost_loseLanes (q : Nat) (s : State) : LanesLost q s (loseLanes q s) := by
  rw [loseLanes_eq]
  exact List.foldlRecOn _ _ (motive := LanesLost q s) ⟨rfl, .of_eq rfl, fun _ _ => rfl⟩ fun u hu i hi =>
    hu.trans (lanesLost_loseLane (List.mem_range.mp hi) u)

theorem loseLanes_disabled (q : Nat) (s : State) {i : Nat} (hi : i < 36) : (lane (loseLanes q s) (36 * q + i)).st = .disabled := by
  rw [loseLanes_eq]
  refine foldl_makes (P := fun i u => (lane u (36 * q + i)).st = .disabled) (fun u i => ?_) (fun u i j h => ?_) _ s i (List.mem_range.mpr hi)
  · rw [lane_loseLane, if_pos rfl]
    rfl
  · rw [lane_loseLane]
    split
    · rfl
    · exact h

/-! ### The die links (R389, R406) -/

/-- Each die link keeps its width and its missing clocks, and one that runs goes on running. -/
def LinksKept (s u : State) : Prop :=
  ∀ k, (dlink u k).width = (dlink s k).width ∧ (dlink u k).clockMissing = (dlink s k).clockMissing ∧
    ((dlink s k).paused = false → (dlink u k).paused = false)

theorem LinksKept.of_eq {s u : State} (h : u.stacking.links = s.stacking.links) : LinksKept s u := fun k => by
  have hk : dlink u k = dlink s k := by rw [dlink, dlink, h]
  rw [hk]
  exact ⟨rfl, rfl, id⟩
theorem LinksKept.refl (s : State) : LinksKept s s := .of_eq rfl
theorem LinksKept.trans {s u v : State} (h : LinksKept s u) (g : LinksKept u v) : LinksKept s v := fun k => by
  obtain ⟨hw, hc, hp⟩ := h k
  obtain ⟨gw, gc, gp⟩ := g k
  exact ⟨gw.trans hw, gc.trans hc, gp ∘ hp⟩
theorem LinksKept.ite {c : Prop} [Decidable c] {s u v : State} (hu : LinksKept s u) (hv : LinksKept s v) : LinksKept s (if c then u else v) := by
  split
  · exact hu
  · exact hv
theorem Traffic.linksKept {s u : State} (h : Traffic s u) : LinksKept s u := fun k => by
  have hk := h.2.2.2 k
  exact ⟨hk.width, hk.clockMissing, fun hp => hk.paused.trans hp⟩

/-! ### The loss of a quadrant (R407, R409 to R413) -/

/-- Quadrant `q` is lost: the Warden notes it, and its seams' links are relinked no more. -/
def markLost (q : Nat) (s : State) : State :=
  { s with
    dev.qLost := s.dev.qLost ||| BitVec.ofNat 4 (2 ^ q)
    stacking.links := tmap s.stacking.links fun k l => if (quadLinks q).contains k then { l with paused := false } else l }

theorem linksKept_markLost (q : Nat) (s : State) : LinksKept s (markLost q s) := fun k => by
  have hk : dlink (markLost q s) k = if (quadLinks q).contains k then { dlink s k with paused := false } else dlink s k :=
    tget_tmap (f := fun k (l : DLink) => if (quadLinks q).contains k then { l with paused := false } else l) (d := {})
      (fun k => by split <;> rfl) s.stacking.links k
  rw [hk]
  split
  · exact ⟨rfl, rfl, fun _ => rfl⟩
  · exact ⟨rfl, rfl, id⟩

/-- What the loss of a quadrant does to the job, by the state `st` in which it finds the module (R410, R413). -/
def endJob (st : DevState) (s : State) : State :=
  if isFA s then s
  else if st == .planning || st == .running || st == .filling then stopA3 errQuadrantLost s
  else if st == .loading then enter .ready { s with job := {} }
  else s

/-- What the routers and lanes of quadrant `q` hold is lost, and the record and the ledger's event of the loss are written. -/
def recordLoss (q first : Nat) (det : List Byte) (s : State) : State :=
  let u := raise errQuadrantLost uDevice 0 q first det (losePackets q s)
  ledgerEvent (4 + q) 1 0 0 (newest u) u

theorem recordLoss_facts (q first : Nat) (det : List Byte) (s : State) :
    let u := recordLoss q first det s
    u = { s with out := u.out, faults := u.faults, regs := u.regs, dev.startFault := u.dev.startFault, hauler.conns := u.hauler.conns
                 bark.queued := u.bark.queued, bark.eventSeq := u.bark.eventSeq, optics.links := u.optics.links, fabric.queues := u.fabric.queues } ∧
      ∃ f : FaultRec, u.faults = (f :: s.faults).take 256 ∧ f.code.toNat = errQuadrantLost := ⟨rfl, _, rfl, rfl⟩

/-- The loss of quadrant `q` before the job is looked at. -/
def quadrantGone (q first : Nat) (det : List Byte) (s : State) : State :=
  retryParked 6 (retryParked 5 (recordLoss q first det (loseLanes q (markLost q s))))

theorem loseQuadrant_eq {q : Nat} {s : State} (h : ¬ (q = 0 ∨ 3 < q ∨ s.dev.qLost.getLsbD q = true)) (first cause : Nat) :
    ∃ det, loseQuadrant q first cause s = endJob s.dev.st (quadrantGone q first det s) := by
  obtain ⟨u, hu⟩ : ∃ u, loseQuadrant q first cause s = u := ⟨_, rfl⟩
  rw [hu]
  rw [loseQuadrant, if_neg h] at hu
  unfold endJob quadrantGone recordLoss markLost
  exact ⟨_, hu.symm⟩

/-- The newest of the latest 256 records, and what it leaves of the others. -/
theorem take_cons_take (f : FaultRec) (xs : List FaultRec) : (f :: xs.take 256).take 256 = (f :: xs).take 256 := by
  rw [List.take_succ_cons, List.take_succ_cons, List.take_take]
  rfl

theorem quadrantGone_facts (q first : Nat) (det : List Byte) (s : State) :
    let u := quadrantGone q first det s
    u.dev = { s.dev with qLost := s.dev.qLost ||| BitVec.ofNat 4 (2 ^ q), startFault := u.dev.startFault } ∧ u.job = s.job ∧ isFA u = isFA s ∧
      (∃ (f : FaultRec) (more : List FaultRec), u.faults = (f :: (more ++ s.faults)).take 256 ∧ f.code.toNat = errQuadrantLost ∧
        ∀ g ∈ more, g.code.toNat = errLaneDown) ∧
      (∀ i, i < 36 → (lane u (36 * q + i)).st = .disabled) ∧
      (∀ j, j / 36 ≠ q → lane u j = { lane s j with sentTill := (lane u j).sentTill }) ∧ LinksKept s u := by
  intro u
  obtain ⟨hlost, ⟨more, hmore, hcodes⟩, hlanes⟩ := lanesLost_loseLanes q (markLost q s)
  have hdisabled := fun i => loseLanes_disabled q (markLost q s) (i := i)
  have hmark := linksKept_markLost q s
  obtain ⟨hnoted, f, hfaults, hcode⟩ := recordLoss_facts q first det (loseLanes q (markLost q s))
  have htraffic : Traffic (recordLoss q first det (loseLanes q (markLost q s))) u := ((routed_retryParked 5 _).trans (routed_retryParked 6 _)).1
  clear_value u
  generalize recordLoss q first det (loseLanes q (markLost q s)) = noted at *
  generalize loseLanes q (markLost q s) = lost at *
  obtain ⟨hu, -, hsent, -⟩ := id htraffic
  have hlane : ∀ j, lane noted j = lane lost j := fun j => by rw [hnoted]; rfl
  have hlinks : LinksKept (markLost q s) noted := .of_eq (by rw [hnoted, hlost])
  refine ⟨?_, ?_, ?_, ⟨f, more, ?_, hcode, hcodes⟩, fun i hi => ?_, fun j hj => ?_, (hmark.trans hlinks).trans htraffic.linksKept⟩
  · rw [hu, hnoted, hlost]
    rfl
  · rw [hu, hnoted, hlost]
    rfl
  · rw [isFA, hu, hnoted, hlost]
    rfl
  · have hsame : u.faults = noted.faults := by rw [hu]
    rw [hsame, hfaults, ← take_cons_take, hmore, take_cons_take]
    rfl
  · rw [hsent, hlane]
    exact hdisabled i hi
  · rw [hsent, hlane, hlanes j hj]
    rfl

/-! ### The job after a loss (R410, R413) -/

/-- A stopped job leaves of the module what no failure touches. -/
theorem stopA3_dev (code : Nat) (s : State) : (stopA3 code s).dev = { s.dev with prev := (stopA3 code s).dev.prev, st := (stopA3 code s).dev.st } := by
  rw [stopA3, declareFault]
  split <;> rfl

theorem endJob_frame (st : DevState) (s : State) :
    let u := endJob st s
    u = { s with out := u.out, hauler.conns := u.hauler.conns, dev.prev := u.dev.prev, dev.st := u.dev.st, tiles := u.tiles, recov := u.recov
                 remote.copies := u.remote.copies, job := u.job } := by
  unfold endJob
  split
  · rfl
  · split
    · have hframe := stopA3_frame errQuadrantLost s
      have hdev := stopA3_dev errQuadrantLost s
      generalize stopA3 errQuadrantLost s = t at hframe hdev
      dsimp only at hframe
      rw [hframe, hdev]
    · split <;> rfl

theorem endJob_relay {s : State} (h : isFA s = true) (st : DevState) : endJob st s = s := if_pos h
/-- On a compute module PLANNING, RUNNING and FILLING end in FAULTED; the copies that stay serve the modules kept here (R410, R649). -/
theorem endJob_faulted {s : State} (h : isFA s = false) (hst : s.dev.st = .planning ∨ s.dev.st = .running ∨ s.dev.st = .filling) :
    (endJob s.dev.st s).dev.st = .faulted ∧ ∀ j ∈ (endJob s.dev.st s).remote.copies, j.req.keeper = true := by
  have hstop : (s.dev.st == .planning || s.dev.st == .running || s.dev.st == .filling) = true := by
    obtain hst | hst | hst := hst <;> rw [hst] <;> rfl
  have hin : inJob s = true := by
    obtain hst | hst | hst := hst <;> rw [inJob, hst] <;> rfl
  rw [endJob, if_neg (by simp [h]), if_pos hstop]
  refine ⟨stopA3_st hin _, fun j hj => ?_⟩
  rw [stopA3, declareFault, if_pos hin] at hj
  have hkept := (List.mem_filter.mp hj).2
  exact (Bool.and_eq_true_iff.mp hkept).1
theorem endJob_loading {s : State} (h : isFA s = false) : (endJob .loading s).dev.st = .ready ∧ (endJob .loading s).job = {} := by
  have hload : endJob .loading s = enter .ready { s with job := {} } := if_neg (by simp [h])
  rw [hload]
  exact ⟨rfl, rfl⟩
theorem endJob_other {st : DevState} (hp : st ≠ .planning) (hr : st ≠ .running) (hf : st ≠ .filling) (hl : st ≠ .loading) (s : State) :
    endJob st s = s := by
  simp [endJob, hp, hr, hf, hl]

/-! ### Seams and packets that take other links (R389, R392 to R394) -/

theorem linksKept_loseQuadrant (q first cause : Nat) (s : State) : LinksKept s (loseQuadrant q first cause s) := by
  by_cases h : q = 0 ∨ 3 < q ∨ s.dev.qLost.getLsbD q = true
  · rw [loseQuadrant, if_pos h]
    exact .refl s
  · obtain ⟨det, hu⟩ := loseQuadrant_eq h first cause
    obtain ⟨-, -, -, -, -, -, hlinks⟩ := quadrantGone_facts q first det s
    rw [hu]
    exact hlinks.trans (.of_eq (by rw [endJob_frame]))

theorem linksKept_checkSeam (m : Nat) (s : State) : LinksKept s (checkSeam m s) := by
  unfold checkSeam
  split
  · refine LinksKept.trans (.of_eq ?_) (List.foldlRecOn _ _ (.refl _) fun u hu q _ => hu.trans (linksKept_loseQuadrant q 0xFFFF 4 u))
    rfl
  · exact .refl s

theorem routed_reinject (k d : Nat) (loss : Bool) (s : State) : Routed s (reinject k d loss s) := by
  unfold reinject
  split
  · exact .refl s
  · exact Routed.trans (.foldl (fun _ _ => routed_setQueue ..) ..)
      (.foldl (fun _ _ => .ite (routed_detour ..) (routed_routePacket ..)) ..)

/-! ### The instructions -/

/-- A bridge link's record when the end at quadrant bit `bit` (1 lower, 2 higher) reports its clock missing (R406). -/
def clockLost (now bit : Nat) (l : DLink) : DLink :=
  let l := if l.clockMissing.getLsbD (bit - 1) then l else if bit = 1 then { l with clockAtLow := now } else { l with clockAtHigh := now }
  { l with width := .fenced, paused := false, clockMissing := l.clockMissing ||| BitVec.ofNat 2 bit, toCrown.held := [], toRoot.held := [] }

theorem clockLost_clockMissing (now bit : Nat) (l : DLink) : (clockLost now bit l).clockMissing = l.clockMissing ||| BitVec.ofNat 2 bit := by
  unfold clockLost
  dsimp only
  split
  · rfl
  · split <;> rfl

/-- What follows a missing clock once its link's record is written: a quadrant whose links have all reported is lost, and what the link had not
delivered takes other links (R389, R392, R407). -/
def afterClockLost (id q : Nat) (s : State) : State :=
  reinject id 1 false (reinject id 0 false (checkSeam (seamOf id) (if clocksGone s q then loseQuadrant q (firstReport s q) 1 s else s)))

theorem exec_missingClock (s : State) (k : Fin 32) (q : Quad) :
    let id := 256 + k.val
    let lo := (seamQuads (seamOf id)).1
    exec (.missingClock k q) s = .next (if s.pins.v48On ∧ (q.val = lo ∨ q.val = (seamQuads (seamOf id)).2) then
      afterClockLost id q (setDlink id (clockLost s.time (if q.val = lo then 1 else 2) (dlink s id)) s) else s) := rfl

theorem linksKept_afterClockLost (id q : Nat) (s : State) : LinksKept s (afterClockLost id q s) := by
  have hlost : LinksKept s (if clocksGone s q then loseQuadrant q (firstReport s q) 1 s else s) :=
    .ite (linksKept_loseQuadrant q (firstReport s q) 1 s) (.refl s)
  exact (hlost.trans (linksKept_checkSeam (seamOf id) _)).trans ((routed_reinject id 0 false _).trans (routed_reinject id 1 false _)).1.linksKept

theorem exec_quadrantResetSeen {s : State} (hst : s.dev.st ≠ .lookout) (hon : s.pins.v48On = true) (q : Quad) (pg : Bool) :
    exec (.quadrantResetSeen q pg) s = .next (loseQuadrant q 0xFFFF (if pg then 3 else 2) s) := by
  rw [exec, execQuadrantResetSeen, if_neg (by simp [hst, hon])]
theorem exec_quadrantResetSeen_nothing {s : State} {q : Quad}
    (h : q.val = 0 ∨ s.dev.st = .lookout ∨ s.pins.v48On = false ∨ s.dev.qLost.getLsbD q = true) (pg : Bool) :
    exec (.quadrantResetSeen q pg) s = .next s := by
  rw [exec, execQuadrantResetSeen]
  split
  · rfl
  · next hup =>
    have hlost : q.val = 0 ∨ 3 < q.val ∨ s.dev.qLost.getLsbD q.val = true := by
      simp only [Bool.not_eq_true'] at hup
      tauto
    rw [loseQuadrant, if_pos hlost]

end Sys2Proof.Machine
end

section
open Sys2Proof Sys2Proof.Machine

/-- Settles O29, clause by clause: a missing clock, a quadrant seen lost by what its loss does and how it ends the job, and what changes nothing. -/
theorem missingClocksAndLostQuadrants : Obligations.MissingClocksAndLostQuadrants := by
  unfold Obligations.MissingClocksAndLostQuadrants
  refine fun s => ⟨fun k q hon hq => ?_, fun k q hlo hhi => ?_, fun q pg hq hst hon hlost => ?_,
    fun q pg h => exec_quadrantResetSeen_nothing h pg⟩
  · have hexec := exec_missingClock s k q
    dsimp only at hexec
    rw [if_pos ⟨hon, hq⟩] at hexec
    have hkept := linksKept_afterClockLost (256 + k.val) q (setDlink (256 + k.val)
      (clockLost s.time (if q.val = (seamQuads (seamOf (256 + k.val))).1 then 1 else 2) (dlink s (256 + k.val))) s)
    obtain ⟨hwidth, hclock, hrun⟩ := hkept (256 + k.val)
    rw [dlink_setDlink_self] at hwidth hclock hrun
    refine ⟨_, hexec, hwidth, hrun rfl, ?_, fun j hj => ?_⟩
    · rw [hclock, clockLost_clockMissing]
      split <;> rfl
    · rw [(hkept j).1, dlink_setDlink_ne (by omega)]
  · exact (exec_missingClock s k q).trans (congrArg _ (if_neg fun h => h.2.elim hlo hhi))
  · have hnew : ¬ (q.val = 0 ∨ 3 < q.val ∨ s.dev.qLost.getLsbD q.val = true) := by
      simp only [hlost, Bool.false_eq_true, or_false]
      omega
    obtain ⟨det, hu⟩ := loseQuadrant_eq hnew 0xFFFF (if pg then 3 else 2)
    refine ⟨_, exec_quadrantResetSeen hst hon q pg, ?_⟩
    rw [hu]
    obtain ⟨hdev, hjob, hfa, hfaults, hdisabled, hlanes, hlinks⟩ := quadrantGone_facts q 0xFFFF det s
    generalize quadrantGone q 0xFFFF det s = w at *
    have hwst : w.dev.st = s.dev.st := by rw [hdev]
    have hframe := endJob_frame s.dev.st w
    dsimp only at hframe
    have hlane : ∀ j, lane (endJob s.dev.st w) j = lane w j := fun j => by rw [hframe]; rfl
    have hdlink : ∀ k, dlink (endJob s.dev.st w) k = dlink w k := fun k => by rw [hframe]; rfl
    refine ⟨?_, ?_, fun i hi => ?_, fun j hj => ?_, fun k => ?_, fun h => ?_, fun h hjobst => ?_, fun h hload => ?_, fun hp hr hf hl => ?_⟩
    · rw [hframe, hdev]
    · have hsame : (endJob s.dev.st w).faults = w.faults := by rw [hframe]
      rwa [hsame]
    · rw [hlane]
      exact hdisabled i hi
    · rw [hlane]
      exact hlanes j hj
    · rw [hdlink]
      exact (hlinks k).1
    · rw [endJob_relay (hfa.trans h), hwst]
    · rw [← hwst] at hjobst ⊢
      exact endJob_faulted (hfa.trans h) hjobst
    · rw [hload]
      exact endJob_loading (hfa.trans h)
    · rw [endJob_other hp hr hf hl]
      exact ⟨hwst, hjob⟩

end

section
/-! Frames that leave by the UP lanes of a link, and what a link's sending leaves (R418, R436, R437, R440 to R445, R454). -/
namespace Sys2Proof.Machine
open Sys2Proof

/-! ### Lanes -/

theorem lane_congr {s u : State} (h : u.optics.lanes = s.optics.lanes) (j : Nat) : lane u j = lane s j := by rw [lane, lane, h]

/-- Between `s` and `u` things have been sent, and of the lanes nothing but the time till which they send has changed (R418, R436). -/
def LanesKept (s u : State) : Prop := s.out <+: u.out ∧ ∀ j, lane u j = { lane s j with sentTill := (lane u j).sentTill }

theorem LanesKept.of_lanes {s u : State} (ho : s.out <+: u.out) (hl : u.optics.lanes = s.optics.lanes) : LanesKept s u :=
  ⟨ho, fun j => by rw [lane_congr hl]⟩
theorem LanesKept.refl (s : State) : LanesKept s s := .of_lanes (List.prefix_refl _) rfl
theorem LanesKept.trans {s u v : State} (h : LanesKept s u) (g : LanesKept u v) : LanesKept s v :=
  ⟨h.1.trans g.1, fun j => by rw [g.2, h.2]⟩
theorem LanesKept.ite {c : Prop} [Decidable c] {s u v : State} (hu : LanesKept s u) (hv : LanesKept s v) : LanesKept s (if c then u else v) := by
  split
  · exact hu
  · exact hv
theorem LanesKept.laneUp {s u : State} (h : LanesKept s u) (j : Nat) : laneUp u j = laneUp s j := by
  rw [Machine.laneUp, Machine.laneUp, h.2]
theorem LanesKept.linkUp {s u : State} (h : LanesKept s u) (k : Nat) : linkUp u k = linkUp s k := by
  have hup : Machine.laneUp u = Machine.laneUp s := funext h.laneUp
  rw [Machine.linkUp, Machine.linkUp, hup]
theorem LanesKept.carries {s u : State} (h : LanesKept s u) (j : Nat) : carries u j = carries s j := by
  rw [Machine.carries, Machine.carries, h.laneUp, h.2]
theorem Traffic.lanesKept {s u : State} (h : Traffic s u) : LanesKept s u := ⟨h.2.1, h.2.2.1⟩

/-- A lane is one of its link's (R453). -/
theorem mem_lanesOf_linkOf (s : State) (l : Lane) : l.val ∈ lanesOf (linkOf s l) := by
  have hl := l.isLt
  unfold linkOf
  split
  · next h =>
    obtain ⟨-, htray⟩ := Bool.and_eq_true_iff.mp h
    have h32 : 32 ≤ l.val % 36 := of_decide_eq_true htray
    rw [lanesOf, if_pos (by simp [isTrayLink])]
    exact List.mem_map.mpr ⟨l.val % 36 - 32, List.mem_range.mpr (by omega), by omega⟩
  · rw [lanesOf, if_neg (by simp [isTrayLink])]
    exact List.mem_singleton_self _
theorem linkUp_of_laneUp {s : State} {l : Lane} (h : laneUp s l = true) : linkUp s (linkOf s l) = true :=
  List.any_eq_true.mpr ⟨l.val, mem_lanesOf_linkOf s l, h⟩

/-- A tree lane is a link of its own. -/
theorem linkOf_tree {s : State} {l : Nat} (h : isTrayLink (linkOf s l) = false) : linkOf s l = l := by
  unfold linkOf at h ⊢
  split at h
  · simp [isTrayLink] at h
  · next hl => rw [if_neg hl]
theorem lanesOf_tree {k : Nat} (h : isTrayLink k = false) : lanesOf k = [k] := if_neg (by simp [h])
theorem linkUp_tree {s : State} {k : Nat} (h : isTrayLink k = false) : linkUp s k = laneUp s k := by
  rw [linkUp, lanesOf_tree h, List.any_cons, List.any_nil, Bool.or_false]

/-- Of the lanes only UP ones of link `k` have sent. -/
def LanesSend (k : Nat) (s u : State) : Prop :=
  LanesKept s u ∧ ∀ j, (j ∈ lanesOf k → laneUp s j = false) → lane u j = lane s j

theorem LanesSend.of_lanes {s u : State} (k : Nat) (ho : s.out <+: u.out) (hl : u.optics.lanes = s.optics.lanes) : LanesSend k s u :=
  ⟨.of_lanes ho hl, fun j _ => lane_congr hl j⟩
theorem LanesSend.trans {k : Nat} {s u v : State} (h : LanesSend k s u) (g : LanesSend k u v) : LanesSend k s v :=
  ⟨h.1.trans g.1, fun j hj => (g.2 j fun hm => (h.1.laneUp j).trans (hj hm)).trans (h.2 j hj)⟩

theorem lane_frameOut (l : Nat) (f : Frame) (s : State) (j : Nat) :
    lane (frameOut l f s) j = if j = l then { lane s l with sentTill := (lane s l).sentTill + 1056 } else lane s j := lane_setLane ..

theorem lanesSend_frameOut {k l : Nat} {s : State} (hl : l ∈ lanesOf k) (hup : laneUp s l = true) (f : Frame) :
    LanesSend k s (frameOut l f s) := by
  refine ⟨⟨List.prefix_append .., fun j => ?_⟩, fun j hj => ?_⟩
  · rw [lane_frameOut]
    split
    · next h => rw [h]
    · rfl
  · rw [lane_frameOut, if_neg]
    rintro rfl
    exact absurd ((hj hl).symm.trans hup) (by decide)

/-- A link with an UP lane sends its next frame by one. -/
theorem nextLane_mem {s : State} {k : Nat} (h : linkUp s k = true) : nextLane s k ∈ lanesOf k ∧ laneUp s (nextLane s k) = true := by
  obtain ⟨l, hl, hup⟩ := List.any_eq_true.mp h
  have hne : (lanesOf k).filter (laneUp s) ≠ [] := List.ne_nil_of_mem (List.mem_filter.mpr ⟨hl, hup⟩)
  have hhead : ((lanesOf k).filter (laneUp s)).headD k ∈ (lanesOf k).filter (laneUp s) := by
    obtain ⟨x, xs, hx⟩ := List.exists_cons_of_ne_nil hne
    rw [hx]
    exact List.mem_cons_self
  apply List.mem_filter.mp
  unfold nextLane
  dsimp only
  split
  · exact hhead
  · next i _ =>
    cases hfind : ((lanesOf k).filter (laneUp s)).find? (i < ·) with
    | none => exact hhead
    | some x => exact List.mem_of_find?_eq_some hfind

/-! ### Frames -/

@[simp] theorem link_setLink_self (k : Nat) (r : Link) (s : State) : link (setLink k r s) k = r := by
  rw [link_setLink, if_pos rfl]
theorem link_setLink_ne {k j : Nat} (h : j ≠ k) (r : Link) (s : State) : link (setLink k r s) j = link s j := by
  rw [link_setLink, if_neg h]
@[simp] theorem lane_setLane_self (l : Nat) (r : LaneRec) (s : State) : lane (setLane l r s) l = r := by
  rw [lane_setLane, if_pos rfl]
theorem lane_setLane_ne {l j : Nat} (h : j ≠ l) (r : LaneRec) (s : State) : lane (setLane l r s) j = lane s j := by
  rw [lane_setLane, if_neg h]
@[simp] theorem lane_updLane_self (l : Nat) (f : LaneRec → LaneRec) (s : State) : lane (updLane l f s) l = f (lane s l) := lane_setLane_self ..
theorem lane_updLane_ne {l j : Nat} (h : j ≠ l) (f : LaneRec → LaneRec) (s : State) : lane (updLane l f s) j = lane s j := lane_setLane_ne h ..

/-- `u` is `s` after link `k` has sent frames: its UP lanes have sent them, and the link knows by which lane (R454, R457). -/
def FramesOut (k : Nat) (s u : State) : Prop :=
  u = { s with out := u.out, optics.lanes := u.optics.lanes, optics.links := u.optics.links } ∧ LanesSend k s u ∧
    (∀ j, j ≠ k → link u j = link s j) ∧ link u k = { link s k with lastLane := (link u k).lastLane, sentOn := (link u k).sentOn }

theorem FramesOut.refl (k : Nat) (s : State) : FramesOut k s s := ⟨rfl, .of_lanes k (List.prefix_refl _) rfl, fun _ _ => rfl, rfl⟩
theorem FramesOut.trans {k : Nat} {s u v : State} (h : FramesOut k s u) (g : FramesOut k u v) : FramesOut k s v := by
  obtain ⟨hu, hlanes, hlinks, hlink⟩ := h
  obtain ⟨gu, glanes, glinks, glink⟩ := g
  exact ⟨by rw [gu, hu], hlanes.trans glanes, fun j hj => (glinks j hj).trans (hlinks j hj), by rw [glink, hlink]⟩
theorem FramesOut.linkUp {k : Nat} {s u : State} (h : FramesOut k s u) (j : Nat) : linkUp u j = linkUp s j := h.2.1.1.linkUp j

theorem framesOut_frameOut {k l : Nat} {s : State} (hl : l ∈ lanesOf k) (hup : laneUp s l = true) (f : Frame) : FramesOut k s (frameOut l f s) :=
  ⟨rfl, lanesSend_frameOut hl hup f, fun _ _ => rfl, rfl⟩

theorem framesOut_putFrame {k : Nat} {s : State} (h : linkUp s k = true) (f : Frame) : FramesOut k s (putFrame k f s) := by
  obtain ⟨hmem, hup⟩ := nextLane_mem h
  have hnoted : FramesOut k s (if isTrayLink k then
      setLink k { link s k with lastLane := some (nextLane s k), sentOn := tput (link s k).sentOn (ctlField f 47 36) (nextLane s k) } s else s) := by
    split
    · exact ⟨rfl, .of_lanes k (List.prefix_refl _) rfl, fun j hj => link_setLink_ne hj .., by rw [link_setLink_self]⟩
    · exact .refl k s
  exact hnoted.trans (framesOut_frameOut hmem ((hnoted.2.1.1.laneUp _).trans hup) f)

theorem framesOut_putFrames {k : Nat} (fs : List Frame) {s : State} (h : linkUp s k = true) : FramesOut k s (putFrames k fs s) :=
  List.foldlRecOn fs _ (.refl k s) fun _ hu f _ => hu.trans (framesOut_putFrame ((hu.linkUp k).trans h) f)

/-- A frame leaves as it is, by the link's next lane. -/
theorem out_putFrame (k : Nat) (f : Frame) (s : State) : (putFrame k f s).out = s.out ++ [.frame (nextLane s k) f] := by
  unfold putFrame
  split <;> rfl

/-- Frames leave unchanged and in order, each by an UP lane of the link (R434, R443, R451, R454). -/
theorem out_putFrames {k : Nat} (fs : List Frame) {s : State} (h : linkUp s k = true) :
    ∃ lns : List Nat, lns.length = fs.length ∧ (∀ j ∈ lns, j ∈ lanesOf k ∧ laneUp s j = true) ∧
      (putFrames k fs s).out = s.out ++ (lns.zip fs).map fun e => Out.frame e.1 e.2 := by
  induction fs generalizing s with
  | nil => exact ⟨[], rfl, by simp, (List.append_nil _).symm⟩
  | cons f fs ih =>
    have hput := framesOut_putFrame h f
    obtain ⟨lns, hlen, hmem, hout⟩ := ih ((hput.linkUp k).trans h)
    refine ⟨nextLane s k :: lns, by simp [hlen], fun j hj => ?_, ?_⟩
    · obtain rfl | hj := List.mem_cons.mp hj
      · exact nextLane_mem h
      · rw [← hput.2.1.1.laneUp]
        exact hmem j hj
    · rw [putFrames] at hout ⊢
      rw [List.foldl_cons, hout, out_putFrame, List.append_assoc]
      rfl

/-- Idle frames go out on every UP lane of the link (R449, R454). -/
theorem framesOut_sendIdle (k : Nat) (s : State) : FramesOut k s (sendIdle k s) :=
  List.foldlRecOn _ _ (.refl k s) fun u hu l hl => by
    obtain ⟨hmem, hup⟩ := List.mem_filter.mp hl
    exact hu.trans (framesOut_frameOut hmem ((hu.2.1.1.laneUp l).trans hup) _)

theorem out_sendIdle (k : Nat) (s : State) :
    (sendIdle k s).out = s.out ++ ((lanesOf k).filter (laneUp s)).map fun l => Out.frame l (idleFrame s k) := by
  unfold sendIdle
  generalize (lanesOf k).filter (laneUp s) = ls
  suffices h : ∀ u, (ls.foldl (fun t l => frameOut l (idleFrame s k) t) u).out = u.out ++ ls.map fun l => Out.frame l (idleFrame s k) from h s
  induction ls with
  | nil => exact fun u => (List.append_nil _).symm
  | cons l ls ih =>
    intro u
    rw [List.foldl_cons, ih, List.map_cons, ← List.singleton_append, ← List.append_assoc]
    rfl

theorem link_sendIdle (k : Nat) (s : State) (j : Nat) : link (sendIdle k s) j = link s j := by
  have hlinks : (sendIdle k s).optics.links = s.optics.links := by
    unfold sendIdle
    refine foldl_keeps (fun u : State => u.optics.links) (fun _ _ => ?_) _ s
    rfl
  rw [link, link, hlinks]

/-! ### The sender of a link -/

/-- `r'` is `r` but for what its sender keeps: what the receiver has accepted, buffered and counted stays. -/
def SenderOnly (r r' : Link) : Prop :=
  r' = { r with txSeq := r'.txSeq, replay := r'.replay, answering := r'.answering, xoffIn := r'.xoffIn, retries := r'.retries, again := r'.again
                replayed := r'.replayed, lastLane := r'.lastLane, sentOn := r'.sentOn }

theorem SenderOnly.trans {r r' r'' : Link} (h : SenderOnly r r') (g : SenderOnly r' r'') : SenderOnly r r'' := by
  unfold SenderOnly at *
  rw [g, h]

/-- `u` is `s` after the sender of link `k` has worked: packets have left its queue and frames its UP lanes, and no other link has changed. -/
def SenderWorked (k : Nat) (s u : State) : Prop :=
  u = { s with out := u.out, fabric := u.fabric, optics.lanes := u.optics.lanes, optics.links := u.optics.links } ∧ LanesSend k s u ∧
    (∀ j, j ≠ k → link u j = link s j) ∧ SenderOnly (link s k) (link u k)

theorem SenderWorked.of_fabric {s u : State} (k : Nat) (h : u = { s with fabric := u.fabric }) : SenderWorked k s u := by
  have hlink : ∀ j, link u j = link s j := fun j => by rw [h]; rfl
  refine ⟨by rw [h], .of_lanes k ?_ ?_, fun j _ => hlink j, ?_⟩
  · rw [h]
  · rw [h]
  · rw [hlink]
    rfl
theorem SenderWorked.refl (k : Nat) (s : State) : SenderWorked k s s := .of_fabric k rfl
theorem SenderWorked.trans {k : Nat} {s u v : State} (h : SenderWorked k s u) (g : SenderWorked k u v) : SenderWorked k s v := by
  obtain ⟨hu, hlanes, hlinks, hlink⟩ := h
  obtain ⟨gu, glanes, glinks, glink⟩ := g
  exact ⟨by rw [gu, hu], hlanes.trans glanes, fun j hj => (glinks j hj).trans (hlinks j hj), hlink.trans glink⟩
theorem SenderWorked.ite {c : Prop} [Decidable c] {k : Nat} {s u v : State} (hu : SenderWorked k s u) (hv : SenderWorked k s v) :
    SenderWorked k s (if c then u else v) := by
  split
  · exact hu
  · exact hv
theorem SenderWorked.lanesKept {k : Nat} {s u : State} (h : SenderWorked k s u) : LanesKept s u := h.2.1.1
theorem SenderWorked.faults {k : Nat} {s u : State} (h : SenderWorked k s u) : u.faults = s.faults := by rw [h.1]

theorem FramesOut.senderWorked {k : Nat} {s u : State} (h : FramesOut k s u) : SenderWorked k s u := by
  obtain ⟨hu, hlanes, hlinks, hlink⟩ := h
  refine ⟨by rw [hu], hlanes, hlinks, ?_⟩
  rw [hlink]
  rfl

theorem senderWorked_setLink {k : Nat} {r : Link} {s : State} (h : SenderOnly (link s k) r) : SenderWorked k s (setLink k r s) :=
  ⟨rfl, .of_lanes k (List.prefix_refl _) rfl, fun _ hj => link_setLink_ne hj .., by rwa [link_setLink_self]⟩

theorem senderWorked_sendFrame {k : Nat} {s : State} (h : linkUp s k = true) (kind : Nat) (flits : List Byte) (vcs : List Nat) :
    SenderWorked k s (sendFrame k kind flits vcs s) := by
  unfold sendFrame
  exact (senderWorked_setLink (by exact rfl)).trans (framesOut_putFrame (k := k) (by exact h) _).senderWorked

theorem senderWorked_pumpPackets (k : Nat) : ∀ (n : Nat) {s : State}, linkUp s k = true → SenderWorked k s (pumpPackets k n s)
  | 0, s, _ => .refl k s
  | n + 1, s, h => by
    rw [pumpPackets]
    split
    · split
      · exact .refl k s
      · next v q _ =>
        dsimp only
        generalize hserved : served (linkCtr k) v q _ = t
        have ht : SenderWorked k s t := .of_fabric k (by rw [← hserved, served_frame]; rfl)
        have hsent := ht.trans (senderWorked_sendFrame ((ht.lanesKept.linkUp k).trans h) 0
          (headerBytes (aged s q) ++ (aged s q).payload) (List.replicate (flitsOf (aged s q)) v))
        refine (hsent.trans (.of_fabric k (countPort_frame ..))).trans (senderWorked_pumpPackets k n ?_)
        exact (hsent.lanesKept.linkUp k).trans h
    · exact .refl k s

theorem senderWorked_pumpLink (k : Nat) (s : State) : SenderWorked k s (pumpLink k s) := by
  unfold pumpLink
  split
  · next h => exact senderWorked_pumpPackets k _ h
  · exact .refl k s

/-! ### Replay and the control word -/

theorem replayLink_eq {k : Nat} {s : State} (h : (link s k).replay ≠ []) :
    ∃ replayed, replayLink k s = putFrames k (link s k).replay (setLink k { link s k with
      retries := (link s k).retries + (link s k).replay.length, again := (link s k).again + 1, replayed } s) := by
  rw [replayLink, if_neg (by simpa using h)]
  exact ⟨_, rfl⟩

theorem senderWorked_replayLink {k : Nat} {s : State} (h : linkUp s k = true) : SenderWorked k s (replayLink k s) := by
  by_cases hnone : (link s k).replay = []
  · rw [replayLink, hnone]
    exact .refl k s
  · obtain ⟨replayed, hu⟩ := replayLink_eq hnone
    rw [hu]
    exact (senderWorked_setLink (by exact rfl)).trans (framesOut_putFrames _ (by exact h)).senderWorked

theorem senderOnly_ackFrames (r : Link) (ack : Nat) : SenderOnly r (ackFrames r ack) := by
  unfold ackFrames
  dsimp only
  split <;> rfl

/-- The control word of a frame concerns the sender alone (R437, R442, R443, R450). -/
theorem senderWorked_takeControl {k : Nat} {s : State} (h : linkUp s k = true) (f : Frame) : SenderWorked k s (takeControl k f s) := by
  have hack : SenderOnly (link s k) (ackFrames { link s k with xoffIn := BitVec.ofNat 6 (ctlField f 19 14) } (ctlField f 35 24)) :=
    SenderOnly.trans (by exact rfl) (senderOnly_ackFrames ..)
  have hset : ∀ answering, SenderWorked k s (setLink k
      { ackFrames { link s k with xoffIn := BitVec.ofNat 6 (ctlField f 19 14) } (ctlField f 35 24) with answering } s) :=
    fun _ => senderWorked_setLink (hack.trans rfl)
  unfold takeControl
  dsimp only
  generalize ackFrames { link s k with xoffIn := BitVec.ofNat 6 (ctlField f 19 14) } (ctlField f 35 24) = r at *
  refine .ite (((hset _).trans (senderWorked_replayLink (by exact h))).trans (senderWorked_pumpLink ..))
    (SenderWorked.trans ?_ (senderWorked_pumpLink ..))
  split
  · exact senderWorked_setLink hack
  · exact hset none

end Sys2Proof.Machine
end

section
/-! Received frames (R437 to R455): acceptance in order, the deskew buffer of a tray port, and what is answered. -/
namespace Sys2Proof.Machine
open Sys2Proof

/-! ### Acceptance (R441, R446, R452) -/

/-- The flits of a frame for one VC join its buffer (R446, R448). -/
def fillBuffer (k : Nat) (f : Frame) (r : Link) (v : Nat) : Link :=
  let q := tget r.ingress v [] ++ vcFlits f v
  { r with ingress := tset r.ingress v q []
           xoffOut := if xoffSet k < 32 * q.length then r.xoffOut ||| BitVec.ofNat 6 (2 ^ v) else r.xoffOut }

theorem fillBuffers_eq (k : Nat) (f : Frame) (r : Link) : fillBuffers k f r = (List.range 6).foldl (fillBuffer k f) r := rfl

theorem fillBuffers_frame (k : Nat) (f : Frame) (r : Link) :
    fillBuffers k f r = { r with ingress := (fillBuffers k f r).ingress, xoffOut := (fillBuffers k f r).xoffOut } := by
  rw [fillBuffers_eq]
  refine List.foldlRecOn (motive := fun r' : Link => r' = { r with ingress := r'.ingress, xoffOut := r'.xoffOut }) _ _ rfl fun r' h v _ => ?_
  rw [h]
  rfl

theorem ingress_fillBuffer_foldl (k : Nat) (f : Frame) (v : Nat) : ∀ (vs : List Nat) (r : Link), vs.Nodup →
    tget (vs.foldl (fillBuffer k f) r).ingress v [] = if v ∈ vs then tget r.ingress v [] ++ vcFlits f v else tget r.ingress v []
  | [], r, _ => rfl
  | w :: vs, r, h => by
    obtain ⟨hw, hvs⟩ := List.nodup_cons.mp h
    rw [List.foldl_cons, ingress_fillBuffer_foldl k f v vs _ hvs]
    by_cases hv : v = w
    · subst hv
      rw [if_neg hw, if_pos List.mem_cons_self]
      exact tget_tset_self ..
    · have hsame : tget (fillBuffer k f r w).ingress v [] = tget r.ingress v [] := tget_tset_ne _ _ _ _ _ hv
      simp only [hsame, List.mem_cons, hv, false_or]

/-- The flits of an accepted frame join the buffers of their VCs, in slot order (R446). -/
theorem ingress_fillBuffers (k : Nat) (f : Frame) (r : Link) {v : Nat} (hv : v < 6) :
    tget (fillBuffers k f r).ingress v [] = tget r.ingress v [] ++ vcFlits f v := by
  rw [fillBuffers_eq, ingress_fillBuffer_foldl k f v _ r List.nodup_range, if_pos (List.mem_range.mpr hv)]

/-- A link's record when a frame that is next in sequence has come. -/
def taken (k : Nat) (f : Frame) (r : Link) : Link :=
  if overflows k f r then { r with nak := true, overruns := r.overruns + 1 }
  else fillBuffers k f { r with rxLast := ctlField f 47 36, nak := false }

theorem acceptFrame_eq (k : Nat) (f : Frame) (s : State) : acceptFrame k f s = setLink k (taken k f (link s k)) s := by
  unfold acceptFrame taken
  dsimp only
  split <;> rfl

theorem taken_deskew (k : Nat) (f : Frame) (r : Link) : (taken k f r).deskew = r.deskew := by
  unfold taken
  split
  · rfl
  · rw [fillBuffers_frame]

/-! ### The deskew buffer (R455) -/

theorem link_drainDeskew_ne {k j : Nat} (hj : j ≠ k) : ∀ (n : Nat) (s : State), link (drainDeskew k n s) j = link s j
  | 0, _ => rfl
  | n + 1, s => by
    rw [drainDeskew]
    split
    · rfl
    · rw [link_drainDeskew_ne hj, acceptFrame_eq, link_setLink_ne hj, link_setLink_ne hj]

/-- Once as many frames as wait could have been taken, none waits whose turn has come. -/
theorem drainDeskew_waits (k : Nat) : ∀ (n : Nat) (s : State), (link s k).deskew.length ≤ n →
    ∀ e ∈ (link (drainDeskew k n s) k).deskew, ctlField e.1 47 36 ≠ ((link (drainDeskew k n s) k).rxLast + 1) % 4096
  | 0, s, h => by
    intro e he
    rw [drainDeskew, List.eq_nil_of_length_eq_zero (Nat.le_zero.mp h)] at he
    exact absurd he List.not_mem_nil
  | n + 1, s, h => by
    rw [drainDeskew]
    split
    · next hnone =>
      intro e he
      simpa using List.find?_eq_none.mp hnone e he
    · next e he =>
      have hmem : e ∈ (link s k).deskew := List.mem_of_find?_eq_some he
      refine drainDeskew_waits k n _ ?_
      rw [acceptFrame_eq, link_setLink_self, link_setLink_self, taken_deskew]
      dsimp only
      rw [List.length_erase_of_mem hmem]
      omega

/-! ### The sender's work beside it -/

theorem SenderOnly.receiver {r r' : Link} (h : SenderOnly r r') :
    r'.rxLast = r.rxLast ∧ r'.nak = r.nak ∧ r'.ingress = r.ingress ∧ r'.deskew = r.deskew ∧ r'.drops = r.drops ∧ r'.overruns = r.overruns := by
  rw [h]
  exact ⟨rfl, rfl, rfl, rfl, rfl, rfl⟩
theorem SenderOnly.overflows {r r' : Link} (h : SenderOnly r r') (k : Nat) (f : Frame) : overflows k f r' = overflows k f r := by
  rw [h]
  rfl
theorem SenderOnly.early {r r' : Link} (h : SenderOnly r r') (k seq : Nat) : early k seq r' = early k seq r := by
  rw [h]
  rfl

/-! ### FRAME_RECEIVE -/

/-- What a frame that passes its checks does once its control word has been taken (R441, R452, R455). -/
def takeSequenced (k : Nat) (f : Frame) (s : State) : State :=
  let r := link s k
  let seq := ctlField f 47 36
  if ctlField f 22 20 = 0 ∨ ctlField f 22 20 = 3 then
    if seq = (r.rxLast + 1) % 4096 then sendIdle k (drainDeskew k r.deskew.length (acceptFrame k f s))
    else if early k seq r then
      if r.deskew.any fun e => ctlField e.1 47 36 == seq then s else setLink k { r with deskew := r.deskew ++ [(f, s.time)] } s
    else sendIdle k (setLink k { r with nak := true, drops := r.drops + 1 } s)
  else s

theorem exec_frameReceive_down {s : State} {l : Lane} (h : laneUp s l = false) (f : Frame) : exec (.frameReceive l f) s = .next s := by
  rw [exec, execFrameReceive, h]
  rfl
theorem exec_frameReceive_bad {s : State} {l : Lane} (h : laneUp s l = true) {f : Frame} (hf : frameGood f = false) :
    exec (.frameReceive l f) s = .next (sendIdle (linkOf s l) (setLink (linkOf s l)
      { link s (linkOf s l) with nak := true, badCrc := (link s (linkOf s l)).badCrc + 1 } s)) := by
  rw [exec, execFrameReceive, h, hf]
  rfl
theorem exec_frameReceive_good {s : State} {l : Lane} (h : laneUp s l = true) {f : Frame} (hf : frameGood f = true) :
    exec (.frameReceive l f) s = .next (takeSequenced (linkOf s l) f (takeControl (linkOf s l) f s)) := by
  rw [exec, execFrameReceive, h, hf]
  rfl

theorem takeSequenced_unsequenced {f : Frame} (h : ctlField f 22 20 = 1 ∨ ctlField f 22 20 = 2) (k : Nat) (s : State) :
    takeSequenced k f s = s := by
  rw [takeSequenced, if_neg (by omega)]

section
variable {k : Nat} {f : Frame} {s : State} (h : ctlField f 22 20 = 0 ∨ ctlField f 22 20 = 3)
include h

theorem link_takeSequenced_next (hseq : ctlField f 47 36 = ((link s k).rxLast + 1) % 4096) (j : Nat) :
    link (takeSequenced k f s) j = link (drainDeskew k (link s k).deskew.length (setLink k (taken k f (link s k)) s)) j := by
  rw [takeSequenced, if_pos h, if_pos hseq, link_sendIdle, acceptFrame_eq]
theorem takeSequenced_early (hseq : ctlField f 47 36 ≠ ((link s k).rxLast + 1) % 4096)
    (hearly : early k (ctlField f 47 36) (link s k) = true) :
    takeSequenced k f s = if (link s k).deskew.any fun e => ctlField e.1 47 36 == ctlField f 47 36 then s
      else setLink k { link s k with deskew := (link s k).deskew ++ [(f, s.time)] } s := by
  rw [takeSequenced, if_pos h, if_neg hseq, if_pos hearly]
theorem link_takeSequenced_late (hseq : ctlField f 47 36 ≠ ((link s k).rxLast + 1) % 4096)
    (hearly : early k (ctlField f 47 36) (link s k) = false) (j : Nat) :
    link (takeSequenced k f s) j = link (setLink k { link s k with nak := true, drops := (link s k).drops + 1 } s) j := by
  rw [takeSequenced, if_pos h, if_neg hseq, if_neg (by simp [hearly]), link_sendIdle]

end

/-- No other link changes. -/
theorem link_takeSequenced_ne {k j : Nat} (hj : j ≠ k) (f : Frame) (s : State) : link (takeSequenced k f s) j = link s j := by
  by_cases hkind : ctlField f 22 20 = 0 ∨ ctlField f 22 20 = 3
  · by_cases hseq : ctlField f 47 36 = ((link s k).rxLast + 1) % 4096
    · rw [link_takeSequenced_next hkind hseq, link_drainDeskew_ne hj, link_setLink_ne hj]
    · cases hearly : early k (ctlField f 47 36) (link s k) with
      | true =>
        rw [takeSequenced_early hkind hseq hearly]
        split
        · rfl
        · exact link_setLink_ne hj ..
      | false => rw [link_takeSequenced_late hkind hseq hearly, link_setLink_ne hj]
  · rw [takeSequenced, if_neg hkind]

/-- A frame that is next in sequence and fits, with none waiting, is accepted (R441, R446). -/
theorem takeSequenced_accepts {k : Nat} {f : Frame} {s : State} (h : ctlField f 22 20 = 0 ∨ ctlField f 22 20 = 3)
    (hseq : ctlField f 47 36 = ((link s k).rxLast + 1) % 4096) (hnone : (link s k).deskew = []) (hfits : overflows k f (link s k) = false) :
    let r := link (takeSequenced k f s) k
    r.rxLast = ctlField f 47 36 ∧ r.nak = false ∧ ∀ v, v < 6 → tget r.ingress v [] = tget (link s k).ingress v [] ++ vcFlits f v := by
  have hr : link (takeSequenced k f s) k = fillBuffers k f { link s k with rxLast := ctlField f 47 36, nak := false } := by
    rw [link_takeSequenced_next h hseq, hnone, List.length_nil, drainDeskew, link_setLink_self, taken, if_neg (by simp [hfits])]
  dsimp only
  rw [hr]
  refine ⟨?_, ?_, fun v hv => ingress_fillBuffers k f _ hv⟩ <;> rw [fillBuffers_frame]

/-- One that would overflow a buffer is dropped, counted and answered with a nak (R452). -/
theorem takeSequenced_overruns {k : Nat} {f : Frame} {s : State} (h : ctlField f 22 20 = 0 ∨ ctlField f 22 20 = 3)
    (hseq : ctlField f 47 36 = ((link s k).rxLast + 1) % 4096) (hnone : (link s k).deskew = []) (hover : overflows k f (link s k) = true) :
    link (takeSequenced k f s) k = { link s k with nak := true, overruns := (link s k).overruns + 1 } := by
  rw [link_takeSequenced_next h hseq, hnone, List.length_nil, drainDeskew, link_setLink_self, taken, if_pos hover]

/-- What the receiver of a link does with a frame that passes its checks, by its kind and its number. -/
theorem takeSequenced_facts (k : Nat) (f : Frame) (s : State) :
    let r := link s k
    let r' := link (takeSequenced k f s) k
    ((ctlField f 22 20 = 1 ∨ ctlField f 22 20 = 2) → r'.rxLast = r.rxLast ∧ r'.nak = r.nak ∧ r'.ingress = r.ingress) ∧
      ((ctlField f 22 20 = 0 ∨ ctlField f 22 20 = 3) →
        (ctlField f 47 36 = (r.rxLast + 1) % 4096 →
          (∀ e ∈ r'.deskew, ctlField e.1 47 36 ≠ (r'.rxLast + 1) % 4096) ∧
          (r.deskew = [] → overflows k f r = false → r'.rxLast = ctlField f 47 36 ∧ r'.nak = false ∧
            ∀ v, v < 6 → tget r'.ingress v [] = tget r.ingress v [] ++ vcFlits f v) ∧
          (r.deskew = [] → overflows k f r = true → r'.rxLast = r.rxLast ∧ r'.nak = true ∧ r'.overruns = r.overruns + 1)) ∧
        (ctlField f 47 36 ≠ (r.rxLast + 1) % 4096 → r'.rxLast = r.rxLast ∧ r'.ingress = r.ingress ∧
          (early k (ctlField f 47 36) r = false → r'.nak = true ∧ r'.drops = r.drops + 1) ∧
          (early k (ctlField f 47 36) r = true → r'.nak = r.nak ∧
            ((r.deskew.any fun e => ctlField e.1 47 36 == ctlField f 47 36) = false → r'.deskew = r.deskew ++ [(f, s.time)])))) := by
  dsimp only
  refine ⟨fun h => ?_, fun h => ⟨fun hseq => ⟨?_, takeSequenced_accepts h hseq, fun hnone hover => ?_⟩, fun hseq => ?_⟩⟩
  · rw [takeSequenced_unsequenced h]
    exact ⟨rfl, rfl, rfl⟩
  · rw [link_takeSequenced_next h hseq]
    exact drainDeskew_waits k _ _ (by rw [link_setLink_self, taken_deskew])
  · rw [takeSequenced_overruns h hseq hnone hover]
    exact ⟨rfl, rfl, rfl⟩
  · cases hearly : early k (ctlField f 47 36) (link s k) with
    | true =>
      rw [takeSequenced_early h hseq hearly]
      split
      · next hheld => exact ⟨rfl, rfl, nofun, fun _ => ⟨rfl, fun hnew => absurd (hheld.symm.trans hnew) nofun⟩⟩
      · rw [link_setLink_self]
        exact ⟨rfl, rfl, nofun, fun _ => ⟨rfl, fun _ => rfl⟩⟩
    | false =>
      rw [link_takeSequenced_late h hseq hearly, link_setLink_self]
      exact ⟨rfl, rfl, fun _ => ⟨rfl, rfl⟩, nofun⟩

end Sys2Proof.Machine
end

section
/-! The host port: what the end of every connection leaves, and the MAC's check of a frame that it has sealed (R459, R461, R789). -/
namespace Sys2Proof.Machine
open Sys2Proof

/-! ### Keys of a table -/

theorem thas_tput_eq {α : Type} (m : Table α) (k j : Nat) (v : α) : thas (tput m k v) j = (thas m j || k == j) := by
  induction m with
  | nil => simp [tput, thas]
  | cons e m ih =>
    obtain ⟨i, u⟩ := e
    unfold tput
    simp only [thas] at ih ⊢
    split
    · rw [List.any_cons, ih, List.any_cons, Bool.or_assoc]
    · split
      · next h => simp [h, Bool.or_comm]
      · simp [Bool.or_comm]
theorem thas_tdel_eq {α : Type} (m : Table α) (k j : Nat) : thas (tdel m k) j = (thas m j && j != k) := by
  induction m with
  | nil => rfl
  | cons e m ih =>
    obtain ⟨i, u⟩ := e
    unfold tdel
    simp only [thas] at ih ⊢
    split
    · next h =>
      rw [ih, List.any_cons, h]
      cases hj : k == j <;> simp_all
    · next h =>
      rw [List.any_cons, ih, List.any_cons]
      cases hj : i == j <;> simp_all
theorem eq_nil_of_thas {α : Type} {m : Table α} (h : ∀ j, thas m j = false) : m = [] := by
  cases m with
  | nil => rfl
  | cons e m =>
    have he := h e.1
    simp [thas] at he
theorem thas_iff_mem {α : Type} (m : Table α) (j : Nat) : thas m j = true ↔ j ∈ m.map (·.1) := by
  simp [thas]

/-! ### Notices leave the connections open -/

theorem thas_pumpTable (k : Nat) (conns : Table Conn) (j : Nat) : thas (pumpTable k conns).1 j = thas conns j := by
  unfold pumpTable
  split
  · next h =>
    rw [thas_tput_eq]
    by_cases hj : k = j
    · subst hj
      simp [h]
    · simp [hj]
  · rfl
theorem thas_noticeTable (k kind : Nat) (job : BitVec 16) (mtc : DWord) (value : Nat) (payload : List Byte) (conns : Table Conn) (j : Nat) :
    thas (noticeTable k kind job mtc value payload conns).1 j = thas conns j := by
  unfold noticeTable
  split
  · next h =>
    rw [thas_pumpTable, thas_tput_eq]
    by_cases hj : k = j
    · subst hj
      simp [h]
    · simp [hj]
  · rfl
theorem thas_noticeAll (kind : Nat) (job : BitVec 16) (mtc : DWord) (value : Nat) (payload : List Byte) (conns : Table Conn) (j : Nat) :
    thas (noticeAll kind job mtc value payload conns).1 j = thas conns j := by
  unfold noticeAll
  refine foldl_keeps (fun r : Table Conn × List Out => thas r.1 j) (fun _ _ => ?_) _ (conns, [])
  exact thas_noticeTable ..

/-! ### Connections end (R789) -/

/-- `u` is `s` after the connections `ks` have ended: their watches are gone, and outside LOADING the job and the device state stay. -/
def ConnsEnded (ks : List Nat) (s u : State) : Prop :=
  u.faults = s.faults ∧ u.optics = s.optics ∧ (∀ j, thas u.hauler.conns j = (thas s.hauler.conns j && !(ks.contains j))) ∧
    (∀ w ∈ u.remote.watches, w ∈ s.remote.watches ∧ ks.contains w.2.1 = false) ∧ (s.dev.st ≠ .loading → u.dev = s.dev ∧ u.job = s.job)

theorem ConnsEnded.trans {k : Nat} {ks : List Nat} {s u v : State} (h : ConnsEnded [k] s u) (g : ConnsEnded ks u v) : ConnsEnded (k :: ks) s v := by
  obtain ⟨hf, ho, hc, hw, hj⟩ := h
  obtain ⟨gf, go, gc, gw, gj⟩ := g
  refine ⟨gf.trans hf, go.trans ho, fun j => ?_, fun w hwv => ?_, fun hst => ?_⟩
  · rw [gc, hc, Bool.and_assoc]
    simp
  · obtain ⟨hwu, hks⟩ := gw w hwv
    obtain ⟨hws, hk⟩ := hw w hwu
    exact ⟨hws, by simp_all⟩
  · obtain ⟨hdev, hjob⟩ := hj hst
    obtain ⟨gdev, gjob⟩ := gj (by rwa [hdev])
    exact ⟨gdev.trans hdev, gjob.trans hjob⟩

theorem connsEnded_endConn (k : Nat) (s : State) : ConnsEnded [k] s (endConn k s) := by
  have hwatch : ∀ w ∈ s.remote.watches.filter (fun w => w.2.1 != k), w ∈ s.remote.watches ∧ [k].contains w.2.1 = false := fun w hw => by
    obtain ⟨hmem, hne⟩ := List.mem_filter.mp hw
    exact ⟨hmem, by simpa using hne⟩
  have hkeys : ∀ j, thas (tdel s.hauler.conns k) j = (thas s.hauler.conns j && !([k].contains j)) := fun j => by
    rw [thas_tdel_eq, List.contains_cons, List.contains_nil, Bool.or_false, bne]
  unfold endConn
  dsimp only
  split
  · next hload =>
    have hst : s.dev.st = .loading := by simpa using (Bool.and_eq_true_iff.mp hload).2
    exact ⟨rfl, rfl, fun j => (thas_noticeAll ..).trans (hkeys j), hwatch, fun h => absurd hst h⟩
  · exact ⟨rfl, rfl, hkeys, hwatch, fun _ => ⟨rfl, rfl⟩⟩

theorem connsEnded_foldl : ∀ (ks : List Nat) (s : State), ConnsEnded ks s (ks.foldl (fun s k => endConn k s) s)
  | [], s => ⟨rfl, rfl, fun j => by simp, fun w hw => ⟨hw, rfl⟩, fun _ => ⟨rfl, rfl⟩⟩
  | k :: ks, s => (connsEnded_endConn k s).trans (connsEnded_foldl ks _)

theorem endConns_facts (s : State) :
    let u := endConns s
    u.faults = s.faults ∧ u.optics = s.optics ∧ u.hauler.conns = [] ∧
      (∀ w ∈ u.remote.watches, w ∈ s.remote.watches ∧ thas s.hauler.conns w.2.1 = false) ∧
      (s.dev.st ≠ .loading → u.dev = s.dev ∧ u.job = s.job) := by
  obtain ⟨hf, ho, hc, hw, hj⟩ := connsEnded_foldl (s.hauler.conns.map (·.1)) s
  have hkeys : ∀ j, (s.hauler.conns.map (·.1)).contains j = thas s.hauler.conns j := fun j => by
    rw [Bool.eq_iff_iff, thas_iff_mem, List.contains_iff_mem]
  refine ⟨hf, ho, eq_nil_of_thas fun j => ?_, fun w hwu => ?_, hj⟩
  · exact (hc j).trans (by rw [hkeys, Bool.and_not_self])
  · rw [← hkeys]
    exact hw w hwu

/-! ### The port -/

theorem exec_hostPortDown {s : State} (h : s.optics.hostUp = true) (lanes : BitVec 8) (cause : Nat) :
    ∃ det, exec (.hostPortDown lanes cause) s =
      .next (raise errHostPortDown uDevice 0 0 none32 det (endConns { s with optics.hostUp := false })) := by
  rw [exec, execHostPortDown, if_pos h]
  exact ⟨_, rfl⟩

/-- Outside connections nobody is notified of a record. -/
theorem raise_conns_nil {s : State} (h : s.hauler.conns = []) (code kind unit obj peer : Nat) (det : List Byte) :
    (raise code kind unit obj peer det s).hauler.conns = [] := by
  rw [raise_hauler_nil code kind unit obj peer det s h, h]

theorem exec_hostPortUp (s : State) :
    exec .hostPortUp s = .next (if s.dev.st = .lookout ∨ !s.pins.v48On then s else { s with optics.hostUp := true }) := rfl

theorem exec_ethernetPauseReceive (frame : List Byte) (s : State) :
    exec (.ethernetPauseReceive frame) s = .next (
      if !s.optics.hostUp then s
      else if !macGood frame then { s with optics.badMac := s.optics.badMac + 1 }
      else if isPause frame then { s with optics.pauses := s.optics.pauses + 1 }
      else s) := rfl

/-- A frame that the MAC seals passes its checks (Table 10-7). -/
theorem macGood_sealMac {body : List Byte} (h : body.length ≤ 9212) : macGood (sealMac body) = true := by
  obtain ⟨b, hb⟩ : ∃ b, b = body ++ List.replicate (60 - body.length) 0 := ⟨_, rfl⟩
  have hlen : b.length = max 60 body.length := by
    rw [hb, List.length_append, List.length_replicate]
    omega
  have hfcs : (macFcs b).length = 4 := length_leBytes 4 _
  have hseal : sealMac body = b ++ macFcs b := by rw [sealMac, hb]
  have hcut : (b ++ macFcs b).length - 4 = b.length := by
    rw [List.length_append, hfcs]
    omega
  rw [hseal, macGood, hcut, List.drop_left, List.take_left, List.length_append, hfcs, hlen]
  simp
  omega

end Sys2Proof.Machine
end

section
open Sys2Proof Sys2Proof.Machine

/-- Settles O26, clause by clause: a frame by its checks, kind and number; the loss and return of the host port; and what its MAC takes. -/
theorem framesAndTheHostPort : Obligations.FramesAndTheHostPort := by
  unfold Obligations.FramesAndTheHostPort
  refine fun s => ⟨fun l f h => exec_frameReceive_down h f, fun l f hup => ⟨fun hbad => ?_, fun hgood => ?_⟩, fun lanes cause hup => ?_,
    fun hst hon => ?_, fun hst => ?_, fun frame => ⟨fun hup hmac hpause => ?_, fun hup hmac => ?_, fun hup => ?_⟩, fun body h => macGood_sealMac h⟩
  · refine ⟨_, exec_frameReceive_bad hup hbad, ?_, fun j hj => ?_, ?_, (framesOut_sendIdle ..).1, ?_⟩
    · rw [link_sendIdle, link_setLink_self]
    · rw [link_sendIdle, link_setLink_ne hj]
    · rw [out_sendIdle, idleFrame, link_setLink_self]
      rfl
    · exact (framesOut_sendIdle ..).2.1.1.2
  · have hlink : linkUp s (linkOf s l) = true := linkUp_of_laneUp hup
    obtain ⟨hu, -, hlinks, hsender⟩ := senderWorked_takeControl hlink f
    have htime : (takeControl (linkOf s l) f s).time = s.time := by rw [hu]
    refine ⟨_, exec_frameReceive_good hup hgood, fun j hj => (link_takeSequenced_ne hj ..).trans (hlinks j hj), ?_⟩
    have hfacts := takeSequenced_facts (linkOf s l) f (takeControl (linkOf s l) f s)
    generalize takeControl (linkOf s l) f s = t at hsender htime hfacts ⊢
    obtain ⟨hlast, hnak, hingress, hdeskew, hdrops, hover⟩ := hsender.receiver
    simp only [← hlast, ← hnak, ← hingress, ← hdeskew, ← hdrops, ← hover, ← hsender.overflows, ← hsender.early, ← htime]
    exact hfacts
  · obtain ⟨det, hexec⟩ := exec_hostPortDown hup lanes cause
    obtain ⟨hfaults, hoptics, hconns, hwatches, hjob⟩ := endConns_facts { s with optics.hostUp := false }
    refine ⟨_, hexec, ?_, raise_conns_nil hconns .., ⟨_, by rw [raise_faults, hfaults], rfl⟩, hwatches, fun hst => ?_⟩
    · rw [raise_optics, hoptics]
    · obtain ⟨hdev, hsame⟩ := hjob hst
      rw [raise_dev, raise_job, hdev]
      exact ⟨rfl, hsame⟩
  · rw [exec_hostPortUp, if_neg (by simp [hst, hon])]
  · rw [exec_hostPortUp, if_pos (.inl hst)]
  · rw [exec_ethernetPauseReceive]
    simp [hup, hmac, hpause]
  · rw [exec_ethernetPauseReceive]
    simp [hup, hmac]
  · rw [exec_ethernetPauseReceive]
    simp [hup]

end

section
/-! A lane that leaves UP, and one that is held: what follows leaves its own record and, on a tree lane, its link (R433, R457, R499, R500). -/
namespace Sys2Proof.Machine
open Sys2Proof

/-! ### Routing sends by UP lanes alone -/

/-- Every lane is UP in `u` that was UP in `s`, and no other; a lane that is not UP is as it was, and so is a link without an UP lane. -/
def DarkKept (s u : State) : Prop :=
  (∀ j, laneUp u j = laneUp s j) ∧ (∀ j, laneUp s j = false → lane u j = lane s j) ∧ ∀ k, linkUp s k = false → link u k = link s k

theorem DarkKept.of_optics {s u : State} (h : u.optics = s.optics) : DarkKept s u := by
  have hlane := lane_congr (s := s) (u := u) (by rw [h])
  exact ⟨fun j => by rw [laneUp, laneUp, hlane], fun j _ => hlane j, fun k _ => by rw [link, link, h]⟩
theorem DarkKept.refl (s : State) : DarkKept s s := .of_optics rfl
theorem DarkKept.linkUp {s u : State} (h : DarkKept s u) (k : Nat) : linkUp u k = linkUp s k := by
  rw [Machine.linkUp, Machine.linkUp, funext h.1]
theorem DarkKept.trans {s u v : State} (h : DarkKept s u) (g : DarkKept u v) : DarkKept s v := by
  obtain ⟨hup, hlane, hlink⟩ := id h
  obtain ⟨gup, glane, glink⟩ := g
  exact ⟨fun j => (gup j).trans (hup j), fun j hj => (glane j ((hup j).trans hj)).trans (hlane j hj),
    fun k hk => (glink k ((h.linkUp k).trans hk)).trans (hlink k hk)⟩
theorem DarkKept.ite {c : Prop} [Decidable c] {s u v : State} (hu : DarkKept s u) (hv : DarkKept s v) : DarkKept s (if c then u else v) := by
  split
  · exact hu
  · exact hv
theorem DarkKept.foldl {α : Type} {f : State → α → State} (h : ∀ s a, DarkKept s (f s a)) (l : List α) (s : State) : DarkKept s (l.foldl f s) :=
  List.foldlRecOn l f (DarkKept.refl s) fun u hu a _ => hu.trans (h u a)

/-- A link that sends has an UP lane, and sends by UP lanes. -/
theorem SenderWorked.darkKept {k : Nat} {s u : State} (h : SenderWorked k s u) (hk : linkUp s k = true) : DarkKept s u := by
  obtain ⟨-, hlanes, hlinks, -⟩ := h
  refine ⟨hlanes.1.laneUp, fun j hj => hlanes.2 j fun _ => hj, fun j hj => hlinks j ?_⟩
  rintro rfl
  exact absurd (hj.symm.trans hk) nofun
theorem Pumped.darkKept {k d : Nat} {s u : State} (h : Pumped k d s u) : DarkKept s u := .of_optics (by rw [h.1])

theorem darkKept_sendHeld (k : Nat) (h : Queued) (s : State) : DarkKept s (sendHeld k h s) := by
  unfold sendHeld pumpLink
  dsimp only
  split
  · next hup => exact .trans (.of_optics rfl) ((senderWorked_pumpPackets k _ hup).darkKept hup)
  · exact .of_optics rfl

theorem darkKept_pushPort (t port : Nat) (vc : VC) (h : Queued) (s : State) : DarkKept s (pushPort t port vc h s) := by
  unfold pushPort
  dsimp only
  split
  · exact .trans (.of_optics rfl) (pumped_pumpBridge ..).darkKept
  · exact .of_optics rfl

theorem darkKept_hopToward (t u : Nat) (vc : VC) (descended : Bool) (h : Queued) (s : State) :
    DarkKept s (hopToward t u vc descended h s) := by
  unfold hopToward
  split
  · split
    · exact darkKept_pushPort ..
    · exact .of_optics rfl
  · split
    · exact .ite (darkKept_pushPort ..) (.of_optics rfl)
    · exact .of_optics rfl

theorem darkKept_acceptRelay (t : Nat) (p : Packet) (s : State) : DarkKept s (acceptRelay t p s) :=
  .ite (.of_optics rfl) (.ite (.of_optics rfl) (.of_optics rfl))
theorem darkKept_touchHbm (a n : Nat) (write : Bool) (s : State) : DarkKept s (touchHbm a n write s) :=
  .ite (.foldl (fun _ _ => .of_optics (by rfl)) ..) (.refl s)
theorem darkKept_acceptAt (t : Nat) (p : Packet) (s : State) : DarkKept s (acceptAt t p s) :=
  .ite (.of_optics rfl) (.ite (.of_optics rfl) (.ite (.of_optics rfl)
    (DarkKept.trans (.ite (darkKept_touchHbm ..) (.refl s)) (.of_optics rfl))))
theorem darkKept_arriveAt (t : Nat) (vc : VC) (h : Queued) (s : State) : DarkKept s (arriveAt t vc h s) :=
  .ite (.of_optics rfl) (darkKept_acceptAt ..)

theorem darkKept_detour (t : Nat) (vc : VC) (h : Queued) (us : List Nat) (s : State) : DarkKept s (detour t vc h us s) :=
  .foldl (fun _ _ => darkKept_hopToward ..) ..
theorem darkKept_routeMulticast (t port : Nat) (vc : VC) (h : Queued) (s : State) : DarkKept s (routeMulticast t port vc h s) := by
  have hbranches : ∀ s, DarkKept s ((multicastPorts t port (tget s.fabric.groups h.p.group.toNat 0)).foldl (fun u o =>
      if portUnfenced u t o then pushPort t o (escapeVc vc) h u
      else detour t vc h (behindPort t o (tget s.fabric.groups h.p.group.toNat 0)) u) s) :=
    fun s => .foldl (fun _ _ => .ite (darkKept_pushPort ..) (darkKept_detour ..)) ..
  exact .ite ((hbranches s).trans (darkKept_acceptAt ..)) (hbranches s)

theorem darkKept_crossTo (t l : Nat) (vc : VC) (down : Bool) (h : Queued) (s : State) : DarkKept s (crossTo t l vc down h s) :=
  .ite (darkKept_sendHeld ..) (darkKept_hopToward ..)
theorem darkKept_routeHeaded (x : Heading) (t : Nat) (vc : VC) (down : Bool) (h : Queued) (s : State) :
    DarkKept s (routeHeaded x t vc down h s) := by
  cases x with
  | tile u => exact .ite (darkKept_acceptAt ..) (darkKept_hopToward ..)
  | lane l => exact darkKept_crossTo ..

theorem darkKept_routePacket (t port : Nat) (vc : VC) (h : Queued) (s : State) : DarkKept s (routePacket t port vc h s) := by
  unfold routePacket
  dsimp only
  split
  · exact darkKept_routeHeaded ..
  · refine .ite (darkKept_routeMulticast ..) (.ite (.ite (darkKept_acceptRelay ..) (.ite (darkKept_arriveAt ..) (darkKept_hopToward ..)))
      (.ite ?_ (.ite (.of_optics rfl) ?_)))
    · split
      · exact .ite (darkKept_sendHeld ..) (darkKept_hopToward ..)
      · exact .of_optics rfl
    · split
      · exact .ite (darkKept_sendHeld ..) (darkKept_hopToward ..)
      · exact .of_optics rfl

/-- Packets of a lost lane that choose again are routed (R499). -/
theorem rechoose_routes (l : Nat) (s : State) : Routed s (rechoose l s) ∧ DarkKept s (rechoose l s) := by
  unfold rechoose
  dsimp only
  refine List.foldlRecOn (motive := fun u => Routed s u ∧ DarkKept s u) _ _ ⟨routed_setQueue .., .of_optics rfl⟩ fun u hu h _ => ?_
  obtain ⟨hr, hd⟩ := hu
  split
  · split
    · exact ⟨hr.trans (routed_crossTo ..), hd.trans (darkKept_crossTo ..)⟩
    · exact ⟨hr.trans (routed_pushQueue ..), hd.trans (.of_optics rfl)⟩
  · exact ⟨hr.trans (routed_routePacket ..), hd.trans (darkKept_routePacket ..)⟩

/-! ### What is told of a lane -/

/-- Between `s` and `u` others have been told of a lane, and the time parent may have been switched (R483, R500, R625). -/
def Told (s u : State) : Prop := u = { s with out := u.out, mtc := u.mtc } ∧ s.out <+: u.out

theorem Told.refl (s : State) : Told s s := ⟨rfl, List.prefix_refl _⟩
theorem Told.trans {s u v : State} (h : Told s u) (g : Told u v) : Told s v := ⟨by rw [g.1, h.1], h.2.trans g.2⟩
theorem Told.optics {s u : State} (h : Told s u) : u.optics = s.optics := by rw [h.1]
theorem Told.faults {s u : State} (h : Told s u) : u.faults = s.faults := by rw [h.1]
theorem Told.bark {s u : State} (h : Told s u) : u.bark = s.bark := by rw [h.1]
theorem Told.lane {s u : State} (h : Told s u) (j : Nat) : lane u j = lane s j := lane_congr (by rw [h.optics]) j
theorem Told.lanesKept {s u : State} (h : Told s u) : LanesKept s u := .of_lanes h.2 (by rw [h.optics])

theorem told_emit (o : Out) (s : State) : Told s (emit o s) := ⟨rfl, List.prefix_append ..⟩
theorem told_tellTray (s₀ s : State) (k : Nat) : Told s (tellTray s₀ s k) := by
  unfold tellTray
  split
  · exact told_emit ..
  · exact .refl s
theorem told_sendReach (l : Nat) (restoral : Bool) (s : State) : Told s (sendReach l restoral s) := by
  unfold sendReach
  split
  · exact told_emit ..
  · exact .refl s
theorem told_switchParent (s : State) : Told s (switchParent s) := by
  unfold switchParent
  split
  · exact .refl s
  · split <;> exact ⟨rfl, List.prefix_refl _⟩

theorem linkOf_of_bark {s u : State} (h : u.bark = s.bark) (l : Nat) : linkOf u l = linkOf s l := by
  rw [linkOf, linkOf, isFA, isFA, h]

theorem lanesKept_raise (code kind unit obj peer : Nat) (det : List Byte) (s : State) : LanesKept s (raise code kind unit obj peer det s) :=
  .of_lanes (List.prefix_append ..) rfl

/-! ### A lane leaves UP -/

/-- What is told of lane `l` of link `k` when it has left UP. -/
def tellLeft (l k : Nat) (s₀ s : State) : State :=
  let t := sendReach l false (tellTray s₀ s k)
  if t.mtc.parent = some l then switchParent t else t

theorem told_tellLeft (l k : Nat) (s₀ s : State) : Told s (tellLeft l k s₀ s) := by
  have htold := (told_tellTray s₀ s k).trans (told_sendReach l false _)
  unfold tellLeft
  dsimp only
  split
  · exact htold.trans (told_switchParent _)
  · exact htold

/-- A tray port that keeps another lane UP sends there what lane `l` held, with ERR_PORT_NARROW (R457). -/
def narrowPort (l k : Nat) (s : State) : State :=
  let lost := (link s k).replay.filter fun f => tget (link s k).sentOn (ctlField f 47 36) l == l
  let s' := putFrames k lost s
  raise errPortNarrow uLane l (k - 144) (partnerOf s' l).toNat
    (detail [(maskOf (((lanesOf k).zipIdx.filter fun e => laneUp s' e.1).map (·.2)), 1), (l, 2), (lost.length, 4)]) s'

theorem narrowPort_eq (l k : Nat) (s : State) :
    ∃ lost peer det, narrowPort l k s = raise errPortNarrow uLane l (k - 144) peer det (putFrames k lost s) := ⟨_, _, _, rfl⟩

theorem laneLeavesUp_eq (l : Nat) (s₀ s : State) :
    laneLeavesUp l s₀ s = tellLeft l (linkOf s l) s₀ (if isTrayLink (linkOf s l) then
      if linkUp s (linkOf s l) then narrowPort l (linkOf s l) s else s else rechoose l s) := rfl
theorem laneLeavesUp_tree {l : Nat} {s : State} (h : isTrayLink (linkOf s l) = false) (s₀ : State) :
    laneLeavesUp l s₀ s = tellLeft l (linkOf s l) s₀ (rechoose l s) := by
  rw [laneLeavesUp_eq, if_neg (by simp [h])]
theorem laneLeavesUp_tray {l : Nat} {s : State} (h : isTrayLink (linkOf s l) = true) (s₀ : State) :
    laneLeavesUp l s₀ s = tellLeft l (linkOf s l) s₀ (if linkUp s (linkOf s l) then narrowPort l (linkOf s l) s else s) := by
  rw [laneLeavesUp_eq, if_pos h]

/-- What follows when a lane has left UP keeps every lane's record, and those of the lanes that are not UP whole. -/
theorem laneLeavesUp_lanes (l : Nat) (s₀ s : State) :
    LanesKept s (laneLeavesUp l s₀ s) ∧ ∀ j, laneUp s j = false → lane (laneLeavesUp l s₀ s) j = lane s j := by
  cases htray : isTrayLink (linkOf s l) with
  | false =>
    obtain ⟨hr, -, hdark, -⟩ := rechoose_routes l s
    have htold := told_tellLeft l (linkOf s l) s₀ (rechoose l s)
    rw [laneLeavesUp_tree htray]
    exact ⟨hr.1.lanesKept.trans htold.lanesKept, fun j hj => (htold.lane j).trans (hdark j hj)⟩
  | true =>
    rw [laneLeavesUp_tray htray]
    have htold := told_tellLeft l (linkOf s l) s₀
    split
    · next hup =>
      obtain ⟨lost, peer, det, hu⟩ := narrowPort_eq l (linkOf s l) s
      obtain ⟨-, hsend, -, -⟩ := framesOut_putFrames lost hup
      rw [hu]
      exact ⟨(hsend.1.trans (lanesKept_raise ..)).trans (htold _).lanesKept,
        fun j hj => ((htold _).lane j).trans (hsend.2 j fun _ => hj)⟩
    · exact ⟨(htold s).lanesKept, fun j _ => (htold s).lane j⟩

/-- On a tree lane no fault is recorded, and the link that has lost its lane stays. -/
theorem laneLeavesUp_tree_facts {l : Nat} {s : State} (h : isTrayLink (linkOf s l) = false) (s₀ : State) :
    (laneLeavesUp l s₀ s).faults = s.faults ∧ (laneLeavesUp l s₀ s).bark = s.bark ∧
      ∀ k, linkUp s k = false → link (laneLeavesUp l s₀ s) k = link s k := by
  obtain ⟨⟨⟨hframe, -⟩, -⟩, -, -, hdark⟩ := rechoose_routes l s
  have htold := told_tellLeft l (linkOf s l) s₀ (rechoose l s)
  rw [laneLeavesUp_tree h]
  refine ⟨htold.faults.trans (by rw [hframe]), htold.bark.trans (by rw [hframe]), fun k hk => ?_⟩
  rw [link, htold.optics]
  exact hdark k hk

/-! ### A lane is held -/

/-- A lane's record in HELD. -/
def heldLane (cause : Nat) (r : LaneRec) : LaneRec := { unlocked r with st := .held, heldCause := cause, retraining := false }

theorem holdLane_eq (l cause : Nat) (s : State) :
    holdLane l cause s = if laneUp s l then portDown l 4 (laneLeavesUp l s (updLane l (heldLane cause) s))
      else if (lane s l).retraining then portDown l 2 (updLane l (heldLane cause) s) else updLane l (heldLane cause) s := rfl

theorem portDown_tree {l : Nat} {s : State} (h : isTrayLink (linkOf s l) = false) (before : Nat) : portDown l before s = s := by
  rw [portDown, h]
  rfl
theorem lanesKept_portDown (l before : Nat) (s : State) : LanesKept s (portDown l before s) := by
  unfold portDown
  dsimp only
  split
  · exact .of_lanes (List.prefix_append ..) rfl
  · exact .refl s

theorem lanesKept_holdLane (l cause : Nat) (s : State) : LanesKept (updLane l (heldLane cause) s) (holdLane l cause s) := by
  rw [holdLane_eq]
  exact .ite ((laneLeavesUp_lanes ..).1.trans (lanesKept_portDown ..)) (.ite (lanesKept_portDown ..) (.refl _))

/-- The lane is held for the cause. -/
theorem holdLane_held (l cause : Nat) (s : State) : (lane (holdLane l cause s) l).st = .held ∧ (lane (holdLane l cause s) l).heldCause = cause := by
  rw [(lanesKept_holdLane l cause s).2, lane_updLane_self]
  exact ⟨rfl, rfl⟩
/-- Of the other lanes UP ones may send. -/
theorem lane_holdLane_ne {l j : Nat} (hj : j ≠ l) (cause : Nat) (s : State) :
    lane (holdLane l cause s) j = { lane s j with sentTill := (lane (holdLane l cause s) j).sentTill } := by
  rw [(lanesKept_holdLane l cause s).2, lane_updLane_ne hj]
theorem out_holdLane (l cause : Nat) (s : State) : s.out <+: (holdLane l cause s).out := (lanesKept_holdLane l cause s).1
/-- A lane that is neither UP nor retraining is held without more. -/
theorem holdLane_idle {l : Nat} {s : State} (h : laneUp s l = false) (hr : (lane s l).retraining = false) (cause : Nat) :
    holdLane l cause s = updLane l (heldLane cause) s := by
  rw [holdLane_eq, if_neg (by simp [h]), if_neg (by simp [hr])]
/-- A tree lane is held without a record of its own. -/
theorem faults_holdLane_tree {l : Nat} {s : State} (h : isTrayLink (linkOf s l) = false) (cause : Nat) :
    (holdLane l cause s).faults = s.faults := by
  obtain ⟨hfaults, hbark, -⟩ := laneLeavesUp_tree_facts (l := l) (s := updLane l (heldLane cause) s) h s
  rw [holdLane_eq, portDown_tree (by rw [linkOf_of_bark hbark]; exact h), portDown_tree (by exact h)]
  split
  · exact hfaults
  · split <;> rfl

end Sys2Proof.Machine
end

section
/-! Retraining, return and loss of a lane, and replay (R432 to R435, R443, R444, R454 to R457, R499). -/
namespace Sys2Proof.Machine
open Sys2Proof

/-! ### A retrain (R432, R433, R457) -/

/-- A lane's record when it retrains. -/
def retrainedLane (cause : Nat) (r : LaneRec) : LaneRec :=
  { (if cause = 1 then r else unlocked r) with
    st := .training, retraining := true, retrains := satInc 255 r.retrains, retrainCause := cause }

theorem exec_laneRetrain_due {s : State} {l : Lane} {cause : Nat} (hup : laneUp s l = true) (h : retrainDue s l cause = true) :
    exec (.laneRetrain l cause) s = .next (laneLeavesUp l s (updLane l (retrainedLane cause) s)) := by
  rw [exec, execLaneRetrain, hup, h]
  rfl
theorem exec_laneRetrain_undue {s : State} {l : Lane} {cause : Nat} (h : retrainDue s l cause = false) :
    exec (.laneRetrain l cause) s = .next s := by
  rw [exec, execLaneRetrain, h, Bool.and_false]
  rfl

theorem laneUp_retrained (l cause : Nat) (s : State) : laneUp (updLane l (retrainedLane cause) s) l = false := by
  rw [laneUp, lane_updLane_self]
  rfl

/-- The record of a tray port that has another lane UP is written when one leaves (R457). -/
theorem recorded_laneLeavesUp {l : Nat} {s : State} (h : isTrayLink (linkOf s l) = true) (hup : linkUp s (linkOf s l) = true) (s₀ : State) :
    Recorded s (laneLeavesUp l s₀ s) errPortNarrow := by
  obtain ⟨lost, peer, det, hu⟩ := narrowPort_eq l (linkOf s l) s
  have hput : (putFrames (linkOf s l) lost s).faults = s.faults := by rw [(framesOut_putFrames lost hup).1]
  rw [laneLeavesUp_tray h, if_pos hup, hu]
  exact ⟨_, by rw [(told_tellLeft ..).faults, raise_faults, hput], rfl⟩

theorem retrainDue_lock (s : State) (l : Nat) : retrainDue s l 1 = true ↔ ((lane s l).lockA = false ∨ (lane s l).lockB = false) := by
  cases ha : (lane s l).lockA <;> simp [retrainDue, ha]
theorem retrainDue_limit (s : State) (l : Nat) : retrainDue s l 2 = true ↔ 8 ≤ (link s (linkOf s l)).again := by simp [retrainDue]
theorem retrainDue_rate (s : State) (l : Nat) : retrainDue s l 3 = true ↔ 4096 ≤ replaysNow s (linkOf s l) := by simp [retrainDue]
theorem retrainDue_power (s : State) (l : Nat) : retrainDue s l 4 = true ↔ ((lane s l).powA < -120 ∨ (lane s l).powB < -120) := by
  simp [retrainDue]

/-! ### Skew on a tray port (R456) -/

/-- Delay of the shortest of the lanes `ls`. -/
def shortest (s : State) (ls : List Nat) : Nat := ls.foldl (fun b l => min b (lane s l).delay4) none32

theorem foldl_min_le {α : Type} (f : α → Nat) : ∀ (ls : List α) (b : Nat),
    ls.foldl (fun b l => min b (f l)) b ≤ b ∧ ∀ l ∈ ls, ls.foldl (fun b l => min b (f l)) b ≤ f l
  | [], b => ⟨le_rfl, nofun⟩
  | x :: ls, b => by
    obtain ⟨hb, hls⟩ := foldl_min_le f ls (min b (f x))
    refine ⟨hb.trans (min_le_left ..), fun l hl => ?_⟩
    obtain rfl | hl := List.mem_cons.mp hl
    · exact hb.trans (min_le_right ..)
    · exact hls l hl
theorem foldl_min_mem {α : Type} (f : α → Nat) : ∀ (ls : List α) (b : Nat),
    ls.foldl (fun b l => min b (f l)) b = b ∨ ∃ l ∈ ls, ls.foldl (fun b l => min b (f l)) b = f l
  | [], b => .inl rfl
  | x :: ls, b => by
    rw [List.foldl_cons]
    obtain h | ⟨l, hl, h⟩ := foldl_min_mem f ls (min b (f x))
    · rw [h]
      obtain h | h := min_choice b (f x)
      · exact .inl h
      · exact .inr ⟨x, List.mem_cons_self, h⟩
    · exact .inr ⟨l, List.mem_cons_of_mem _ hl, h⟩

theorem shortest_le {s : State} {ls : List Nat} {l : Nat} (h : l ∈ ls) : shortest s ls ≤ (lane s l).delay4 :=
  (foldl_min_le (fun l => (lane s l).delay4) ls none32).2 l h
theorem shortest_mem {s : State} {ls : List Nat} {l : Nat} (h : l ∈ ls) (hl : (lane s l).delay4 < none32) :
    ∃ j ∈ ls, shortest s ls = (lane s j).delay4 := by
  obtain hnone | hj := foldl_min_mem (fun l => (lane s l).delay4) ls none32
  · have hle : none32 ≤ (lane s l).delay4 := hnone.ge.trans (shortest_le h)
    omega
  · exact hj

/-- Lane `l` is held for skew, with its record. -/
def holdSkewed (best : Nat) (s : State) (l : Nat) : State := raiseLong l 2 (((lane s l).delay4 - best) / 4) 64 (holdLane l 2 s)

theorem checkSkew_tray {k : Nat} (h : isTrayLink k = true) (s : State) :
    let ups := (lanesOf k).filter (laneUp s)
    checkSkew k s = (ups.filter fun l => shortest s ups + 256 < (lane s l).delay4).foldl (holdSkewed (shortest s ups)) s := by
  rw [checkSkew, if_pos h]
  rfl
theorem checkSkew_tree {k : Nat} (h : isTrayLink k = false) (s : State) : checkSkew k s = s := if_neg (by simp [h])

/-- Where no UP lane lies more than 64 ns beyond another, none is held. -/
theorem checkSkew_close {k l : Nat} {s : State} (hl : l ∈ lanesOf k) (hup : laneUp s l = true) (hshort : (lane s l).delay4 ≤ 2020)
    (h : ∀ i ∈ lanesOf k, ∀ j ∈ lanesOf k, laneUp s i = true → laneUp s j = true → (lane s i).delay4 ≤ (lane s j).delay4 + 256) :
    checkSkew k s = s := by
  cases htray : isTrayLink k with
  | false => exact checkSkew_tree htray s
  | true =>
    have hmem : l ∈ (lanesOf k).filter (laneUp s) := List.mem_filter.mpr ⟨hl, hup⟩
    obtain ⟨j, hj, hbest⟩ := shortest_mem hmem (lt_of_le_of_lt hshort (by decide))
    obtain ⟨hjk, hjup⟩ := List.mem_filter.mp hj
    have hnone : ((lanesOf k).filter (laneUp s)).filter
        (fun l => decide (shortest s ((lanesOf k).filter (laneUp s)) + 256 < (lane s l).delay4)) = [] := by
      refine List.filter_eq_nil_iff.mpr fun i hi => ?_
      obtain ⟨hik, hiup⟩ := List.mem_filter.mp hi
      have hij := h i hik j hjk hiup hjup
      rw [hbest, decide_eq_true_eq]
      omega
    rw [checkSkew_tray htray, hnone]
    rfl

/-- Lane `l` is held for skew, and among the records is one of a link too long. -/
def SkewHeld (l : Nat) (s : State) : Prop :=
  (lane s l).st = .held ∧ (lane s l).heldCause = 2 ∧ ∃ f ∈ s.faults, f.code.toNat = errLinkLong

theorem mem_faults_raiseLong (l cause ns limit : Nat) (s : State) : ∃ f ∈ (raiseLong l cause ns limit s).faults, f.code.toNat = errLinkLong :=
  ⟨_, List.mem_cons_self, rfl⟩

theorem skewHeld_holdSkewed (best : Nat) (s : State) (l : Nat) : SkewHeld l (holdSkewed best s l) := by
  obtain ⟨hst, hcause⟩ := holdLane_held l 2 s
  exact ⟨hst, hcause, mem_faults_raiseLong ..⟩
theorem SkewHeld.holdSkewed {l : Nat} {s : State} (h : SkewHeld l s) (best j : Nat) : SkewHeld l (holdSkewed best s j) := by
  by_cases hj : l = j
  · subst hj
    exact skewHeld_holdSkewed best s l
  · obtain ⟨hst, hcause, -⟩ := h
    have hlane : lane (Machine.holdSkewed best s j) l = lane (holdLane j 2 s) l := rfl
    refine ⟨?_, ?_, mem_faults_raiseLong ..⟩
    · rw [hlane, lane_holdLane_ne hj]
      exact hst
    · rw [hlane, lane_holdLane_ne hj]
      exact hcause

/-- A lane that lies more than 64 ns beyond an UP lane of its port is held (R456). -/
theorem checkSkew_long {k l j : Nat} {s : State} (h : isTrayLink k = true) (hl : l ∈ lanesOf k) (hlup : laneUp s l = true) (hj : j ∈ lanesOf k)
    (hjup : laneUp s j = true) (hlong : (lane s j).delay4 + 256 < (lane s l).delay4) : SkewHeld l (checkSkew k s) := by
  have hbest : shortest s ((lanesOf k).filter (laneUp s)) ≤ (lane s j).delay4 := shortest_le (List.mem_filter.mpr ⟨hj, hjup⟩)
  rw [checkSkew_tray h]
  refine foldl_makes (P := SkewHeld) (fun s l => skewHeld_holdSkewed _ s l) (fun s l i hs => hs.holdSkewed _ i) _ s l ?_
  exact List.mem_filter.mpr ⟨List.mem_filter.mpr ⟨hl, hlup⟩, decide_eq_true (by omega)⟩

/-! ### A return (R433, R434) -/

/-- A lane's record when it is back from a retrain, its frame stream anew. -/
def returnedLane (s : State) (r : LaneRec) : LaneRec :=
  { r with st := .up, retraining := false, lockA := true, lockB := true, runA := (4, 0), runB := (4, 0), streamFrom := s.out.length
           sentTill := 100 * s.time }

/-- Lane `l` is back: its link replays, and others are told. -/
def laneReturns (l : Nat) (s : State) : State :=
  let k := linkOf s l
  let u := putFrames k (link s k).replay (updLane l (returnedLane s) s)
  if carries u l then sendReach l true (tellTray s u k) else tellTray s u k

theorem exec_retrainComplete {s : State} {l : Lane} (h : (lane s l).retraining = true) :
    exec (.retrainComplete l) s = .next (pumpLink (linkOf s l) (checkSkew (linkOf s l) (laneReturns l s))) := by
  rw [exec, execRetrainComplete, if_pos h]
  rfl

/-- The lane is UP; the held frames have gone out on the link's UP lanes, unchanged and in order, and no other link has changed. -/
theorem laneReturns_facts (l : Lane) (s : State) :
    let k := linkOf s l
    let u := laneReturns l s
    lane u l = { returnedLane s (lane s l) with sentTill := (lane u l).sentTill } ∧
      (∀ j : Nat, j ≠ l → lane u j = { lane s j with sentTill := (lane u j).sentTill }) ∧ (link u k).rxLast = (link s k).rxLast ∧
      ∃ (lns : List Nat) (rest : List Out), lns.length = (link s k).replay.length ∧ (∀ j ∈ lns, j ∈ lanesOf k ∧ laneUp u j = true) ∧
        u.out = s.out ++ (lns.zip (link s k).replay).map (fun e => Out.frame e.1 e.2) ++ rest := by
  intro k u
  have hup : linkUp (updLane l (returnedLane s) s) k = true :=
    List.any_eq_true.mpr ⟨l.val, mem_lanesOf_linkOf s l, by rw [laneUp, lane_updLane_self]; rfl⟩
  obtain ⟨lns, hlen, hmem, hout⟩ := out_putFrames (link s k).replay hup
  obtain ⟨-, hsend, -, hlink⟩ := framesOut_putFrames (link s k).replay hup
  have htold : Told (putFrames k (link s k).replay (updLane l (returnedLane s) s)) u := by
    have htray := told_tellTray s (putFrames k (link s k).replay (updLane l (returnedLane s) s)) k
    change Told _ (laneReturns l s)
    unfold laneReturns
    dsimp only
    split
    · exact htray.trans (told_sendReach ..)
    · exact htray
  have hkept : LanesKept (updLane l (returnedLane s) s) u := hsend.1.trans htold.lanesKept
  obtain ⟨rest, hrest⟩ := htold.2
  refine ⟨?_, fun j hj => ?_, ?_, lns, rest, hlen, fun j hj => ?_, ?_⟩
  · rw [hkept.2, lane_updLane_self]
  · rw [hkept.2, lane_updLane_ne hj]
  · rw [link, htold.optics]
    exact (congrArg Link.rxLast hlink).trans rfl
  · rw [hkept.laneUp]
    exact hmem j hj
  · rw [← hrest, hout]
    rfl

theorem laneReturns_laneUp (l : Lane) (s : State) : laneUp (laneReturns l s) l = true := by
  rw [laneUp, (laneReturns_facts l s).1]
  rfl
theorem laneReturns_laneUp_ne {l : Lane} {j : Nat} (h : j ≠ l) (s : State) : laneUp (laneReturns l s) j = laneUp s j := by
  rw [laneUp, (laneReturns_facts l s).2.1 j h, laneUp]
theorem laneReturns_delay4 (l : Lane) (s : State) (j : Nat) : (lane (laneReturns l s) j).delay4 = (lane s j).delay4 := by
  obtain ⟨hlane, hothers, -⟩ := laneReturns_facts l s
  by_cases hj : j = l
  · rw [hj, hlane]
    rfl
  · rw [hothers j hj]

/-- What its link sends afterwards leaves the lane held. -/
theorem SkewHeld.pumpLink {l : Nat} {s : State} (h : SkewHeld l s) (k : Nat) : SkewHeld l (pumpLink k s) := by
  have hpump := senderWorked_pumpLink k s
  unfold SkewHeld
  rw [hpump.faults, hpump.lanesKept.2]
  exact h

/-! ### A loss (R435, R458, R499) -/

/-- A lane's record when it has not come back in time. -/
def lostRetrain (r : LaneRec) : LaneRec := { unlocked r with st := .down, retraining := false }

/-- A tree link whose lane does not come back is empty (R435, R499). -/
theorem linkDead_tree {k : Nat} (h : isTrayLink k = false) (s : State) : linkDead (updLane k lostRetrain s) k = true := by
  have hlost : lane (updLane k lostRetrain s) k = lostRetrain (lane s k) := lane_updLane_self ..
  rw [linkDead, linkUp_tree h, lanesOf_tree h, laneUp, List.all_cons, List.all_nil, hlost]
  rfl
theorem dropLink_facts (k : Nat) (s : State) :
    let u := (dropLink k s).2
    link u k = {} ∧ queueAt u (linkKey k) = [] ∧ u.optics.lanes = s.optics.lanes ∧ u.faults = s.faults := by
  refine ⟨link_setLink_self .., ?_, rfl, rfl⟩
  have hempty : heldAt (dropLink k s).2 (linkKey k) = [] := by
    change tget (tset s.fabric.queues (linkKey k) [] []) (linkKey k) [] = []
    rw [tget_tset_self]
  rw [queueAt, hempty]
  rfl

theorem exec_retrainTimeout {s : State} {l : Lane} (h : (lane s l).retraining = true) :
    let t := updLane l lostRetrain s
    ∃ cause n, exec (.retrainTimeout l) s =
      .next (raiseDown l cause 2 n (if linkDead t (linkOf s l) then (dropLink (linkOf s l) t).2 else t)) := by
  intro t
  rw [exec, execRetrainTimeout, if_pos h]
  change ∃ cause n, Host.Outcome.next (raiseDown l _ 2 (if linkDead t (linkOf s l) then dropLink (linkOf s l) t else (0, t)).1
    (if linkDead t (linkOf s l) then dropLink (linkOf s l) t else (0, t)).2) = _
  cases linkDead t (linkOf s l) <;> exact ⟨_, _, rfl⟩

/-- The lane is DOWN, with its record; a link that is dead with it is empty (R433, R435, R499). -/
theorem retrainTimeout_facts {s : State} {l : Lane} (h : (lane s l).retraining = true) :
    ∃ u, exec (.retrainTimeout l) s = .next u ∧ (∀ j, lane u j = lane (updLane l lostRetrain s) j) ∧ Recorded s u errLaneDown ∧
      (linkDead (updLane l lostRetrain s) (linkOf s l) = true → link u (linkOf s l) = {} ∧ queueAt u (linkKey (linkOf s l)) = []) := by
  obtain ⟨cause, n, hexec⟩ := exec_retrainTimeout h
  obtain ⟨hlink, hqueue, hlanes, -⟩ := dropLink_facts (linkOf s l) (updLane l lostRetrain s)
  refine ⟨_, hexec, ?_⟩
  split
  · exact ⟨lane_congr hlanes, ⟨_, rfl, rfl⟩, fun _ => ⟨hlink, hqueue⟩⟩
  · next hdead => exact ⟨fun _ => rfl, ⟨_, rfl, rfl⟩, fun h => absurd h hdead⟩

theorem exec_frameReplayTimeout {s : State} {l : Lane} (h : laneUp s l = true) :
    exec (.frameReplayTimeout l) s = .next (replayLink (linkOf s l) s) := by
  rw [exec, execFrameReplayTimeout, if_pos h]

end Sys2Proof.Machine
end

section
open Sys2Proof Sys2Proof.Machine

/-- Settles O25, clause by clause: a retrain and its causes, the return with its replay, a lane held for skew, the timeout, and a replay. -/
theorem lanesLeaveAndReturn : Obligations.LanesLeaveAndReturn := by
  unfold Obligations.LanesLeaveAndReturn
  refine fun s l => ⟨fun cause hup => ⟨fun hdue => ?_, exec_laneRetrain_undue⟩,
    ⟨retrainDue_lock s l, retrainDue_power s l, retrainDue_limit s l, retrainDue_rate s l⟩, fun hret hshort hclose => ?_,
    fun j hret htray hj hjup hlong => ?_, fun hret => ?_, fun hup hheld => ?_⟩
  · have hdark := laneUp_retrained l cause s
    obtain ⟨hkept, hown⟩ := laneLeavesUp_lanes l s (updLane l (retrainedLane cause) s)
    refine ⟨_, exec_laneRetrain_due hup hdue, ?_, fun j hj => ?_, fun htree => ?_, fun htray ⟨j, hj, hne, hjup⟩ => ?_⟩
    · rw [hown l hdark, lane_updLane_self]
      rfl
    · rw [hkept.2, lane_updLane_ne hj]
    · obtain ⟨-, -, hlink⟩ := laneLeavesUp_tree_facts (s := updLane l (retrainedLane cause) s) htree s
      rw [linkOf_tree htree] at htree
      exact hlink l ((linkUp_tree htree).trans hdark)
    · refine recorded_laneLeavesUp (s := updLane l (retrainedLane cause) s) htray (List.any_eq_true.mpr ⟨j, hj, ?_⟩) s
      rwa [laneUp, lane_updLane_ne hne]
  · obtain ⟨hlane, hothers, hlast, lns, rest, hlen, hmem, hout⟩ := laneReturns_facts l s
    have hexec := exec_retrainComplete hret
    have hup : ∀ i, laneUp (laneReturns l s) i = true → i = l ∨ laneUp s i = true := fun i hi => or_iff_not_imp_left.mpr fun hne => by
      rwa [laneReturns_laneUp_ne hne] at hi
    have hskew : checkSkew (linkOf s l) (laneReturns l s) = laneReturns l s := by
      refine checkSkew_close (mem_lanesOf_linkOf s l) (laneReturns_laneUp l s) (by rwa [laneReturns_delay4]) fun i hi j hj hiup hjup => ?_
      rw [laneReturns_delay4, laneReturns_delay4]
      exact hclose i hi j hj (hup i hiup) (hup j hjup)
    rw [hskew] at hexec
    have hpump := senderWorked_pumpLink (linkOf s l) (laneReturns l s)
    have hkept := hpump.lanesKept
    obtain ⟨more, hmore⟩ := hkept.1
    refine ⟨_, hexec, (hkept.laneUp l).trans (laneReturns_laneUp l s), ?_, fun j hj => ?_, ?_, lns, rest ++ more, hlen, fun j hj => ?_, ?_⟩
    · rw [hkept.2, hlane]
      rfl
    · rw [hkept.2, hothers j hj]
    · exact hpump.2.2.2.receiver.1.trans hlast
    · rw [hkept.laneUp]
      exact hmem j hj
    · rw [← hmore, hout, List.append_assoc]
  · have hne : j ≠ l := by
      rintro rfl
      omega
    have hskew : SkewHeld l (checkSkew (linkOf s l) (laneReturns l s)) := by
      refine checkSkew_long htray (mem_lanesOf_linkOf s l) (laneReturns_laneUp l s) hj ((laneReturns_laneUp_ne hne s).trans hjup) ?_
      rwa [laneReturns_delay4, laneReturns_delay4]
    exact ⟨_, exec_retrainComplete hret, hskew.pumpLink (linkOf s l)⟩
  · obtain ⟨u, hexec, hlane, hrec, hempty⟩ := retrainTimeout_facts hret
    refine ⟨u, hexec, ?_, ?_, hrec, fun j hj => ?_, fun htree => ?_⟩
    · rw [hlane, lane_updLane_self]
      rfl
    · rw [hlane, lane_updLane_self]
      rfl
    · rw [hlane, lane_updLane_ne hj]
    · have hl : isTrayLink l = false := by rwa [linkOf_tree htree] at htree
      rw [linkOf_tree htree] at hempty
      exact hempty (linkDead_tree hl s)
  · have hlink := linkUp_of_laneUp hup
    obtain ⟨replayed, hu⟩ := replayLink_eq hheld
    rw [exec_frameReplayTimeout hup, hu]
    generalize linkOf s l = k at *
    generalize hr : { link s k with retries := (link s k).retries + (link s k).replay.length, again := (link s k).again + 1, replayed } = r
    have hlinkUp : linkUp (setLink k r s) k = true := hlink
    obtain ⟨lns, hlen, hmem, hout⟩ := out_putFrames (link s k).replay hlinkUp
    obtain ⟨hframe, hsend, hothers, hown⟩ := framesOut_putFrames (link s k).replay hlinkUp
    rw [link_setLink_self] at hown
    refine ⟨_, rfl, ⟨lns, hlen, hmem, hout⟩, ?_, ?_, ?_, ?_, ?_, hframe, fun j hj => (hothers j hj).trans (link_setLink_ne hj ..), hsend.1.2⟩ <;>
      rw [hown, ← hr]

end

section
/-! Training, INIT and discovery (R418 to R430, R707 to R712): codewords in a row, the init frames' tokens, and a lane that comes UP. -/
namespace Sys2Proof.Machine
open Sys2Proof

/-! ### Lock (R420) -/

theorem takeWord_true (lock : Bool) (g b : Nat) : takeWord (lock, g, b) true = (decide (3 ≤ g) || lock, min 4 (g + 1), 0) := by
  unfold takeWord
  by_cases h : 3 ≤ g
  · simp [h]
  · have hrun : min 4 (g + 1) ≠ 4 := by omega
    simp [h, hrun]
theorem takeWord_false (lock : Bool) (g b : Nat) : takeWord (lock, g, b) false = (decide (b < 15) && lock, 0, min 16 (b + 1)) := by
  unfold takeWord
  by_cases h : b < 15
  · have hrun : min 16 (b + 1) ≠ 16 := by omega
    simp [h, hrun]
  · have hrun : min 16 (b + 1) = 16 := by omega
    simp [h, hrun]

/-- Codewords in a row that decode bring lock with the fourth. -/
theorem foldl_takeWord_true (lock : Bool) (g b : Nat) : ∀ n : Nat,
    (List.replicate (n + 1) true).foldl takeWord (lock, g, b) = (decide (3 ≤ g + n) || lock, min 4 (g + n + 1), 0)
  | 0 => takeWord_true lock g b
  | n + 1 => by
    have hlock : (decide (3 ≤ min 4 (g + n + 1)) || decide (3 ≤ g + n)) = decide (3 ≤ g + (n + 1)) := by
      rw [← Bool.decide_or, decide_eq_decide]
      omega
    have hrun : min 4 (min 4 (g + n + 1) + 1) = min 4 (g + (n + 1) + 1) := by omega
    rw [List.replicate_succ', List.foldl_append, foldl_takeWord_true lock g b n, List.foldl_cons, List.foldl_nil, takeWord_true,
      ← Bool.or_assoc, hlock, hrun]
/-- Uncorrectable codewords in a row end lock with the sixteenth. -/
theorem foldl_takeWord_false (lock : Bool) (g b : Nat) : ∀ n : Nat,
    (List.replicate (n + 1) false).foldl takeWord (lock, g, b) = (decide (b + n < 15) && lock, 0, min 16 (b + n + 1))
  | 0 => takeWord_false lock g b
  | n + 1 => by
    have hlock : (decide (min 16 (b + n + 1) < 15) && decide (b + n < 15)) = decide (b + (n + 1) < 15) := by
      rw [← Bool.decide_and, decide_eq_decide]
      omega
    have hrun : min 16 (min 16 (b + n + 1) + 1) = min 16 (b + (n + 1) + 1) := by omega
    rw [List.replicate_succ', List.foldl_append, foldl_takeWord_false lock g b n, List.foldl_cons, List.foldl_nil, takeWord_false,
      ← Bool.and_assoc, hlock, hrun]

theorem takeWord_lock (g b : Nat) (lock : Bool) :
    ((List.replicate 4 true).foldl takeWord (lock, g, b)).1 = true ∧ ((List.replicate 16 false).foldl takeWord (lock, g, b)).1 = false ∧
      (∀ n, n < 4 → ((List.replicate n true).foldl takeWord (false, 0, b)).1 = false) ∧
      ∀ n, n < 16 → ((List.replicate n false).foldl takeWord (true, g, 0)).1 = true := by
  refine ⟨?_, ?_, fun n hn => ?_, fun n hn => ?_⟩
  · rw [foldl_takeWord_true lock g b 3]
    simp
  · rw [foldl_takeWord_false lock g b 15]
    simp
  · cases n with
    | zero => rfl
    | succ n =>
      rw [foldl_takeWord_true]
      simp
      omega
  · cases n with
    | zero => rfl
    | succ n =>
      rw [foldl_takeWord_false]
      simp
      omega

/-! ### Training and INIT (R418, R428, R429) -/

theorem exec_laneTrainingAttempt (s : State) (l : Lane) :
    exec (.laneTrainingAttempt l) s = .next (if s.dev.st ≠ .lookout ∧ (lane s l).st = .down then
      updLane l (fun r => { unlocked r with st := .training, retraining := false }) s else s) := rfl

theorem exec_trainingTimeout (s : State) (l : Lane) :
    exec (.trainingTimeout l) s = .next (if (lane s l).st = .training ∧ !(lane s l).retraining then
      updLane l (fun r => { unlocked r with st := .down }) s else s) := rfl

theorem exec_codewordLock (s : State) (l : Lane) (w : Wave) (words : List Bool) :
    exec (.codewordLock l w words) s = .next (
      if (lane s l).st = .training ∨ (lane s l).st = .init ∨ (lane s l).st = .up then
        let r := takeWords w words (lane s l)
        if r.st = .training ∧ r.lockA ∧ r.lockB ∧ !r.retraining then enterInit l (setLane l r s) else setLane l r s
      else s) := rfl

/-- A lane's record when it enters INIT, before it takes a token. -/
def initLane (s : State) (r : LaneRec) : LaneRec :=
  { r with st := .init, streamFrom := s.out.length, sentTill := 100 * s.time, lastToken := 0, tokenAt := s.time, delay4 := 0 }

theorem enterInit_eq (l : Nat) (s : State) : enterInit l s = sendInit l (newToken l (updLane l (initLane s) s)) := rfl

theorem newToken_updLane (l : Nat) (f : LaneRec → LaneRec) (s : State) :
    let v := newToken l (updLane l f s)
    lane v l = { f (lane s l) with token := Config.token s.draws } ∧ (∀ j, j ≠ l → lane v j = lane s j) ∧
      v = { s with optics.lanes := v.optics.lanes, draws := s.draws + 1 } := by
  refine ⟨?_, fun j hj => (lane_updLane_ne hj ..).trans (lane_updLane_ne hj ..), rfl⟩
  rw [newToken, lane_updLane_self]
  exact congrArg (fun r : LaneRec => { r with token := Config.token s.draws }) (lane_updLane_self l f s)

/-- An init frame of a lane leaves by that lane. -/
theorem sendInit_facts (l : Nat) (s : State) :
    let u := sendInit l s
    u.out = s.out ++ [.frame l (initAsFrame s l (ownInit s l))] ∧
      (lane u l = { lane s l with sentTill := (lane u l).sentTill }) ∧ (∀ j, j ≠ l → lane u j = lane s j) ∧
      u = { s with optics.lanes := u.optics.lanes, out := u.out } := by
  have hlane := lane_frameOut l (initAsFrame s l (ownInit s l)) s
  refine ⟨rfl, ?_, fun j hj => (hlane j).trans (if_neg hj), rfl⟩
  rw [sendInit, hlane l, if_pos rfl]

/-- A lane that enters INIT sends one init frame, of a fresh token, that echoes 0. -/
theorem enterInit_facts (l : Nat) (s : State) :
    let u := enterInit l s
    (lane u l).st = .init ∧ (lane u l).lockA = (lane s l).lockA ∧ (lane u l).lockB = (lane s l).lockB ∧ (lane u l).streamFrom = s.out.length ∧
      (∃ g : InitFrame, u.out = s.out ++ [.frame l (initAsFrame s l g)] ∧ g.magic = 0x4B4C ∧ g.token = (lane u l).token ∧ g.echo = 0 ∧
        g.turnaround = 0) ∧
      u = { s with optics.lanes := u.optics.lanes, out := u.out, draws := u.draws } ∧ ∀ j : Nat, j ≠ l → lane u j = lane s j := by
  intro u
  obtain ⟨hlane, hothers, hframe⟩ := newToken_updLane l (initLane s) s
  have hu : u = sendInit l (newToken l (updLane l (initLane s) s)) := enterInit_eq l s
  generalize newToken l (updLane l (initLane s) s) = v at hu hlane hothers hframe
  obtain ⟨hout, hown, hne, hsent⟩ := sendInit_facts l v
  have hlink : ∀ g, initAsFrame v l g = initAsFrame s l g := fun g => by rw [hframe]; rfl
  have hvout : v.out = s.out := by rw [hframe]
  have htime : v.time = s.time := by rw [hframe]
  rw [hu]
  refine ⟨?_, ?_, ?_, ?_, ⟨ownInit v l, ?_, rfl, ?_, ?_, ?_⟩, ?_, fun j hj => (hne j hj).trans (hothers j hj)⟩
  · rw [hown, hlane]
    rfl
  · rw [hown, hlane]
    rfl
  · rw [hown, hlane]
    rfl
  · rw [hown, hlane]
    rfl
  · rw [hout, hvout, hlink]
  · rw [hown, ownInit]
  · rw [ownInit, hlane]
    rfl
  · rw [ownInit, hlane, htime]
    simp [initLane]
  · rw [hsent, hframe]

/-! ### A lane comes UP (R428, R707) -/

/-- A lane's record when it comes UP. -/
def upLane (delay4 : Nat) (r : LaneRec) : LaneRec :=
  { r with st := .up, delay4, heldCause := 0, discovered := false, ctrlOnly := false, announced := none }

/-- Lane `l` is UP, its link begins anew or replays, and the tray is told. -/
def enterUp (l delay4 : Nat) (s : State) : State :=
  let k := linkOf s l
  let t := updLane l (upLane delay4) (if linkDead s k then setLink k {} s else s)
  tellTray s (if linkUp s k then t else putFrames k (link t k).replay t) k

theorem laneComesUp_eq (l delay4 : Nat) (s : State) :
    laneComesUp l delay4 s = pumpLink (linkOf s l) (checkSkew (linkOf s l) (sendDiscovery l (enterUp l delay4 s))) := rfl

theorem lanesSend_enterUp (l : Lane) (delay4 : Nat) (s : State) :
    LanesSend (linkOf s l) (updLane l (upLane delay4) s) (enterUp l delay4 s) := by
  obtain ⟨t, ht⟩ : ∃ t, t = updLane l (upLane delay4) (if linkDead s (linkOf s l) then setLink (linkOf s l) {} s else s) := ⟨_, rfl⟩
  have hbegun : LanesSend (linkOf s l) (updLane l (upLane delay4) s) t := by
    rw [ht]
    split <;> exact .of_lanes _ (List.prefix_refl _) rfl
  have hup : linkUp t (linkOf s l) = true := by
    refine List.any_eq_true.mpr ⟨l.val, mem_lanesOf_linkOf s l, ?_⟩
    rw [hbegun.1.laneUp, laneUp, lane_updLane_self]
    rfl
  have htold := told_tellTray s (if linkUp s (linkOf s l) then t else putFrames (linkOf s l) (link t (linkOf s l)).replay t) (linkOf s l)
  have hu : enterUp l delay4 s =
      tellTray s (if linkUp s (linkOf s l) then t else putFrames (linkOf s l) (link t (linkOf s l)).replay t) (linkOf s l) := by rw [ht]; rfl
  rw [hu]
  refine (hbegun.trans ?_).trans (.of_lanes _ htold.2 (by rw [htold.optics]))
  split
  · exact .of_lanes _ (List.prefix_refl _) rfl
  · exact (framesOut_putFrames _ hup).2.1

/-- The discovery record goes out on its lane, where the replay buffer has room (R445, R707). -/
theorem sendDiscovery_lanes (l : Nat) (s : State) :
    let u := sendDiscovery l s
    s.out <+: u.out ∧ (∀ j, j ≠ l → lane u j = lane s j) ∧
      lane u l = { lane s l with announced := (lane u l).announced, sentTill := (lane u l).sentTill } := by
  unfold sendDiscovery
  dsimp only
  split
  · exact ⟨List.prefix_refl _, fun _ _ => rfl, rfl⟩
  · refine ⟨List.prefix_append .., fun j hj => ?_, ?_⟩
    · rw [lane_frameOut, if_neg hj]
      exact lane_updLane_ne hj ..
    · rw [lane_frameOut, if_pos rfl, lane_updLane_self]
      rfl

theorem out_checkSkew (k : Nat) (s : State) : s.out <+: (checkSkew k s).out := by
  cases htray : isTrayLink k with
  | false => rw [checkSkew_tree htray]
  | true =>
    rw [checkSkew_tray htray]
    exact List.foldlRecOn (motive := fun u : State => s.out <+: u.out) _ _ (List.prefix_refl _) fun u hu i _ =>
      (hu.trans (out_holdLane i 2 u)).trans (List.prefix_append ..)

theorem out_laneComesUp (l : Lane) (delay4 : Nat) (s : State) : s.out <+: (laneComesUp l delay4 s).out := by
  have hup := (lanesSend_enterUp l delay4 s).1.1
  rw [laneComesUp_eq]
  exact ((hup.trans (sendDiscovery_lanes ..).1).trans (out_checkSkew ..)).trans (senderWorked_pumpLink ..).lanesKept.1

/-- A tree lane comes UP with its delay; no other lane changes. -/
theorem laneComesUp_tree {l : Lane} {s : State} (h : isTrayLink (linkOf s l) = false) (delay4 : Nat) :
    let u := laneComesUp l delay4 s
    (lane u l).st = .up ∧ (lane u l).delay4 = delay4 ∧ ∀ j : Nat, j ≠ l → lane u j = lane s j := by
  intro u
  have hk := linkOf_tree h
  have hl : isTrayLink l = false := by rwa [hk] at h
  have hu : u = pumpLink l (sendDiscovery l (enterUp l delay4 s)) := by
    rw [show u = laneComesUp l delay4 s from rfl, laneComesUp_eq, hk, checkSkew_tree hl]
  have hup := lanesSend_enterUp l delay4 s
  obtain ⟨-, hothers, hown⟩ := sendDiscovery_lanes l (enterUp l delay4 s)
  obtain ⟨-, hpump, -⟩ := senderWorked_pumpLink l (sendDiscovery l (enterUp l delay4 s))
  rw [hk] at hup
  have hnot : ∀ j : Nat, j ≠ l → j ∉ lanesOf l := fun j hj => by rwa [lanesOf_tree hl, List.mem_singleton]
  rw [hu]
  refine ⟨?_, ?_, fun j hj => ?_⟩
  · rw [hpump.1.2, hown, hup.1.2, lane_updLane_self]
    rfl
  · rw [hpump.1.2, hown, hup.1.2, lane_updLane_self]
    rfl
  · rw [hpump.2 j fun hm => absurd hm (hnot j hj), hothers j hj, hup.2 j fun hm => absurd hm (hnot j hj), lane_updLane_ne hj]

/-! ### INIT_FRAME (R429, R430) -/

/-- The partner's token is kept with the time at which it first came. -/
def noteToken (l : Nat) (f : InitFrame) (s : State) : State :=
  if f.token = (lane s l).lastToken then s else updLane l (fun r => { r with lastToken := f.token, tokenAt := s.time }) s

theorem noteToken_facts (l : Nat) (f : InitFrame) (s : State) :
    let t := noteToken l f s
    lane t l = { lane s l with lastToken := f.token, tokenAt := if f.token = (lane s l).lastToken then (lane s l).tokenAt else s.time } ∧
      (∀ j, j ≠ l → lane t j = lane s j) ∧ t = { s with optics.lanes := t.optics.lanes } := by
  unfold noteToken
  split
  · next h =>
    rw [h]
    exact ⟨rfl, fun _ _ => rfl, rfl⟩
  · exact ⟨lane_updLane_self .., fun _ hj => lane_updLane_ne hj .., rfl⟩

/-- The lane has its delay: beyond 505 ns it is held, else it comes UP (R430). -/
def takeDelay (l d4 : Nat) (s : State) : State :=
  if 2020 < d4 then raiseLong l 1 (d4 / 4) 505 (holdLane l 1 (updLane l (fun r => { r with delay4 := d4 }) s)) else laneComesUp l d4 s

theorem exec_initFrame_version {s : State} {l : Lane} {f : InitFrame} (hst : (lane s l).st = .init) (hmagic : f.magic = 0x4B4C)
    (h : f.verMax.toNat < 1 ∨ 1 < f.verMin.toNat) (rtt : Nat) :
    ∃ peer det, exec (.initFrame l f rtt) s = .next (raise errLinkVersion uLane l l peer det (holdLane l 4 s)) := by
  have hver : f.verMax < 1 ∨ 1 < f.verMin := h
  rw [exec, execInitFrame, if_neg (by simp [hst, hmagic]), if_pos hver]
  exact ⟨_, _, rfl⟩

theorem exec_initFrame {s : State} {l : Lane} {f : InitFrame} (hst : (lane s l).st = .init) (hmagic : f.magic = 0x4B4C)
    (hmax : 1 ≤ f.verMax.toNat) (hmin : f.verMin.toNat ≤ 1) (rtt : Nat) :
    exec (.initFrame l f rtt) s = .next (if f.echo ≠ (lane (noteToken l f s) l).token then noteToken l f s
      else takeDelay l (delayQuarter rtt f.turnaround.toNat).toNat (sendInit l (noteToken l f s))) := by
  have hver : ¬ (f.verMax < 1 ∨ 1 < f.verMin) := by
    rintro (h | h)
    · exact absurd (show f.verMax.toNat < 1 from h) (by omega)
    · exact absurd (show 1 < f.verMin.toNat from h) (by omega)
  rw [exec, execInitFrame, if_neg (by simp [hst, hmagic]), if_neg hver]
  rfl

theorem out_takeDelay (l : Lane) (d4 : Nat) (s : State) : s.out <+: (takeDelay l d4 s).out := by
  unfold takeDelay
  split
  · exact (out_holdLane l 1 (updLane l (fun r => { r with delay4 := d4 }) s)).trans (List.prefix_append ..)
  · exact out_laneComesUp l d4 s

/-- A lane in INIT that is too long is held with its record, and no other lane changes. -/
theorem takeDelay_long {l d4 : Nat} {s : State} (hst : (lane s l).st = .init) (hret : (lane s l).retraining = false) (h : 2020 < d4) :
    let u := takeDelay l d4 s
    (lane u l).st = .held ∧ (lane u l).heldCause = 1 ∧ Recorded s u errLinkLong ∧ ∀ j, j ≠ l → lane u j = lane s j := by
  have hlane : lane (updLane l (fun r => { r with delay4 := d4 }) s) l = { lane s l with delay4 := d4 } := lane_updLane_self ..
  have hdown : laneUp (updLane l (fun r => { r with delay4 := d4 }) s) l = false := by
    rw [laneUp, hlane, hst]
    rfl
  unfold takeDelay
  rw [if_pos h, holdLane_idle hdown (by rw [hlane, hret])]
  have hheld : ∀ t, lane (raiseLong l 1 (d4 / 4) 505 t) = lane t := fun _ => rfl
  refine ⟨?_, ?_, ⟨_, rfl, rfl⟩, fun j hj => ?_⟩
  · rw [hheld, lane_updLane_self]
    rfl
  · rw [hheld, lane_updLane_self]
    rfl
  · rw [hheld, lane_updLane_ne hj, lane_updLane_ne hj]

/-- The init frame that answers the echo states the turnaround since the partner's token came. -/
theorem exec_initFrame_echo {s : State} {l : Lane} {f : InitFrame} (hst : (lane s l).st = .init) (hmagic : f.magic = 0x4B4C)
    (hmax : 1 ≤ f.verMax.toNat) (hmin : f.verMin.toNat ≤ 1) (hecho : f.echo = (lane s l).token) (rtt : Nat) :
    ∃ t, exec (.initFrame l f rtt) s = .next (takeDelay l (delayQuarter rtt f.turnaround.toNat).toNat t) ∧
      (∃ g : InitFrame, t.out = s.out ++ [.frame l (initAsFrame s l g)] ∧ g.echo = f.token ∧ g.token = (lane s l).token ∧
        g.turnaround = BitVec.ofNat 32 (2 * (s.time - if f.token = (lane s l).lastToken then (lane s l).tokenAt else s.time))) ∧
      (lane t l).st = .init ∧ (lane t l).retraining = (lane s l).retraining ∧ (∀ j : Nat, j ≠ l → lane t j = lane s j) ∧
      t = { s with optics.lanes := t.optics.lanes, out := t.out } := by
  obtain ⟨hlane, hothers, hframe⟩ := noteToken_facts l f s
  have hexec := exec_initFrame hst hmagic hmax hmin rtt
  rw [if_neg (by rw [hlane, hecho]; simp)] at hexec
  generalize noteToken l f s = v at hlane hothers hframe hexec
  obtain ⟨hout, hown, hne, hsent⟩ := sendInit_facts l v
  have hvout : v.out = s.out := by rw [hframe]
  have htime : v.time = s.time := by rw [hframe]
  have hinit : ∀ g, initAsFrame v l g = initAsFrame s l g := fun g => by
    rw [hframe]
    rfl
  refine ⟨_, hexec, ⟨ownInit v l, ?_, ?_, ?_, ?_⟩, ?_, ?_, fun j hj => (hne j hj).trans (hothers j hj), ?_⟩
  · rw [hout, hvout, hinit]
  · rw [ownInit, hlane]
  · rw [ownInit, hlane]
  · rw [ownInit, hlane, htime]
  · rw [hown, hlane]
    exact hst
  · rw [hown, hlane]
  · rw [hsent, hframe]

/-! ### Discovery (R707, R709, R710) -/

theorem portOf_tree {s : State} {l : Nat} (h : isTrayLink (linkOf s l) = false) : portOf s l = 0xFF := by
  unfold linkOf at h
  unfold portOf
  split at h
  · simp [isTrayLink] at h
  · next hl => rw [if_neg hl]

/-- The partner that a discovery record shows is kept. -/
def notePartner (l : Nat) (d : Discovery) (s : State) : State :=
  updLane l (fun x => { x with partner := BitVec.ofNat 32 (d.lane.toNat * 65536 + d.ident.toNat), differs := recordDiffers s d }) s

section
variable {s : State} {l : Lane} {r : Ring} {w : Wire} {d : Discovery} (hring : s.dev.ring = some r)
  (hwire : r.wiring.find? (fun x => x.lane == l.val) = some w) (hup : laneUp s l = true) (htree : isTrayLink (linkOf s l) = false)
  (hremap : r.policy.treeRemap ≠ 2) (hmagic : d.magic = 0x4443) (hmax : 1 ≤ d.verMax.toNat) (hmin : d.verMin.toNat ≤ 1)
include hring hwire hup htree hremap hmagic hmax hmin

/-- On a tree lane without remapping the wiring's partner and the machine decide (Table 15-12). -/
theorem exec_discoveryRecord : exec (.discoveryRecord l d) s = .next (
    if d.machineId ≠ r.machineId ∨ !(r.wiring.any fun x => x.partner == d.ident) then miswire l 1 d (notePartner l d s)
    else if d.ident ≠ w.partner ∨ d.lane.toNat ≠ w.partnerLane then miswire l 3 d (notePartner l d s)
    else takeDigest l (foundPeer d) d.tableDigest (notePartner l d s)) := by
  have hver : ¬ (d.verMax < 1 ∨ 1 < d.verMin) := by
    rintro (h | h)
    · exact absurd (show d.verMax.toNat < 1 from h) (by omega)
    · exact absurd (show 1 < d.verMin.toNat from h) (by omega)
  have hw : (wireOf (notePartner l d s) l).getD ⟨l, 0xFFFF, 0⟩ = w := by
    have hfind : wireOf (notePartner l d s) l = some w := by
      have hsame : (notePartner l d s).dev.ring = some r := hring
      rw [wireOf, hsame]
      exact hwire
    rw [hfind]
    rfl
  have hport : portOf (notePartner l d s) l = 0xFF := portOf_tree htree
  rw [exec, execDiscoveryRecord, hring]
  dsimp only
  rw [if_neg (by simp [hup, hmagic]), if_neg hver]
  change Host.Outcome.next (if _ ∨ _ then miswire l 1 d (notePartner l d s) else if portOf (notePartner l d s) l < 4 then _ else
    if _ then _ else if d.ident ≠ ((wireOf (notePartner l d s) l).getD ⟨l, 0xFFFF, 0⟩).partner ∨
      d.lane.toNat ≠ ((wireOf (notePartner l d s) l).getD ⟨l, 0xFFFF, 0⟩).partnerLane then _ else _) = _
  rw [hport, hw]
  refine congrArg _ (ite_congr rfl (fun _ => rfl) fun _ => ?_)
  rw [if_neg (by decide : ¬ 255 < 4), if_neg (by simp [hremap])]
  rfl

/-- Another machine or another partner than the wiring's is a lane miswired (R710). -/
theorem exec_discoveryRecord_other (h : d.machineId ≠ r.machineId ∨ d.ident ≠ w.partner ∨ d.lane.toNat ≠ w.partnerLane) :
    ∃ cause, exec (.discoveryRecord l d) s = .next (miswire l cause d (notePartner l d s)) := by
  rw [exec_discoveryRecord hring hwire hup htree hremap hmagic hmax hmin]
  split
  · exact ⟨1, rfl⟩
  · next hmachine =>
    rw [if_pos (h.resolve_left fun hne => hmachine (.inl hne))]
    exact ⟨3, rfl⟩
theorem exec_discoveryRecord_partner (hmachine : d.machineId = r.machineId) (hident : d.ident = w.partner)
    (hlane : d.lane.toNat = w.partnerLane) :
    exec (.discoveryRecord l d) s = .next (takeDigest l (foundPeer d) d.tableDigest (notePartner l d s)) := by
  have hknown : (r.wiring.any fun x => x.partner == d.ident) = true :=
    List.any_eq_true.mpr ⟨w, List.mem_of_find?_eq_some hwire, beq_iff_eq.mpr hident.symm⟩
  rw [exec_discoveryRecord hring hwire hup htree hremap hmagic hmax hmin, if_neg (by simp [hmachine, hknown]), if_neg (by simp [hident, hlane])]

end

/-- A miswired tree lane is held with its record; of the other lanes UP ones may send (R499, R710). -/
theorem miswire_facts {s : State} {l : Nat} (h : isTrayLink (linkOf s l) = false) (cause : Nat) (d : Discovery) :
    let u := miswire l cause d s
    (lane u l).st = .held ∧ (lane u l).heldCause = 3 ∧ Recorded s u errLinkMiswired ∧
      ∀ j, j ≠ l → lane u j = { lane s j with sentTill := (lane u j).sentTill } := by
  intro u
  have hlane : ∀ j, lane u j = lane (holdLane l 3 s) j := fun _ => rfl
  obtain ⟨hst, hcause⟩ := holdLane_held l 3 s
  obtain ⟨f, hf, hcode⟩ : ∃ f : FaultRec, u.faults = (f :: (holdLane l 3 s).faults).take 256 ∧ f.code.toNat = errLinkMiswired := ⟨_, rfl, rfl⟩
  rw [faults_holdLane_tree h] at hf
  refine ⟨?_, ?_, ⟨f, hf, hcode⟩, fun j hj => ?_⟩
  · rw [hlane, hst]
  · rw [hlane, hcause]
  · rw [hlane, lane_holdLane_ne hj]

/-- An UP tree lane whose partner has this module's table digest carries every kind of traffic (R500, R505, R709). -/
theorem takeDigest_same {s : State} {l : Nat} (h : isTrayLink (linkOf s l) = false) (hup : laneUp s l = true) (peer : Nat) :
    let u := takeDigest l peer s.fabric.digest s
    (lane u l).st = .up ∧ (lane u l).partner = (lane s l).partner ∧ (∀ j, j ≠ l → lane u j = lane s j) ∧ carries u l = true ∧
      u.faults = s.faults := by
  have hst : (lane s l).st = .up := by simpa [laneUp] using hup
  obtain ⟨t, ht⟩ : ∃ t, t = updLane l (fun r => { r with discovered := true, ctrlOnly := false }) s := ⟨_, rfl⟩
  have hown : lane t l = { lane s l with discovered := true, ctrlOnly := false } := by rw [ht, lane_updLane_self]
  have hk : linkOf t l = l := by
    rw [ht]
    exact linkOf_tree h
  have hu : takeDigest l peer s.fabric.digest s = pumpLink l (if !carries s l then sendReach l true t else t) := by
    rw [takeDigest, if_neg (not_not_intro rfl), ← ht]
    dsimp only
    rw [hk]
  have htold : Told t (if !carries s l then sendReach l true t else t) := by
    split
    · exact told_sendReach ..
    · exact .refl t
  have hpump := senderWorked_pumpLink l (if !carries s l then sendReach l true t else t)
  have hkept := htold.lanesKept.trans hpump.lanesKept
  have hmem : ∀ j, j ≠ l → j ∉ lanesOf l := fun j hj => by rwa [lanesOf_tree (by rwa [linkOf_tree h] at h), List.mem_singleton]
  rw [hu]
  refine ⟨?_, ?_, fun j hj => ?_, ?_, ?_⟩
  · rw [hkept.2, hown]
    exact hst
  · rw [hkept.2, hown]
  · rw [hpump.2.1.2 j fun hm => absurd hm (hmem j hj), htold.lane, ht, lane_updLane_ne hj]
  · rw [hkept.carries, carries, laneUp, hown, hst]
    rfl
  · rw [hpump.faults, htold.faults, ht]
    rfl

/-- With another digest it carries CTRL alone, with the record (R505, R709). -/
theorem takeDigest_other {s : State} {l : Nat} (hup : laneUp s l = true) (peer : Nat) {digest : DWord} (h : digest ≠ s.fabric.digest) :
    let u := takeDigest l peer digest s
    (lane u l).st = .up ∧ (lane u l).partner = (lane s l).partner ∧ (∀ j, j ≠ l → lane u j = lane s j) ∧ carries u l = false ∧
      Recorded s u errTableEpoch := by
  intro u
  have hu : u = raiseEpoch (laneTile l) peer 0 (updLane l (fun r => { r with ctrlOnly := true }) s) := if_pos h
  have hlane : ∀ j, lane u j = lane (updLane l (fun r => { r with ctrlOnly := true }) s) j := fun j => by
    rw [hu]
    rfl
  refine ⟨?_, ?_, fun j hj => ?_, ?_, ?_⟩
  · rw [hlane, lane_updLane_self]
    simpa [laneUp] using hup
  · rw [hlane, lane_updLane_self]
  · rw [hlane, lane_updLane_ne hj]
  · rw [carries, hlane, lane_updLane_self]
    simp
  · rw [hu]
    exact ⟨_, rfl, rfl⟩

/-! ### Light on a lane that is not used (R422, R712) -/

theorem exec_laneExtraLight (s : State) (l : Lane) (a b : Int) :
    exec (.laneExtraLight l a b) s = .next (
      if s.dev.st ≠ .lookout ∧ (lane s l).st = .disabled ∧ (-120 < a ∨ -120 < b) ∧ !(lane s l).extraWritten then
        raise errLinkExtra uLane l l none32 (detail [(signedField 2 a, 2), (signedField 2 b, 2)])
          (setLane l { lane s l with extraWritten := true } s)
      else s) := rfl

end Sys2Proof.Machine
end

section
open Sys2Proof Sys2Proof.Machine

/-- Settles O24, clause by clause: training and lock, the init frames and the delay that they give, the discovery record, and light that should not be. -/
theorem lanesTrainAndComeUp : Obligations.LanesTrainAndComeUp := by
  unfold Obligations.LanesTrainAndComeUp
  refine fun s l => ⟨fun hst hdown => ?_, fun hup => ?_, takeWord_lock,
    fun w words => ⟨fun hst => ⟨fun h => ?_, fun ht ha hb hr => ?_⟩, fun hst => ?_⟩, fun hst hret => ?_,
    fun f rtt hst hret hmagic => ⟨fun hver => ?_, fun hmax hmin =>
      ⟨fun hecho => ?_, fun hecho => ⟨?_, fun hpos hshort htree => ?_, fun hlong => ?_⟩⟩⟩,
    fun r w d hring hwire hup htree hremap hmagic hmax hmin => ⟨fun hmachine hident hlane => ?_, fun h => ?_⟩,
    fun a b hst hdis hlight hnew => ?_⟩
  · exact ⟨_, (exec_laneTrainingAttempt s l).trans (congrArg _ (if_pos ⟨hst, hdown⟩)), lane_updLane_self .., rfl,
      fun j hj => lane_updLane_ne hj ..⟩
  · exact (exec_laneTrainingAttempt s l).trans (congrArg _ (if_neg fun h => hup h.2))
  · rw [exec_codewordLock, if_pos hst]
    dsimp only
    rw [if_neg]
    simpa using h
  · obtain ⟨hinit, hlockA, hlockB, hfrom, hsent, hframe, hothers⟩ := enterInit_facts l (setLane l (takeWords w words (lane s l)) s)
    rw [lane_setLane_self] at hlockA hlockB
    rw [exec_codewordLock, if_pos hst]
    dsimp only
    rw [if_pos ⟨ht, ha, hb, by simp [hr]⟩]
    exact ⟨_, rfl, hinit, hlockA.trans ha, hlockB.trans hb, hfrom, hsent, hframe, fun j hj => (hothers j hj).trans (lane_setLane_ne hj ..)⟩
  · rw [exec_codewordLock, if_neg]
    rintro (h | h | h) <;> simp [h] at hst
  · exact ⟨_, (exec_trainingTimeout s l).trans (congrArg _ (if_pos ⟨hst, by simp [hret]⟩)), lane_updLane_self .., rfl,
      fun j hj => lane_updLane_ne hj ..⟩
  · obtain ⟨peer, det, hexec⟩ := exec_initFrame_version hst hmagic hver rtt
    rw [holdLane_idle (by simp [laneUp, hst]) hret] at hexec
    have hlane : ∀ j, lane (raise errLinkVersion uLane l l peer det (updLane l (heldLane 4) s)) j = lane (updLane l (heldLane 4) s) j := fun _ => rfl
    refine ⟨_, hexec, ?_, ?_, ⟨_, rfl, rfl⟩, fun j hj => ?_⟩
    · rw [hlane, lane_updLane_self]
      rfl
    · rw [hlane, lane_updLane_self]
      rfl
    · rw [hlane, lane_updLane_ne hj]
  · obtain ⟨hlane, hothers, hframe⟩ := noteToken_facts l f s
    have hexec := exec_initFrame hst hmagic hmax hmin rtt
    rw [if_pos (by rwa [hlane])] at hexec
    exact ⟨_, hexec, hlane, hframe, hothers⟩
  · obtain ⟨t, hexec, ⟨g, hout, hecho', htoken, hturn⟩, -⟩ := exec_initFrame_echo hst hmagic hmax hmin hecho rtt
    obtain ⟨rest, hrest⟩ := out_takeDelay l (delayQuarter rtt f.turnaround.toNat).toNat t
    exact ⟨_, hexec, g, rest, by rw [← hrest, hout, List.append_assoc]; rfl, hecho', htoken, hturn⟩
  · obtain ⟨t, hexec, -, -, -, hothers, hframe⟩ := exec_initFrame_echo hst hmagic hmax hmin hecho rtt
    have hsame : linkOf t l = linkOf s l := linkOf_of_bark (by rw [hframe]) l
    obtain ⟨hup, hdelay, hne⟩ := laneComesUp_tree (s := t) (by rwa [hsame]) (delayQuarter rtt f.turnaround.toNat).toNat
    rw [takeDelay, if_neg (by unfold delayQuarter; omega)] at hexec
    refine ⟨_, hexec, hup, ?_, fun j hj => (hne j hj).trans (hothers j hj)⟩
    rw [hdelay, delayQuarter]
    omega
  · obtain ⟨t, hexec, -, htst, htret, hothers, hframe⟩ := exec_initFrame_echo hst hmagic hmax hmin hecho rtt
    obtain ⟨hheld, hcause, ⟨g, hg, hcode⟩, hne⟩ := takeDelay_long htst (htret.trans hret)
      (show 2020 < (delayQuarter rtt f.turnaround.toNat).toNat by unfold delayQuarter; omega)
    have hfaults : t.faults = s.faults := by rw [hframe]
    exact ⟨_, hexec, hheld, hcause, ⟨g, hg.trans (by rw [hfaults]), hcode⟩, fun j hj => (hne j hj).trans (hothers j hj)⟩
  · have hnoted : laneUp (notePartner l d s) l = true := by rwa [laneUp, notePartner, lane_updLane_self]
    have hshown : (lane (notePartner l d s) l).partner.toNat = d.lane.toNat * 65536 + d.ident.toNat := by
      rw [notePartner, lane_updLane_self, BitVec.toNat_ofNat]
      omega
    have hexec := exec_discoveryRecord_partner hring hwire hup htree hremap hmagic hmax hmin hmachine hident hlane
    by_cases hdigest : d.tableDigest = s.fabric.digest
    · obtain ⟨hst, hpartner, hothers, hcarries, hfaults⟩ := takeDigest_same (s := notePartner l d s) (l := l) htree hnoted (foundPeer d)
      rw [hdigest] at hexec ⊢
      exact ⟨_, hexec, hst, (congrArg BitVec.toNat hpartner).trans hshown, fun j hj => (hothers j hj).trans (lane_updLane_ne hj ..),
        fun _ => ⟨hcarries, hfaults⟩, fun hne => absurd rfl hne⟩
    · obtain ⟨hst, hpartner, hothers, hcarries, hrec⟩ := takeDigest_other (s := notePartner l d s) (l := l) hnoted (foundPeer d) hdigest
      exact ⟨_, hexec, hst, (congrArg BitVec.toNat hpartner).trans hshown, fun j hj => (hothers j hj).trans (lane_updLane_ne hj ..),
        fun heq => absurd heq hdigest, fun _ => ⟨hcarries, hrec⟩⟩
  · obtain ⟨cause, hexec⟩ := exec_discoveryRecord_other hring hwire hup htree hremap hmagic hmax hmin h
    obtain ⟨hst, hcause, hrec, hothers⟩ := miswire_facts (s := notePartner l d s) (l := l) htree cause d
    refine ⟨_, hexec, hst, hcause, hrec, fun j hj => ?_⟩
    rw [hothers j hj, notePartner, lane_updLane_ne hj]
  · have hlane : ∀ det j, lane (raise errLinkExtra uLane l l none32 det (setLane l { lane s l with extraWritten := true } s)) j =
        lane (setLane l { lane s l with extraWritten := true } s) j := fun _ _ => rfl
    refine ⟨_, (exec_laneExtraLight s l a b).trans (congrArg _ (if_pos ⟨hst, hdis, hlight, by simp [hnew]⟩)), ⟨_, rfl, rfl⟩, ?_, ?_,
      fun j hj => ?_⟩
    · rw [hlane, lane_setLane_self]
      exact hdis
    · rw [exec_laneExtraLight, hlane, lane_setLane_self, if_neg (by simp)]
    · rw [hlane, lane_setLane_ne hj]

end

section
/-! Reach, tray states, table digests and epochs (R482, R483, R500 to R509). -/
namespace Sys2Proof.Machine
open Sys2Proof

/-! ### Reach (R500 to R502) -/

theorem mem_sinsert {l : List Nat} {n y : Nat} : y ∈ sinsert l n ↔ y = n ∨ y ∈ l := by
  induction l with
  | nil => simp [sinsert]
  | cons m ms ih =>
    unfold sinsert
    split
    · rw [List.mem_cons, ih, List.mem_cons]
      exact or_left_comm
    · split
      · next h => simp [h]
      · exact List.mem_cons

/-- Planes withdrawn for an endpoint after a withdrawal or restoral of one plane. -/
def reachMask (lost : List Nat) (plane : Nat) (restoral : Bool) : List Nat :=
  if restoral then lost.filter (· != plane) else sinsert lost plane

theorem mem_reachMask_self (lost : List Nat) (plane : Nat) (restoral : Bool) : plane ∈ reachMask lost plane restoral ↔ restoral = false := by
  cases restoral
  · simpa [reachMask] using mem_sinsert_self lost plane
  · simp [reachMask]
theorem mem_reachMask_ne {plane y : Nat} (h : y ≠ plane) (lost : List Nat) (restoral : Bool) :
    y ∈ reachMask lost plane restoral ↔ y ∈ lost := by
  cases restoral
  · simp [reachMask, mem_sinsert, h]
  · simp [reachMask, h]

/-- The times of reach with that of one subject set. -/
def noteReach (sub : ReachSubject) (m : DWord) (s : State) : State :=
  { s with fabric.reachTimes := (sub, m) :: s.fabric.reachTimes.filter fun e => e.1 != sub }

theorem reachTime_noteReach (sub : ReachSubject) (m : DWord) (s : State) : reachTime (noteReach sub m s) sub = some m := by
  simp [reachTime, noteReach]

theorem exec_reach_later {s : State} {sub : ReachSubject} {m : DWord} (h : ∀ m', reachTime s sub = some m' → m'.toNat < m.toNat)
    (restoral : Bool) : exec (.reach sub restoral m) s = .next (applyReach sub restoral (noteReach sub m s)) := by
  rw [exec, execReach]
  refine congrArg _ (if_pos ?_)
  split
  · next t ht => exact decide_eq_true (h t ht)
  · rfl
theorem exec_reach_earlier {s : State} {sub : ReachSubject} {m m' : DWord} (h : reachTime s sub = some m') (hle : m.toNat ≤ m'.toNat)
    (restoral : Bool) : exec (.reach sub restoral m) s = .next s := by
  rw [exec, execReach, h]
  exact congrArg _ (if_neg (by simpa using hle))

/-- On a compute module a plane of one endpoint leaves or rejoins that endpoint's mask. -/
theorem applyReach_endpoint {s : State} (h : isFA s = false) (plane x : Nat) (restoral : Bool) :
    applyReach (.endpoint plane x) restoral s =
      { s with fabric.lostReach := tset s.fabric.lostReach x (reachMask (tget s.fabric.lostReach x []) plane restoral) [] } := by
  rw [applyReach]
  exact if_neg (by simp [h])

/-! ### Tray states (R482, R483) -/

theorem exec_trayState (slot : Fin 9) (live : Bool) (ports : BitVec 4) (s : State) :
    exec (.trayState slot live ports) s = .next { s with
      fabric.deadSlots := if !live || ports == 0 then sinsert (s.fabric.deadSlots.filter (· != slot.val)) slot.val
        else s.fabric.deadSlots.filter (· != slot.val)
      fabric.deadPorts := (s.fabric.deadPorts.filter fun e => e.1 != slot.val) ++
        ((List.range 4).filter fun q => !ports.getLsbD q).map fun q => (slot.val, q) } := rfl

/-! ### Table digests (R504, R505) -/

theorem exec_tableDigest {s : State} {l : Lane} (h : laneUp s l = true) (g : DWord) :
    exec (.tableDigest l g) s = .next (takeDigest l (lanePeer s l) g s) := congrArg _ (if_pos h)
theorem exec_tableDigest_down {s : State} {l : Lane} (h : laneUp s l = false) (g : DWord) : exec (.tableDigest l g) s = .next s :=
  congrArg _ (if_neg (by simp [h]))

/-- An UP lane whose partner has this module's digest carries every kind of traffic; the sending that this starts leaves the other lanes' records but for
the time till which they send, and the faults. -/
theorem takeDigest_matching {s : State} {l : Nat} (hup : laneUp s l = true) (peer : Nat) :
    let u := takeDigest l peer s.fabric.digest s
    carries u l = true ∧ u.faults = s.faults ∧ ∀ j, j ≠ l → lane u j = { lane s j with sentTill := (lane u j).sentTill } := by
  have hst : (lane s l).st = .up := by simpa [laneUp] using hup
  obtain ⟨t, ht⟩ : ∃ t, t = updLane l (fun r => { r with discovered := true, ctrlOnly := false }) s := ⟨_, rfl⟩
  have hu : takeDigest l peer s.fabric.digest s = pumpLink (linkOf t l) (if !carries s l then sendReach l true t else t) := by
    rw [takeDigest, if_neg (not_not_intro rfl), ← ht]
  have htold : Told t (if !carries s l then sendReach l true t else t) := by
    split
    · exact told_sendReach ..
    · exact .refl t
  have hpump := senderWorked_pumpLink (linkOf t l) (if !carries s l then sendReach l true t else t)
  have hkept := htold.lanesKept.trans hpump.lanesKept
  rw [hu]
  refine ⟨?_, ?_, fun j hj => ?_⟩
  · rw [hkept.carries, carries, laneUp, ht, lane_updLane_self, hst]
    rfl
  · rw [hpump.faults, htold.faults, ht]
    rfl
  · rw [hkept.2, ht, lane_updLane_ne hj]

/-- Where the lane carried every kind of traffic and nothing is queued for its link, nothing changes. -/
theorem takeDigest_again {s : State} {l : Nat} (h : carries s l = true) (hq : heldAt s (linkKey (linkOf s l)) = []) (peer : Nat) :
    takeDigest l peer s.fabric.digest s = setLane l (lane s l) s := by
  obtain ⟨⟨-, hdisc⟩, hctrl⟩ : (laneUp s l = true ∧ (lane s l).discovered = true) ∧ (lane s l).ctrlOnly = false := by
    simpa [carries] using h
  have hsame : updLane l (fun r => { r with discovered := true, ctrlOnly := false }) s = setLane l (lane s l) s := by
    rw [updLane, ← hdisc, ← hctrl]
  rw [takeDigest, if_neg (not_not_intro rfl), hsame]
  have hq' : heldAt (setLane l (lane s l) s) (linkKey (linkOf (setLane l (lane s l) s) l)) = [] := hq
  simp [h, pumpLink, hq', pumpPackets]

/-! ### Epochs (R508, R509) -/

/-- The armed copy comes into force (R508). -/
def switchEpoch (s : State) : State :=
  { s with fabric := { s.fabric with epoch := !s.fabric.epoch, oldValid := true, inactiveComplete := false, armed := false, changing := false
                                     epochWritten := [], digest := tablesDigest (copyOf s (!s.fabric.epoch)) } }

theorem exec_epochSwitch (s : State) : exec .epochSwitch s = .next
    (if s.fabric.armed && decide (s.fabric.switchTime.toNat ≤ s.mtc.value.toNat) then switchEpoch s else s) := rfl
theorem exec_oldEpochRetire (s : State) : exec .oldEpochRetire s = .next
    (if s.fabric.oldValid && heldOld s == 0 && decide (s.fabric.switchTime.toNat + 100000 ≤ s.mtc.value.toNat) then
      { s with fabric.oldValid := false } else s) := rfl

theorem heldOld_eq_zero {s : State} (h : ∀ e ∈ s.fabric.queues, ∀ q ∈ e.2, q.p.flags.getLsbD 0 = s.fabric.epoch) : heldOld s = 0 := by
  have hnone : ∀ e ∈ s.fabric.queues, (e.2.countP fun q => q.p.flags.getLsbD 0 != s.fabric.epoch) = 0 := fun e he =>
    List.countP_eq_zero.mpr fun q hq => by
      rw [h e he q hq, bne_self_eq_false]
      exact Bool.false_ne_true
  rw [heldOld, List.map_congr_left hnone, sumNat]
  induction s.fabric.queues with
  | nil => rfl
  | cons e es ih => exact ih

end Sys2Proof.Machine
end

section
open Sys2Proof Sys2Proof.Machine

/-- Settles O32, clause by clause: a subject's reach by its times, a slot's state and ports, a digest on an UP lane, and the two epochs' copies. -/
theorem reachTrayAndTableEpochs : Obligations.ReachTrayAndTableEpochs := by
  unfold Obligations.ReachTrayAndTableEpochs
  refine fun s => ⟨fun plane x restoral m hfa hlater => ?_, fun sub restoral m m' h hle => exec_reach_earlier h hle restoral,
    fun slot live ports => ⟨_, exec_trayState slot live ports s, ?_, fun j hj => ?_, fun q hq => ?_, fun j q hj => ?_, rfl⟩,
    fun l g hup => ⟨?_, fun hg => ?_⟩, fun l g hdown => exec_tableDigest_down hdown g, fun harmed htime => ?_, fun h => ?_,
    fun hold hnone htime => ?_, fun htime => ?_⟩
  · refine ⟨_, exec_reach_later hlater restoral, ?_⟩
    rw [applyReach_endpoint (s := noteReach (.endpoint plane x) m s) hfa]
    dsimp only
    refine ⟨reachTime_noteReach .., ?_, fun y hy => ?_, fun y hy => ?_, rfl⟩
    · rw [tget_tset_self]
      exact mem_reachMask_self ..
    · rw [tget_tset_self]
      exact mem_reachMask_ne hy ..
    · exact tget_tset_ne _ _ _ _ _ hy
  · by_cases hdead : (!live || ports == 0) = true
    · simp only [if_pos hdead, mem_sinsert, true_or, true_iff]
      simpa using hdead
    · simp only [if_neg hdead, List.mem_filter, bne_self_eq_false, Bool.false_eq_true, and_false, false_iff]
      simpa using hdead
  · dsimp only
    split <;> simp [mem_sinsert, hj]
  · simp [hq]
  · simp [hj, hj.symm]
  · rintro rfl
    obtain ⟨hcarries, hfaults, hothers⟩ := takeDigest_matching hup (lanePeer s l)
    refine ⟨_, exec_tableDigest hup _, hcarries, hfaults, hothers, fun h hq => ?_⟩
    rw [takeDigest_again h hq]
    exact ⟨rfl, lane_setLane_self ..⟩
  · obtain ⟨hst, -, hothers, hcarries, hrec⟩ := takeDigest_other hup (lanePeer s l) hg
    exact ⟨_, exec_tableDigest hup g, hcarries, by simp [laneUp, hst], hrec, hothers⟩
  · refine ⟨_, (exec_epochSwitch s).trans (congrArg _ (if_pos (by simp [harmed, htime]))), rfl, rfl, rfl, rfl, rfl, rfl, rfl, rfl⟩
  · rw [exec_epochSwitch, if_neg]
    simp only [Bool.and_eq_true, decide_eq_true_eq, not_and, Nat.not_le]
    exact fun ha => h.resolve_left (by simp [ha])
  · rw [exec_oldEpochRetire, if_pos (by simp [hold, heldOld_eq_zero hnone, htime])]
  · rw [exec_oldEpochRetire, if_neg (by simp; omega)]

end

section
/-! Queues, counters and the escape table under routing: what each step of a router queues, and what all of them leave (R473, R475, R493, R513). -/
namespace Sys2Proof.Machine
open Sys2Proof

/-! ### Queues and counters -/

theorem heldAt_setQueue (key : Nat) (q : List Queued) (s : State) (j : Nat) :
    heldAt (setQueue key q s) j = if j = key then q else heldAt s j := by
  rw [heldAt, setQueue]
  split
  · next h => rw [h, tget_tset_self]
  · next h => exact tget_tset_ne _ _ _ _ _ h
theorem heldAt_pushQueue (key : Nat) (h : Queued) (s : State) (j : Nat) :
    heldAt (pushQueue key h s) j = if j = key then heldAt s key ++ [h] else heldAt s j := heldAt_setQueue ..
theorem heldAt_served (ctr v : Nat) (h : Queued) (s : State) (j : Nat) : heldAt (served ctr v h s) j = heldAt s j := by
  unfold served
  split <;> rfl

theorem queueAt_pushQueue (key : Nat) (h : Queued) (s : State) (j : Nat) :
    queueAt (pushQueue key h s) j = if j = key then queueAt s key ++ [h.p] else queueAt s j := by
  rw [queueAt, heldAt_pushQueue]
  split
  · rw [List.map_append]
    rfl
  · rfl

theorem ctr_countPort_self (key : Nat) (f : PortCtr → PortCtr) (s : State) :
    tget (countPort key f s).fabric.ctrs key {} = f (tget s.fabric.ctrs key {}) := tget_tset_self ..
/-- A count that a change of a counter leaves stays at every port. -/
theorem ctr_countPort_keeps {α : Type} (g : PortCtr → α) {f : PortCtr → PortCtr} (hg : ∀ c, g (f c) = g c) (key : Nat) (s : State) (c : Nat) :
    g (tget (countPort key f s).fabric.ctrs c {}) = g (tget s.fabric.ctrs c {}) := by
  by_cases h : c = key
  · rw [h, ctr_countPort_self, hg]
  · exact congrArg g (tget_tset_ne _ _ _ _ _ h)

theorem vcCode_le (vc : VC) : vcCode vc ≤ 5 := by cases vc <;> decide

/-- A packet that enters a router has not aged there yet. -/
theorem aged_entering {s u : State} (h : u.time = s.time) (port : Nat) (p : Packet) : aged u (entering s port p) = p := by
  have hage : ageNow u (entering s port p) = p.age.toNat := by
    have hlt := p.age.isLt
    rw [ageNow, entering, h, Nat.sub_self, Nat.zero_div]
    exact min_eq_right (show p.age.toNat ≤ 255 by omega)
  rw [aged, hage, BitVec.ofNat_toNat, BitVec.setWidth_eq]
  rfl

/-! ### What a bridge link's sending marks (R380) -/

/-- A queued packet without the transfer that it was sent by. -/
def unsent (h : Queued) : Queued := { h with transfer := none }

/-- Every queue is as it was, but that packets may have been sent by a transfer. -/
structure Marked (s u : State) : Prop where
  held : ∀ key, (heldAt u key).map unsent = (heldAt s key).map unsent

theorem Marked.of_heldAt {s u : State} (h : ∀ key, heldAt u key = heldAt s key) : Marked s u := ⟨fun key => congrArg _ (h key)⟩
theorem Marked.refl (s : State) : Marked s s := .of_heldAt fun _ => rfl
theorem Marked.trans {s u v : State} (h : Marked s u) (g : Marked u v) : Marked s v := ⟨fun key => (g.held key).trans (h.held key)⟩
theorem Marked.queueAt {s u : State} (h : Marked s u) (key : Nat) : queueAt u key = queueAt s key := by
  have hof : ∀ v : State, Machine.queueAt v key = ((heldAt v key).map unsent).map (·.p) := fun v => by
    rw [List.map_map]
    rfl
  rw [hof, hof, h.held]
theorem Marked.lastHeading {s u : State} (h : Marked s u) (key : Nat) :
    (heldAt u key).getLast?.map (·.heading) = (heldAt s key).getLast?.map (·.heading) := by
  have hof : ∀ v : State, (heldAt v key).getLast?.map (·.heading) = ((heldAt v key).map unsent).getLast?.map (·.heading) := fun v => by
    rw [List.getLast?_map, Option.map_map]
    rfl
  rw [hof, hof, h.held]

theorem marked_setHeld (key : Nat) (h : Queued) (q : Option Nat) (s : State) : Marked s (setHeld key h { h with transfer := q } s) := by
  refine ⟨fun j => ?_⟩
  rw [setHeld, heldAt_setQueue]
  split
  · next hj =>
    rw [hj, List.map_map]
    refine List.map_congr_left fun x _ => ?_
    by_cases hx : x = h
    · simp [hx, unsent]
    · simp [hx]
  · rfl

theorem marked_pumpBridge (k d : Nat) : ∀ (n : Nat) (s : State), Marked s (pumpBridge k d n s)
  | 0, s => .refl s
  | n + 1, s => by
    rw [pumpBridge]
    dsimp only
    split
    · split
      · exact .refl s
      · next v h _ =>
        generalize hheld : setHeld _ h _ s = t
        have hmarked : Marked s t := hheld ▸ marked_setHeld ..
        refine hmarked.trans (Marked.trans ?_ (marked_pumpBridge k d n _))
        exact .of_heldAt (heldAt_served (meshCtr (bridgePort k d).1 (bridgePort k d).2) v h t)
    · exact .refl s

theorem marked_pushPort (t port : Nat) (vc : VC) (h : Queued) (s : State) :
    Marked (pushQueue (queueKey t port (vcCode vc)) h s) (pushPort t port vc h s) := by
  unfold pushPort
  dsimp only
  split
  · refine Marked.trans ?_ (marked_pumpBridge ..)
    exact .of_heldAt fun _ => rfl
  · exact .of_heldAt fun _ => rfl
theorem pushPort_frame (t port : Nat) (vc : VC) (h : Queued) (s : State) : ∃ fabric links out,
    pushPort t port vc h s = { s with fabric, stacking.links := links, out } := by
  unfold pushPort
  dsimp only
  split
  · exact ⟨_, _, _, (pumped_pumpBridge ..).1⟩
  · exact ⟨_, _, _, rfl⟩
theorem queueAt_pushPort (t port : Nat) (vc : VC) (h : Queued) (s : State) (key : Nat) :
    queueAt (pushPort t port vc h s) key =
      if key = queueKey t port (vcCode vc) then queueAt s (queueKey t port (vcCode vc)) ++ [h.p] else queueAt s key := by
  rw [(marked_pushPort ..).queueAt, queueAt_pushQueue]
theorem lastHeading_pushPort (t port : Nat) (vc : VC) (h : Queued) (s : State) :
    (heldAt (pushPort t port vc h s) (queueKey t port (vcCode vc))).getLast?.map (·.heading) = some h.heading := by
  rw [(marked_pushPort ..).lastHeading, heldAt_pushQueue, if_pos rfl, List.getLast?_concat]
  rfl

/-! ### Ports -/

theorem productive_lt {t u q : Nat} (h : q ∈ productive t u) : q < 4 := by
  unfold productive at h
  grind
theorem adaptivePort_lt {s : State} {t u v q : Nat} (h : adaptivePort s t u v = some q) : q < 4 := by
  have hmem : ∀ x, x ∈ (productive t u).filter (portOpen s t) → x < 4 := fun x hx => productive_lt (List.mem_of_mem_filter hx)
  unfold adaptivePort at h
  split at h
  · exact nomatch h
  · next heq => exact hmem q (by rw [heq]; simp_all)
  · next heq =>
    refine hmem q ?_
    rw [heq]
    split at h <;> simp_all
theorem escapePort_lt {s : State} {t u q : Nat} {down : Bool} (h : escapePort s t u down = some q) : q < 4 := by
  unfold escapePort at h
  split at h
  · exact productive_lt (List.mem_of_mem_head? h)
  · obtain ⟨v, -, hv⟩ := Option.bind_eq_some_iff.mp h
    exact List.mem_range.mp (List.mem_of_find?_eq_some hv)
theorem multicastPorts_lt {t port q : Nat} {mask : BitVec 256} (h : q ∈ multicastPorts t port mask) : q < 4 := by
  unfold multicastPorts at h
  simp only [List.mem_append] at h
  grind
theorem bridgePort_lt (k d : Nat) : (bridgePort k d).2 < 4 := by
  unfold bridgePort
  grind

/-! ### What routing leaves -/

/-- A key of the queues of packets that wait in a router for an open port. -/
def WaitsOpen (key : Nat) : Prop := key < 1000000 ∧ key % 2048 / 8 = 5

theorem waitsOpen_queueKey (t : Tile) (vc : VC) : WaitsOpen (queueKey t 5 (vcCode vc)) := by
  have hvc := vcCode_le vc
  have ht := t.isLt
  unfold WaitsOpen queueKey
  omega
theorem not_waitsOpen_linkKey (k : Nat) : ¬ WaitsOpen (linkKey k) := by
  unfold WaitsOpen linkKey
  omega
theorem not_waitsOpen_queueKey {port v : Nat} (hport : port ≠ 5) (hlt : port < 8) (hv : v ≤ 5) (t : Nat) : ¬ WaitsOpen (queueKey t port v) := by
  unfold WaitsOpen queueKey
  omega

/-- The copies of the escape table and the counts of packets that took the escape VC are in `u` as in `s`; where `w` holds, so are the packets that wait
for an open port. -/
def Passed (w : Prop) (s u : State) : Prop :=
  (u.fabric.escapeSel = s.fabric.escapeSel ∧ u.fabric.escape0 = s.fabric.escape0 ∧ u.fabric.escape1 = s.fabric.escape1) ∧
    (∀ c, (tget u.fabric.ctrs c {}).escape = (tget s.fabric.ctrs c {}).escape) ∧
    (w → ∀ key, WaitsOpen key → heldAt u key = heldAt s key)

theorem Passed.escapeNow {w : Prop} {s u : State} (h : Passed w s u) : escapeNow u = escapeNow s := by
  obtain ⟨⟨hsel, h0, h1⟩, -⟩ := h
  rw [Machine.escapeNow, Machine.escapeNow, hsel, h0, h1]

section
variable {w : Prop}

theorem Passed.of_fabric {s u : State} (h : u.fabric = s.fabric) : Passed w s u := by
  unfold Passed heldAt
  rw [h]
  exact ⟨⟨rfl, rfl, rfl⟩, fun _ => rfl, fun _ _ _ => rfl⟩
theorem Passed.refl (s : State) : Passed w s s := .of_fabric rfl
theorem Passed.trans {s u v : State} (h : Passed w s u) (g : Passed w u v) : Passed w s v := by
  obtain ⟨⟨hsel, h0, h1⟩, hctr, hheld⟩ := h
  obtain ⟨⟨gsel, g0, g1⟩, gctr, gheld⟩ := g
  exact ⟨⟨gsel.trans hsel, g0.trans h0, g1.trans h1⟩, fun c => (gctr c).trans (hctr c), fun hw key hk => (gheld hw key hk).trans (hheld hw key hk)⟩
theorem Passed.ite {c : Prop} [Decidable c] {s u v : State} (hu : Passed w s u) (hv : Passed w s v) : Passed w s (if c then u else v) := by
  split
  · exact hu
  · exact hv
theorem Passed.foldl {α : Type} {f : State → α → State} {l : List α} (h : ∀ s, ∀ a ∈ l, Passed w s (f s a)) (s : State) :
    Passed w s (l.foldl f s) :=
  List.foldlRecOn l f (Passed.refl s) fun u hu a ha => hu.trans (h u a ha)

theorem passed_setQueue {key : Nat} (h : w → ¬ WaitsOpen key) (q : List Queued) (s : State) : Passed w s (setQueue key q s) := by
  refine ⟨⟨rfl, rfl, rfl⟩, fun _ => rfl, fun hw j hj => ?_⟩
  rw [heldAt_setQueue, if_neg]
  rintro rfl
  exact h hw hj
theorem passed_pushQueue {key : Nat} (h : w → ¬ WaitsOpen key) (q : Queued) (s : State) : Passed w s (pushQueue key q s) :=
  passed_setQueue h ..
theorem passed_countPort {f : PortCtr → PortCtr} (key : Nat) (s : State) (hf : ∀ c, (f c).escape = c.escape := by exact fun _ => rfl) :
    Passed w s (countPort key f s) :=
  ⟨⟨rfl, rfl, rfl⟩, ctr_countPort_keeps PortCtr.escape hf key s, fun _ _ _ => rfl⟩
theorem passed_countFlits (key v dir n : Nat) (s : State) : Passed w s (countFlits key v dir n s) := passed_countPort ..
theorem passed_countDepth (key v n : Nat) (s : State) : Passed w s (countDepth key v n s) := passed_countPort ..
theorem passed_served (ctr v : Nat) (h : Queued) (s : State) : Passed w s (served ctr v h s) := by
  refine ⟨?_, fun c => ?_, fun _ key _ => heldAt_served ..⟩ <;> unfold served <;> split
  · exact ⟨rfl, rfl, rfl⟩
  · exact ⟨rfl, rfl, rfl⟩
  · rfl
  · rfl

theorem fabric_sendFrame (k kind : Nat) (flits : List Byte) (vcs : List Nat) (s : State) : (sendFrame k kind flits vcs s).fabric = s.fabric := by
  unfold sendFrame putFrame
  dsimp only
  split <;> rfl

theorem passed_pumpPackets (k : Nat) : ∀ (n : Nat) (s : State), Passed w s (pumpPackets k n s)
  | 0, s => .refl s
  | n + 1, s => by
    rw [pumpPackets]
    split
    · split
      · exact .refl s
      · exact ((passed_setQueue (fun _ => not_waitsOpen_linkKey k) ..).trans (passed_served ..)).trans
          (((Passed.of_fabric (fabric_sendFrame ..)).trans (passed_countFlits ..)).trans (passed_pumpPackets k n _))
    · exact .refl s
theorem passed_sendHeld (k : Nat) (h : Queued) (s : State) : Passed w s (sendHeld k h s) := by
  unfold sendHeld pumpLink
  exact ((passed_pushQueue (fun _ => not_waitsOpen_linkKey k) ..).trans (passed_countDepth ..)).trans (.ite (passed_pumpPackets ..) (.refl _))

/-- A queued packet's VC on a mesh port is one of the six. -/
theorem mem_meshQueue {s : State} {t port v : Nat} {h : Queued} (hmem : (v, h) ∈ meshQueue s t port) : v ≤ 5 := by
  obtain ⟨i, hi, hx⟩ := List.mem_flatMap.mp hmem
  obtain ⟨x, -, hx⟩ := List.mem_map.mp hx
  obtain ⟨rfl, -⟩ := Prod.mk.inj hx
  exact Nat.le_of_lt_succ (List.mem_range.mp hi)
theorem mem_of_mem_heads {e : Nat × Queued} : ∀ {q : List (Nat × Queued)}, e ∈ heads q → e ∈ q
  | x :: xs, h => by
    obtain rfl | h := List.mem_cons.mp (heads.eq_def (x :: xs) ▸ h)
    · exact List.mem_cons_self
    · exact List.mem_cons_of_mem _ (mem_of_mem_heads (List.mem_of_mem_filter h))
/-- The packet that a port sends next is one of those that may go. -/
theorem winner_mem {s : State} {ctr : Nat} {q : List (Nat × Queued)} {e : Nat × Queued} (h : winner s ctr q = some e) : e ∈ q := by
  suffices hall : ∀ x, winner s ctr q = some x → x ∈ heads q from mem_of_mem_heads (hall e h)
  unfold winner
  refine List.foldlRecOn (motive := fun b => ∀ x, b = some x → x ∈ heads q) _ _ nofun fun b hb a ha x hx => ?_
  split at hx
  · exact Option.some.inj hx ▸ ha
  · next c =>
    split at hx
    · exact Option.some.inj hx ▸ ha
    · exact hb x hx

theorem passed_pumpBridge (k d : Nat) : ∀ (n : Nat) (s : State), Passed w s (pumpBridge k d n s)
  | 0, s => .refl s
  | n + 1, s => by
    rw [pumpBridge]
    dsimp only
    split
    · split
      · exact .refl s
      · next v h hwin =>
        have hport := bridgePort_lt k d
        have hv : v ≤ 5 := mem_meshQueue (List.mem_of_mem_filter (winner_mem hwin))
        have hkey : w → ¬ WaitsOpen (queueKey (bridgePort k d).1 (bridgePort k d).2 v) := fun _ =>
          not_waitsOpen_queueKey (by omega) (by omega) hv _
        exact ((passed_setQueue hkey ..).trans (passed_served ..)).trans
          (((Passed.of_fabric rfl).trans (passed_countFlits ..)).trans (passed_pumpBridge k d n _))
    · exact .refl s

theorem passed_pushPort {port : Nat} (hport : port < 4) (t : Nat) (vc : VC) (h : Queued) (s : State) : Passed w s (pushPort t port vc h s) := by
  have hkey : ¬ WaitsOpen (queueKey t port (vcCode vc)) := not_waitsOpen_queueKey (by omega) (by omega) (vcCode_le vc) t
  have hqueued := (passed_pushQueue (w := w) (fun _ => hkey) h s).trans
    (passed_countDepth (meshCtr t port) (vcCode vc) (fullness (pushQueue (queueKey t port (vcCode vc)) h s) t port (vcCode vc)) _)
  unfold pushPort
  dsimp only
  split
  · exact hqueued.trans (passed_pumpBridge ..)
  · exact hqueued

/-- A packet on an escape VC does not wait for an open port (R473). -/
theorem passed_hopToward {vc : VC} (hvc : w → ¬ (vc = .req ∨ vc = .rsp)) (t u : Nat) (down : Bool) (h : Queued) (s : State) :
    Passed w s (hopToward t u vc down h s) := by
  have hstays : Passed w s (pushQueue (queueKey t 6 (vcCode vc)) h s) :=
    passed_pushQueue (fun _ => not_waitsOpen_queueKey (by decide) (by decide) (vcCode_le vc) t) ..
  unfold hopToward
  split
  · next hadaptive =>
    split
    · next heq => exact passed_pushPort (adaptivePort_lt heq) ..
    · exact passed_pushQueue (fun hw => absurd hadaptive (hvc hw)) ..
  · split
    · next heq => exact .ite (passed_pushPort (escapePort_lt heq) ..) hstays
    · exact hstays

theorem escapeVc_escapes (vc : VC) : ¬ (escapeVc vc = .req ∨ escapeVc vc = .rsp) := by cases vc <;> decide

theorem passed_dropCrc (t : Nat) (p : Packet) (s : State) : Passed w s (dropCrc t p s) :=
  ⟨⟨rfl, rfl, rfl⟩, fun _ => ctr_countPort_keeps PortCtr.escape (by exact fun _ => rfl) .., fun _ _ _ => rfl⟩

theorem passed_emit (o : Out) (s : State) : Passed w s (emit o s) := .of_fabric rfl
theorem passed_acceptRelay (t : Nat) (p : Packet) (s : State) : Passed w s (acceptRelay t p s) :=
  .ite (passed_dropCrc ..) (.ite ⟨⟨rfl, rfl, rfl⟩, fun _ => rfl, fun _ _ _ => rfl⟩ (passed_emit ..))

/-- A stack that is touched leaves the routers as they are. -/
theorem fabric_touchHbm (a n : Nat) (write : Bool) (s : State) : (touchHbm a n write s).fabric = s.fabric := by
  unfold touchHbm
  split
  · exact foldl_keeps (fun u : State => u.fabric) (by exact fun _ _ => rfl) _ s
  · rfl
theorem out_touchHbm (a n : Nat) (write : Bool) (s : State) : (touchHbm a n write s).out = s.out := by
  unfold touchHbm
  split
  · exact foldl_keeps (fun u : State => u.out) (by exact fun _ _ => rfl) _ s
  · rfl

theorem passed_acceptAt (t : Nat) (p : Packet) (s : State) : Passed w s (acceptAt t p s) :=
  .ite (passed_dropCrc ..) (.ite ⟨⟨rfl, rfl, rfl⟩, fun _ => rfl, fun _ _ _ => rfl⟩ (.ite ⟨⟨rfl, rfl, rfl⟩, fun _ => rfl, fun _ _ _ => rfl⟩
    (Passed.trans (.ite (.of_fabric (fabric_touchHbm ..)) (.refl s)) (passed_emit ..))))
theorem passed_arriveAt (t : Nat) (vc : VC) (h : Queued) (s : State) : Passed w s (arriveAt t vc h s) :=
  .ite (passed_pushQueue (fun _ => not_waitsOpen_queueKey (by decide) (by decide) (vcCode_le vc) t) ..) (passed_acceptAt ..)

theorem passed_detour (t : Nat) (vc : VC) (h : Queued) (us : List Nat) (s : State) : Passed w s (detour t vc h us s) :=
  .foldl (fun _ _ _ => passed_hopToward (fun _ => escapeVc_escapes vc) ..) ..
theorem passed_routeMulticast (t port : Nat) (vc : VC) (h : Queued) (s : State) : Passed w s (routeMulticast t port vc h s) := by
  have hbranches : Passed w s ((multicastPorts t port (tget s.fabric.groups h.p.group.toNat 0)).foldl (fun u o =>
      if portUnfenced u t o then pushPort t o (escapeVc vc) h u
      else detour t vc h (behindPort t o (tget s.fabric.groups h.p.group.toNat 0)) u) s) :=
    .foldl (fun _ _ ho => .ite (passed_pushPort (multicastPorts_lt ho) ..) (passed_detour ..)) ..
  exact .ite (hbranches.trans (passed_acceptAt ..)) hbranches

variable {vc : VC} (hvc : w → ¬ (vc = .req ∨ vc = .rsp))
include hvc

theorem passed_crossTo (t l : Nat) (down : Bool) (h : Queued) (s : State) : Passed w s (crossTo t l vc down h s) :=
  .ite (passed_sendHeld ..) (passed_hopToward hvc ..)
theorem passed_routeHeaded (x : Heading) (t : Nat) (down : Bool) (h : Queued) (s : State) : Passed w s (routeHeaded x t vc down h s) := by
  cases x with
  | tile u => exact .ite (passed_acceptAt ..) (passed_hopToward hvc ..)
  | lane l => exact passed_crossTo hvc ..

theorem passed_routePacket (t port : Nat) (h : Queued) (s : State) : Passed w s (routePacket t port vc h s) := by
  have hnoRoute : Passed w s (countPort (meshCtr t 4) (fun c => { c with noRoute := c.noRoute + 1 }) s) := passed_countPort ..
  have htray : w → ¬ ((if port = 5 then escapeVc vc else vc) = .req ∨ (if port = 5 then escapeVc vc else vc) = .rsp) := fun hw => by
    split
    · exact escapeVc_escapes vc
    · exact hvc hw
  unfold routePacket
  dsimp only
  split
  · exact passed_routeHeaded hvc ..
  · refine .ite (passed_routeMulticast ..) (.ite (.ite (passed_acceptRelay ..) (.ite (passed_arriveAt ..) (passed_hopToward hvc ..)))
      (.ite ?_ (.ite hnoRoute ?_)))
    · split
      · exact .ite (passed_sendHeld ..) (passed_hopToward htray ..)
      · exact hnoRoute
    · split
      · exact .ite (passed_sendHeld ..) (passed_hopToward hvc ..)
      · exact hnoRoute

end

/-- Packets that try again leave the escape table as it is. -/
theorem passed_retryParked (kind : Nat) (s : State) : Passed False s (retryParked kind s) :=
  Passed.trans (.foldl (fun _ _ _ => passed_setQueue nofun ..) ..)
    (.foldl (fun _ _ _ => .foldl (fun _ _ _ => passed_routePacket nofun ..) ..) ..)

end Sys2Proof.Machine
end

section
/-! A router's hop and its choice of port, arrival at the tile, and the escape (R466 to R476, R544). -/
namespace Sys2Proof.Machine
open Sys2Proof

/-! ### What a router takes off a lane (R421, R446, R448) -/

/-- The state after a router has taken `n` flits of a VC's ingress buffer of link `k`: below the lower threshold the VC is let go on. -/
def takenIn (k v n : Nat) (s : State) : State :=
  let r := link s k
  let q := (tget r.ingress v []).drop n
  let off := if 32 * q.length < xoffClear k then r.xoffOut &&& BitVec.ofNat 6 (63 - 2 ^ v) else r.xoffOut
  let t := setLink k { r with ingress := tset r.ingress v q [], xoffOut := off } s
  if off != r.xoffOut then sendIdle k t else t

theorem takeFrom_lane (t : Nat) (l : Lane) (vc : VC) (p : Packet) (s : State) :
    takeFrom t (.lane l) vc p s = if laneTile l = t && nextIn (link s (linkOf s l)) (vcCode vc) p then
      some ((p, none), takenIn (linkOf s l) (vcCode vc) (flitsOf p) s) else none := rfl

/-- The flits leave the buffer, and idle frames may go out; nothing else changes. -/
theorem takenIn_facts (k v n : Nat) (s : State) :
    takenIn k v n s = { s with out := (takenIn k v n s).out, optics.lanes := (takenIn k v n s).optics.lanes
                               optics.links := (takenIn k v n s).optics.links } ∧
      LanesKept s (takenIn k v n s) ∧ (∀ j, j ≠ k → link (takenIn k v n s) j = link s j) ∧
      ∃ off, link (takenIn k v n s) k =
        { link s k with ingress := tset (link s k).ingress v ((tget (link s k).ingress v []).drop n) [], xoffOut := off } := by
  unfold takenIn
  dsimp only
  generalize (if 32 * ((tget (link s k).ingress v []).drop n).length < xoffClear k then _ else _) = off
  have hset : ∀ r : Link, setLink k r s = { s with optics.links := (setLink k r s).optics.links } ∧ LanesKept s (setLink k r s) ∧
      (∀ j, j ≠ k → link (setLink k r s) j = link s j) ∧ link (setLink k r s) k = r := fun r =>
    ⟨rfl, .of_lanes (List.prefix_refl _) rfl, fun j hj => link_setLink_ne hj .., link_setLink_self ..⟩
  obtain ⟨hframe, hlanes, hne, hself⟩ := hset
    { link s k with ingress := tset (link s k).ingress v ((tget (link s k).ingress v []).drop n) [], xoffOut := off }
  generalize setLink k _ s = t at hframe hlanes hne hself
  split
  · obtain ⟨hsent, hsends, -⟩ := framesOut_sendIdle k t
    exact ⟨by rw [hsent, hframe], hlanes.trans hsends.1, fun j hj => (link_sendIdle ..).trans (hne j hj), off, (link_sendIdle ..).trans hself⟩
  · exact ⟨by rw [hframe], hlanes, hne, off, hself⟩

/-! ### A router's choice of port (R472) -/

theorem adaptivePort_congr {s u : State} (hdev : u.dev = s.dev) (hlinks : u.stacking = s.stacking) (hqueues : u.fabric.queues = s.fabric.queues) :
    adaptivePort u = adaptivePort s := by
  have hdlink : dlink u = dlink s := by
    funext k
    rw [dlink, dlink, hlinks]
  have hup : routerUp u = routerUp s := by
    funext t
    rw [routerUp, routerUp, hdev]
  have hqueue : queueAt u = queueAt s := by
    funext key
    rw [queueAt, queueAt, heldAt, heldAt, hqueues]
  have hopen : portOpen u = portOpen s := by
    funext t port
    simp only [portOpen, portUnfenced, hdlink, hup]
  have hweight : weighted u = weighted s := by
    funext t port vc
    simp only [weighted, fullness, hdlink, hqueue]
  funext t v vc
  simp only [adaptivePort, hopen, hweight]

theorem hopToward_req_some {s : State} {t u q : Nat} (h : adaptivePort s t u 0 = some q) (down : Bool) (x : Queued) :
    hopToward t u .req down x s = pushPort t q .req x s := by
  rw [hopToward, if_pos (.inl rfl), show vcCode .req = 0 from rfl, h]
theorem hopToward_req_none {s : State} {t u : Nat} (h : adaptivePort s t u 0 = none) (down : Bool) (x : Queued) :
    hopToward t u .req down x s = pushQueue (queueKey t 5 0) x s := by
  rw [hopToward, if_pos (.inl rfl), show vcCode .req = 0 from rfl, h]

/-- The lane of a plane is found from the lanes' records alone. -/
theorem laneOfPlane_congr {s u : State} (hbark : u.bark = s.bark) (hoptics : u.optics = s.optics) : laneOfPlane u = laneOfPlane s := by
  have hlane : lane u = lane s := funext (lane_congr (by rw [hoptics]))
  have hcarries : carries u = carries s := by
    funext l
    rw [carries, carries, laneUp, laneUp, hlane]
  have hplane : planeOf u = planeOf s := by
    funext l
    rw [planeOf, planeOf, isFA, isFA, hbark, hlane]
  funext x
  rw [laneOfPlane, laneOfPlane, hcarries, hplane]

/-! ### ROUTER_PACKET_ARRIVE -/

theorem exec_routerPacketArrive_off {s : State} {t : Tile}
    (h : s.dev.st = .lookout ∨ s.pins.v48On = false ∨ s.dev.qLost.getLsbD (quadOf t) = true) (port : Port) (vc : VC) (p : Packet) :
    exec (.routerPacketArrive t port vc p) s = .next s := by
  rw [exec, execRouterPacketArrive, if_pos (by simpa [routerUp] using h)]
theorem exec_routerPacketArrive_nothing {s : State} {t : Tile} {port : Port} {vc : VC} {p : Packet} (h : takeFrom t port vc p s = none) :
    exec (.routerPacketArrive t port vc p) s = .next s := by
  rw [exec, execRouterPacketArrive, h]
  exact congrArg _ (ite_self s)

/-- A packet for another module goes on toward the router of its plane's lane (R471, R477). -/
theorem routePacket_toLane {s : State} {t port l : Nat} {vc : VC} {h : Queued} (hhead : h.heading = none) (hcast : h.p.flags.getLsbD 4 = false)
    (hdst : h.p.dst ≠ ownEndpoint s) (hplane : h.p.plane ≠ 0xFE) (hlane : laneOfPlane s h.p.plane.toNat = some l) (hne : laneTile l ≠ t) :
    routePacket t port vc h s = hopToward t (laneTile l) vc (arrivedDown s t port) h s := by
  have hway : wayOut s h.p = some (l, h.p) := by rw [wayOut, hlane]
  unfold routePacket
  dsimp only
  rw [hhead, hway]
  dsimp only
  rw [if_neg (Bool.eq_false_iff.mp hcast), if_neg hdst, if_neg fun hx => hplane hx.1, if_neg hplane, if_neg hne]
  congr 1
  rw [← hhead]

/-- A packet for this tile has arrived (R471). -/
theorem routePacket_here {s : State} {t port : Nat} {vc : VC} {h : Queued} (hhead : h.heading = none) (hcast : h.p.flags.getLsbD 4 = false)
    (hrelay : h.p.flags.getLsbD 5 = false) (hdst : h.p.dst = ownEndpoint s) (htile : addrTile h.p.addr.toNat = t) :
    routePacket t port vc h s = arriveAt t vc h s := by
  unfold routePacket
  dsimp only
  rw [hhead]
  dsimp only
  rw [if_neg (Bool.eq_false_iff.mp hcast), if_pos hdst, if_neg (Bool.eq_false_iff.mp hrelay), if_pos (.inl htile)]

/-- The state in which a router has counted a packet that its own tile has handed it. -/
def counted (t : Nat) (vc : VC) (p : Packet) (s : State) : State := countFlits (meshCtr t 6) (vcCode vc) 0 (flitsOf p) s

section
variable {s : State} {t : Tile} {p : Packet} (hst : s.dev.st ≠ .lookout) (hon : s.pins.v48On = true)
  (hq : s.dev.qLost.getLsbD (quadOf t) = false)
include hst hon hq

theorem exec_routerPacketArrive_here (vc : VC) : exec (.routerPacketArrive t .here vc p) s = .next (
    if p.hops = 254 then countPort (meshCtr t 6) (fun c => { c with hopDrops := c.hopDrops + 1 }) (counted t vc p s)
    else routePacket t 6 vc (entering s 6 { p with hops := p.hops + 1 }) (counted t vc p s)) := by
  rw [exec, execRouterPacketArrive, if_neg (by simp [hst, hon, hq, routerUp])]
  rfl

variable (hhops : p.hops ≠ 254) (hcast : p.flags.getLsbD 4 = false)
include hhops hcast

theorem exec_routerPacketArrive_toLane {l : Nat} (hdst : p.dst ≠ ownEndpoint s) (hplane : p.plane ≠ 0xFE)
    (hlane : laneOfPlane s p.plane.toNat = some l) (hne : laneTile l ≠ t) (vc : VC) :
    ∃ down, exec (.routerPacketArrive t .here vc p) s =
      .next (hopToward t (laneTile l) vc down (entering s 6 { p with hops := p.hops + 1 }) (counted t vc p s)) := by
  have hsame : laneOfPlane (counted t vc p s) p.plane.toNat = some l := by
    rwa [laneOfPlane_congr (u := counted t vc p s) (s := s) rfl rfl]
  rw [exec_routerPacketArrive_here hst hon hq, if_neg hhops]
  exact ⟨_, congrArg _ (routePacket_toLane (h := entering s 6 { p with hops := p.hops + 1 }) rfl hcast hdst hplane hsame hne)⟩

theorem exec_routerPacketArrive_own (hrelay : p.flags.getLsbD 5 = false) (hdst : p.dst = ownEndpoint s) (htile : addrTile p.addr.toNat = t)
    (vc : VC) : exec (.routerPacketArrive t .here vc p) s =
      .next (arriveAt t vc (entering s 6 { p with hops := p.hops + 1 }) (counted t vc p s)) := by
  rw [exec_routerPacketArrive_here hst hon hq, if_neg hhops]
  exact congrArg _ (routePacket_here (h := entering s 6 { p with hops := p.hops + 1 }) rfl hcast hrelay hdst htile)

theorem exec_routerPacketArrive_accepts (hrelay : p.flags.getLsbD 5 = false) (hdst : p.dst = ownEndpoint s) (htile : addrTile p.addr.toNat = t)
    {vc : VC} (hfree : (vc ≠ .req ∧ vc ≠ .reqE) ∨ ingressFull s t = false) :
    exec (.routerPacketArrive t .here vc p) s = .next (acceptAt t { p with hops := p.hops + 1 } (counted t vc p s)) := by
  have hopen : ¬ ((vc = .req ∨ vc = .reqE) ∧ ingressFull (counted t vc p s) t = true) := by
    rintro ⟨hreq, hfull⟩
    rcases hfree with ⟨hne, hneE⟩ | hno
    · exact hreq.elim hne hneE
    · exact absurd (hno.symm.trans hfull) Bool.false_ne_true
  rw [exec_routerPacketArrive_own hst hon hq hhops hcast hrelay hdst htile, arriveAt, if_neg hopen, aged_entering (by rfl)]

end

theorem crcDrops_dropCrc (t : Nat) (p : Packet) (s : State) :
    (tget (dropCrc t p s).fabric.ctrs (meshCtr t 4) {}).crcDrops = (tget s.fabric.ctrs (meshCtr t 4) {}).crcDrops + 1 := by
  rw [dropCrc, ctr_countPort_self]
theorem acceptAt_badCrc {p : Packet} (h : p.crc ≠ packetCrc p) (t : Nat) (s : State) : acceptAt t p s = dropCrc t p s := if_pos h

/-- A packet that passes its CRC, its opcode and its job tag is delivered, and the routers are left as they are (R466, R558, R618). -/
theorem acceptAt_good {s : State} {p : Packet} (hcrc : p.crc = packetCrc p) (hop : reservedOpcode p.opcode.toNat = false)
    (htag : nativeMode s = false ∨ 2 ≤ classOf p.opcode.toNat ∨ p.job = s.job.tag ∨ (p.job = 0xFFFF ∧ keeperPeer s p.src = true)) (t : Nat) :
    (acceptAt t p s).out = s.out ++ [.deliver t p] ∧ (acceptAt t p s).fabric = s.fabric := by
  have hpass : ¬ (nativeMode s && decide (classOf p.opcode.toNat ≤ 1) && p.job != s.job.tag && !(p.job == 0xFFFF && keeperPeer s p.src)) = true := by
    simp only [Bool.and_eq_true, decide_eq_true_eq, bne_iff_ne, Bool.not_eq_true', Bool.and_eq_false_iff, beq_eq_false_iff_ne]
    rintro ⟨⟨⟨hnative, hclass⟩, hjob⟩, hkeeper⟩
    rcases htag with h | h | h | ⟨h, hpeer⟩
    · simp [h] at hnative
    · omega
    · exact hjob h
    · exact hkeeper.elim (fun hne => hne h) fun hno => by simp [hno] at hpeer
  rw [acceptAt, if_neg (not_not_intro hcrc), if_neg (by simp [hop])]
  dsimp only
  rw [if_neg hpass]
  split
  · exact ⟨congrArg (· ++ [Out.deliver t p]) (out_touchHbm ..), fabric_touchHbm ..⟩
  · exact ⟨rfl, rfl⟩

/-! ### The escape (R473, R475, R476) -/

theorem exec_meshEscape_none {s : State} {t : Tile} {vc : VC} (h : heldAt s (queueKey t 5 (vcCode vc)) = []) :
    exec (.meshEscape t vc) s = .next s := by
  rw [exec, execMeshEscape, h]
theorem exec_meshEscape_early {s : State} {t : Tile} {vc : VC} {h : Queued} {hs : List Queued}
    (hheld : heldAt s (queueKey t 5 (vcCode vc)) = h :: hs) (htime : s.time < h.since + 32) : exec (.meshEscape t vc) s = .next s := by
  rw [exec, execMeshEscape, hheld]
  exact congrArg _ (if_pos htime)

/-- After 32 ns the first packet that waits leaves that wait and is counted. -/
theorem exec_meshEscape_due {s : State} {t : Tile} {vc : VC} {h : Queued} {hs : List Queued}
    (hheld : heldAt s (queueKey t 5 (vcCode vc)) = h :: hs) (htime : h.since + 32 ≤ s.time) :
    ∃ u, exec (.meshEscape t vc) s = .next u ∧ heldAt u (queueKey t 5 (vcCode vc)) = hs ∧
      (tget u.fabric.ctrs (portCtrOf s t h.port) {}).escape = (tget s.fabric.ctrs (portCtrOf s t h.port) {}).escape + 1 := by
  obtain ⟨v, hv⟩ : ∃ v, v = countPort (portCtrOf s t h.port) (fun c => { c with escape := c.escape + 1 })
      (setQueue (queueKey t 5 (vcCode vc)) hs s) := ⟨_, rfl⟩
  have hexec : exec (.meshEscape t vc) s = .next (routePacket t 6 (escapeVc vc) { h with p := withEscape h.p true } v) := by
    rw [exec, execMeshEscape, hheld, hv]
    exact congrArg _ (if_neg (Nat.not_lt.mpr htime))
  obtain ⟨-, hcounts, hwait⟩ := passed_routePacket (w := True) (fun _ => escapeVc_escapes vc) t 6 { h with p := withEscape h.p true } v
  refine ⟨_, hexec, (hwait trivial _ (waitsOpen_queueKey t vc)).trans ?_, (hcounts _).trans ?_⟩
  · rw [hv]
    exact (heldAt_setQueue ..).trans (if_pos rfl)
  · rw [hv, ctr_countPort_self]
    rfl

/-- The table that ESCAPE_TABLE_INSTALL writes: one exactly while a bridge link or a router is fenced. -/
def escapeFor (s : State) : Option (List Nat × List Nat) :=
  if (fencesNow s).1.isEmpty && (fencesNow s).2.isEmpty then none else some (fencesNow s)

theorem exec_escapeTableInstall (s : State) : exec .escapeTableInstall s = .next (retryParked 6 (installEscape (escapeFor s) s)) := rfl

theorem escapeNow_installEscape (e : Option (List Nat × List Nat)) (s : State) : escapeNow (installEscape e s) = e := by
  unfold installEscape escapeNow
  split <;> rfl
theorem parked_installEscape (e : Option (List Nat × List Nat)) (s : State) (kind : Nat) : parked (installEscape e s) kind = parked s kind := by
  unfold installEscape
  split <;> rfl
/-- The copy that was not in force is written and comes into force; the other one stays. -/
theorem installEscape_facts (e : Option (List Nat × List Nat)) (s : State) :
    let u := installEscape e s
    u.fabric.escapeSel = !s.fabric.escapeSel ∧
      (if s.fabric.escapeSel then u.fabric.escape1 = s.fabric.escape1 else u.fabric.escape0 = s.fabric.escape0) ∧
      u = { s with fabric.escape0 := u.fabric.escape0, fabric.escape1 := u.fabric.escape1, fabric.escapeSel := u.fabric.escapeSel } := by
  unfold installEscape
  split
  · next h => exact ⟨by rw [h]; rfl, rfl, rfl⟩
  · next h => exact ⟨by rw [Bool.eq_false_iff.mpr h]; rfl, rfl, rfl⟩
theorem escapeFor_eq_none (s : State) :
    escapeFor s = none ↔ (∀ k, k < 32 → (dlink s (256 + k)).width ≠ .fenced) ∧ ∀ j, j < 256 → routerUp s j = true := by
  have hlinks : (fencesNow s).1 = [] ↔ ∀ k, k < 32 → (dlink s (256 + k)).width ≠ .fenced := by
    simp [fencesNow, List.filter_eq_nil_iff]
  have hrouters : (fencesNow s).2 = [] ↔ ∀ j, j < 256 → routerUp s j = true := by
    simp [fencesNow, List.filter_eq_nil_iff]
  rw [← hlinks, ← hrouters, escapeFor]
  simp
theorem eq_of_escapeFor_eq_some {s : State} {f : List Nat × List Nat} (h : escapeFor s = some f) : f = fencesNow s := by
  unfold escapeFor at h
  split at h
  · exact nomatch h
  · exact (Option.some.inj h).symm

end Sys2Proof.Machine
end

section
open Sys2Proof Sys2Proof.Machine

/-- Settles O30, clause by clause: what a router takes, its hops by the choice of port, arrival at its tile, and the escape with its table. -/
theorem routersHopAndRoute : Obligations.RoutersHopAndRoute := by
  unfold Obligations.RoutersHopAndRoute
  refine fun s t p => ⟨fun h port vc => exec_routerPacketArrive_off h port vc p, fun _ _ h => exec_routerPacketArrive_nothing h,
    fun l vc => ⟨?_, fun q u h => ?_⟩,
    fun hst hon hq => ⟨fun vc hhops => ?_, fun l q hhops hcast hdst hplane hlane hne => ⟨fun hport => ?_, fun hport => ?_⟩,
      fun vc hhops hcast hrelay hdst htile hfree => ⟨fun hcrc => ?_, fun hcrc hop htag => ?_⟩,
      fun vc hvc hfull hhops hcast hrelay hdst htile => ?_⟩,
    fun vc h hs hheld => ⟨exec_meshEscape_due hheld, exec_meshEscape_early hheld⟩, fun vc h => exec_meshEscape_none h, ?_⟩
  · rw [takeFrom_lane]
    simp
  · rw [takeFrom_lane] at h
    obtain ⟨-, hsome⟩ := Option.ite_none_right_eq_some.mp h
    obtain ⟨rfl, rfl⟩ := Prod.mk.inj (Option.some.inj hsome)
    obtain ⟨-, -, -, off, hlink⟩ := takenIn_facts (linkOf s l) (vcCode vc) (flitsOf p) s
    refine ⟨rfl, fun v => ?_⟩
    rw [hlink]
    split
    · next hv => rw [hv, tget_tset_self]
    · next hv => exact tget_tset_ne _ _ _ _ _ hv
  · refine ⟨_, (exec_routerPacketArrive_here hst hon hq vc).trans (congrArg _ (if_pos hhops)), ?_, rfl⟩
    rw [ctr_countPort_self]
    exact congrArg (· + 1) (ctr_countPort_keeps PortCtr.hopDrops (by exact fun _ => rfl) ..)
  · obtain ⟨down, hexec⟩ := exec_routerPacketArrive_toLane hst hon hq hhops hcast hdst hplane hlane hne .req
    have hcounted : adaptivePort (counted t .req p s) t (laneTile l) 0 = some q := by
      rwa [adaptivePort_congr (u := counted t .req p s) (s := s) rfl rfl rfl]
    rw [hopToward_req_some hcounted] at hexec
    obtain ⟨fabric, links, out, hframe⟩ := pushPort_frame t q .req (entering s 6 { p with hops := p.hops + 1 }) (counted t .req p s)
    refine ⟨_, hexec, (queueAt_pushPort ..).trans (if_pos rfl), fun key hkey => (queueAt_pushPort ..).trans (if_neg hkey), ?_⟩
    rw [hframe]
    rfl
  · obtain ⟨down, hexec⟩ := exec_routerPacketArrive_toLane hst hon hq hhops hcast hdst hplane hlane hne .req
    have hcounted : adaptivePort (counted t .req p s) t (laneTile l) 0 = none := by
      rwa [adaptivePort_congr (u := counted t .req p s) (s := s) rfl rfl rfl]
    rw [hopToward_req_none hcounted] at hexec
    exact ⟨_, hexec, (heldAt_pushQueue ..).trans (if_pos rfl), fun key hkey => (heldAt_pushQueue ..).trans (if_neg hkey), rfl⟩
  · have hexec := exec_routerPacketArrive_accepts hst hon hq hhops hcast hrelay hdst htile hfree
    rw [acceptAt_badCrc (by exact hcrc)] at hexec
    refine ⟨_, hexec, (crcDrops_dropCrc ..).trans ?_, rfl, rfl⟩
    exact congrArg (· + 1) (ctr_countPort_keeps PortCtr.crcDrops (by exact fun _ => rfl) ..)
  · have hexec := exec_routerPacketArrive_accepts hst hon hq hhops hcast hrelay hdst htile hfree
    obtain ⟨hout, hfabric⟩ := acceptAt_good (s := counted t vc p s) (p := { p with hops := p.hops + 1 }) hcrc hop htag t
    exact ⟨_, hexec, hout, by rw [hfabric]; rfl⟩
  · have hexec := exec_routerPacketArrive_own hst hon hq hhops hcast hrelay hdst htile vc
    rw [arriveAt, if_pos ⟨hvc, hfull⟩] at hexec
    exact ⟨_, hexec, rfl, (queueAt_pushQueue ..).trans (if_pos rfl)⟩
  · have hpassed := passed_retryParked 6 (installEscape (escapeFor s) s)
    have hnow : escapeNow (retryParked 6 (installEscape (escapeFor s) s)) = escapeFor s :=
      hpassed.escapeNow.trans (escapeNow_installEscape ..)
    refine ⟨_, exec_escapeTableInstall s, ?_, fun f hf => eq_of_escapeFor_eq_some (hnow.symm.trans hf), fun hnone => ?_⟩
    · rw [hnow]
      exact escapeFor_eq_none s
    · have hstill : retryParked 6 (installEscape (escapeFor s) s) = installEscape (escapeFor s) s :=
        retryParked_nothing ((parked_installEscape ..).trans hnone)
      rw [hstill]
      exact installEscape_facts ..

end

section
/-! A relay forwards what its lanes bring (R486 to R488), and a packet that leaves by a lane (R442, R445). -/
namespace Sys2Proof.Machine
open Sys2Proof

/-! ### A packet leaves by a link (R442, R445) -/

/-- A held packet as it leaves the mesh: off the escape route (R470). -/
def leaving (h : Queued) : Queued := { h with p := { h.p with flags := h.p.flags &&& 0xFB } }

/-- While its link is not UP the packet waits. -/
theorem queueAt_sendHeld_down {s : State} {k : Nat} (hdown : linkUp s k = false) (h : Queued) (key : Nat) :
    queueAt (sendHeld k h s) key = if key = linkKey k then queueAt s (linkKey k) ++ [(leaving h).p] else queueAt s key := by
  have hsent : queueAt (sendHeld k h s) key = queueAt (pushQueue (linkKey k) (leaving h) s) key := by
    rw [sendHeld, pumpLink, if_neg]
    · rfl
    · exact Bool.eq_false_iff.mp hdown
  rw [hsent, queueAt_pushQueue]

theorem link_sendFrame_tree {k : Nat} (htree : isTrayLink k = false) (kind : Nat) (flits : List Byte) (vcs : List Nat) (s : State) :
    link (sendFrame k kind flits vcs s) k = { link s k with
      txSeq := ((link s k).txSeq + 1) % 4096
      replay := (link s k).replay ++ [mkFrame flits vcs (link s k).txSeq (link s k).rxLast kind (link s k).nak (link s k).xoffOut.toNat] } := by
  rw [sendFrame, putFrame, if_neg (by simp [htree])]
  exact link_setLink_self ..

/-- A tree lane that carries every kind of traffic and is not stopped sends any packet. -/
theorem vcSends_of_carries {s : State} {k : Nat} (htree : isTrayLink k = false) (hc : carries s k = true) (hx : (link s k).xoffIn = 0) (v : Nat) :
    vcSends s k v = true := by
  rw [vcSends, hx, lanesOf_tree htree]
  simp [hc]

/-- The one packet queued for a tree lane goes out in a frame of its own. -/
theorem pumpPackets_alone {s : State} {k : Nat} {h : Queued} (htree : isTrayLink k = false) (hc : carries s k = true)
    (hx : (link s k).xoffIn = 0) (hr : (link s k).replay = []) (hq : heldAt s (linkKey k) = [h]) :
    heldAt (pumpPackets k 1 s) (linkKey k) = [] ∧ ∃ vcs, link (pumpPackets k 1 s) k = { link s k with
      txSeq := ((link s k).txSeq + 1) % 4096
      replay := [mkFrame (headerBytes (aged s h) ++ (aged s h).payload) vcs (link s k).txSeq (link s k).rxLast 0 (link s k).nak
        (link s k).xoffOut.toNat] } := by
  obtain ⟨v, hv⟩ : ∃ v, v = vcCode (linkVc k h.p) := ⟨_, rfl⟩
  have hroom : (link s k).replay.length < replayRoom k := by
    rw [hr, replayRoom, htree]
    decide
  have hwin : winner s (linkCtr k) ((linkQueue s k).filter fun e => vcSends s k e.1) = some (v, h) := by
    have hqueue : (linkQueue s k).filter (fun e => vcSends s k e.1) = [(v, h)] := by
      rw [linkQueue, hq, hv]
      exact List.filter_eq_self.mpr fun e _ => vcSends_of_carries htree hc hx e.1
    rw [hqueue]
    rfl
  obtain ⟨t, ht⟩ : ∃ t, t = served (linkCtr k) v h (setQueue (linkKey k) ((heldAt s (linkKey k)).erase h) s) := ⟨_, rfl⟩
  have hlink : link t k = link s k := by
    rw [ht, served_frame]
    rfl
  have hheld : heldAt t (linkKey k) = [] := by
    rw [ht, heldAt_served, heldAt_setQueue, if_pos rfl, hq, List.erase_cons_head]
  have hpump : pumpPackets k 1 s = countFlits (linkCtr k) v 1 (flitsOf (aged s h))
      (sendFrame k 0 (headerBytes (aged s h) ++ (aged s h).payload) (List.replicate (flitsOf (aged s h)) v) t) := by
    rw [pumpPackets, if_pos hroom, hwin, ht]
    rfl
  rw [hpump]
  refine ⟨?_, List.replicate (flitsOf (aged s h)) v, ?_⟩
  · have hqueues : ∀ u : State, heldAt (countFlits (linkCtr k) v 1 (flitsOf (aged s h)) u) (linkKey k) = heldAt u (linkKey k) := fun _ => rfl
    rw [hqueues, heldAt, fabric_sendFrame]
    exact hheld
  · have hcounted : ∀ u : State, link (countFlits (linkCtr k) v 1 (flitsOf (aged s h)) u) k = link u k := fun _ => rfl
    rw [hcounted, link_sendFrame_tree htree, hlink, hr]
    rfl

/-- On a tree lane that carries traffic, unstopped, with nothing held or queued, a packet goes out in a frame of its own. -/
theorem sendHeld_alone {s : State} {k : Nat} (htree : isTrayLink k = false) (hc : carries s k = true) (hx : (link s k).xoffIn = 0)
    (hr : (link s k).replay = []) (hq : queueAt s (linkKey k) = []) (port : Nat) (p : Packet) :
    let q := { p with flags := p.flags &&& 0xFB }
    let u := sendHeld k (entering s port p) s
    queueAt u (linkKey k) = [] ∧ ∃ f : Frame, (link u k).replay = [f] ∧
      f.flits = (headerBytes q ++ q.payload) ++ List.replicate (512 - (headerBytes q ++ q.payload).length) 0 ∧
      (link u k).txSeq = ((link s k).txSeq + 1) % 4096 := by
  intro q u
  have hup : linkUp s k = true := by
    rw [linkUp_tree htree]
    exact (Bool.and_eq_true_iff.mp (Bool.and_eq_true_iff.mp hc).1).1
  have hnone : heldAt s (linkKey k) = [] := List.map_eq_nil_iff.mp hq
  obtain ⟨t, ht⟩ : ∃ t, t = countDepth (linkCtr k) (vcCode (linkVc k q)) (linkDepth (pushQueue (linkKey k) (entering s port q) s) k (vcCode (linkVc k q)))
    (pushQueue (linkKey k) (entering s port q) s) := ⟨_, rfl⟩
  have htime : t.time = s.time := by
    rw [ht]
    rfl
  have hlink : link t k = link s k := by
    rw [ht]
    rfl
  have hkept : LanesKept s t := by
    rw [ht]
    exact .of_lanes (List.prefix_refl _) rfl
  have hheld : heldAt t (linkKey k) = [entering s port q] := by
    rw [ht]
    refine (heldAt_pushQueue ..).trans ?_
    rw [if_pos rfl, hnone]
    rfl
  have hu : u = pumpPackets k 1 t := by
    have hpump : u = pumpLink k t := by
      rw [ht]
      rfl
    rw [hpump, pumpLink, hheld, if_pos]
    · rfl
    · rw [hkept.linkUp, hup]
  obtain ⟨hqueue, vcs, hsent⟩ := pumpPackets_alone htree ((hkept.carries k).trans hc) (by rw [hlink, hx]) (by rw [hlink, hr]) hheld
  rw [hu, hsent, hlink, aged_entering htime]
  exact ⟨congrArg (List.map Queued.p) hqueue, _, rfl, rfl, rfl⟩

/-! ### What a relay has taken (R446) -/

/-- `t` is `s` after a packet has been taken off a lane and its flits counted: of the links only ingress buffers and what they let go on have changed. -/
def Received (s t : State) : Prop :=
  t = { s with out := t.out, fabric.ctrs := t.fabric.ctrs, optics.lanes := t.optics.lanes, optics.links := t.optics.links } ∧ LanesKept s t ∧
    (∀ j, link t j = { link s j with ingress := (link t j).ingress, xoffOut := (link t j).xoffOut }) ∧
    ∀ c, (tget t.fabric.ctrs c {}).noRoute = (tget s.fabric.ctrs c {}).noRoute ∧ (tget t.fabric.ctrs c {}).hopDrops = (tget s.fabric.ctrs c {}).hopDrops

theorem received_takenIn (key k v n : Nat) (s : State) : Received s (countFlits key v 0 n (takenIn k v n s)) := by
  obtain ⟨hframe, hlanes, hne, off, hself⟩ := takenIn_facts k v n s
  generalize takenIn k v n s = t at hframe hlanes hne hself
  have hctrs : t.fabric.ctrs = s.fabric.ctrs := by rw [hframe]
  have hlink : ∀ j, link t j = { link s j with ingress := (link t j).ingress, xoffOut := (link t j).xoffOut } := fun j => by
    by_cases hj : j = k
    · rw [hj, hself]
    · rw [hne j hj]
  refine ⟨?_, hlanes.trans (.of_lanes (List.prefix_refl _) rfl), hlink, fun c => ⟨?_, ?_⟩⟩
  · rw [hframe]
    rfl
  · rw [← hctrs]
    exact ctr_countPort_keeps PortCtr.noRoute (by exact fun _ => rfl) ..
  · rw [← hctrs]
    exact ctr_countPort_keeps PortCtr.hopDrops (by exact fun _ => rfl) ..

section
variable {s t : State} (h : Received s t)
include h

theorem Received.lanesKept : LanesKept s t := h.2.1
theorem Received.sender (j : Nat) :
    (link t j).txSeq = (link s j).txSeq ∧ (link t j).replay = (link s j).replay ∧ (link t j).xoffIn = (link s j).xoffIn := by
  obtain ⟨-, -, hlink, -⟩ := h
  rw [hlink j]
  exact ⟨rfl, rfl, rfl⟩
theorem Received.counts (c : Nat) : (tget t.fabric.ctrs c {}).noRoute = (tget s.fabric.ctrs c {}).noRoute ∧
    (tget t.fabric.ctrs c {}).hopDrops = (tget s.fabric.ctrs c {}).hopDrops := h.2.2.2 c
theorem Received.time : t.time = s.time := by rw [h.1]
theorem Received.queues : t.fabric.queues = s.fabric.queues := by rw [h.1]
theorem Received.heldAt (key : Nat) : heldAt t key = heldAt s key := by rw [Machine.heldAt, Machine.heldAt, h.queues]
theorem Received.queueAt (key : Nat) : queueAt t key = queueAt s key := by rw [Machine.queueAt, Machine.queueAt, h.heldAt]
theorem Received.dev : t.dev = s.dev := by rw [h.1]
theorem Received.laneLost (l : Nat) : laneLost t l = laneLost s l := by rw [Machine.laneLost, Machine.laneLost, h.dev]
theorem Received.adaptivePort : adaptivePort t = adaptivePort s := adaptivePort_congr h.dev (by rw [h.1]) h.queues
theorem Received.copyFor (e : Bool) : copyFor t e = copyFor s e := by
  rw [h.1]
  rfl

end

/-! ### RELAY_FORWARD (R486 to R488) -/

theorem linkOf_relay {s : State} (h : isFA s = true) (l : Nat) : linkOf s l = l := by
  rw [linkOf, h]
  rfl

theorem exec_relayForward_off {s : State} {l : Lane} (h : isFA s = false ∨ s.dev.st ≠ .relaying ∨ laneLost s l = true) (vc : VC) (p : Packet) :
    exec (.relayForward l vc p) s = .next s := by
  rw [exec, execRelayForward, if_pos (by simpa using h)]
theorem exec_relayForward_nothing {s : State} {l : Lane} {vc : VC} {p : Packet} (hfa : isFA s = true)
    (h : nextIn (link s l) (vcCode vc) p = false) : exec (.relayForward l vc p) s = .next s := by
  have hnone : takeFrom (laneTile l) (.lane l) vc p s = none := by
    rw [takeFrom_lane, linkOf_relay hfa, h]
    simp
  rw [exec, execRelayForward, hnone]
  exact congrArg _ (ite_self s)

/-- A relay takes the packet that stands first in a lane's ingress buffer. -/
theorem exec_relayForward_takes {s : State} {l : Lane} {vc : VC} {p : Packet} (hfa : isFA s = true) (hst : s.dev.st = .relaying)
    (hlost : laneLost s l = false) (hnext : nextIn (link s l) (vcCode vc) p = true) :
    ∃ t, Received s t ∧ exec (.relayForward l vc p) s = .next (
      if p.hops = 254 then countPort (laneCtr l) (fun c => { c with hopDrops := c.hopDrops + 1 }) t
      else routeRelay l vc (entering t (16 + l.val) { p with hops := p.hops + 1 }) t) := by
  have htake : takeFrom (laneTile l) (.lane l) vc p s = some ((p, none), takenIn l (vcCode vc) (flitsOf p) s) := by
    rw [takeFrom_lane, linkOf_relay hfa, hnext]
    simp
  refine ⟨countFlits (laneCtr l) (vcCode vc) 0 (flitsOf p) (takenIn l (vcCode vc) (flitsOf p) s), received_takenIn .., ?_⟩
  rw [exec, execRelayForward, if_neg (by simp [hfa, hst, hlost]), htake]

/-- What a relay does with a packet by its table's entry, in the state that the look-up leaves (R486, R412). -/
def goByEntry (l : Nat) (h : Queued) (e : Option Nat) (s : State) : State :=
  match e.bind fun e => leastLane s (liveLanes s (downLanes s e)) with
  | some d =>
    if laneLost s d then countPort (laneCtr l) (fun c => { c with noRoute := c.noRoute + 1 }) s
    else crossTo (laneTile l) d .req false { h with p := { h.p with flags := h.p.flags ||| 2 } } s
  | none => s

section
variable {t : State} {l e : Nat} {h : Queued} {c : Tables} (hrole : t.dev.role = some .leaf) (hrelay : h.p.flags.getLsbD 5 = false)
  (hcopy : copyFor t (h.p.flags.getLsbD 0) = .ok c) (he : tget c.down h.p.dst.toNat 0xFFFF = e)

include hrole in
/-- A leaf's entry names one lane, lost or not (R486, R412). -/
theorem leastLane_downLanes (e : Nat) : leastLane t (liveLanes t (downLanes t e)) = some e := by
  have hdown : downLanes t e = [e] := by rw [downLanes, hrole]
  have hlive : liveLanes t [e] = [e] := by
    unfold liveLanes
    cases hlost : laneLost t e <;> simp [hlost]
  rw [hdown, hlive, leastLane]
  rfl

include hcopy he
theorem tableEntry_some (hne : e ≠ 0xFFFF) (no r ctr : Nat) : tableEntry (·.down) no r ctr h.p t = (some e, t) := by
  rw [tableEntry, hcopy]
  dsimp only
  rw [he, if_neg hne]
theorem tableEntry_none (hnone : e = 0xFFFF) (no r ctr : Nat) :
    tableEntry (·.down) no r ctr h.p t = (none, countPort ctr (fun c => { c with noRoute := c.noRoute + 1 }) t) := by
  rw [tableEntry, hcopy]
  dsimp only
  rw [he, if_pos hnone]

include hrelay

/-- A packet with an entry, or one that has descended, goes by the table. -/
theorem routeRelay_byTable (htable : e ≠ 0xFFFF ∨ h.p.flags.getLsbD 1 = true) : routeRelay l .req h t =
    goByEntry l h (tableEntry (·.down) 0 (laneTile l) (laneCtr l) h.p t).1 (tableEntry (·.down) 0 (laneTile l) (laneCtr l) h.p t).2 := by
  have hbelow : (tget c.down h.p.dst.toNat 0xFFFF != 0xFFFF || h.p.flags.getLsbD 1) = true := by
    rw [he]
    simpa using htable
  unfold routeRelay
  dsimp only
  rw [if_neg (by simp only [hrelay, Bool.false_and, Bool.false_eq_true, not_false_eq_true]), if_neg (Bool.eq_false_iff.mp hrelay), hcopy]
  exact if_pos hbelow

include hrole

/-- The packet goes on to its entry's lane, marked as descending. -/
theorem routeRelay_down (hne : e ≠ 0xFFFF) (hlost : laneLost t e = false) :
    routeRelay l .req h t = crossTo (laneTile l) e .req false { h with p := { h.p with flags := h.p.flags ||| 2 } } t := by
  rw [routeRelay_byTable hrelay hcopy he (.inl hne), tableEntry_some hcopy he hne, goByEntry, Option.bind_some, leastLane_downLanes hrole]
  exact if_neg (Bool.eq_false_iff.mp hlost)

/-- Without an entry, or where a quadrant's loss has taken its lane, a descending packet is dropped and counted. -/
theorem routeRelay_dropped (hdrop : e = 0xFFFF ∧ h.p.flags.getLsbD 1 = true ∨ e ≠ 0xFFFF ∧ laneLost t e = true) :
    routeRelay l .req h t = countPort (laneCtr l) (fun c => { c with noRoute := c.noRoute + 1 }) t := by
  rcases hdrop with ⟨hnone, hdescends⟩ | ⟨hne, hlost⟩
  · rw [routeRelay_byTable hrelay hcopy he (.inr hdescends), tableEntry_none hcopy he hnone]
    rfl
  · rw [routeRelay_byTable hrelay hcopy he (.inl hne), tableEntry_some hcopy he hne, goByEntry, Option.bind_some, leastLane_downLanes hrole]
    exact if_pos hlost

end

end Sys2Proof.Machine
end

section
open Sys2Proof Sys2Proof.Machine

/-- Settles O31, clause by clause: the lane of the table's entry at the same router, queued or sent, or toward another one; the drops; and what is not taken. -/
theorem relaysForwardByTheTables : Obligations.RelaysForwardByTheTables := by
  unfold Obligations.RelaysForwardByTheTables
  refine fun s l p c => ⟨fun hfa hst hrole hhops hrelay hlost hnext hcopy => ?_, fun hfa hst hlost hhops vc hnext => ?_, fun vc h => ?_⟩
  · intro e q
    obtain ⟨t, ht, hexec⟩ := exec_relayForward_takes (vc := .req) hfa hst hlost hnext
    rw [if_neg hhops] at hexec
    have htrole : t.dev.role = some .leaf := ht.dev ▸ hrole
    have htcopy : copyFor t (p.flags.getLsbD 0) = .ok c := (ht.copyFor _).trans hcopy
    have hdown : e ≠ 0xFFFF → laneLost s e = false → exec (.relayForward l .req p) s = .next (crossTo (laneTile l) e .req false
        (entering t (16 + l.val) { p with hops := p.hops + 1, flags := p.flags ||| 2 }) t) := fun hne hlive =>
      hexec.trans (congrArg _ (routeRelay_down (h := entering t (16 + l.val) { p with hops := p.hops + 1 }) htrole hrelay htcopy rfl hne
        ((ht.laneLost e).trans hlive)))
    refine ⟨fun hne hsame hlive hdead => ?_, fun hne hsame hlive htree hc hx hr hq => ?_, fun port hne hother hlive hport => ?_, fun hdrop => ?_⟩
    · have hsent := queueAt_sendHeld_down (s := t) (k := e) ((ht.lanesKept.linkUp e).trans hdead)
        (entering t (16 + l.val) { p with hops := p.hops + 1, flags := p.flags ||| 2 })
      refine ⟨_, (hdown hne hlive).trans (congrArg _ (if_pos hsame)), ?_, fun key hkey => ?_⟩
      · refine (hsent (linkKey e)).trans ?_
        rw [if_pos rfl, ht.queueAt]
        rfl
      · refine (hsent key).trans ?_
        rw [if_neg hkey, ht.queueAt]
    · have hkey : queueAt t (linkKey e) = [] := (ht.queueAt _).trans hq
      obtain ⟨hseq, hreplay, hxoff⟩ := ht.sender e
      have hsent := sendHeld_alone (by simpa [isTrayLink] using htree) ((ht.lanesKept.carries e).trans hc) (hxoff.trans hx) (hreplay.trans hr) hkey (16 + l.val)
        { p with hops := p.hops + 1, flags := p.flags ||| 2 }
      rw [hseq] at hsent
      exact ⟨_, (hdown hne hlive).trans (congrArg _ (if_pos hsame)), hsent⟩
    · have hport' : adaptivePort t (laneTile l) (laneTile e) 0 = some port := by rwa [ht.adaptivePort]
      have hexec := hdown hne hlive
      rw [crossTo, if_neg hother, hopToward_req_some hport'] at hexec
      refine ⟨_, hexec, ?_, lastHeading_pushPort .., fun k hk => ?_⟩
      · refine (queueAt_pushPort ..).trans ?_
        rw [if_pos (by rfl), ht.queueAt]
        rfl
      · refine (queueAt_pushPort ..).trans ?_
        rw [if_neg (by exact hk), ht.queueAt]
    · have hexec' := hexec.trans (congrArg _ (routeRelay_dropped (h := entering t (16 + l.val) { p with hops := p.hops + 1 }) htrole hrelay htcopy
        rfl (by rwa [ht.laneLost])))
      refine ⟨_, hexec', (congrArg PortCtr.noRoute (ctr_countPort_self ..)).trans ?_, ht.queues⟩
      exact congrArg (· + 1) (ht.counts _).1
  · obtain ⟨t, ht, hexec⟩ := exec_relayForward_takes hfa hst hlost hnext
    rw [if_pos hhops] at hexec
    refine ⟨_, hexec, (congrArg PortCtr.hopDrops (ctr_countPort_self ..)).trans ?_, ht.queues⟩
    exact congrArg (· + 1) (ht.counts _).2
  · by_cases hoff : isFA s = false ∨ s.dev.st ≠ .relaying ∨ laneLost s l = true
    · exact exec_relayForward_off hoff vc p
    · obtain ⟨hfa, hst, hlost⟩ : isFA s = true ∧ s.dev.st = .relaying ∧ laneLost s l = false := by simpa using hoff
      exact exec_relayForward_nothing hfa (by simpa [hfa, hst, hlost] using h)

end
